-- ==== Sys2Proof/Word.lean ====
section
/-!
DEFINITION. The word types of the YLT-880: bytes, register words and the timestamp format TS96 of R5.
-/
namespace Sys2Proof

/-- One byte of a record, a register or host memory. -/
abbrev Byte := BitVec 8

/-- A 32-bit register word. -/
abbrev W32 := BitVec 32

/-- A 64-bit register word. -/
abbrev W64 := BitVec 64

/-- TS96 (R5): bits [95:24] the integer tick count since the epoch, bits [23:0] a fraction in units of 2^-24 Ts. -/
abbrev TS96 := BitVec 96

end Sys2Proof
end

