-- ==== Sys2Proof/Syntax.lean ====
section
/-!
DEFINITION. The commands of the block: one constructor of Instr per row of spec/opcode_table.json. Operands are what comes
from outside the block: values written, bytes that host memory returned, sample words, edges, flits and measurements
(log 1). Lengths that a type does not fix are checked in WellFormed.lean.
-/
namespace Sys2Proof

/-- Where a configuration command comes from: a queue pair (R350), or the item of a restore (R477). -/
inductive Origin where
  | host (qp : Fin 64)
  | restore
deriving DecidableEq, Repr

/-- Form of a CONSUMED doorbell (R346). -/
inductive ConsumedWrite where
  | whole (v : W64)
  | low (v : W32)
  | high (v : W32)
  | other
deriving DecidableEq, Repr

/-- What the starter and the loader find at boot (R409, R410, R464, R483, R490). -/
structure BootChecks where
  /-- first die that differs, 0xFF for serial or record CRC (R483) -/
  idn : Option Byte
  /-- the selected set passes, the fallback or previous set passes -/
  setOk : Bool
  fallbackOk : Bool
deriving DecidableEq, Repr

/-- One averaged telemetry update of the PMC (R418): per rail voltage, current, power; VMAIN, its current and power, VSTBY;
joules drawn since the last update; VMAIN and VSTBY as the always-on domain measures them (R428). -/
structure Telemetry where
  rails : List (BitVec 16 × BitVec 16 × BitVec 16)
  vmain : BitVec 16
  imain : BitVec 16
  pin : BitVec 16
  vstby : BitVec 16
  joules : Nat
  mgVmain : BitVec 16
  mgVstby : BitVec 16
deriving DecidableEq, Repr

/-- What a proofing step found (R74, R109, R122, R146): per core the band entries that pass verification, lanes whose fit fails, the
converter-to-tile part of each TAC offset, and the coarse and fine delay that the skew calibration gives each sampling output. -/
structure ProofData where
  bandPass : List (List Nat)
  retired : List (Fin 8 × Fin 41)
  tacOffsets : List W32
  delays : List (Nat × Int)
deriving DecidableEq, Repr

/-- A lane-table entry (R103): offset in 1/64 LSB, gain in Q2.22, gains of the first four stages, dither-cancellation gain. -/
structure LaneEntry where
  offset : Int
  gain : Int
  stageGain : List Int
  ditherGain : Int
deriving DecidableEq, Repr

/-- One of the first five lane checks of R113 with what the checking hardware saw: parity errors of two consecutive words, the last
eight raw codes, residues outside the range in the last eight samples, the gain (Q2.22) and the offset (1/64 LSB) measured over
65,536 lc. -/
inductive LaneCheck where
  | parity (before last : Bool)
  | stuck (codes : List Int)
  | residue (outside : List Bool)
  | ditherGain (measured : Int)
  | ditherOffset (measured : Int)
deriving DecidableEq, Repr

/-- A run of consecutive phase samples of a loop on one side of its window (R78): how many, and the |phase error| in fs that is nearest
to the window's edge, the largest of a run inside and the smallest of a run outside. -/
structure PhaseRun where
  core : Fin 4
  samples : Nat
  extremeFs : Nat
deriving DecidableEq, Repr

/-- What the reference monitor saw (R89): conditioned edges missing in a row, or the frequency of a 1 ms gate in mHz. -/
inductive RefFault where
  | missing (edges : Nat)
  | frequency (milliHz : Nat)
deriving DecidableEq, Repr

/-- What a read of DRAM found (R239 to R242). A sample is named by its channel, its number and how many APPLYs ago it was numbered
(R100); `other` is uncorrectable data of another kind, such as a felt's bins. -/
inductive ScrubResult where
  | clean
  | corrected
  | sample (channel : Fin 8) (sn : Nat) (back : Nat)
  | metadata
  | metadataLost (seq : Nat)
  | other
deriving DecidableEq, Repr

/-- A scrub read: the DRAM address (R26), the row that it names on its stack, and what it found. -/
structure ScrubRead where
  addr : Nat
  row : W32
  found : ScrubResult
deriving DecidableEq, Repr

/-- A unit that reads DRAM, and what the read found (R239). -/
structure UnitRead (n : Nat) where
  unit : Fin n
  ecc : ScrubResult
deriving DecidableEq, Repr

/-- A slice word's samples as they enter the cartridge FIR (R96), the bins of the channel felt whose counters have a parity error in its
lc (R281), and the entries to which dither correlation has moved those of in-service lanes by then (R103). -/
structure SliceIn where
  codes : List Int
  parity : List Nat
  tracked : List (Fin 41 × LaneEntry) := []
deriving DecidableEq, Repr

/-- What the hardware of a SPECTRAL instance meets with a spectrum: its read of engine scratch (R239), and the bins of the spectral felt
whose counters have a parity error (R281). -/
structure SpectrumReads where
  ecc : ScrubResult
  parity : List Nat
deriving DecidableEq, Repr

/-- What is wrong with an engine (R306). -/
inductive EngineError where
  | residue | memory | late | corrected
deriving DecidableEq, Repr

/-- An engine and its error (R306). -/
structure EngineFault where
  engine : Fin 256
  error : EngineError
deriving DecidableEq, Repr

/-- A received flit: the link, its 64 bytes, and the arrival stamp (R384, R388). -/
structure Rx where
  link : Fin 4
  flit : List Byte
  arrival : TS96
deriving DecidableEq, Repr

/-- The commands. -/
inductive Instr where
  -- queue commands (R356)
  | nop (o : Origin)
  | tagStatus (o : Origin)
  | setMemory (o : Origin)
  | setTu (o : Origin) (block : List Byte)
  | setAs (o : Origin) (block : List Byte)
  | setRed (o : Origin) (block : List Byte)
  | setDdc (o : Origin) (block fir : List Byte)
  | setFelt (o : Origin) (block : List Byte)
  | setMask (o : Origin) (block : List Byte)
  | setService (o : Origin) (block : List Byte)
  | setBrim (o : Origin) (block : List Byte)
  | arm (o : Origin)
  | stop (o : Origin)
  | force (o : Origin)
  | retroCapture (o : Origin)
  | epochSet (o : Origin)
  | timerSet (o : Origin)
  | timerRead (o : Origin)
  | bake (o : Origin)
  | readSegments (o : Origin)
  | readIndex (o : Origin)
  | streamOpen (o : Origin)
  | streamClose (o : Origin)
  | cfgSave (o : Origin)
  | cfgLoad (o : Origin)
  | updDownload (o : Origin) (source : List Byte)
  | updVerify (o : Origin)
  | updActivate (o : Origin)
  | updConfirm (o : Origin)
  | updAbort (o : Origin)
  | accChallenge (o : Origin)
  | accRespond (o : Origin)
  | accPassword (o : Origin) (block : List Byte)
  | accSetPassword (o : Origin) (block : List Byte)
  | accClose (o : Origin)
  -- register and doorbell accesses
  | apply (value : W32)
  | urgentStop (value : W32)
  | sqTail (n : Fin 64) (bytes : Nat) (value : W64)
  | cqHead (n : Fin 64) (bytes : Nat) (value : W64)
  | evqHead (bytes : Nat) (value : W64)
  | consumed (s : Fin 64) (w : ConsumedWrite)
  | qpEnable (n : Fin 64) (cfg : W32)
  | qpDisable (n : Fin 64) (cfg : W32)
  | qpDrained (n : Fin 64)
  | evqEnable (cfg : W32)
  | deadClr (n : Fin 8) (value : W32)
  | marginClr (value : W32)
  | bandTableWrite (off : Nat) (wide : Bool) (value : W64)
  | evtMapWrite (off : Nat) (wide : Bool) (value : W64)
  | registerWrite (off : Nat) (wide : Bool) (value : W64)
  | lowHalfRead (off : Nat)
  | highHalfRead (off : Nat)
  | tsNowRead (wide : Bool)
  | badAccess (write : Bool)
  -- host-interface engine
  | descriptorFetch (n : Fin 64) (desc : List Byte)
  | transferComplete (n : Fin 64) (tag : W32) (ecc : ScrubResult)
  | hostMem (n : Fin 64) (tag : Option W32) (cause : Fin 4)
  | hostReadRetry (n : Fin 64)
  | msixSend (v : Fin 64)
  | streamIrqTimeout (s : Fin 64)
  | eventRecordWrite (source : Fin 256)
  | streamTransfer (s : Fin 64) (ecc : ScrubResult)
  | streamEnd (s : Fin 64)
  -- power, boot and health
  | perstAssert
  | perstRelease (checks : BootChecks)
  | loaderDone (checks : BootChecks)
  | pmcFirmwareStart
  | mainFirmwareStart (storeOk : Bool)
  | ready
  | bootRestoreDone
  | vstbyValid
  | vstbyLoss
  | vmainValid
  | vmainLow
  | mainRailsOn (present : BitVec 8)
  | railGroupReady
  | phaseShed (rail : Fin 22) (stage : Fin 4)
  | loopB (rail : Fin 22)
  | railFault (rail : Fin 22) (voltage current : BitVec 16)
  | telemetryUpdate (t : Telemetry)
  | tmaxEvaluate (temps : List (BitVec 16))
  | thermSensor (n : Fin 64) (reading : BitVec 16)
  | thermTrip
  | tripHoldoffEnd
  | mainInhibit (on : Bool)
  | mgCauseClear (value : Byte)
  | mgWrite (bytes : List Byte)
  | hotReset
  | flr
  | busMasterDisable
  | busMasterEnable
  | linkRecovery
  | hifLink (gen width : Nat)
  | lockstepError
  | ccSramEcc
  | watchdog
  | ccRestart (ok0 ok1 : Bool)
  | pmcRestart (cause : Fin 3)
  -- clocks
  | lockDeclared (run : PhaseRun)
  | unlockDeclared (run : PhaseRun) (both : Bool)
  | standbyDrift
  | standbyReady
  | reband (core : Fin 4) (pass : List Nat)
  | synfReturn
  | refLoss (seen : RefFault)
  | coastSteer
  | refQualify
  | refStartTimeout
  | refReturn (delta : Int)
  | stepInstant
  -- slices and cartridges
  | proofingStepEnd (d : ProofData)
  | proofFail
  | sliceWord (n : Fin 8) (x : SliceIn)
  | rotationStep (n : Fin 8) (meanSquare : Rat) (fit : LaneEntry)
  | laneCheckFail (n : Fin 8) (lane : Fin 41) (check : LaneCheck) (second : Option (Fin 41 × LaneCheck))
  | blindEstimatorUpdate (n : Fin 8) (quiet : Bool) (taps : List (List Int))
  | ovrEpisodeEnd (n : Fin 8)
  | cartridgeFirDerived (n : Fin 8) (up : List Bool)
  | cartridgeInsert (n : Fin 8)
  | standbyMating (n : Fin 8)
  | cartridgeIdRead (n : Fin 8) (factory wearA wearB : List Byte)
  | cartridgeReadTimeout (n : Fin 8)
  | cartridgeRemove (n : Fin 8)
  | cartridgeOvercurrent (n : Fin 8)
  | wearRecordWrite (n : Fin 8) (ok : Bool)
  -- timing inputs and timers
  | tacEdge (n : Fin 8) (falling : Bool) (coarse : Nat) (fine : Fin 4096) (calEdge : Bool)
  | intervalWinExpiry (t : Fin 8)
  | tacIdleCalStart (n : Fin 8) (temp : BitVec 16)
  | tacCalRunEnd (n : Fin 8) (hist : List Nat) (temp : BitVec 16)
  | epochCommit
  -- acquisition
  | armStart (a : Fin 4)
  | triggerUnitFire (u : Fin 16)
  | sequencerDecision (a : Fin 4)
  | prefillDone (a : Fin 4)
  | autoTimeout (a : Fin 4)
  | segmentEnd (a : Fin 4)
  | holdoffEnd (a : Fin 4)
  | segmentComplete (seq : Nat)
  | trigoutPulse (o : Fin 2)
  | maskStop (m : Fin 64)
  | violEpisodeEnd (m : Fin 64)
  | maskRasterDone (m : Fin 64)
  | maskLimitError (m : Fin 64) (column : Nat)
  | maskLimitReload (m : Fin 64)
  -- felts, reductions, chains
  | feltClearDone (f : Fin 16)
  | feltSpill (f : Fin 16)
  | agingInstant (f : Fin 16)
  | agingSweepDone (f : Fin 16)
  | bakeFlushDone (f : Fin 16)
  | bakeCopyDone (f : UnitRead 16)
  | bakeCycleEnd (f : Fin 16)
  | bankRecovery (n : Fin 8)
  | diagnosticSpanEnd (n : Fin 8)
  | bankSelftestStart (n : Fin 8)
  | chainRecovery (n : Fin 8)
  -- engines and services
  | serviceSwitch (i : Fin 16)
  | spectrumDeliver (i : Fin 8) (hop : Nat) (r : SpectrumReads)
  | engineFail (e : EngineFault)
  | engMigrate (e : Fin 256)
  | reserveRotation (pair : Fin 8)
  | selftestDone (pair : Fin 8) (failed : Option (Fin 3))
  | measureRecord (i : UnitRead 4)
  | averageAdd (i : UnitRead 4)
  | scrub (r : ScrubRead)
  | scrubRepair (stack : Fin 4) (lane : Bool) (index : Nat)
  | istSerdes (lane : Fin 32) (vertical : Nat) (horizontal : Nat)
  | istSyns (fs : Nat)
  | mramScrub (bad : Option Nat)
  | istStarved (item : Fin 8)
  | lifeLogWrite (hours : W32) (avgTj tjPeak : BitVec 16) (hotSeconds : W32)
  -- Brim ring
  | brimLinkUp (p : Fin 4)
  | brimLinkDown (p : Fin 4) (abandoned : Bool)
  | flitRetransmit (p : Fin 4) (index : Nat)
  | flitAbandon (p : Fin 4)
  | triggerMessage (rx : Rx)
  | triggerPresent
  | stopMessage (rx : Rx)
  | epochMessage (rx : Rx)
  | statusMessage (rx : Rx)
  | statusSend
  | delayReq (rx : Rx)
  | delayResp (rx : Rx)
  | delayReqSend (p : Fin 4)
  | discover (rx : Rx)
  | discoverSend
  | ringFormed (sites : List (List Byte × Bool))
  | peerStale (n : Fin 64)
  | mgmtMessage (rx : Rx)
  | updateMessage (rx : Rx)
  | updateForward (west : Bool)
  | updateResumeSend
  -- update, configuration, access
  | updVerifyDone
  | upperSwitchDone
  | updateSample
  | trialDeadline
  | revertSample
  | cfgSaveDone (ok : Bool)
  | nonceExpiry (level : Fin 2)
  | authDelayEnd (level : Fin 2)
  | diagnosticWindowWrite (off : Nat) (wide : Bool) (value : W64)
  -- rows added after the first table
  | linkL0
  | brimLinkTraining (p : Fin 4)
  | cfgMismatchClear
  | staleCal (n : Fin 8) (temp : BitVec 16)
  | frequencyGateEmpty (t : Fin 8)
  | trigoutPulseEnd (o : Fin 2)
  | tckEdge (tms tdi : Bool)
  | trstAssert
  | mgRead (first : Bool)
deriving DecidableEq, Repr

end Sys2Proof
end

