-- ==== Sys2Proof/Decode.lean ====
section
/-!
DEFINITION. The decoder of table words. No row of spec/opcode_table.json gives a command any bits ("fields" is empty in
every row), so no word spells a command and the answer is always none (log 5).
-/
namespace Sys2Proof

/-- The command that a table word spells: none, since the table gives no row any bits. -/
def decodeTableWord (_nbits _w : Nat) : Option Instr := none

end Sys2Proof
end

