-- ==== Sys2Proof/Config.lean ====
section
/-!
DEFINITION. What the spec leaves open, as constants without a body: fused identity, factory characterisation and keys
(log 9), the values of stored tables (log 12), hash and cipher results (log 9), and free values (log 7).
Nothing in Lean can evaluate them, so no statement can rest on one of their values.
-/
namespace Sys2Proof.Config

/-! Factory characterisation (R72, R146, R482) and fused identity (R435, R482, R484). -/
/-- starting values of the band tables, by the CALDEF image that holds them, none for the factory's (R72, R442, R456) -/
opaque bandCentre : (table : Option (List Byte)) → (core entry : Nat) → W32
opaque bandKvco : (table : Option (List Byte)) → (core entry : Nat) → BitVec 16
opaque bandCap : (table : Option (List Byte)) → (core entry : Nat) → Byte
opaque bandValid : (table : Option (List Byte)) → (core entry : Nat) → Bool
opaque laneOffset : (slice lane : Nat) → Int
opaque laneGain : (slice lane : Nat) → Int
opaque laneStage : (slice lane stage : Nat) → Int
opaque laneDither : (slice lane : Nat) → Int
opaque posSkew : (slice pos tap : Nat) → Int
opaque posEq : (slice pos tap : Nat) → Int
opaque fracDelay : (slice : Nat) → Int
/-- land-to-converter delay of a TAC in fs (R146) -/
opaque landDelay : (tac : Nat) → W32
opaque serialByte : Nat → Byte
opaque build : W32
opaque pciId : W32
opaque hwRev : Byte
opaque options : Byte
opaque dieLot : (die : Nat) → W64
opaque dieWafer : (die : Nat) → BitVec 5
opaque dieX : (die : Nat) → Byte
opaque dieY : (die : Nat) → Byte
opaque dieRev : (die : Nat) → BitVec 4
opaque jedec : BitVec 11
opaque factoryImage : (part : Nat) → List Byte
opaque factoryVersion : (part : Nat) → W32
/-- header and manifest of the factory set (R443) -/
opaque factoryManifest : List Byte
/-- lengths of the boundary-scan registers, which the spec does not give (R435) -/
opaque scanLength : (die : Nat) → Nat

/-! Keys and the results of the hash and cipher engines (R444 to R447, R486, R487). -/
opaque levelKey : (level : Nat) → List Byte
opaque sha384 : List Byte → List Byte
opaque passwordHash : (salt password : List Byte) → List Byte
opaque hmac : (key message : List Byte) → List Byte
opaque signatureOk : (key : Nat) → (block signature : List Byte) → Bool
opaque gcmOpen : (key : Nat) → (iv aad tag cipher : List Byte) → Option (List Byte)
/-- EVENT_LAT and engine costs that a new SVC image declares (R454) -/
opaque svcEventLat : (image : List Byte) → (inst : Nat) → Nat
opaque svcEngines : (image : List Byte) → (inst : Nat) → Nat
/-- whether a new CTRL can read the old settings slot (R465) -/
opaque canConvert : (version : W32) → Bool

/-- where a word of a slice's region of the diagnostic window lies (R343, R485): table, entry, field -/
opaque diagPlace : (off : Nat) → Nat × Nat × Nat
/-- where a word of the regions of synthesiser outputs and of stored retirements lies (R343): core, output and field; kind and index -/
opaque diagOutput : (off : Nat) → Fin 4 × Fin 16 × Nat
opaque diagStore : (off : Nat) → Nat × Nat
/-- the word that stands for a position without a lane in the lane map (R343) -/
opaque noLaneWord : W32
/-- pin levels that a boundary-scan register captures (R435) -/
opaque pinLevel : (ctr die cell : Nat) → Bool

/-- tap of the least-squares inverse of a cartridge's RESPONSE up to a frequency in Hz, at a sample rate in mHz, referenced to tap 31
(R107) -/
opaque inverseTap : (response : List Byte) → (limitHz fsMilli tap : Nat) → Rat
/-- delay in fs that a move of one tap of the position table makes (R104) -/
opaque tapDelayFs : (old new : Int) → Rat
/-- the 16-tap band-limited interpolation of a sample from its sixteen neighbours (R115) -/
opaque interpolated : List Int → Int

/-! Free values: the argument is the state's counter, or what the value depends on. -/
opaque freeBit : Nat → Bool
opaque freeByte : Nat → Byte
opaque freeInt : Nat → Int
opaque freeBlob : Nat → List Byte
opaque freeWord : Nat → W64
/-- order in which the device takes free engines for an instance -/
opaque engineKey : (ctr engine : Nat) → Nat
/-- severity of a summary of events whose severities differ (R369) -/
opaque mixedSeverity : (kept new : Byte) → Byte
/-- life used up against a limit of zero (R59) -/
opaque lifeByZero : Rat → Rat
/-- coefficient of the 16-tap fractional-delay filter of a slice (R175): fit of PF4, delay in 2^-16 Ts, tap -/
opaque reconTap : (slice fit frac tap : Nat) → Rat
/-- cosine and sine of the NCO, with 18 bits of amplitude, by the top 20 bits of the phase (R249) -/
opaque cosine : (phase : Nat) → Rat
opaque sine : (phase : Nat) → Rat
/-- taps of a preset's 23-tap half-band filters, first and second (R245) -/
opaque halfBand : (preset stage tap : Nat) → Rat
/-- coefficients of a preset's default FIR set in Q1.16, by the CALDEF image that holds it, none for the factory's (R251, R456) -/
opaque defaultFir : (table : Option (List Byte)) → (preset tap : Nat) → Int
/-- whether a chain's output that lies between two values of its word goes to the upper one (R254) -/
opaque ddcRoundsUp : Rat → Bool
/-- linear power of bin j relative to a full-scale sine, from the 8N inputs of a window in LSB (R316, R317) -/
opaque binPower : (n : Nat) → (complex : Bool) → (window : List (Rat × Rat)) → (j : Nat) → Rat
/-- an engine computes a bin of an instance's spectra (R321) -/
opaque computes : (inst engine bin : Nat) → Bool
/-- 10·log10 of a linear power in units of 1/64 dB (R317) -/
opaque powerDb : Rat → Int
/-- 10^(−g / 20,000) for a gain g in 0.001 dB (R328) -/
opaque gainFactor : Int → Rat
/-- conversion of an exact value to IEEE 754 binary32 (R328) -/
opaque toFloat32 : Rat → W32
/-- square root as a float32 word (R328) -/
opaque sqrtFloat32 : Rat → W32
/-- exact rational value of a float32 word -/
opaque ofFloat32 : W32 → Rat
/-- sample i of a segment resampled with the reconstruction of R175 (R331 FINE) -/
opaque resampled : (codes : List Int) → (frac : Nat) → (i : Nat) → Int

end Sys2Proof.Config
end

