-- ==== Sys2Proof/Machine/State.lean ====
section
/-!
DEFINITION. The state of the YLT-880 as plain data, block by block, with the reason types and the state at reset.
Registers that the spec computes from other state (SYS_ADMITk, HIF_LINK.BUDGET, INTERP_COUNT and the like) are not kept
twice: Machine/Flags.lean computes them. Sample numbers, counts and lane-clock counts are natural numbers; words that
software sees whole are bit vectors.
-/
namespace Sys2Proof.Machine

/-! ### Host interface (chapter 11) -/

/-- What a completion says (R352); ATTEMPT, SQ_HEAD and PHASE are added when it is written. -/
structure Comp where
  tag : W32
  status : Nat
  detail : Byte
  opcode : BitVec 16
  result : List Byte
deriving DecidableEq, Repr

/-- State of a tag in the history (R355, the codes 1 to 3 of TAG_STATUS in R356). -/
inductive TagState where
  | queued | committed | done
deriving DecidableEq, Repr

/-- One entry of the history of the last 1,024 tags of a queue pair (R355). -/
structure TagEntry where
  tag : W32
  state : TagState
  attempt : Nat
  comp : Option Comp
  /-- SQ_HEAD and PHASE of the completion as last written (R352) -/
  written : Option (Nat × Bool)
deriving DecidableEq, Repr

/-- The part of a segment's image that a READ_SEGMENTS asks for (R215, R365). -/
structure ImageReq where
  first : Nat
  count : Nat
  channels : Byte
  wide : Bool
  side : Bool
deriving DecidableEq, Repr

/-- A transfer that a command runs after it commits (R350), with what it delivers when it completes. -/
inductive Xfer where
  /-- Bytes written to the destination when the transfer completes. -/
  | toHost (addr : Nat) (bytes : List Byte)
  /-- READ_SEGMENTS (R215): samples of a segment from `first` on, of some channels, in a format, with the side data or without; the
  segment is held as a reader until the end. -/
  | segment (seq : Nat) (addr : Nat) (image : ImageReq) (release : Bool)
  /-- BAKE (R286): its completion is posted by the end of the bake copy. -/
  | bake (felt : Nat) (addr : Nat)
  /-- UPD_DOWNLOAD (R450): the chunk to stage. -/
  | stage (offset : Nat) (bytes : List Byte)
  /-- A command whose completion another step posts (SET_FELT, SET_MASK, FORCE, CFG_SAVE, UPD_VERIFY, UPD_ACTIVATE);
  `key` is the unit concerned, for FORCE the mask of sequencers that have not classified it yet. -/
  | wait (key : Nat)
deriving DecidableEq, Repr

/-- A fetched descriptor (R350, R351). `xfer` is its transfer once it has committed. -/
structure Fetched where
  desc : List Byte
  tag : W32
  opcode : BitVec 16
  fence : Bool
  committed : Bool
  xfer : Option Xfer
  result : List Byte
deriving DecidableEq, Repr

/-- State of a queue pair (R347). -/
inductive QpState where
  | disabled | running | draining | error
deriving DecidableEq, Repr

/-- One queue pair (R345 to R350, R355). -/
structure QPair where
  sqBase : W64
  cqBase : W64
  sqLog2 : Nat
  cqLog2 : Nat
  vector : BitVec 6
  irqEn : Bool
  enable : Bool
  state : QpState
  sqHead : Nat
  sqTail : Nat
  cqTail : Nat
  /-- completions written that the host has not released with CQ_HEAD -/
  unreleased : Nat
  phase : Bool
  errCause : Byte
  fetched : List Fetched
  /-- completions that wait because no DMA is possible (R339), oldest first -/
  waiting : List Comp
  history : List TagEntry
  /-- times in a row that the round-robin passed this queue pair over (R350) -/
  passed : Nat
deriving DecidableEq, Repr

def QPair.reset : QPair :=
  { sqBase := 0, cqBase := 0, sqLog2 := 4, cqLog2 := 4, vector := 0, irqEn := false, enable := false,
    state := .disabled, sqHead := 0, sqTail := 0, cqTail := 0, unreleased := 0, phase := true, errCause := 0,
    fetched := [], waiting := [], history := [], passed := 0 }

/-- An event as raised: everything an event record carries but SEQ and the phase (R368), and the vector and IRQ in
force when it was raised (R514). -/
structure Event where
  source : Byte
  severity : Byte
  ts : TS96
  data : List Byte
  vector : BitVec 6
  irq : Bool
deriving DecidableEq, Repr

/-- What the device keeps for one event source (R367, R369, R518). -/
structure EvSource where
  map : Byte
  waiting : Option Event
  /-- the waiting event is a boot report held until the ring and the source are both enabled (R518) -/
  held : Bool
  pending : Nat
  firstTs : TS96
  lastTs : TS96
  /-- severity of the coalesced events -/
  sumSev : Byte
deriving DecidableEq, Repr

def EvSource.reset : EvSource :=
  { map := 0, waiting := none, held := false, pending := 0, firstTs := 0, lastTs := 0, sumSev := 0 }

/-- The event ring (R367 to R369). -/
structure EvRing where
  base : W64
  log2 : Nat
  enable : Bool
  prod : W32
  /-- records released by EVQ_HEAD since ENABLE -/
  released : W32
  overflow : Bool
  src : Vector EvSource 256
deriving DecidableEq, Repr

def EvRing.reset : EvRing :=
  { base := 0, log2 := 10, enable := false, prod := 0, released := 0, overflow := false,
    src := Vector.replicate 256 EvSource.reset }

/-- One MSI-X vector: its table entry (R511), MIN_GAP (R370), whether it is pending and when it last sent. -/
structure MsixVec where
  addr : W64
  data : W32
  ctrl : W32
  minGap : BitVec 16
  pending : Bool
  lastSent : Option Nat
deriving DecidableEq, Repr

def MsixVec.reset : MsixVec := { addr := 0, data := 0, ctrl := 1, minGap := 0, pending := false, lastSent := none }

/-- The half latch of R342, which holds either a value latched by a low-half read or a held low-half write. -/
inductive HalfLatch where
  | empty
  | read (off : Nat) (high : W32)
  | write (off : Nat) (low : W32)
deriving DecidableEq, Repr

/-- What a stream carries (R361 KIND). -/
inductive StreamKind where
  | channel | reduction | segment | ddc | spectrum | measure | average | timer
deriving DecidableEq, Repr

/-- A unit in a stream buffer (R234): a record without its VALID word, which is written when the record reaches the
ring, and the place in the record where VALID stands. `weight` and `ts` are what a gap would count with it: samples not
delivered, and the TS96 of the first. For a segment (R236) `weight` counts the image bytes delivered so far. -/
structure StreamUnit where
  body : List Byte
  validAt : Nat
  weight : Nat
  ts : TS96
  /-- a segment unit names its segment: it is delivered part by part (R236) -/
  seg : Option Nat
deriving DecidableEq, Repr

/-- A gap that is open in a stream (R234, R235). -/
structure Gap where
  start : TS96
  length : Nat
  cause : Nat
deriving DecidableEq, Repr

/-- An open stream (R233, R363 to R366). -/
structure Stream where
  kind : StreamKind
  source : Nat
  lane : Nat
  wide : Bool
  vector : BitVec 6
  irq : Bool
  bufBytes : Nat
  tailAddr : Nat
  irqBytes : Nat
  irqUsec : Nat
  ringLog2 : Nat
  ringAddr : Nat
  first : Nat
  /-- N of the lane at STREAM_OPEN, for a REDUCTION stream (R498) -/
  laneN : Nat
  /-- units waiting in the DRAM buffer, oldest first -/
  buf : List StreamUnit
  gap : Option Gap
  tail : W64
  consumed : W64
  /-- a CONSUMED low half held for its high half (R346) -/
  held : Option W32
  unsignalled : Nat
  firstUnsignalledAt : Option Nat
  /-- draining after STREAM_CLOSE, with the CAUSE that END will carry (R366) -/
  closing : Option Nat
  seq : Nat
  /-- open record of a grouping kind: REDUCTION group or DDC frame under construction -/
  group : List Byte
  groupCount : Nat
  groupTs : TS96
  groupAt : Nat
  /-- first sample that the outputs of a DDC frame under construction depend on (R266) -/
  groupFrom : Nat
  /-- finished DDC frames whose last block has not ended, oldest first, with the samples that QUAL covers (R101, R266) -/
  waiting : List (StreamUnit × Nat × Nat)
  /-- changes of the chain that a DDC stream's frames have told (R266) -/
  told : Nat
deriving DecidableEq, Repr

/-- Function-wide host-interface state (R339, R344). -/
structure Hif where
  cmdEn : Bool
  torn : Bool
  badAccess : Bool
  cmdPaused : Bool
  urgentSeen : Bool
  hostMemErr : Bool
  linkGen : Nat
  linkWidth : Nat
  linkUp : Bool
  linkRecovery : Bool
  busMaster : Bool
  msixEnable : Bool
  msixMask : Bool
  latch : HalfLatch
  qps : Vector QPair 64
  ev : EvRing
  vecs : Vector MsixVec 64
  streams : Vector (Option Stream) 64
  /-- queue pair that the round-robin served last (R350) -/
  lastQp : Nat
  /-- MSI-X messages sent, newest first: the model's record of the bus -/
  sent : List (W64 × W32)
  /-- host-memory reads that have failed once or twice and are being retried (R338): queue pair and failures -/
  retries : List (Nat × Nat)
deriving DecidableEq, Repr

def Hif.reset : Hif :=
  { cmdEn := false, torn := false, badAccess := false, cmdPaused := false, urgentSeen := false, hostMemErr := false,
    linkGen := 0, linkWidth := 0, linkUp := false, linkRecovery := false, busMaster := false,
    msixEnable := false, msixMask := false, latch := .empty, qps := Vector.replicate 64 QPair.reset,
    ev := EvRing.reset, vecs := Vector.replicate 64 MsixVec.reset, streams := Vector.replicate 64 none,
    lastQp := 63, sent := [], retries := [] }

/-! ### Power, boot and health (chapters 2 and 13) -/

/-- One of the 22 rails (R414, R416, R419). -/
structure Rail where
  voltage : BitVec 16
  current : BitVec 16
  power : BitVec 16
  shedStages : List Nat
  loopB : Bool
deriving DecidableEq, Repr

/-- Main rails held off after a trip or a rail fault (R425). -/
structure TripHold where
  /-- the bit of SYS_MG_CAUSE that it set -/
  cause : BitVec 4
  elapsed : Bool
  restart : Bool
deriving DecidableEq, Repr

/-- Supplies, rails and the always-on block (R44 to R48, R57, R414 to R419, R425 to R429). -/
structure Power where
  vstbyValid : Bool
  vmainValid : Bool
  railsOn : Bool
  railGroup : Nat
  perst : Bool
  /-- always-on cycle at which PERST# was asserted last (R425) -/
  perstAt : Nat
  mgCause : BitVec 4
  mainInhibit : Bool
  trip : Option TripHold
  standbyMatings : Vector Byte 8
  rails : Vector Rail 22
  vmainMv : BitVec 16
  imain : BitVec 16
  pin : BitVec 16
  vstbyMv : BitVec 16
  energy : W64
  mgVmain : BitVec 16
  mgVstby : BitVec 16
  mgPointer : Byte
  /-- item latched by a management read (R427): its first offset and its bytes -/
  mgLatch : Option (Nat × List Byte)
deriving DecidableEq, Repr

def Rail.reset : Rail := { voltage := 0, current := 0, power := 0, shedStages := [], loopB := false }

def Power.reset : Power :=
  { vstbyValid := true, vmainValid := true, railsOn := true, railGroup := 10, perst := false, perstAt := 0, mgCause := 0,
    mainInhibit := false, trip := none, standbyMatings := Vector.replicate 8 0, rails := Vector.replicate 22 Rail.reset,
    vmainMv := 0, imain := 0, pin := 0, vstbyMv := 0, energy := 0, mgVmain := 0, mgVstby := 0, mgPointer := 0,
    mgLatch := none }

/-- Boot stage (R409, R410, R513). -/
inductive Stage where
  | starter | loader | main | rescue
deriving DecidableEq, Repr

/-- Cause of a control-complex or PMC restart (R411), coded as R513 and R519 list them. -/
inductive RestartCause where
  | lockstep | sramEcc | watchdog
deriving DecidableEq, Repr

/-- Control complex and PMC (R344, R408 to R413, R513). -/
structure Boot where
  stage : Stage
  lastRestart : Option RestartCause
  singleCore : Bool
  fencedCore : Bool
  ccFailed : Bool
  pmcRestarts : Byte
  ready : Bool
  /-- READY has come since the last reset; until then configuration requests get Retry Status, so no BAR can be reached (R46) -/
  reached : Bool
  ccRestarts : BitVec 16
  pmcRunning : Bool
  mainRunning : Bool
  restarting : Option RestartCause
  coreFails : Vector Nat 2
  restartTimes : List Nat
  /-- IDN_MODULE.MISMATCH (R484) -/
  idnMismatch : Bool
deriving DecidableEq, Repr

def Boot.reset : Boot :=
  { stage := .starter, lastRestart := none, singleCore := false, fencedCore := false, ccFailed := false,
    pmcRestarts := 0, ready := false, reached := false, ccRestarts := 0, pmcRunning := false, mainRunning := false,
    restarting := none, coreFails := Vector.replicate 2 0, restartTimes := [], idnMismatch := false }

/-- Thermal policy state (R423). -/
inductive Policy where
  | normal | engine | felt
deriving DecidableEq, Repr

/-- A temperature sensor (R420, R421, R426); TEMP in 0.01 degrees. -/
structure Sensor where
  temp : BitVec 16
  excluded : Bool
  /-- evaluations in a row that found it more than 15 °C from the median of its die (R421) -/
  offMs : Nat
deriving DecidableEq, Repr

/-- Thermal policy, in-service test and life log (R420 to R432, R437). -/
structure Health where
  sensors : Vector Sensor 64
  policy : Policy
  engLevel : Nat
  /-- FELT_RATE code 0 to 3 -/
  feltRate : Nat
  hottest : Nat
  tmax : BitVec 16
  msSinceChange : Nat
  quietMs : Nat
  warnArmed : Bool
  istStarved : Byte
  istFailed : Byte
  istCycles : BitVec 16
  /-- items completed since the last IST_CYCLE, and its always-on cycle (R432) -/
  istDone : Byte
  istCycleAt : Option Nat
  /-- parts of each item done since the item completed: slices, TACs, pairs of clusters, banks, lanes (R431) -/
  istParts : Vector (BitVec 32) 8
  powerHours : W32
  avgTj : BitVec 16
  tjPeak : BitVec 16
  hotSeconds : W32
  trips : BitVec 16
  lifeWarnHours : Nat
  /-- scrub repairs made (R431): stack, whether a data lane, row or lane -/
  repairs : List (Nat × Bool × Nat)
deriving DecidableEq, Repr

def Sensor.reset : Sensor := { temp := 0, excluded := false, offMs := 0 }

def Health.reset : Health :=
  { sensors := Vector.replicate 64 Sensor.reset, policy := .normal, engLevel := 8, feltRate := 0, hottest := 0,
    tmax := 0, msSinceChange := 0, quietMs := 0, warnArmed := true, istStarved := 0, istFailed := 0, istCycles := 0,
    istDone := 0, istCycleAt := none, istParts := Vector.replicate 8 0, powerHours := 0, avgTj := 0, tjPeak := 0, hotSeconds := 0, trips := 0,
    lifeWarnHours := 0, repairs := [] }

/-- Controller state of a test access port (R435; IEEE 1149.1). -/
inductive TapState where
  | testLogicReset | runTestIdle
  | selectDr | captureDr | shiftDr | exit1Dr | pauseDr | exit2Dr | updateDr
  | selectIr | captureIr | shiftIr | exit1Ir | pauseIr | exit2Ir | updateIr
deriving DecidableEq, Repr

/-- The test access port: one controller state (all dies see TMS together), and per die the instruction register, the
stage being shifted, and the update latches of the boundary-scan cells (R435, R436). Dies in chain order IOT, KT, CT0,
CT1, CT2, CT3, PT0, PT1. -/
structure Tap where
  state : TapState
  ir : Vector Byte 8
  shift : Vector (List Bool) 8
  cells : Vector (List Bool) 8
  tdo : Bool
deriving DecidableEq, Repr

def Tap.reset : Tap :=
  { state := .testLogicReset, ir := Vector.replicate 8 0x01, shift := Vector.replicate 8 [],
    cells := Vector.replicate 8 [], tdo := false }

/-! ### Clocking (chapter 3) -/

/-- State of a SYN-S core (R82). -/
inductive CoreState where
  | active | standby | bad
deriving DecidableEq, Repr

/-- REF_STATE, in the order of its codes (R80, R93). -/
inductive RefState where
  | start | locking | locked | coasting | free | measuring | slewing | stepPending
deriving DecidableEq, Repr

/-- A band-table entry (R71). -/
structure BandEntry where
  centreKhz : W32
  kvco : BitVec 16
  capCode : Byte
  valid : Bool
  verified : Bool
  /-- written by the host since the factory values were filled in (R471) -/
  edited : Bool
deriving DecidableEq, Repr

/-- A synthesiser output (R76, R77): fine delay in 0.1 ps. -/
structure SynOut where
  divider : Nat
  coarse : Nat
  fine : Int
  enable : Bool
deriving DecidableEq, Repr

/-- Clock tile (R63 to R95). Cores are numbered 0 SYN-S-A, 1 SYN-S-B, 2 SYN-F, 3 SYN-T. Extents are sample numbers. -/
structure Clk where
  cond : BitVec 2
  refret : Bool
  refKhz : BitVec 19
  fsKhz : W32
  /-- values in force since the last accepted APPLY (R66) -/
  condNow : BitVec 2
  refKhzNow : Nat
  fsKhzNow : Nat
  fsActual : W64
  ni : Nat
  nf : Nat
  lockS : W32
  lockF : W32
  lockT : W32
  lock : Vector Bool 4
  core : Vector CoreState 2
  coreCoast : Bool
  /-- samples are COASTING because of the reference (R95) -/
  refCoast : Bool
  fBypass : Bool
  tCoast : Bool
  refState : RefState
  applyBusy : Bool
  applyRefused : Bool
  bandFault : Bool
  phaseAmbig : Bool
  refJump : W64
  /-- REFRET in force for the return in progress (R66) -/
  refretNow : Bool
  /-- Δ of a pending step, in 2^-24 Ts -/
  stepDelta : Option Int
  /-- sample being taken when SYN-S met the lock rule in STEP_PENDING (R94) -/
  relockAt : Option Nat
  /-- sample being taken at the last reference loss (R92) -/
  lossAt : Option Nat
  bands : Vector (Vector BandEntry 32) 4
  selected : Vector (Option Nat) 4
  noBand : Vector Bool 4
  outs : Vector (Vector SynOut 16) 4
  /-- loops that are open and hold their tuning word (R82, R88, R90), and steering comparisons since the reference was lost (R90) -/
  held : Vector Bool 4
  steers : Nat
  /-- a reband of the SYN-S cores that waits for the rebanded core to relock (R75): the entries that pass verification -/
  reband : Option (List Nat)
  /-- CLOCK_SWITCH extents, first and last sample -/
  csw : List (Nat × Nat)
  /-- COASTING extents, first sample and, once it has ended, last sample -/
  coast : List (Nat × Option Nat)
  /-- timebase steps of the era: sample at the step instant and Δ (R94) -/
  steps : List (Nat × Int)
deriving DecidableEq, Repr

/-! ### Slices and cartridges (chapters 2 and 4) -/

/-- Proofing of all eight slices (R122 to R124, R126). `step` is 1 to 7 for PF1 to PF7, 0 outside proofing. -/
structure Proofing where
  active : Bool
  step : Nat
  fail : Bool
  era : Nat
  /-- first sample number that does not carry PROOFING, once proofing has ended -/
  endSample : Option Nat
  /-- PF2 of this proofing has overrun and been reported (R124) -/
  overrun : Bool
deriving DecidableEq, Repr

def Proofing.reset : Proofing :=
  { active := true, step := 1, fail := false, era := 0, endSample := none, overrun := false }

/-- A position-table entry (R103). -/
structure PosEntry where
  skew : List Int
  eq : List Int
deriving DecidableEq, Repr

/-- A substitution in a slice that R117 still looks back on: position, first lane, replacing lane, U in lc. -/
structure Substitution where
  pos : Nat
  failed : Nat
  replacing : Nat
  at_ : Nat
deriving DecidableEq, Repr

/-- Where a cartridge set came from (SLn_CORR, R519), or that it was edited through the diagnostic window (R485). -/
inductive FirSource where
  | firCoef | derived | passThrough | edited
deriving DecidableEq, Repr

/-- One slice (R96 to R127). -/
structure Slice where
  laneMap : Vector (Option Nat) 40
  outLane : Option Nat
  standby : List Nat
  rotRun : Bool
  rotK : Nat
  /-- lc at which proofing ended, from which the grids of R110 and R104 run; updates of the position table since (R104) -/
  rotBase : Nat
  blindK : Nat
  shadowPos : Nat
  shadowSince : Nat
  /-- position of an unresolved SHADOW_MISMATCH (R116) -/
  mismatch : Option Nat
  retired : BitVec 41
  interp : BitVec 40
  laneTab : Vector LaneEntry 41
  posTab : Vector PosEntry 40
  fracDelay : Int
  /-- which fit of proofing step PF4 gave the reconstruction coefficients of R175 -/
  reconFit : Nat
  /-- lane table, position table and fractional delay saved at the last proofing end (R122) -/
  savedLane : Vector LaneEntry 41
  savedPos : Vector PosEntry 40
  savedFrac : Int
  firActive : List Int
  /-- a loaded set that takes effect at a block start (R106): the set, its source, the sample -/
  firNext : Option (List Int × FirSource × Nat)
  /-- the buffer of the cartridge FIR that is not in use (R106, R485) -/
  firInactive : List Int
  /-- substitutions, newest first -/
  substs : List Substitution
  /-- positions whose samples the output stage interpolates (R115, R117): position, first lc, and the lc before which it ends -/
  repairs : List (Nat × Nat × Option Nat)
  /-- the 40 samples of the last word as they entered the cartridge FIR (R96) -/
  firPast : List Int
  /-- the last slice word on the slice bus (R23, R24) -/
  bus : BitVec 512
  /-- LANE_SUBSTITUTED extents, first and last sample -/
  substWin : List (Nat × Nat)
  /-- first block that carries LANE_SUBSTITUTED because a position is interpolated (R117) -/
  interpFrom : Option Nat
  /-- first block that carries CARTRIDGE_WORN (R61) -/
  wornFrom : Option Nat
  ovrLast : Option Nat
  ovrCount : Nat
  ovrOn : Bool
  ovrNow : Bool
  blockClips : Nat
  /-- slice words delivered since sample number 0 (R100) -/
  words : Nat
  /-- corrected codes of the era, one list of 40 per slice word, newest first -/
  log : List (List Int)
  /-- quality map (R101): block number and byte, newest first -/
  qual : List (Nat × Byte)
deriving DecidableEq, Repr

/-- State of a cartridge input (R62). -/
inductive CartState where
  | absent | reading | active | faulted
deriving DecidableEq, Repr

/-- One cartridge input (R50 to R62). Dose is kept exactly, in fJ. -/
structure Cart where
  state : CartState
  present : Bool
  /-- the state machine's switch of the 3V3 supply; `cart3V3` is the land (R47, R62) -/
  v33 : Bool
  factory : List Byte
  wearA : List Byte
  wearB : List Byte
  matings : Nat
  dose : Rat
  doseWritten : Rat
  seq : W32
  /-- copy of the wear record in use: 0 A, 1 B -/
  useB : Bool
  wear : Byte
  pastLife : Bool
  lastWrite : Option Nat
  /-- matings counted for the identity read in progress (R57) -/
  counted : Nat
  writeFailed : Nat
  /-- a write trigger has occurred and its record is not written yet (R59) -/
  writeDue : Bool
  deriving_ : Bool
deriving DecidableEq, Repr

def Cart.reset : Cart :=
  { state := .absent, present := false, v33 := false, factory := [], wearA := [], wearB := [], matings := 0,
    dose := 0, doseWritten := 0, seq := 0, useB := false, wear := 0, pastLife := false, lastWrite := none,
    counted := 0, writeFailed := 0, writeDue := false, deriving_ := false }

/-! ### Timebase, TACs and timers (chapter 5) -/

/-- EPOCH_STATE in the order of its codes (R162). -/
inductive EpochState where
  | unset | armed | set | pending
deriving DecidableEq, Repr

/-- A timebase mapping (R131), with the grid fraction in `ts`. `sn` is REF_SN. What arrives is stamped under it from sample `acts` on, the
commit sample of an epoch (R520) or REF_SN; `step` marks a timebase step (R94). -/
structure Mapping where
  sn : Nat
  ts : TS96
  acts : Nat := 0
  step : Bool := false
deriving DecidableEq, Repr

/-- An EPOCH_SET that is armed (R134, R136); samples from `since` on are compared with X. -/
structure Arming where
  atTick : Bool
  falling : Bool
  v : BitVec 72
  x : BitVec 72
  since : Nat := 0
deriving DecidableEq, Repr

/-- A stamp as a timer sees it: TS96 and FLAGS of R161. -/
structure Stamp where
  ts : TS96
  flags : W32
  /-- timebase steps of the era before the stamped edge, which tells on which side of a step it lies (R158) -/
  steps : Nat
deriving DecidableEq, Repr

/-- An edge taken at or after the commit sample of an epoch, or the SYNCIN edge that sets it: the timers see its stamp in the new mapping
after the epoch commit (R137, R158, R520). Source code, polarity, FLAGS, and instant in 2^-24 sample periods from sample number 0. -/
structure HeldStamp where
  src : Nat
  falling : Bool
  flags : W32
  pos : Int
deriving DecidableEq, Repr

/-- An epoch whose instant is known and whose commit sample has not yet come (R520). -/
structure EpochWait where
  map : Mapping
  commit : Nat
  atTick : Bool
deriving DecidableEq, Repr

/-- Timebase (R131 to R139, R162, R163); mappings newest first. -/
structure Timebase where
  state : EpochState
  stepCount : Byte
  epochGen : BitVec 16
  maps : List Mapping
  arming : Option Arming
  wait : Option EpochWait
  /-- stamps that wait for the epoch commit, in order of arrival -/
  held : List HeldStamp
  /-- V of the epoch in force (R389, R391) -/
  epochV : BitVec 72
  nowHi : W32
  syncDelay : W32
  /-- while EPOCH_STATE is not SET: the sample from which it has not been (R135) -/
  unsetFrom : Nat
  /-- samples of the era from which a new mapping acts: commit samples and step instants (R94, R520) -/
  moments : List Nat
deriving DecidableEq, Repr

def Timebase.reset : Timebase :=
  { state := .unset, stepCount := 0, epochGen := 0, maps := [{ sn := 0, ts := 0 }], arming := none, wait := none,
    held := [], epochV := 0, nowHi := 0, syncDelay := 0, unsetFrom := 0, moments := [] }

/-- Kind of a calibration run (R151). -/
inductive CalKind where
  | quick | idle | forced
deriving DecidableEq, Repr

/-- A time-to-amplitude converter (R142 to R154, R164). A table of none is the nominal one. -/
structure Tac where
  calValid : Bool
  calRun : Option CalKind
  stale : Bool
  fault : Bool
  deadOvf : Bool
  calTemp : BitVec 16
  deadCount : Nat
  offset : W32
  table : Option (List Nat)
  /-- table in use before the swap and the coarse count from which `table` applies (R150) -/
  oldTable : Option (List Nat)
  tableFrom : Nat
  savedTable : Bool
  /-- table saved at the last proofing end (R151) -/
  saved : Option (List Nat)
  temp : BitVec 16
  runTemp : BitVec 16
  hits : Nat
  rejects : Nat
  /-- the charge of the last edge that started one: the end of its dead time, in 2^-24 sample periods from sample number 0 (R148) -/
  busy : Option Int
  deadBefore : Bool
  /-- always-on cycle from which the input has been idle, or from which the next 10 s of idleness count (R151) -/
  quietSince : Nat
  /-- STALE has been reported since the last accepted table (R154) -/
  staleTold : Bool
  level : Bool
  /-- changes of the land comparator's level, newest first: instant as in `busy`, and the new level (R171) -/
  levels : List (Int × Bool)
deriving DecidableEq, Repr

def Tac.reset : Tac :=
  { calValid := false, calRun := none, stale := true, fault := false, deadOvf := false, calTemp := 0, deadCount := 0,
    offset := 0, table := none, oldTable := none, tableFrom := 0, savedTable := true, saved := none, temp := 0, runTemp := 0,
    hits := 0, rejects := 0, busy := none, deadBefore := false, quietSince := 0, staleTold := false, level := false, levels := [] }

/-- Timer mode (R155). -/
inductive TimerMode where
  | off | stamp | interval | frequency
deriving DecidableEq, Repr

/-- A frequency gate that is open (R159). -/
structure Gate where
  opening : Stamp
  count : Nat
deriving DecidableEq, Repr

/-- A timer record without its VALID word (R160). -/
structure TimerRec where
  type : BitVec 16
  flags : W32
  tA : TS96
  value : TS96
  count : W64
  seq : W32
deriving DecidableEq, Repr

/-- A timer (R155 to R161). -/
structure Timer where
  mode : TimerMode
  startSrc : Nat
  startPol : Nat
  stopSrc : Nat
  stopPol : Nat
  nearest : Bool
  guard : Nat
  win : Nat
  gateNs : Nat
  waiting : List Stamp
  unused : List Stamp
  last : Option Stamp
  unpaired : Nat
  lost : Nat
  gate : Option Gate
  seq : W32
  latest : Option TimerRec
deriving DecidableEq, Repr

def Timer.reset : Timer :=
  { mode := .off, startSrc := 0, startPol := 0, stopSrc := 0, stopPol := 0, nearest := false, guard := 0, win := 0,
    gateNs := 0, waiting := [], unused := [], last := none, unpaired := 0, lost := 0, gate := none, seq := 0,
    latest := none }

/-! ### Triggers and sequencers (chapter 6) -/

/-- Trigger-unit TYPE in the order of its codes (R359). -/
inductive TuType where
  | edge | window | pulseWidth | runt | timeout | slew | pattern | sequence | filtered | spectral
deriving DecidableEq, Repr

/-- A PATTERN input (R359 fields 17 to 28): 0 X, 1 H, 2 L. -/
structure PatInput where
  state : Nat
  hyst : Nat
  th : Int
deriving DecidableEq, Repr

/-- Settings of a trigger unit (R169, R359); times in 2^-16 Ts. -/
structure TuCfg where
  type : TuType
  source : Nat
  thA : Int
  thB : Int
  hyst : Nat
  sense : Nat
  cmp : Nat
  w1 : Nat
  w2 : Nat
  levelHold : Nat
  a : Nat
  b : Nat
  rst : Nat
  qual : Nat
  n : Nat
  unsettledOk : Bool
  eventEn : Bool
  inputs : List PatInput
deriving DecidableEq, Repr

def TuCfg.reset : TuCfg :=
  { type := .edge, source := 0, thA := 0, thB := 0, hyst := 0, sense := 0, cmp := 0, w1 := 0, w2 := 0, levelHold := 0,
    a := 0, b := 0, rst := 0xFF, qual := 0, n := 1, unsettledOk := false, eventEn := false,
    inputs := List.replicate 12 { state := 0, hyst := 0, th := 0 } }

/-- Rising and falling detector of one threshold (R167). -/
structure Detector where
  rise : Bool
  fall : Bool
deriving DecidableEq, Repr

/-- How a firing was placed and what its source was (R173, R176, R148, R220). -/
structure PlaceFlags where
  linear : Bool
  coarse : Bool
  unsettled : Bool
  flagged : Bool
deriving DecidableEq, Repr

def PlaceFlags.none : PlaceFlags := { linear := false, coarse := false, unsettled := false, flagged := false }

/-- A firing that its unit has found and that becomes known at its decision delay (R178); `pos` is its instant in 2^-24 sample periods from
sample number 0, `due` the lane-clock count. -/
structure Firing where
  t : TS96
  pos : Int
  place : PlaceFlags
  level : Bool
  due : Nat
  /-- the firing came over the ring (Brim class); it is not exported again -/
  remote : Bool
deriving DecidableEq, Repr

/-- An edge of an AUX input that the trigger units have not processed yet (R167, R171): input 0 to 3, polarity, stamp, and
instant in 2^-24 sample periods from sample number 0. `dead` marks the reading of the land comparator at the end of a dead time. -/
structure AuxEdge where
  input : Nat
  falling : Bool
  t : TS96
  pos : Int
  place : PlaceFlags
  dead : Bool
deriving DecidableEq, Repr

/-- A firing of a unit that a SEQUENCE unit names (R172). -/
structure SeqInput where
  unit : Nat
  t : TS96
  pos : Int
  place : PlaceFlags
deriving DecidableEq, Repr

/-- A trigger unit (R166 to R178). -/
structure Tu where
  cfg : TuCfg
  configured : Bool
  next : Option (TuCfg × Nat)
  switchAt : Nat
  detA : Detector
  detB : Detector
  patDet : Vector Detector 8
  patIn : List Bool
  truth : Bool
  /-- start of the pulse, runt, transition, span or chosen state in progress, with its placement flags -/
  start : Option (TS96 × PlaceFlags)
  /-- start of a falling SLEW transition in progress -/
  fallStart : Option (TS96 × PlaceFlags)
  level : Bool
  /-- changes of the level in placement order, newest first (R179) -/
  levels : List (TS96 × Bool)
  /-- SEQUENCE: T_A and the firings of B counted since (R172) -/
  armedAt : Option TS96
  count : Nat
  /-- SEQUENCE: firings of the units it names that it has not judged yet -/
  inbox : List SeqInput
  /-- firings not yet known, in placement order -/
  queue : List Firing
  /-- firings made known, newest first, which masks take as references (R291) -/
  known : List TS96
deriving DecidableEq, Repr

def Tu.reset : Tu :=
  { cfg := TuCfg.reset, configured := false, next := none, switchAt := 0, detA := { rise := false, fall := false },
    detB := { rise := false, fall := false }, patDet := Vector.replicate 8 { rise := false, fall := false },
    patIn := List.replicate 12 false, truth := false, start := none, fallStart := none, level := false, levels := [],
    armedAt := none, count := 0, inbox := [], queue := [], known := [] }

/-- Sequencer MODE in the order of its codes (R202). -/
inductive SeqMode where
  | single | normal | auto | continuous
deriving DecidableEq, Repr

/-- Sequencer STATE in the order of its codes (R202). -/
inductive SeqState where
  | idle | fill | ready | post | holdoff
deriving DecidableEq, Repr

/-- A term of a trigger expression (R179). -/
structure Term where
  unit : Nat
  high : BitVec 16
  low : BitVec 16
deriving DecidableEq, Repr

/-- Configuration of a sequencer (R183). -/
structure SeqCfg where
  mode : SeqMode
  channels : Byte
  l : Nat
  p : Nat
  count : Nat
  accept : Bool
  holdTime : Nat
  holdCount : Nat
  autoNs : Nat
  lateAllow : Nat
  trigEvent : Bool
  terms : List Term
deriving DecidableEq, Repr

def SeqCfg.reset : SeqCfg :=
  { mode := .normal, channels := 0, l := 4096, p := 0, count := 0, accept := false, holdTime := 0, holdCount := 0,
    autoNs := 100000000, lateAllow := 4096, trigEvent := false, terms := [] }

/-- What a sequencer decides at an instant (R181); a trigger names its term. -/
inductive InstantKind where
  | trigger (term : Nat)
  | force
  | capture (mask : Nat)
deriving DecidableEq, Repr

/-- An instant waiting for its decision (R181). `due` is the lane-clock count of the decision; a FORCE remembers the
queue-pair command that waits for it, by queue pair and tag. -/
structure Instant where
  t : TS96
  kt : Nat
  kind : InstantKind
  place : PlaceFlags
  due : Nat
  late : Bool
  waiter : Option (Nat × W32)
deriving DecidableEq, Repr

/-- Counts of R191 that no segment or event has taken up yet. -/
structure SeqCounts where
  prefillWait : Nat
  holdoffSuppressed : Nat
  lateMissed : Nat
  afterStop : Nat
  fullMissed : Nat
deriving DecidableEq, Repr

def SeqCounts.zero : SeqCounts :=
  { prefillWait := 0, holdoffSuppressed := 0, lateMissed := 0, afterStop := 0, fullMissed := 0 }

/-- A sequencer (R179 to R198, R202). -/
structure Seq where
  cfg : SeqCfg
  configured : Bool
  state : SeqState
  das : Nat
  /-- decision delays of the units on which the armed D_AS was built (R522) -/
  built : List (Nat × Nat)
  segments : Nat
  /-- segments that count toward COUNT since the ARM -/
  cutSinceArm : Nat
  armSample : Option Nat
  /-- an ARM with START_AT that waits for its arm sample (R186) -/
  startAt : Option TS96
  /-- fill start S -/
  fillStart : Nat
  /-- sample at which READY was last entered -/
  readyAt : Nat
  /-- sequence number of the segment being filled -/
  openSeg : Option Nat
  /-- sequence number and span of the segment filled last, for triggers decided after its end -/
  lastSeg : Option Nat
  holdEnd : Nat
  holdSeen : Nat
  lastT : Option TS96
  counts : SeqCounts
  gapCount : Nat
  queue : List Instant
  stopPending : Option Nat
  /-- stop sample of the stop last in force (R198) -/
  stopAt : Option Nat
  /-- next grid boundary of CONTINUOUS (R213) -/
  nextOpen : Option Nat
  fullSeen : Bool
  /-- the stop of the present lc whose event goes out as the lc ends: its cause and lowest mask (R198, R296) -/
  stopEvent : Option (Nat × Nat)
  /-- references that its cuts give TRIGGERED felts: T, the lc at which it is known, and whether its trigger was LATE, newest first
  (R276) -/
  refs : List (TS96 × Nat × Bool)
deriving DecidableEq, Repr

def Seq.reset : Seq :=
  { cfg := SeqCfg.reset, configured := false, state := .idle, das := 0, built := [], segments := 0, cutSinceArm := 0,
    armSample := none, startAt := none, fillStart := 0, readyAt := 0, openSeg := none, lastSeg := none, holdEnd := 0,
    holdSeen := 0, lastT := none, counts := SeqCounts.zero, gapCount := 0, queue := [], stopPending := none,
    stopAt := none, nextOpen := none, fullSeen := false, stopEvent := none, refs := [] }

/-- A trigger that an output has to put out (R199): its instant in 2^-24 sample periods from sample number 0, the lc at which its source
decided, and whether the source is one whose decision always comes late. -/
structure OutTrigger where
  pos : Int
  decided : Nat
  late : Bool
deriving DecidableEq, Repr

/-- One TRIGOUT output (R199 to R201): merged triggers, and the pulse under way. Times at the land are in 2^-24 sample periods from the
instant sample number 0 was taken. -/
structure TrigOut where
  merged : Bool
  late : Bool
  mergedCount : Nat
  /-- end of the pulse under way, and of the last one -/
  activeUntil : Option Int
  quietFrom : Option Int
  level : Bool
  /-- triggers to put out, oldest first -/
  queue : List OutTrigger
deriving DecidableEq, Repr

def TrigOut.reset : TrigOut :=
  { merged := false, late := false, mergedCount := 0, activeUntil := none, quietFrom := none, level := false, queue := [] }

/-! ### Memory, segments and reductions (chapter 7) -/

/-- STATE of an index entry (R219). -/
inductive Retention where
  | retained | released | overwritten
deriving DecidableEq, Repr

/-- A segment with its index entry, overlap log, samples and side data (R210, R219 to R225). `last` is the planned or
actual last sample. -/
structure Segment where
  seq : Nat
  sequencer : Nat
  t : TS96
  kt : Nat
  /-- T less the TS96 of the trigger sample, in 2^-24 Ts (R328, R331) -/
  off : Int
  first : Nat
  last : Nat
  channels : Byte
  flags : BitVec 16
  epochGen : BitVec 16
  postCount : Nat
  prefillWait : Nat
  holdoffSuppressed : Nat
  lateMissed : Nat
  fullMissed : Nat
  gapCount : Nat
  maskResult : BitVec 16
  stepDelta : BitVec 48
  retention : Retention
  sidePtr : W32
  measPtr : W32
  overlap : List (TS96 × Bool)
  ring : Bool
  readers : Nat
  /-- a RELEASE has completed while another reader held the segment -/
  releasing : Bool
  /-- last sample stored, or truncated by a stop -/
  closed : Bool
  /-- index entry and side data written (R216) -/
  complete : Bool
  /-- first copy lost and second copy lost, for the entry (R241) -/
  lost : Bool
  /-- era of its sample numbers (R100), and side area reserved for it (R212) -/
  era : Nat
  sideBytes : Nat
  /-- samples per channel in ascending channel order, once complete -/
  data : List (List Int)
  side : List Byte
  /-- measurement record of R327, once written -/
  meas : List Byte
  /-- waiting for MEASURE or RECORD_AVERAGE, which count as readers (R326) -/
  engReaders : Nat
deriving DecidableEq, Repr

/-- DRAM regions, history ring, index and ECC counters (R204 to R221, R243). -/
structure Mem where
  histChannels : Byte
  histGb : Nat
  wrapped : Bool
  /-- first block the ring held since it was laid out or cut, and the oldest block it still holds -/
  histStart : Nat
  oldest : Nat
  /-- sample at which the ring was last cut or laid out (R206, R208) -/
  cutAt : Nat
  capSize : Vector Nat 4
  sideSize : Vector Nat 4
  overwrite : BitVec 4
  next : Nat
  /-- segments, newest first -/
  segs : List Segment
  uncorrSeen : Bool
  corrOvf : Bool
  uncorrOvf : Bool
  corr : Nat
  uncorr : Nat
deriving DecidableEq, Repr

def Mem.reset : Mem :=
  { histChannels := 0, histGb := 0, wrapped := false, histStart := 0, oldest := 0, cutAt := 0, capSize := Vector.replicate 4 0,
    sideSize := Vector.replicate 4 1, overwrite := 0, next := 0, segs := [], uncorrSeen := false, corrOvf := false,
    uncorrOvf := false, corr := 0, uncorr := 0 }

/-- Lane mode of the reduction bank, in the order of R226; RED0 is always MINMAX. -/
inductive RedMode where
  | off | minmax | decimate | mean | rms | sifted
deriving DecidableEq, Repr

/-- Settings of one reduction lane (R226). -/
structure RedLane where
  mode : RedMode
  n : Nat
  k : Nat
  shift : Nat
  rank : Nat
deriving DecidableEq, Repr

/-- A reduction record (R229). -/
structure RedRec where
  lane : Nat
  mode : RedMode
  first : Nat
  value : BitVec 24
  isPartial : Bool
  diag : Bool
  qual : Byte
  count : Nat
deriving DecidableEq, Repr

/-- Kind of a diagnostic span (R232), with the lane-clock count at which it ends where that is fixed. -/
inductive DiagSpan where
  | proofing
  | selftest
  | recovery (endLc : Nat)
deriving DecidableEq, Repr

/-- A reduction bank (R226 to R232). `acc` holds the codes of each lane's open interval, newest first. -/
structure RedBank where
  lanes : Vector RedLane 4
  segRed : BitVec 4
  /-- accepted settings that wait for their switch sample; none as sample means the exit of the span -/
  next : Option (Vector RedLane 4 × BitVec 4 × Option Nat)
  diag : Option DiagSpan
  start : Vector Nat 4
  acc : Vector (List Int) 4
  /-- records of intervals that have ended in blocks that have not, newest first (R229) -/
  waiting : List RedRec
  /-- records of the era, newest first -/
  recs : List RedRec
deriving DecidableEq, Repr

def RedLane.reset (m : RedMode) : RedLane := { mode := m, n := 1024, k := 8, shift := 8, rank := 32768 }

def RedBank.reset : RedBank :=
  { lanes := #v[RedLane.reset .minmax, RedLane.reset .off, RedLane.reset .off, RedLane.reset .off], segRed := 0,
    next := none, diag := some .proofing, start := Vector.replicate 4 0, acc := Vector.replicate 4 [], waiting := [], recs := [] }

/-! ### Decimation chains (chapter 8) -/

/-- A detector of a decimation chain (R262). -/
structure DdcDet where
  enable : Bool
  src : Nat
  th : Int
  hyst : Nat
  slope : Nat
  eventEn : Bool
deriving DecidableEq, Repr

/-- Settings of a chain (R256); `preset` is the code of R246, 7 OFF; `place` 0 OFF, 1 BEFORE, 2 AFTER. -/
structure DdcCfg where
  preset : Nat
  nco : Bool
  ftw : Nat
  phase : Nat
  continuous : Bool
  shift : Nat
  user : Bool
  fir : List Int
  /-- the CALDEF image that the default set was loaded from, none for the factory's (R456) -/
  table : Option (List Byte)
  place : Nat
  siftN : Nat
  siftK : Nat
  det : Vector DdcDet 2
deriving DecidableEq, Repr

def DdcCfg.reset : DdcCfg :=
  { preset := 7, nco := false, ftw := 0, phase := 0, continuous := false, shift := 0, user := false, fir := [], table := none,
    place := 0, siftN := 1, siftK := 1,
    det := Vector.replicate 2 { enable := false, src := 0, th := 0, hyst := 0, slope := 0, eventEn := false } }

/-- One output of a chain (R248, R254). -/
structure DdcOut where
  g : Nat
  ts : TS96
  i : Int
  q : Int
  unsettled : Bool
  clipped : Bool
  /-- units of the value per LSB at the input, SHIFT taken in (R255) -/
  scale : Nat
deriving DecidableEq, Repr

/-- The NCO's settings from a sample on (R250): PHASE, or in CONTINUOUS mode the accumulator at that sample. -/
structure NcoSpan where
  start : Nat
  ftw : Nat
  base : Nat
  continuous : Bool
deriving DecidableEq, Repr

/-- A decimation chain (R245 to R269). -/
structure Ddc where
  cfg : DdcCfg
  next : Option (DdcCfg × Nat)
  toMark : Nat
  configGen : BitVec 16
  clipSeen : Bool
  clipOvf : Bool
  clips : Nat
  /-- the NCO's settings over the era, newest first -/
  nco : List NcoSpan
  /-- samples before this one are not in the filters' state (R258) -/
  clearedAt : Nat
  armed : Vector Detector 2
  last : Option DdcOut
  /-- outputs of the era, newest first -/
  outs : List DdcOut
  /-- changes so far of PRESET, NCO_EN, FIR or SIFTER, for SWITCH (R266) -/
  switches : Nat
deriving DecidableEq, Repr

def Ddc.reset : Ddc :=
  { cfg := DdcCfg.reset, next := none, toMark := 0, configGen := 0, clipSeen := false, clipOvf := false, clips := 0,
    nco := [{ start := 0, ftw := 0, base := 0, continuous := false }], clearedAt := 0,
    armed := Vector.replicate 2 { rise := false, fall := false }, last := none, outs := [], switches := 0 }

/-! ### Felts and masks (chapter 9) -/

/-- Settings of a felt (R272); `map` is the code of R300, times in 2^-24 Ts. -/
structure FeltCfg where
  map : Nat
  seq : Nat
  start : Int
  colWidth : Nat
  period : Nat
  origin : Nat
  rowBase : Int
  rowShift : Nat
  age : Nat
  ageMs : Nat
  running : Bool
deriving DecidableEq, Repr

def FeltCfg.reset : FeltCfg :=
  { map := 0, seq := 0, start := 0, colWidth := 2 ^ 24, period := 2048 * 2 ^ 24, origin := 0, rowBase := -2048,
    rowShift := 2, age := 0, ageMs := 1000, running := false }

/-- Bins that are not zero, by rising bin index (R271). -/
abbrev Bins := List (Nat × Nat)

/-- A spill waiting for the DRAM controller (R279): bin, buffer B, weight, and whether its hits predate the aging instant whose
sweep runs (R283). -/
structure Spill where
  bin : Nat
  toB : Bool
  weight : Nat
  before : Bool
deriving DecidableEq, Repr

/-- Phase of a bake cycle (R285, R286). -/
inductive BakePhase where
  | idle
  | waiting
  | flushing
  | copying
  | clearing
deriving DecidableEq, Repr

/-- What is counted over a span of a felt, from its first sample on (R287). -/
structure FeltSpan where
  first : Nat
  hits : Nat
  outside : Nat
  rowClamp : Nat
  ageLast : Option Nat
  ageCount : Nat
  /-- quality of the spectra of a spectral felt; a channel felt takes that of its blocks as the span ends -/
  qual : Byte
  latePart : Bool
  lostPart : Bool
deriving DecidableEq, Repr

def FeltSpan.reset : FeltSpan :=
  { first := 0, hits := 0, outside := 0, rowClamp := 0, ageLast := none, ageCount := 0, qual := 0, latePart := false,
    lostPart := false }

/-- A felt (R271 to R287). `mapped` counts the samples of the era that have passed the map stage of a channel felt. -/
structure Felt where
  cfg : FeltCfg
  configGen : BitVec 16
  sat : Bool
  lost : Bool
  running : Bool
  /-- clear in progress (R273); accumulation starts at `switchAt` -/
  clearing : Bool
  switchAt : Nat
  bufA : Bins
  bufB : Bins
  activeB : Bool
  /-- on-die counters of the present and of the previous generation (R285) -/
  count : Bins
  oldCount : Bins
  spills : List Spill
  /-- the span that accumulates, and the one whose snapshot is under way (R285) -/
  span : FeltSpan
  baked : FeltSpan
  /-- aging instants already taken, those postponed, and the sample at which they are taken once flush and merge have ended (R284) -/
  agesTaken : Nat
  agePending : Nat
  ageDue : Option Nat
  /-- the sweep under way: its buffer and the number of instants it acts for (R283) -/
  sweep : Option (Bool × Nat)
  bake : BakePhase
  bakeSeq : W32
  bakeSample : Nat
  /-- lc of the generation switch (R285) -/
  switchLc : Nat
  /-- what the generation switch fixes of the bake record's header (R287) -/
  bakeHdr : List Byte
  mapped : Nat
deriving DecidableEq, Repr

def Felt.reset : Felt :=
  { cfg := FeltCfg.reset, configGen := 0, sat := false, lost := false, running := false, clearing := false,
    switchAt := 0, bufA := [], bufB := [], activeB := false, count := [], oldCount := [], spills := [], span := FeltSpan.reset,
    baked := FeltSpan.reset, agesTaken := 0, agePending := 0, ageDue := none, sweep := none, bake := .idle, bakeSeq := 0,
    bakeSample := 0, switchLc := 0, bakeHdr := [], mapped := 0 }

/-- A polygon of a mask (R290): INSIDE or OUTSIDE, vertices with X in 1/256 column and Y in 1/16 LSB or 1/64 dB. -/
structure Region where
  outside : Bool
  vertices : List (Nat × Int)
deriving DecidableEq, Repr

/-- Settings of a mask (R289); `source` 0 to 7 CH0 to CH7, 8 to 15 SF0 to SF7. -/
structure MaskCfg where
  enable : Bool
  source : Nat
  map : Nat
  ncol : Nat
  period : Nat
  origin : Nat
  refTu : Nat
  start : Nat
  colWidth : Nat
  regions : List Region
  actions : BitVec 4
  capAs : BitVec 4
  stopAs : BitVec 4
deriving DecidableEq, Repr

def MaskCfg.reset : MaskCfg :=
  { enable := false, source := 0, map := 0, ncol := 1, period := 2048 * 2 ^ 24, origin := 0, refTu := 0,
    start := 960 * 2 ^ 24, colWidth := 2 ^ 24, regions := [], actions := 1, capAs := 0, stopAs := 0 }

/-- A mask (R288 to R301). `reloading` holds the columns whose limits are under reload. -/
structure Mask where
  cfg : MaskCfg
  /-- settings in force for samples before `switchAt` (R292) -/
  prev : MaskCfg
  configured : Bool
  /-- settings whose raster runs, and settings loaded that wait for their switch sample -/
  raster : Option MaskCfg
  next : Option (MaskCfg × Nat)
  switchAt : Nat
  tested : Nat
  viol : Nat
  testedOvf : Bool
  violOvf : Bool
  violNow : Bool
  episode : Nat
  lastViol : Option Nat
  reloading : List Nat
  /-- units that SET_TU wrote while the mask named them, each with the sample number before which its firings are no references
  (R174) -/
  refFrom : List (Nat × Nat)
  /-- violating samples of the era with their channel, newest first; they feed MASK_RESULT (R297) -/
  violations : List (Nat × Nat)
  /-- a STOP under way: its v, the lc of its commit and the sequencers it names (R294) -/
  stop : Option (Nat × Nat × BitVec 4)
deriving DecidableEq, Repr

def Mask.reset : Mask :=
  { cfg := MaskCfg.reset, prev := MaskCfg.reset, configured := false, raster := none, next := none, switchAt := 0, tested := 0, viol := 0,
    testedOvf := false, violOvf := false, violNow := false, episode := 0, lastViol := none, reloading := [],
    refFrom := [], violations := [], stop := none }

/-! ### Engines and services (chapter 10) -/

/-- STATE of an instance in the order of its codes (R334). -/
inductive InstState where
  | off | running | failed
deriving DecidableEq, Repr

/-- A trigger output of a SPECTRAL instance (R316). -/
structure SpTrig where
  en : Bool
  binLo : Nat
  binHi : Nat
  th : Int
  hyst : Nat
  slope : Nat
  eventEn : Bool
deriving DecidableEq, Repr

/-- Parameters of a SPECTRAL instance (R316). -/
structure SpCfg where
  input : Nat
  n : Nat
  integ : Nat
  peak : Bool
  feltEn : Bool
  feltBin0 : Nat
  feltBpc : Nat
  feltFloor : Int
  feltStep : Nat
  streamBin0 : Nat
  streamBins : Nat
  trigs : List SpTrig
deriving DecidableEq, Repr

/-- Parameters of a MEASURE instance (R325); limits as float32 words: measurement, LO, HI. -/
structure MsCfg where
  channel : Nat
  refChannel : Nat
  low : Nat
  mid : Nat
  high : Nat
  hyst : Nat
  maxRate : Nat
  limits : List (Nat × W32 × W32)
deriving DecidableEq, Repr

/-- Parameters of a RECORD_AVERAGE instance (R330). -/
structure RaCfg where
  channels : Byte
  count : Nat
  fine : Bool
  again : Bool
  maxRate : Nat
deriving DecidableEq, Repr

/-- Parameters of an instance, by service (R311). -/
inductive SvcCfg where
  | spectral (c : SpCfg)
  | measure (c : MsCfg)
  | average (c : RaCfg)
deriving DecidableEq, Repr

/-- A service instance (R311 to R334). -/
structure Inst where
  state : InstState
  engines : List Nat
  migrated : Bool
  skipOvf : Bool
  configGen : BitVec 16
  outputLat : Nat
  eventLat : Nat
  skips : Nat
  cfg : Option SvcCfg
  ifVersion : W32
  /-- accepted settings whose engines are being loaded (R313) -/
  next : Option SvcCfg
  switchAt : Nat
  /-- index of the first hop after the last restart (R318) -/
  restartAt : Nat
  armed : List Detector
  /-- last hop delivered since the last restart, from which dropped hops are counted (R315) -/
  lastHop : Option Nat
  /-- hops in which an engine failed, with the engine (R307, R321) -/
  faults : List (Nat × Nat)
  /-- the engines have been throttled since the last delivery, so that hops may be dropped (R315) -/
  mayDrop : Bool
  /-- segments waiting or under way (R326, R331) -/
  queue : List Nat
  skipping : Bool
  /-- RECORD_AVERAGE in progress: sums per channel and sample, segments added, first and last SEQ, T of the first -/
  sums : List (List Int)
  added : Nat
  firstSeq : Nat
  lastSeq : Nat
  firstT : TS96
  leftOut : Nat
  qual : Byte
  stepSeen : Bool
  moved : Bool
  stopped : Bool
deriving DecidableEq, Repr

def Inst.reset : Inst :=
  { state := .off, engines := [], migrated := false, skipOvf := false, configGen := 0, outputLat := 0, eventLat := 0,
    skips := 0, cfg := none, ifVersion := 0x00010000, next := none, switchAt := 0, restartAt := 0, armed := [],
    lastHop := none, faults := [], mayDrop := false, queue := [], skipping := false, sums := [], added := 0, firstSeq := 0,
    lastSeq := 0, firstT := 0, leftOut := 0, qual := 0, stepSeen := false, moved := false, stopped := false }

/-- Engines (R303 to R310, R333). -/
structure Eng where
  retired : List Nat
  /-- the reserve engine of each cluster pair, once proofing has ended, and whether it is free -/
  reserve : Vector (Option Nat) 8
  /-- engines whose failed shares wait for the next frame: failed engine, new engine, instance -/
  moving : List (Nat × Nat × Nat)
  selftest : Option Nat
  /-- always-on count at which SELFTEST last started on each pair's reserve (R309) -/
  turnAt : Vector (Option Nat) 8
  tested : List Nat
  throttled : Bool
  eccOvf : Bool
  ecc : Nat
deriving DecidableEq, Repr

def Eng.reset : Eng :=
  { retired := [], reserve := Vector.replicate 8 none, moving := [], selftest := none, turnAt := Vector.replicate 8 none, tested := [],
    throttled := false, eccOvf := false, ecc := 0 }

/-! ### Brim ring (chapter 12) -/

/-- RING in the order of its codes (R404). -/
inductive RingState where
  | alone | forming | formed | degraded | split
deriving DecidableEq, Repr

/-- Link STATE in the order of its codes (R404). -/
inductive LinkState where
  | down | training | up
deriving DecidableEq, Repr

/-- One of the four links (R382, R388, R404): delay in 2^-24 Ts from the last exchanges, t1 of the DELAY_REQ sent. -/
structure BrimLink where
  state : LinkState
  farPos : Nat
  delay : Int
  samples : List (Int × Int)
  sentT1 : Option TS96
  /-- flits kept for 200 ns, newest first, with the lc of their first transmission and the number of resends (R383) -/
  kept : List (List Byte × Nat × Nat)
  /-- flits sent on the link, newest first: the model's record of the link -/
  sent : List (List Byte)
  /-- lc in which its last flits were abandoned, newest first, 64 at most (R382) -/
  abandoned : List Nat
deriving DecidableEq, Repr

def BrimLink.reset : BrimLink :=
  { state := .down, farPos := 0x3F, delay := 0, samples := [], sentT1 := none, kept := [], sent := [], abandoned := [] }

/-- A peer entry (R405) with what its last STATUS reported (R389). -/
structure Peer where
  offset : BitVec 48
  hops : Nat
  epoch : Nat
  coasting : Bool
  stale : Bool
  valid : Bool
  fsKhz : W32
  agrees : Bool
  serial : List Byte
deriving DecidableEq, Repr

def Peer.reset : Peer :=
  { offset := 0, hops := 0, epoch := 0, coasting := false, stale := false, valid := false, fsKhz := 0,
    agrees := true, serial := [] }

/-- A site of the ring as DISCOVER shows it (R380, R402). -/
structure Site where
  serial : List Byte
  dark : Bool
deriving DecidableEq, Repr

/-- Duplicate table of one ORIGIN (R387): the highest SEQ and the numbers below it already seen. -/
structure DupTable where
  highest : W32
  seen : List W32
deriving DecidableEq, Repr

/-- A remote trigger in the import queue (R395). -/
structure Import where
  cls : Nat
  t : TS96
  late : Bool
deriving DecidableEq, Repr

/-- Brim ring (R379 to R406). Counters in the order of SYS_BRIM_OVF. -/
structure Brim where
  ring : RingState
  position : Nat
  sites : List Site
  aligned : Bool
  lsysShort : Bool
  cfgMismatch : Bool
  tooMany : Bool
  links : Vector BrimLink 4
  lsysNs : Nat
  exports : Vector Nat 16
  stopMask : BitVec 4
  peers : Vector Peer 64
  marginMin : W32
  counters : Vector Nat 6
  ovf : BitVec 6
  queue : List Import
  dup : Vector (Option DupTable) 64
  /-- next message number, and whether the first DISCOVER, which has SEQ 0, has been sent (R385, R387) -/
  seq : W32
  discovered : Bool
  /-- lc of the last TRIGGER and of the last STOP sent, for their credits (R394, R400) -/
  lastTrigger : Option Nat
  lastStop : Option Nat
  /-- array stops that wait for their credit: T and URGENT -/
  stopWaiting : List (TS96 × Bool)
  /-- import counters at the last BRIM_IMPORT and suppressed exports not yet reported, with the lc of the reports -/
  reported : Vector Nat 4
  importAt : Option Nat
  suppressed : Nat
  exportAt : Option Nat
deriving DecidableEq, Repr

def Brim.reset : Brim :=
  { ring := .alone, position := 0, sites := [], aligned := false, lsysShort := false, cfgMismatch := false,
    tooMany := false, links := Vector.replicate 4 BrimLink.reset, lsysNs := 2000, exports := Vector.replicate 16 0xFF,
    stopMask := 0, peers := Vector.replicate 64 Peer.reset, marginMin := 0x7FFFFFFF,
    counters := Vector.replicate 6 0, ovf := 0, queue := [], dup := Vector.replicate 64 none, seq := 1, discovered := false,
    lastTrigger := none, lastStop := none, stopWaiting := [], reported := Vector.replicate 4 0, importAt := none,
    suppressed := 0, exportAt := none }

/-! ### Update, configuration and access (chapters 14 and 15) -/

/-- UPD_STATUS.STATE in the order of its codes (R469). -/
inductive UpdState where
  | idle | downloading | staged | verifying | verified | activating | trial
deriving DecidableEq, Repr

/-- STATE of the activation record in the order of its codes (R467). -/
inductive ActState where
  | confirmed | trial | reverted
deriving DecidableEq, Repr

/-- The activation record (R467); its two copies hold the same record between writes. -/
structure Activation where
  gen : W32
  state : ActState
  trialBoots : Nat
  banks : BitVec 6
  prevBanks : BitVec 6
  manifestSlot : Bool
  prevManifestSlot : Bool
  settingsSlot : Bool
  prevSettingsSlot : Bool
  levels : BitVec 2
  atTick : TS96
deriving DecidableEq, Repr

/-- A part bank (R442, R453): the image it holds, the hash recorded when it was written, its version. -/
structure Bank where
  valid : Bool
  image : List Byte
  hash : List Byte
  version : W32
  /-- the image is that of the factory set, which runs the services as this manual states them -/
  factory : Bool
deriving DecidableEq, Repr

/-- Firmware update (R442 to R469). -/
structure Upd where
  state : UpdState
  lastCause : Byte
  settingsDefaulted : Bool
  reverted : Bool
  staging : List Byte
  /-- the value recorded at the last 1 MB boundary (R448) -/
  progress : Nat
  pkgLen : Option Nat
  manifestOk : Bool
  /-- the last NEW came along the chain, travelling west or east (R452) -/
  chain : Option Bool
  /-- the host has sent a NEW since the last chain NEW (R452) -/
  hostNew : Bool
  /-- chain forwarding east and west: bytes forwarded and sites still to reach beyond this member -/
  fwdEast : Option (Nat × Nat)
  fwdWest : Option (Nat × Nat)
  /-- verification under way or done: parts that passed -/
  passed : BitVec 6
  writtenBanks : BitVec 6
  act : Activation
  banks : Vector (Vector Bank 2) 6
  manifests : Vector (List Byte) 2
  /-- update sample, revert sample and trial deadline (R455, R461, R463) -/
  updateAt : Option Nat
  revertAt : Option Nat
  deadlineTick : Option TS96
  deadlineTimer : Bool
  upperSwitching : Bool
  /-- the SVC image in service, where it is not the factory's (R454, R457) -/
  svcImage : Option (List Byte)
  accepted : Nat
  refused : Nat
  /-- a new CTRL has yet to make its first start (R465) -/
  ctrlNew : Bool
deriving DecidableEq, Repr

/-- One item of a settings record (R474): KIND, INDEX, PAYLOAD. -/
structure CfgItem where
  kind : BitVec 16
  index : Nat
  payload : List Byte
deriving DecidableEq, Repr

/-- One copy of a settings record (R473, R475). -/
structure CfgCopy where
  valid : Bool
  gen : W64
  ctrlVersion : W32
  serial : List Byte
  savedAt : TS96
  items : List CfgItem
deriving DecidableEq, Repr

def CfgCopy.empty : CfgCopy := { valid := false, gen := 0, ctrlVersion := 0, serial := [], savedAt := 0, items := [] }

/-- Settings store (R471 to R480, R491). `inForce` holds the command items in force, by KIND and INDEX. -/
structure Cfg where
  slots : Vector (Vector CfgCopy 2) 2
  slot : Bool
  copyB : Bool
  gen : W64
  defaulted : Bool
  restoring : Bool
  saving : Option CfgCopy
  saveFails : Nat
  itemsSkipped : Nat
  bootRestore : Bool
  inForce : List CfgItem
  /-- items of a restore that have not committed yet, and (KIND, INDEX) of those skipped (R477, R478) -/
  toRestore : List CfgItem
  skipped : List (BitVec 16 × Nat)
deriving DecidableEq, Repr

/-- One access level (R485 to R489). -/
structure Level where
  isOpen : Bool
  fails : Nat
  nonce : Option (List Byte)
  /-- always-on cycle at which the delay under way ends (R488) -/
  delay : Option Nat
deriving DecidableEq, Repr

def Level.reset : Level := { isOpen := false, fails := 0, nonce := none, delay := none }

/-- Access store and levels: 0 OWNER, 1 VENDOR (R485 to R491). -/
structure Acc where
  level : Vector Level 2
  salt : List Byte
  pwHash : Option (List Byte)
  calEdited : Bool
deriving DecidableEq, Repr

/-- SYS_ADMIT_LAST (R505). -/
structure AdmitLast where
  budget : Byte
  opcode : BitVec 16
  item : Byte
deriving DecidableEq, Repr

/-! ### The whole state -/

/-- Everything the spec gives the machine, and the model's own fields of log entries 1, 2, 6 and 7. -/
structure State where
  /-- commands that wait, first in, first out -/
  pending : List Instr
  /-- always-on clock cycles of 40 ns counted by the idle step (log 2) -/
  aoCycles : Nat
  /-- counter that feeds the free values of Config (log 7) -/
  freeCtr : Nat
  /-- value that the last register or management read returned -/
  busRead : W64
  /-- bytes the device has written into host memory, in canonical form (log 6) -/
  hostMem : List Host.Cell
  hif : Hif
  pwr : Power
  boot : Boot
  health : Health
  tap : Tap
  clk : Clk
  proof : Proofing
  slices : Vector Slice 8
  carts : Vector Cart 8
  tb : Timebase
  tacs : Vector Tac 8
  timers : Vector Timer 8
  tus : Vector Tu 16
  /-- AUX edges that wait for the word of their samples, in order of arrival -/
  auxEdges : List AuxEdge
  seqs : Vector Seq 4
  trigCfg : W32
  trigouts : Vector TrigOut 2
  mem : Mem
  reds : Vector RedBank 8
  ddcs : Vector Ddc 8
  felts : Vector Felt 16
  masks : Vector Mask 64
  eng : Eng
  insts : Vector Inst 16
  brim : Brim
  upd : Upd
  cfg : Cfg
  acc : Acc
  admission : AdmitLast
deriving DecidableEq, Repr

/-- Why the machine stops with a fault. -/
inductive Fault where
  /-- Raised by the step when the command's operands are no command the hardware can receive (a slice word of other than
  40 codes, and the like; WellFormed.lean). Safe: nothing is claimed of such an operand. -/
  | illFormed
deriving DecidableEq, Repr

/-- Why a command is refused. -/
inductive Refusal where
  /-- Raised by Dispatch.lean for a command that has no meaning yet. Safe: nothing is claimed of it. -/
  | notModelled (mnemonic : String)
deriving DecidableEq, Repr

/-- Outputs of a core and their dividers at reset (R77); the bypass dividers are those of 80 GS/s (R85). -/
def synOuts (core : Nat) : Vector SynOut 16 :=
  Vector.ofFn fun i : Fin 16 =>
    let d : Option Nat :=
      if core ≤ 1 then
        if i.val ≤ 7 then some 1 else if i.val = 8 then some 20 else if i.val = 9 then some 50
        else if i.val ≤ 11 then some 40 else if i.val = 12 then some 80 else if i.val = 13 then some 20 else none
      else if core = 2 then
        if i.val ≤ 1 then some 5 else if i.val ≤ 6 then some 4 else if i.val = 7 then some 8 else none
      else if i.val ≤ 1 then some 68 else if i.val = 2 then some 20 else none
    match d with
    | some n => { divider := n, coarse := 0, fine := 0, enable := true }
    | none => { divider := 1, coarse := 0, fine := 0, enable := false }

/-- Band tables as the control firmware fills them from the factory characterisation at PERST# release (R72). -/
def factoryBands (core : Nat) : Vector BandEntry 32 :=
  Vector.ofFn fun i : Fin 32 =>
    { centreKhz := Config.bandCentre none core i.val, kvco := Config.bandKvco none core i.val,
      capCode := Config.bandCap none core i.val, valid := Config.bandValid none core i.val, verified := false, edited := false }

def Clk.reset : Clk :=
  { cond := 0, refret := false, refKhz := 100000, fsKhz := 80000000, condNow := 0, refKhzNow := 100000,
    fsKhzNow := 80000000, fsActual := 80000000000000, ni := 400, nf := 0, lockS := 0x10000414, lockF := 0x10000414,
    lockT := 0x10000414, lock := Vector.replicate 4 false, core := #v[.active, .bad], coreCoast := false, refCoast := false,
    fBypass := true, tCoast := false, refState := .start, applyBusy := false, applyRefused := false,
    bandFault := false, phaseAmbig := false, refJump := 0, refretNow := false, stepDelta := none,
    relockAt := none, lossAt := none, bands := Vector.ofFn fun c : Fin 4 => factoryBands c.val,
    selected := Vector.replicate 4 none, noBand := Vector.replicate 4 false,
    outs := Vector.ofFn fun c : Fin 4 => synOuts c.val, held := Vector.replicate 4 false, steers := 0, reband := none, csw := [], coast := [], steps := [] }

/-- The pass-through cartridge set (R106): tap 31 is 1.0. -/
def passThrough : List Int := List.replicate 31 0 ++ [0x4000] ++ List.replicate 32 0

/-- A lane-table entry as the factory stored it, or as the fit of index `n` leaves it (log 12). -/
def factoryLane (n l : Nat) : LaneEntry :=
  { offset := Config.laneOffset n l, gain := Config.laneGain n l, stageGain := (List.range 4).map (Config.laneStage n l),
    ditherGain := Config.laneDither n l }

/-- A position-table entry as the factory stored it, or as the fit of index `n` leaves it (log 12). -/
def factoryPos (n p : Nat) : PosEntry :=
  { skew := (List.range 16).map (Config.posSkew n p), eq := (List.range 16).map (Config.posEq n p) }

/-- A slice at reset. The spec gives SYS_LANE_RETIREDn and SYS_POS_INTERPn the stored value; a new module stores no retired lane and no
interpolated position (DESIGN CHOICE, log 8). -/
def Slice.reset (n : Nat) : Slice :=
  { laneMap := Vector.replicate 40 none, outLane := none, standby := [], rotRun := false, rotK := 0, rotBase := 0, blindK := 0,
    shadowPos := 0,
    shadowSince := 0, mismatch := none, retired := 0, interp := 0,
    laneTab := Vector.ofFn fun l : Fin 41 => factoryLane n l.val, posTab := Vector.ofFn fun p : Fin 40 => factoryPos n p.val,
    fracDelay := Config.fracDelay n, reconFit := 0,
    savedLane := Vector.ofFn fun l : Fin 41 => factoryLane n l.val, savedPos := Vector.ofFn fun p : Fin 40 => factoryPos n p.val,
    savedFrac := Config.fracDelay n, firActive := passThrough, firNext := none, firInactive := passThrough, substs := [],
    repairs := [], firPast := List.replicate 40 0, bus := 0, substWin := [],
    interpFrom := none, wornFrom := none, ovrLast := none, ovrCount := 0, ovrOn := false, ovrNow := false,
    blockClips := 0, words := 0, log := [], qual := [] }

def Activation.factory : Activation :=
  { gen := 0, state := .confirmed, trialBoots := 0, banks := 0, prevBanks := 0, manifestSlot := false,
    prevManifestSlot := false, settingsSlot := false, prevSettingsSlot := false, levels := 0, atTick := 0 }

/-- The factory set in bank A of every part (log 8). -/
def factoryBanks : Vector (Vector Bank 2) 6 :=
  Vector.ofFn fun p : Fin 6 =>
    #v[{ valid := true, image := Config.factoryImage p.val, hash := Config.sha384 (Config.factoryImage p.val),
         version := Config.factoryVersion p.val, factory := true },
       { valid := false, image := [], hash := [], version := 0, factory := false }]

def Upd.reset : Upd :=
  { state := .idle, lastCause := 0, settingsDefaulted := false, reverted := false, staging := [], progress := 0,
    pkgLen := none, manifestOk := false, chain := none, hostNew := false, fwdEast := none,
    fwdWest := none, passed := 0, writtenBanks := 0, act := Activation.factory, banks := factoryBanks,
    manifests := #v[Config.factoryManifest, []], updateAt := none, revertAt := none, deadlineTick := none,
    deadlineTimer := false, upperSwitching := false, svcImage := none, accepted := 0, refused := 0, ctrlNew := false }

def Cfg.reset : Cfg :=
  { slots := Vector.replicate 2 (Vector.replicate 2 CfgCopy.empty), slot := false, copyB := false, gen := 0,
    defaulted := false, restoring := false, saving := none, saveFails := 0, itemsSkipped := 0, bootRestore := true,
    inForce := [], toRestore := [], skipped := [] }

def Acc.reset : Acc :=
  { level := Vector.replicate 2 Level.reset, salt := [], pwHash := none, calEdited := false }

/-- The machine right after PERST# is released on a powered module (R12), with what log entries 8 to 14 name where the
spec gives no value. -/
def State.reset : State :=
  { pending := [], aoCycles := 0, freeCtr := 0, busRead := 0, hostMem := [], hif := Hif.reset, pwr := Power.reset,
    boot := Boot.reset, health := Health.reset, tap := Tap.reset, clk := Clk.reset, proof := Proofing.reset,
    slices := Vector.ofFn fun n : Fin 8 => Slice.reset n.val, carts := Vector.replicate 8 Cart.reset,
    tb := Timebase.reset, tacs := Vector.replicate 8 Tac.reset, timers := Vector.replicate 8 Timer.reset,
    tus := Vector.replicate 16 Tu.reset, auxEdges := [], seqs := Vector.replicate 4 Seq.reset, trigCfg := 0x081F081F,
    trigouts := Vector.replicate 2 TrigOut.reset, mem := Mem.reset, reds := Vector.replicate 8 RedBank.reset,
    ddcs := Vector.replicate 8 Ddc.reset, felts := Vector.replicate 16 Felt.reset,
    masks := Vector.replicate 64 Mask.reset, eng := Eng.reset, insts := Vector.replicate 16 Inst.reset,
    brim := Brim.reset, upd := Upd.reset, cfg := Cfg.reset, acc := Acc.reset,
    admission := { budget := 0, opcode := 0, item := 0 } }

end Sys2Proof.Machine
end

