-- ==== Sys2Proof/Machine/Ops.lean ====
section
/-!
DEFINITION. The operations that the meanings share: bytes and fields, host memory, sample numbers and TS96, statistics
counters, event records, interrupt vectors, completions, and the run of a queue command.
-/
namespace Sys2Proof.Machine

/-! ### Vectors -/

/-- Entry `i` replaced by `f` of it. -/
def upd {α : Type} {n : Nat} (v : Vector α n) (i : Fin n) (f : α → α) : Vector α n := v.set i.val (f v[i]) i.isLt

/-- A vector entry by a natural-number index, where there is one. -/
def getN {α : Type} {n : Nat} (v : Vector α n) (i : Nat) : Option α := if h : i < n then some v[i] else none

/-- Entry `i` replaced by `f` of it, where there is such an entry. -/
def updN {α : Type} {n : Nat} (v : Vector α n) (i : Nat) (f : α → α) : Vector α n :=
  if h : i < n then upd v ⟨i, h⟩ f else v

/-- `f` applied to the state for every index below `n`, in rising order. -/
def forAll (n : Nat) (f : Fin n → State → State) (s : State) : State := (List.finRange n).foldl (fun s i => f i s) s

/-! ### Bytes and fields (R7 to R9) -/

/-- `n` little-endian bytes of a number (R8). -/
def le : Nat → Nat → List Byte
  | 0, _ => []
  | n + 1, x => BitVec.ofNat 8 x :: le n (x / 256)

/-- The number that little-endian bytes spell (R8). -/
def unle : List Byte → Nat
  | [] => 0
  | b :: bs => b.toNat + 256 * unle bs

/-- `n` bytes of a record from an offset; bytes beyond its end read zero. -/
def slice (l : List Byte) (off n : Nat) : List Byte := ((l.drop off).take n) ++ List.replicate (n - (l.length - off)) 0

/-- Little-endian field of `n` bytes at an offset. -/
def fieldAt (l : List Byte) (off n : Nat) : Nat := unle (slice l off n)

/-- A number read as two's complement of `bits` bits (R9). -/
def signed (bits x : Nat) : Int := if x % 2 ^ bits < 2 ^ (bits - 1) then (x % 2 ^ bits : Nat) else (x % 2 ^ bits : Nat) - (2 ^ bits : Nat)

/-- Two's complement of a value in `bits` bits (R9). -/
def unsigned (bits : Nat) (x : Int) : Nat := (x % (2 ^ bits : Nat)).toNat

/-- Whether bit `i` of a number is set. -/
def bit (x i : Nat) : Bool := x.testBit i

/-- A flag as a bit of a word. -/
def flag (b : Bool) (i : Nat) : Nat := if b then 2 ^ i else 0

/-- Zero padding to `n` bytes; longer lists are cut. -/
def pad (n : Nat) (l : List Byte) : List Byte := (l ++ List.replicate (n - l.length) 0).take n

/-- Zero padding to a multiple of 64 bytes (R225, R363). -/
def pad64 (l : List Byte) : List Byte := l ++ List.replicate ((64 - l.length % 64) % 64) 0

/-- Eighty values: longer lists are cut, shorter ones filled with zeros. -/
def pad80 (l : List Int) : List Int := (l ++ List.replicate (80 - l.length) 0).take 80

/-- A list with `new` written over it from offset `off`; the length stays. -/
def patch (l : List Byte) (off : Nat) (new : List Byte) : List Byte :=
  ((l.take off) ++ new ++ l.drop (off + new.length)).take l.length

/-- The little end of CRC-32C, bit by bit (PRESUMED, log 17: Castagnoli polynomial, reflected, all-ones start and end). -/
def crcBit (c : W32) : W32 := if c.getLsbD 0 then (c >>> 1) ^^^ 0x82F63B78#32 else c >>> 1

/-- CRC-32C over a byte string (R53, R55, R384, R467). -/
def crc32c (l : List Byte) : W32 :=
  ~~~ (l.foldl (fun c b =>
    crcBit (crcBit (crcBit (crcBit (crcBit (crcBit (crcBit (crcBit (c ^^^ b.zeroExtend 32))))))))) (0xFFFFFFFF#32))

/-- A record whose last four bytes are the CRC-32C of the bytes before them. -/
def crcOk (l : List Byte) : Bool := unle (l.drop (l.length - 4)) == (crc32c (l.take (l.length - 4))).toNat

/-! ### Host memory (R371, log 6) -/

/-- Canonical form of host memory: addresses strictly rising and no byte equal to what an unlisted address reads as. -/
def Memory.wf : List Host.Cell → Bool
  | [] => true
  | (_, b) :: [] => b != 0
  | (a, b) :: (a', b') :: t => b != 0 && decide (a < a') && Memory.wf ((a', b') :: t)

/-- The byte at an address; an unlisted address reads zero (DESIGN CHOICE, log 6). -/
def Memory.read : List Host.Cell → Nat → Byte
  | [], _ => 0
  | (a', b') :: t, a => if a = a' then b' else Memory.read t a

/-- One byte written; writing zero removes the entry. -/
def Memory.write : List Host.Cell → Nat → Byte → List Host.Cell
  | [], a, b => if b = 0 then [] else [(a, b)]
  | (a', b') :: t, a, b =>
    if a < a' then (if b = 0 then (a', b') :: t else (a, b) :: (a', b') :: t)
    else if a = a' then (if b = 0 then t else (a, b) :: t)
    else (a', b') :: Memory.write t a b

/-- A byte string written from an address on; addresses wrap at 2^64. -/
def Memory.writeAll : List Host.Cell → Nat → List Byte → List Host.Cell
  | m, _, [] => m
  | m, a, b :: bs => Memory.writeAll (Memory.write m (a % 2 ^ 64) b) (a + 1) bs

/-- Bytes that the device writes into host memory, body and VALID field alike (R371, log 15). -/
def hostWrite (addr : Nat) (bytes : List Byte) (s : State) : State :=
  { s with hostMem := Memory.writeAll s.hostMem addr bytes }

/-! ### Sample numbers, lane-clock time and TS96 (R5, R100, R131, R521) -/

/-- Lane-clock time: slice words of SL0 delivered in this era (R32, log 3). -/
def lcNow (s : State) : Nat := s.slices[0].words

/-- The first sample of the lc that reaches the compute tiles in the present lc; sample number 0 before any exists
(R521). -/
def commitSample (s : State) : Nat := 40 * lcNow s

/-- The first sample of the lc after the present one; sample number 0 before any sample exists (R521). -/
def nextSample (s : State) : Nat := if lcNow s = 0 then 0 else 40 * (lcNow s + 1)

/-- One tick in units of 2^-24 Ts (R5). -/
def tick : Nat := 2 ^ 24

/-- Signed difference of two timestamps (R130). -/
def tsDiff (a b : TS96) : Int := (a - b).toInt

/-- A signed duration added to a timestamp (R130). -/
def tsAdd (a : TS96) (d : Int) : TS96 := a + BitVec.ofInt 96 d

/-- The mapping in force for a sample (R131): the newest whose REF_SN is not beyond it. -/
def mappingOf (maps : List Mapping) (n : Nat) : Mapping :=
  (maps.find? fun m => m.sn ≤ n).getD { sn := 0, ts := 0 }

/-- TS96 of a sample under the mapping in force for it among `maps` (R131). -/
def tsIn (maps : List Mapping) (n : Nat) : TS96 :=
  let m := mappingOf maps n
  m.ts + BitVec.ofNat 96 ((n - m.sn) * tick)

/-- TS96 of a sample (R131). -/
def tsOf (s : State) (n : Nat) : TS96 := tsIn s.tb.maps n

/-- The present TS96: that of the sample that reaches the compute tiles now (R516). -/
def tsNow (s : State) : TS96 := tsOf s (commitSample s)

/-- First sample from `lo` on whose TS96 under one mapping is at or after `t`. -/
def firstUnder (m : Mapping) (lo : Nat) (t : TS96) : Nat :=
  max (max lo m.sn) (m.sn + ((tsDiff t m.ts).toNat + tick - 1) / tick)

/-- First sample from `lo` on whose TS96, under the mapping in force for it, is at or after `t` (R133, R134); `next` is the first sample
under a newer mapping. -/
def firstIn (lo : Nat) (t : TS96) : List Mapping → Option Nat → Option Nat
  | [], _ => none
  | m :: ms, next =>
    match (if m.sn ≤ lo then none else firstIn lo t ms (some m.sn)) with
    | some n => some n
    | none => if next.any fun k => decide (k ≤ firstUnder m lo t) then none else some (firstUnder m lo t)

/-- First sample from `lo` on whose TS96 is at or after `t`. -/
def firstFrom (s : State) (lo : Nat) (t : TS96) : Nat := (firstIn lo t s.tb.maps none).getD lo

/-- REF_SN of the mapping that PERST#, an APPLY or an epoch set last. -/
def epochStart (s : State) : Nat := ((s.tb.maps.find? fun m => !m.step).map (·.sn)).getD 0

/-- First sample since the last epoch whose TS96 is at or after `t`. -/
def firstAt (s : State) (t : TS96) : Nat := firstFrom s (epochStart s) t

/-- The trigger sample of an instant (R140): the latest sample at or before it, with the choices of R217 at a step. `next`
is the first sample under a newer mapping. -/
def triggerSampleIn : List Mapping → Option Nat → TS96 → Option Nat
  | [], _, _ => none
  | m :: ms, next, t =>
    if 0 ≤ tsDiff t m.ts then
      let k := m.sn + (tsDiff t m.ts).toNat / tick
      some (match next with | some n => min k (n - 1) | none => k)
    else triggerSampleIn ms (some m.sn) t

/-- The trigger sample of an instant, or sample 0 where it lies before every mapping. -/
def triggerSample (s : State) (t : TS96) : Nat := (triggerSampleIn s.tb.maps none t).getD 0

/-! ### What the device stamps as samples arrive (R94, R145, R520) -/

/-- A whole tick count as TS96. -/
def ticksTs (v : BitVec 72) : TS96 := (v.zeroExtend 96) <<< 24

/-- The epoch whose commit sample is known: in AT_TICK mode the first sample whose TS96, under the mapping in force when it is taken, is at
or after X (R134), in SYNCIN mode from the edge (R520); with it V. -/
def knownEpoch (s : State) : Option (EpochWait × BitVec 72) :=
  match s.tb.arming with
  | none => none
  | some a =>
    if a.atTick then
      let n := firstFrom s a.since (ticksTs a.x)
      some ({ map := { sn := n, ts := ticksTs a.v, acts := n }, commit := n, atTick := true }, a.v)
    else s.tb.wait.map fun w => (w, a.v)

/-- An epoch's mapping put among the others (R133): a step at a later sample keeps its Δ on the new timebase. -/
def insertEpoch (w : Mapping) (maps : List Mapping) : List Mapping :=
  let d := w.ts - tsIn maps w.sn
  ((maps.filter fun m => decide (w.sn < m.sn)).map fun m => { m with ts := m.ts + d }) ++ w :: maps.filter fun m => decide (m.sn ≤ w.sn)

/-- The mappings as they are for what happens at sample `n`: an epoch whose commit sample is at or before it acts already (R520). -/
def mapsFor (s : State) (n : Nat) : List Mapping :=
  match knownEpoch s with
  | some (w, _) => if w.commit ≤ n then insertEpoch w.map s.tb.maps else s.tb.maps
  | none => s.tb.maps

/-- The mapping under which what arrives with sample `n` is stamped (R145, R520). -/
def arrivalMap (s : State) (n : Nat) : Mapping :=
  ((mapsFor s n).find? fun m => decide (m.sn ≤ n ∧ m.acts ≤ n)).getD { sn := 0, ts := 0 }

/-- TS96 of an instant under a mapping, the instant in 2^-24 sample periods from sample number 0. -/
def posTs (m : Mapping) (pos : Int) : TS96 := tsAdd m.ts (pos - (m.sn * tick : Nat))

/-- TS96 of sample `n` for what is stamped as it arrives. -/
def tsArrival (s : State) (n : Nat) : TS96 := posTs (arrivalMap s n) (n * tick : Nat)

/-- The latest sample at or before an instant. -/
def posSample (pos : Int) : Nat := (pos / tick).toNat

/-- The first sample at or after an instant. -/
def posCeil (pos : Int) : Nat := ((pos + tick - 1) / tick).toNat

/-- `n` is the commit sample of an epoch (R520). -/
def commitAt (s : State) (n : Nat) : Bool :=
  (s.tb.maps.any fun m => !m.step && m.acts == n) || ((knownEpoch s).any fun w => w.1.commit == n)

/-- Achieved fs in mHz (R69). -/
def fsMilli (s : State) : Nat := s.clk.fsActual.toNat

/-- A time in ns converted to whole ticks (R129). -/
def nsToTicks (s : State) (ns : Nat) : Nat := ns * fsMilli s / 10 ^ 12

/-- A time in fs converted to units of 2^-24 Ts, to the nearest (R137). -/
def fsToUnits (s : State) (fs : Int) : Int := (fs * (fsMilli s : Int) * (tick : Int) + 5 * 10 ^ 17) / 10 ^ 18

/-- Units of 2^-24 Ts converted to fs. -/
def unitsToFs (s : State) (u : Int) : Int := if fsMilli s = 0 then 0 else u * 10 ^ 18 / ((fsMilli s : Int) * (tick : Int))

/-- The TS96 as twelve little-endian bytes (R5). -/
def tsBytes (t : TS96) : List Byte := le 12 t.toNat

/-! ### Free values and statistics counters -/

/-- The counter value for a free value, and the state with the counter advanced (log 7). -/
def fresh (s : State) : Nat × State := (s.freeCtr, { s with freeCtr := s.freeCtr + 1 })

/-- Largest value of a statistics counter (R237). -/
def statMax : Nat := 2 ^ 64 - 1

/-- A statistics counter advanced by `k`: it sticks at its maximum (R237). -/
def statAdd (c k : Nat) : Nat := min statMax (c + k)

/-- Whether the advance makes the counter stick for the first time (R237). -/
def statSticks (c k : Nat) : Bool := decide (c < statMax) && decide (statMax ≤ c + k)

/-- A count that sticks at the maximum of its narrower field (R222, R238). -/
def stick (bits x : Nat) : Nat := min x (2 ^ bits - 1)

/-! ### Interrupt vectors and event records (R367 to R370, R514 to R518) -/

/-- DMA is possible: the link in L0, not in Recovery, and Bus Master Enable set (R339). -/
def dma (s : State) : Bool := s.hif.linkUp && !s.hif.linkRecovery && s.hif.busMaster

/-- A vector becomes pending (R370). -/
def pendVector (v : Fin 64) (s : State) : State :=
  { s with hif := { s.hif with vecs := upd s.hif.vecs v fun x => { x with pending := true } } }

/-- A vector named by a six-bit field. -/
def vecIndex (v : BitVec 6) : Fin 64 := v.toFin

/-- One source of the event ring changed. -/
def updSource (src : Fin 256) (f : EvSource → EvSource) (s : State) : State :=
  { s with hif := { s.hif with ev := { s.hif.ev with src := upd s.hif.ev.src src f } } }

/-- An event joined to what its source already holds (R369): counted, with the first and last TS96 kept. The severity of a summary of
events that differ in theirs is open (log 24). -/
def coalesce (sev : Byte) (ts : TS96) (e : EvSource) : EvSource :=
  if e.pending = 0 then { e with pending := 1, firstTs := ts, lastTs := ts, sumSev := sev }
  else { e with pending := statAdd e.pending 1, lastTs := ts,
                sumSev := if e.sumSev = sev then sev else Config.mixedSeverity e.sumSev sev }

/-- What a source keeps of an event that may be written (R369, R514). -/
def acceptEvent (src : Fin 256) (overflow : Bool) (sev : Byte) (ts : TS96) (data : List Byte) (e : EvSource) : EvSource :=
  if e.waiting.isSome || overflow then coalesce sev ts e
  else { e with waiting := some { source := BitVec.ofNat 8 src.val, severity := sev, ts := ts, data := pad 16 data,
                                  vector := e.map.truncate 6, irq := e.map.getLsbD 6 } }

/-- An event is raised (R367, R369, R518). With the ring disabled it is dropped, unless it is a boot report, which its source
holds; with the source disabled it is dropped uncounted. -/
def raiseWith (boot : Bool) (src : Fin 256) (sev : Nat) (ts : TS96) (data : List Byte) (s : State) : State :=
  let e := s.hif.ev.src[src]
  if s.hif.ev.enable then
    if e.map.getLsbD 7 then updSource src (acceptEvent src s.hif.ev.overflow (BitVec.ofNat 8 sev) ts data) s else s
  else if boot then updSource src (fun e => { acceptEvent src false (BitVec.ofNat 8 sev) ts data e with held := true }) s
  else s

/-- An ordinary event (R519): source, severity, TS96 and DATA. -/
def raise (src : Fin 256) (sev : Nat) (ts : TS96) (data : List Byte) (s : State) : State := raiseWith false src sev ts data s

/-- A boot report (R518). -/
def raiseBoot (src : Fin 256) (sev : Nat) (data : List Byte) (s : State) : State := raiseWith true src sev (tsNow s) data s

/-- An event with the default TS96 of R516. -/
def raiseNow (src : Fin 256) (sev : Nat) (data : List Byte) (s : State) : State := raise src sev (tsNow s) data s

/-- The event source `base + i` (R519). -/
def srcId (base i : Nat) : Fin 256 := Fin.ofNat 256 (base + i)

/-! Severities (R515). -/
def sevInfo : Nat := 0
def sevNotice : Nat := 1
def sevWarning : Nat := 2
def sevError : Nat := 3
def sevCritical : Nat := 4

/-- Records of the event ring that are free (R369). -/
def evFree (r : EvRing) : Nat := 2 ^ r.log2 - (r.prod - r.released).toNat

/-- One 32-byte record written at the producer (R368), with its interrupt (R370). FLAGS goes last (log 15). -/
def putRecord (ev : Event) (coalesced : Bool) (s : State) : State :=
  let r := s.hif.ev
  let phase := !(bit r.prod.toNat r.log2)
  let addr := (r.base.toNat / 4096) * 4096 + 32 * (r.prod.toNat % 2 ^ r.log2)
  let rec0 := [ev.source, ev.severity, BitVec.ofNat 8 (flag phase 0 + flag coalesced 1), BitVec.ofNat 8 r.prod.toNat]
    ++ tsBytes ev.ts ++ pad 16 ev.data
  let s := hostWrite addr rec0 s
  let r' := { r with prod := r.prod + 1 }
  let s := { s with hif := { s.hif with ev := { r' with overflow := r.overflow || decide (evFree r' < 256) } } }
  if ev.irq then pendVector (vecIndex ev.vector) s else s

/-- The summary of a source with a non-zero PENDING is written and its count cleared (R369). -/
def putSummary (src : Fin 256) (s : State) : State :=
  let e := s.hif.ev.src[src]
  if e.pending = 0 then s
  else
    let ev : Event := { source := BitVec.ofNat 8 src.val, severity := e.sumSev, ts := e.firstTs,
                        data := le 8 e.pending ++ le 8 e.lastTs.toNat, vector := e.map.truncate 6,
                        irq := e.map.getLsbD 6 }
    putRecord ev true (updSource src (fun e => { e with pending := 0 }) s)

/-- Overflow ends when 512 records are free: one summary for every source with a count, in ascending order (R369). -/
def leaveOverflow (s : State) : State :=
  if s.hif.ev.overflow && decide (512 ≤ evFree s.hif.ev) then
    let s := { s with hif := { s.hif with ev := { s.hif.ev with overflow := false } } }
    forAll 256 putSummary s
  else s

/-! ### Powered blocks (R44, R46, R415) -/

/-- The main rails are up and PERST# is released: everything outside the always-on domain runs. -/
def live (s : State) : Bool := s.pwr.railsOn && s.pwr.railGroup == 10 && !s.pwr.perst

/-- A block held in reset, or without power, takes no command (R46). -/
def whenLive (s : State) (k : Host.Outcome State Fault Refusal) : Host.Outcome State Fault Refusal :=
  if live s then k else .next s

/-- The host reaches the function's configuration space and BARs: the device is live and its control complex has been ready (R46, R513). -/
def reachable (s : State) : Bool := live s && s.boot.reached

/-- An access of the host before that gets Retry Status or finds no BAR (R46, R513). -/
def whenReachable (s : State) (k : Host.Outcome State Fault Refusal) : Host.Outcome State Fault Refusal :=
  if reachable s then k else .next s

/-! ### Time-to-amplitude converters -/

/-- One TAC changed. -/
def updTac (n : Fin 8) (f : Tac → Tac) (s : State) : State := { s with tacs := upd s.tacs n f }

/-- A TAC's input has not been idle until now (R151). -/
def notIdle (n : Fin 8) (s : State) : State := updTac n (fun t => { t with quietSince := s.aoCycles }) s

/-! ### In-service test (R431, R432) -/

/-- The in-service test changed. -/
def updHealth (f : Health → Health) (s : State) : State := { s with health := f s.health }

/-- Parts that make up an item of R431: slices, TACs, pairs of clusters, banks; SerDes lanes in the codes of R519. -/
def istAll (item : Fin 8) : W32 :=
  if item = 0 ∨ item = 1 ∨ item = 3 ∨ item = 4 then 0xFF else if item = 5 then 0xFFFF000F else 1

/-- One hour in always-on cycles. -/
def hourCycles : Nat := 90000000000

/-- IST_CYCLE (R432): every item has completed since the last one, at most once per hour. -/
def istCycle (s : State) : State :=
  let h := s.health
  let due := match h.istCycleAt with
    | some t => decide (hourCycles ≤ s.aoCycles - t)
    | none => true
  if h.istDone == 0xFF && due then
    raiseNow 0xF8 sevInfo (le 2 (h.istCycles + 1).toNat)
      (updHealth (fun h => { h with istDone := 0, istCycles := h.istCycles + 1, istCycleAt := some s.aoCycles }) s)
  else s

/-- A part of an item is done; with the last part the item completes, and STARVED clears (R432). -/
def istPart (item : Fin 8) (part : Nat) (s : State) : State :=
  let parts := s.health.istParts[item] ||| BitVec.ofNat 32 (2 ^ part)
  if parts &&& istAll item = istAll item then
    istCycle (updHealth (fun h => { h with
      istParts := h.istParts.set item 0, istStarved := h.istStarved &&& ~~~(BitVec.ofNat 8 (2 ^ item.val)),
      istDone := h.istDone ||| BitVec.ofNat 8 (2 ^ item.val) }) s)
  else updHealth (fun h => { h with istParts := h.istParts.set item parts }) s

/-- An item reports a failure or a repair (R432). -/
def istFail (item : Fin 8) (s : State) : State :=
  updHealth (fun h => { h with istFailed := h.istFailed ||| BitVec.ofNat 8 (2 ^ item.val) }) s

/-! ### Queue pairs and completions (R347 to R355) -/

/-- One queue pair changed. -/
def updQp (n : Fin 64) (f : QPair → QPair) (s : State) : State :=
  { s with hif := { s.hif with qps := upd s.hif.qps n f } }

/-- A queue pair's tag history looked up (R355). -/
def tagOf (q : QPair) (tag : W32) : Option TagEntry := q.history.find? fun e => e.tag == tag

/-- A queue pair's tag history with one entry changed. -/
def setTag (tag : W32) (f : TagEntry → TagEntry) (q : QPair) : QPair :=
  { q with history := q.history.map fun e => if e.tag == tag then f e else e }

/-- The bytes of a completion (R352). -/
def compBytes (c : Comp) (attempt sqHead : Nat) (phase : Bool) : List Byte :=
  le 4 c.tag.toNat ++ le 2 c.status ++ [BitVec.ofNat 8 attempt, c.detail] ++ le 2 sqHead ++ le 2 c.opcode.toNat
    ++ pad 16 c.result ++ le 4 (flag phase 0)

/-- A completion is written at the CQ tail (R348, R352), its vector marked (R370), the tail advanced and the phase toggled
at the wrap. -/
def writeComp (n : Fin 64) (c : Comp) (s : State) : State :=
  let q := s.hif.qps[n]
  let attempt := match tagOf q c.tag with | some e => e.attempt | none => 1
  let addr := (q.cqBase.toNat / 4096) * 4096 + 32 * q.cqTail
  let s := hostWrite addr (compBytes c attempt q.sqHead q.phase) s
  let wraps := decide (2 ^ q.cqLog2 ≤ q.cqTail + 1)
  let s := updQp n (fun q =>
    setTag c.tag (fun e => { e with written := some (q.sqHead, q.phase) })
      { q with cqTail := if wraps then 0 else q.cqTail + 1, unreleased := q.unreleased + 1,
               phase := if wraps then !q.phase else q.phase }) s
  if q.irqEn then pendVector (vecIndex q.vector) s else s

/-- A completion is posted: at once, or later while no DMA is possible (R339). The history holds it from now on (R355). -/
def postComp (n : Fin 64) (c : Comp) (s : State) : State :=
  let s := updQp n (setTag c.tag fun e => { e with state := .done, comp := some c }) s
  if dma s then writeComp n c s else updQp n (fun q => { q with waiting := q.waiting ++ [c] }) s

/-- Completions that waited for DMA are written in order (R339). -/
def flushComps (n : Fin 64) (s : State) : State :=
  let w := s.hif.qps[n].waiting
  w.foldl (fun s c => writeComp n c s) (updQp n (fun q => { q with waiting := [] }) s)

/-- A fetched descriptor leaves the queue pair and its completion is posted. -/
def finish (n : Fin 64) (tag : W32) (status detail : Nat) (result : List Byte) (s : State) : State :=
  match s.hif.qps[n].fetched.find? fun f => f.tag == tag with
  | none => s
  | some f =>
    let s := updQp n (fun q => { q with fetched := q.fetched.filter fun g => g.tag != tag }) s
    postComp n { tag := tag, status := status, detail := BitVec.ofNat 8 detail, opcode := f.opcode,
                 result := pad 16 result } s

/-- The fetched command that waits for another step, by opcode and key. -/
def findWait (op key : Nat) (s : State) : Option (Fin 64 × W32) :=
  (List.finRange 64).findSome? fun n =>
    ((s.hif.qps[n].fetched.find? fun f => f.opcode.toNat == op && f.xfer == some (.wait key)).map fun f => (n, f.tag))

/-- The completion of a command that waits for another step. -/
def finishWait (op key status detail : Nat) (result : List Byte) (s : State) : State :=
  match findWait op key s with
  | some (n, tag) => finish n tag status detail result s
  | none => s

/-! ### Running a queue command (R350, R351, R356, R410, R477, R478) -/

/-- Completion statuses (R353). -/
def stSuccess : Nat := 0x0000
def stInvalid : Nat := 0x0001
def stBusy : Nat := 0x0002
def stCapacity : Nat := 0x0003
def stNotFound : Nat := 0x0004
def stRange : Nat := 0x0005
def stNoSpace : Nat := 0x0006
def stUnsupported : Nat := 0x0007
def stHostMem : Nat := 0x0008
def stDenied : Nat := 0x0009
def stAborted : Nat := 0x000A
def stAuthFailed : Nat := 0x000B
def stAuthDelay : Nat := 0x000C
def stState : Nat := 0x000D
def stVerifyFailed : Nat := 0x000E
def stInternal : Nat := 0x000F

/-- What a command is called with: its descriptor (R351) and the bytes at PARAM_ADDR. -/
structure Call where
  desc : List Byte
  block : List Byte
  restore : Bool

/-- What the check and commit of a command answer: done with a RESULT, a transfer started, or refused with a status, DETAIL,
RESULT and the ITEM for SYS_ADMIT_LAST. `refuseIn` is a refusal that leaves a trace of its own in the state. -/
inductive Reply where
  | ok (s : State) (result : List Byte)
  | start (s : State) (x : Xfer) (result : List Byte)
  | refuse (status detail : Nat) (result : List Byte) (item : Nat)
  | refuseIn (s : State) (status detail : Nat) (result : List Byte)

/-- A refusal without RESULT. -/
def refuse (status detail : Nat) : Reply := .refuse status detail [] 0

/-- Opcodes that RESTORING refuses with BUSY: every SET_ command, TIMER_SET, ARM, STREAM_OPEN, CFG_SAVE, CFG_LOAD (R477). -/
def busyInRestore (op : Nat) : Bool :=
  decide (0x0010 ≤ op ∧ op ≤ 0x0018) || op == 0x0025 || op == 0x0020 || op == 0x0033 || op == 0x0040 || op == 0x0041

/-- Opcodes that RESCUE accepts (R410). -/
def rescueOpcode (op : Nat) : Bool :=
  op == 0x0001 || op == 0x0002 || decide (0x0050 ≤ op ∧ op ≤ 0x0054) || decide (0x0060 ≤ op ∧ op ≤ 0x0064)

/-- Commits go on: READY, not failed, not restarting, not paused (R375, R376, R409, R412). -/
def committing (s : State) : Bool :=
  s.boot.ready && !s.boot.ccFailed && s.boot.restarting.isNone && !s.hif.cmdPaused

/-- The descriptor that a queue pair commits next: its oldest uncommitted one, once its FENCE is satisfied (R350, R351). -/
def nextCommit (q : QPair) : Option Fetched :=
  match q.fetched.find? fun f => !f.committed with
  | none => none
  | some f => if f.fence && q.fetched.any (fun g => g.committed) then none else some f

/-- SYS_ADMIT_LAST after a refusal (R505). -/
def admitRefusal (op : Nat) (status detail item : Nat) (s : State) : State :=
  if status = stCapacity then
    { s with admission := { budget := BitVec.ofNat 8 detail, opcode := BitVec.ofNat 16 op, item := BitVec.ofNat 8 item } }
  else s

/-- A command commits on a queue pair (R350): its completion is posted, or it is held as committed while its transfer runs. -/
def settle (n : Fin 64) (f : Fetched) (op : Nat) (r : Reply) (s : State) : State :=
  match r with
  | .ok s' result => finish n f.tag stSuccess 0 result s'
  | .start s' x result =>
    updQp n (fun q => setTag f.tag (fun e => { e with state := .committed })
      { q with fetched := q.fetched.map fun g =>
          if g.tag == f.tag then { g with committed := true, xfer := some x, result := result } else g }) s'
  | .refuse status detail result item => finish n f.tag status detail result (admitRefusal op status detail item s)
  | .refuseIn s' status detail result => finish n f.tag status detail result s'

/-- A restore item that its command refuses is skipped (R478). -/
def skipItem (it : CfgItem) (status detail : Nat) (s : State) : State :=
  let first := s.cfg.itemsSkipped = 0
  let s := { s with cfg := { s.cfg with itemsSkipped := stick 8 (s.cfg.itemsSkipped + 1),
                                        skipped := (it.kind, it.index) :: s.cfg.skipped } }
  if first then
    raiseNow 0xF0 sevWarning
      ([0x01, BitVec.ofNat 8 (if status = stCapacity then detail else 0)] ++ le 2 it.kind.toNat
        ++ [BitVec.ofNat 8 it.index, 0] ++ le 2 status ++ le 8 s.cfg.gen.toNat) s
  else s

/-- The item of a restore whose turn it is, if it is one of this command (R477). -/
def restoreItem (op : Nat) (s : State) : Option CfgItem :=
  match s.cfg.toRestore with
  | it :: _ => if s.cfg.restoring && it.kind.toNat == op then some it else none
  | [] => none

/-- The items that an item names: units, sequencers and instances (R478). `depends` of the caller lists them. -/
def dependsSkipped (deps : List (Nat × Nat)) (s : State) : Bool :=
  deps.any fun d => s.cfg.skipped.any fun k => k.1.toNat == d.1 && k.2 == d.2

/-! ### Settings in force (R471, R474) -/

/-- An item put into a list under its KIND and INDEX. -/
def putItem (it : CfgItem) (l : List CfgItem) : List CfgItem :=
  it :: l.filter fun x => !(x.kind == it.kind && x.index == it.index)

/-- Fields of a SET_DDC block that a group covers (R357, R358). -/
def groupFields : List (Nat × Nat) := [(0, 1), (1, 4), (5, 1), (6, 2), (8, 3), (11, 12)]

/-- A SET_DDC block over the one in force: groups that it leaves out keep their fields, and with them the FIR set (DEDUCED,
log 52). Both are blocks of 216 bytes, the coefficient set after them. -/
def mergeDdc (old new : List Byte) : List Byte :=
  let g := fieldAt new 0x0C 4
  let block := groupFields.zipIdx.foldl (fun b x =>
    if bit g x.2 then b else patch b (0x20 + 8 * x.1.1) (slice old (0x20 + 8 * x.1.1) (8 * x.1.2))) (new.take 216)
  patch block 0x0C (le 4 (g ||| fieldAt old 0x0C 4)) ++ (if bit g 3 then new.drop 216 else old.drop 216)

/-- The item in force of a KIND and INDEX. -/
def findItem (kind index : Nat) (l : List CfgItem) : Option CfgItem :=
  l.find? fun x => x.kind.toNat == kind && x.index == index

/-- An accepted setting joins those in force (R471, R474): a block command with its block, SET_MEMORY and TIMER_SET with their 40
bytes of ARGS (for SET_MEMORY DEDUCED, log 52). A SET_MASK waits under a KIND of its own until its raster is done. -/
def noteSetting (op : Nat) (desc block : List Byte) (s : State) : State :=
  let args := pad 40 (desc.drop 0x18)
  let put := fun (kind index : Nat) (payload : List Byte) =>
    { s with cfg := { s.cfg with
      inForce := putItem { kind := BitVec.ofNat 16 kind, index := index, payload := payload } s.cfg.inForce } }
  if op = 0x0010 then put op 0 args
  else if op = 0x0025 then (if fieldAt args 0 1 = 0xFF then s else put op (fieldAt args 0 1) (patch args 7 [0]))
  else if op = 0x0014 then
    put op (fieldAt block 2 1) (match findItem op (fieldAt block 2 1) s.cfg.inForce with
      | some x => mergeDdc x.payload block
      | none => block)
  else if op = 0x0016 then put 0x8016 (fieldAt block 2 1) block
  else if 0x0011 ≤ op ∧ op ≤ 0x0018 then put op (fieldAt block 2 1) block
  else s

/-- A SET_MASK whose raster is done joins the settings in force, or is forgotten (R290, R471). -/
def settleMask (m : Nat) (accepted : Bool) (s : State) : State :=
  match findItem 0x8016 m s.cfg.inForce with
  | none => s
  | some x =>
    let rest := s.cfg.inForce.filter fun y => !(y.kind == x.kind && y.index == x.index)
    { s with cfg := { s.cfg with inForce := if accepted then putItem { x with kind := 0x0016#16 } rest else rest } }

/-- What an accepted command leaves among the settings in force. -/
def noteReply (op : Nat) (desc block : List Byte) (r : Reply) : Reply :=
  match r with
  | .ok s result => .ok (noteSetting op desc block s) result
  | .start s x result => .start (noteSetting op desc block s) x result
  | r => r

/-- A restore item applied as if the command had come from the host (R477, R478). -/
def runItem (op : Nat) (deps : Call → List (Nat × Nat)) (f : Call → State → Reply) (s : State) : State :=
  match restoreItem op s with
  | none => s
  | some it =>
    let s := { s with cfg := { s.cfg with toRestore := s.cfg.toRestore.drop 1 } }
    let c : Call := { desc := List.replicate 24 0 ++ it.payload, block := it.payload, restore := true }
    if dependsSkipped (deps c) s then skipItem it stInvalid 0 s
    else match noteReply op c.desc c.block (f c s) with
      | .ok s' _ => s'
      | .start s' _ _ => s'
      | .refuse status detail _ item => skipItem it status detail (admitRefusal op status detail item s)
      | .refuseIn s' status detail _ => skipItem it status detail s'

/-- Every queue command runs here: the gate of R350, R351, R375, R376 and R410, the BUSY of a restore (R477), and then the
command's own check and commit `f`. Where no such command can commit, the state stays (log 4). -/
def runCmd (o : Origin) (op : Nat) (block : List Byte) (deps : Call → List (Nat × Nat)) (f : Call → State → Reply)
    (s : State) : State :=
  match o with
  | .restore => runItem op deps f s
  | .host n =>
    let q := s.hif.qps[n]
    match nextCommit q with
    | none => s
    | some g =>
      if committing s && q.state == .running && g.opcode.toNat == op then
        if s.boot.stage == .rescue && !rescueOpcode op then settle n g op (refuse stUnsupported 0) s
        else if s.cfg.restoring && busyInRestore op then settle n g op (refuse stBusy 0) s
        else settle n g op (noteReply op g.desc block (f { desc := g.desc, block := block, restore := false } s)) s
      else s

/-- One cycle of 40 ns of the always-on clock (R46, log 2): only the count of those cycles moves. -/
def idle (s : State) : State := { s with aoCycles := s.aoCycles + 1 }

/-- No dependencies (R478). -/
def noDeps : Call → List (Nat × Nat) := fun _ => []

end Sys2Proof.Machine
end

