-- ==== Sys2Proof/Machine/Operands.lean ====
section
/-!
DEFINITION. Operand forms: the inline arguments of R361, the parameter blocks of R312 and R357 to R360 with the range of
every field. A parser answers the first offending field (DETAIL of INVALID, R352) or the settings the block spells.
-/
namespace Sys2Proof.Machine

/-! ### Headers and fields -/

/-- PARAM_ADDR of a descriptor (R351). -/
def paramAddr (d : List Byte) : Nat := fieldAt d 0x08 8

/-- PARAM_LEN of a descriptor (R351). -/
def paramLen (d : List Byte) : Nat := fieldAt d 0x10 4

/-- A one-byte argument (R361). -/
def arg1 (c : Call) (off : Nat) : Nat := fieldAt c.desc off 1

/-- An argument of `n` bytes (R361). -/
def argN (c : Call) (off n : Nat) : Nat := fieldAt c.desc off n

/-- A TS96 argument (R361). -/
def argTs (c : Call) (off : Nat) : TS96 := BitVec.ofNat 96 (argN c off 12)

/-- Field `k` of a parameter block: the eight-byte word at 0x20 + 8k (R357). -/
def fld (b : List Byte) (k : Nat) : Nat := fieldAt b (0x20 + 8 * k) 8

/-- A signed field (R357). -/
def sfld (b : List Byte) (k : Nat) : Int := signed 64 (fld b k)

/-- A value in 2^-24 Ts, which takes two fields (R357). -/
def wideFld (b : List Byte) (k : Nat) : Int := signed 96 (fieldAt b (0x20 + 8 * k) 12)

/-- A condition on field `k`: where it fails, `k` is the DETAIL of INVALID (R352). -/
def need (ok : Bool) (k : Nat) : Except Nat Unit := if ok then .ok () else .error k

/-- No field of a list of like fields is bad: the first bad one, counted from field `k`, is the DETAIL (R352). -/
def needNone (bad : Option Nat) (k : Nat) : Except Nat Unit :=
  match bad with
  | some i => .error (k + i)
  | none => .ok ()

/-- `lo ≤ x ≤ hi`. -/
def within (lo x hi : Nat) : Bool := decide (lo ≤ x ∧ x ≤ hi)

/-- `lo ≤ x ≤ hi` for signed values. -/
def iwithin (lo x hi : Int) : Bool := decide (lo ≤ x ∧ x ≤ hi)

/-- The interface version of every block (R312, R344, R357). -/
def ifVersion1 : Nat := 0x00010000

/-- The header check of R357, in its order: KIND and LENGTH, then IF_VERSION. A block with fewer than `fields` fields
disagrees with its command as well (DEDUCED, log 18). `none` means that the header passes. -/
def headerFault (op fields : Nat) (c : Call) : Option Reply :=
  let len := fieldAt c.block 0x08 4
  if fieldAt c.block 0 2 ≠ op ∨ (!c.restore ∧ len ≠ paramLen c.desc) ∨ len < 0x20 + 8 * fields then
    some (refuse stInvalid 0xFF)
  else if fieldAt c.block 4 4 ≠ ifVersion1 then some (refuse stUnsupported 0)
  else none

/-- ITEM of a block header (R357). -/
def item (b : List Byte) : Nat := fieldAt b 2 1

/-- A block command: the header check, the range checks, then the rest of the command. -/
def withBlock {α : Type} (op fields : Nat) (parse : List Byte → Except Nat α) (c : Call) (k : α → Reply) : Reply :=
  match headerFault op fields c with
  | some r => r
  | none => match parse c.block with
    | .error d => refuse stInvalid d
    | .ok x => k x

/-! ### Trigger units (R166, R169, R170, R359, R360) -/

/-- The type of a TYPE code (R359). -/
def tuType : Nat → Option TuType
  | 0 => some .edge | 1 => some .window | 2 => some .pulseWidth | 3 => some .runt | 4 => some .timeout
  | 5 => some .slew | 6 => some .pattern | 7 => some .sequence | 8 => some .filtered | 9 => some .spectral
  | _ => none

/-- The TYPE code of a type (R359). -/
def tuTypeCode : TuType → Nat
  | .edge => 0 | .window => 1 | .pulseWidth => 2 | .runt => 3 | .timeout => 4
  | .slew => 5 | .pattern => 6 | .sequence => 7 | .filtered => 8 | .spectral => 9

/-- Source codes (R360) by kind. -/
def isChannel (s : Nat) : Bool := decide (s ≤ 7)
def isAux (s : Nat) : Bool := within 0x10 s 0x13
def isDdcSource (s : Nat) : Bool := within 0x20 s 0x2F
def isSpectralSource (s : Nat) : Bool := within 0x30 s 0x4F
def isMeasureSource (s : Nat) : Bool := within 0x50 s 0x5F
def isAverageSource (s : Nat) : Bool := within 0x60 s 0x63
def isBrimSource (s : Nat) : Bool := within 0x80 s 0x8F
/-- Sources that deliver events instead of a signal (R166). -/
def isEventSource (s : Nat) : Bool :=
  isDdcSource s || isSpectralSource s || isMeasureSource s || isAverageSource s || isBrimSource s

/-- The sources that a type accepts (R166). -/
def acceptsSource (t : TuType) (s : Nat) : Bool :=
  match t with
  | .edge => isChannel s || isAux s || isMeasureSource s || isAverageSource s || isBrimSource s
  | .pulseWidth | .timeout => isChannel s || isAux s
  | .window | .runt | .slew => isChannel s
  | .pattern | .sequence => true
  | .filtered => isDdcSource s
  | .spectral => isSpectralSource s

/-- Codes that SENSE has for a type (R359). -/
def senseMax : TuType → Nat
  | .edge | .slew | .window | .timeout | .pattern => 2
  | .pulseWidth | .runt => 1
  | _ => 2

/-- Types that compare a span (R169, R170). -/
def comparesSpan (t : TuType) (sense : Nat) : Bool :=
  match t with
  | .pulseWidth | .runt | .slew => true
  | .pattern => sense == 2
  | _ => false

/-- One Ts and 2^40 Ts in units of 2^-16 Ts (R170). -/
def oneTs16 : Nat := 2 ^ 16
def maxTs16 : Nat := 2 ^ 56

/-- W1 is used by a comparison other than NONE, by TIMEOUT, and by SEQUENCE under DELAY and WITHIN (R169, R172). -/
def usesW1 (t : TuType) (sense cmp qual : Nat) : Bool :=
  (comparesSpan t sense && cmp != 0) || t == .timeout || (t == .sequence && (qual == 1 || qual == 3))

/-- A PATTERN input field (R359). -/
def patField (w : Nat) : PatInput :=
  { state := w % 4, hyst := (w / 2 ^ 16) % 2 ^ 16, th := signed 32 (w / 2 ^ 32) }

/-- The settings of a SET_TU block for unit `u` (R359), with the INVALID cases of R166, R170 and R172. -/
def parseTu (u : Nat) (b : List Byte) : Except Nat TuCfg := do
  need (decide (fld b 0 ≤ 9)) 0
  let t := (tuType (fld b 0)).getD .edge
  need (acceptsSource t (fld b 1)) 1
  let c : TuCfg :=
    { type := t, source := fld b 1, thA := sfld b 2, thB := sfld b 3, hyst := fld b 4, sense := fld b 5,
      cmp := fld b 6, w1 := fld b 7, w2 := fld b 8, levelHold := fld b 9, a := fld b 10, b := fld b 11,
      rst := fld b 12, qual := fld b 13, n := fld b 14, unsettledOk := fld b 15 == 1, eventEn := fld b 16 == 1,
      inputs := (List.range 12).map fun i => patField (fld b (17 + i)) }
  need (iwithin (-32768) c.thA 32767) 2
  need (iwithin (-32768) c.thB 32767) 3
  need (!(t == .window || t == .runt || t == .slew) || decide (c.thB < c.thA)) 3
  need (decide (c.hyst ≤ 65535)) 4
  need (decide (c.sense ≤ senseMax t)) 5
  need (decide (c.cmp ≤ 4)) 6
  need (!usesW1 t c.sense c.cmp c.qual || within oneTs16 c.w1 maxTs16) 7
  need (!(comparesSpan t c.sense && decide (3 ≤ c.cmp)) || (within oneTs16 c.w2 maxTs16 && decide (c.w1 ≤ c.w2))) 8
  need (decide (c.levelHold ≤ maxTs16)) 9
  need (t != .sequence || decide (c.a < u)) 10
  need (t != .sequence || decide (c.b < u)) 11
  need (t != .sequence || c.rst == 0xFF || decide (c.rst < u)) 12
  need (decide (c.qual ≤ 3)) 13
  need (!(t == .sequence && c.qual == 2) || within 1 c.n 65535) 14
  need (decide (fld b 15 ≤ 1)) 15
  need (decide (fld b 16 ≤ 1)) 16
  let bad := (List.range 12).find? fun i =>
    match c.inputs[i]? with
    | some p => !(decide (p.state ≤ 2) && iwithin (-32768) p.th 32767)
    | none => false
  match bad with
  | some i => .error (17 + i)
  | none => .ok c

/-! ### Sequencers (R183, R358) -/

/-- Whole Ts in a time given in 2^-16 Ts, rounded up. -/
def ceilTs (x : Nat) : Nat := (x + 65535) / 65536

/-- The mode of a MODE code (R202). -/
def seqMode : Nat → SeqMode
  | 0 => .single | 1 => .normal | 2 => .auto | _ => .continuous

/-- A term field (R358, R179). -/
def termField (w : Nat) : Term :=
  { unit := w % 16, high := BitVec.ofNat 16 (w / 2 ^ 16), low := BitVec.ofNat 16 (w / 2 ^ 32) }

/-- The configuration of a SET_AS block (R183, R358). -/
def parseAs (b : List Byte) : Except Nat SeqCfg := do
  need (decide (fld b 0 ≤ 3)) 0
  let mode := seqMode (fld b 0)
  need (within 1 (fld b 1) 255) 1
  need (within 64 (fld b 2) (2 ^ 36)) 2
  need (decide (fld b 3 ≤ fld b 2)) 3
  need (decide (fld b 4 < 2 ^ 32)) 4
  need (decide (fld b 5 ≤ 1)) 5
  need (decide (fld b 6 ≤ maxTs16)) 6
  need (decide (fld b 7 < 2 ^ 32)) 7
  need (within 1000 (fld b 8) (10 ^ 11)) 8
  need (decide (fld b 9 ≤ 2 ^ 24)) 9
  need (decide (fld b 10 ≤ 1)) 10
  need (decide (fld b 11 ≤ 4)) 11
  let words := (List.range (fld b 11)).map fun i => fld b (12 + i)
  let bad := (List.range (fld b 11)).find? fun i =>
    let w := fld b (12 + i)
    (w / 16) % 2 ^ 12 != 0 || w / 2 ^ 48 != 0 || (w / 2 ^ 16) % 2 ^ 16 &&& (w / 2 ^ 32) % 2 ^ 16 != 0
  needNone bad 12
  need (mode != .continuous || fld b 3 == 0) 3
  need (mode != .continuous || fld b 6 == 0) 6
  need (mode != .continuous || fld b 7 == 0) 7
  pure { mode := mode, channels := BitVec.ofNat 8 (fld b 1), l := fld b 2, p := fld b 3,
         count := if mode == .single then 1 else fld b 4, accept := fld b 5 == 1, holdTime := ceilTs (fld b 6),
         holdCount := fld b 7, autoNs := fld b 8, lateAllow := fld b 9, trigEvent := fld b 10 == 1,
         terms := words.map termField }

/-! ### Reduction banks (R226, R358) -/

/-- The lane mode of a MODEi code (R358: the code of R229, 0b111 OFF); MINMAX is no mode of lanes 1 to 3. -/
def redMode : Nat → Option RedMode
  | 1 => some .decimate | 2 => some .mean | 3 => some .rms | 4 => some .sifted | 7 => some .off
  | _ => none

/-- Lane `i` of a SET_RED block: five fields from field 1 + 5(i − 1) (R358). -/
def parseRedLane (b : List Byte) (i : Nat) : Except Nat RedLane := do
  let k := 1 + 5 * (i - 1)
  need (redMode (fld b k)).isSome k
  let m := (redMode (fld b k)).getD .off
  need (m == .mean || within 2 (fld b (k + 1)) (2 ^ 24)) (k + 1)
  need (m != .mean || within 1 (fld b (k + 2)) 8) (k + 2)
  need (m != .mean || decide (fld b (k + 3) ≤ fld b (k + 2))) (k + 3)
  need (m != .sifted || within 1 (fld b (k + 4)) 65536) (k + 4)
  pure { mode := m, n := if m == .mean then 2 ^ fld b (k + 2) else fld b (k + 1), k := fld b (k + 2),
         shift := fld b (k + 3), rank := fld b (k + 4) }

/-- The settings of a SET_RED block (R226). -/
def parseRed (b : List Byte) : Except Nat (Vector RedLane 4 × BitVec 4) := do
  need (within 2 (fld b 0) (2 ^ 24)) 0
  let l1 ← parseRedLane b 1
  let l2 ← parseRedLane b 2
  let l3 ← parseRedLane b 3
  need (decide (fld b 16 ≤ 15)) 16
  pure (#v[{ mode := .minmax, n := fld b 0, k := 8, shift := 8, rank := 32768 }, l1, l2, l3], BitVec.ofNat 4 (fld b 16))

/-! ### Decimation chains (R256, R262, R358) -/

/-- GROUPS of a SET_DDC header (R357). -/
def groups (b : List Byte) : Nat := fieldAt b 0x0C 4

/-- Detector fields from field `k` (R262, R358): TH is unsigned for MAG. -/
def parseDet (b : List Byte) (k : Nat) : Except Nat DdcDet := do
  need (decide (fld b k ≤ 1)) k
  need (decide (fld b (k + 1) ≤ 3)) (k + 1)
  need (fld b (k + 1) == 3 || iwithin (-4194304) (sfld b (k + 2)) 4194303) (k + 2)
  need (decide (fld b (k + 3) < 2 ^ 23)) (k + 3)
  need (decide (fld b (k + 4) ≤ 2)) (k + 4)
  need (decide (fld b (k + 5) ≤ 1)) (k + 5)
  pure { enable := fld b k == 1, src := fld b (k + 1), th := if fld b (k + 1) = 3 then fld b (k + 2) else sfld b (k + 2), hyst := fld b (k + 3),
         slope := fld b (k + 4), eventEn := fld b (k + 5) == 1 }

/-- The 96 coefficients of a USER set (R252). -/
def firCoefs (set : List Byte) : List Int := (List.range 96).map fun i => signed 18 (fieldAt set (4 * i) 4)

/-- The settings of a SET_DDC block over the present ones: groups that the mask leaves out keep their values (R256). The default set of a
block that writes the FIR or PRESET group comes from `table` (R456). -/
def parseDdc (table : Option (List Byte)) (cur : DdcCfg) (fir b : List Byte) : Except Nat DdcCfg := do
  let g := groups b
  let c1 ← (if bit g 0 then do
      need (decide (fld b 0 ≤ 5) || fld b 0 == 7) 0
      pure { cur with preset := fld b 0 } else pure cur : Except Nat DdcCfg)
  let c2 ← (if bit g 1 then do
      need (decide (fld b 1 ≤ 1)) 1
      need (decide (fld b 2 < 2 ^ 48)) 2
      need (decide (fld b 3 < 2 ^ 48)) 3
      need (decide (fld b 4 ≤ 1)) 4
      pure { c1 with nco := fld b 1 == 1, ftw := fld b 2, phase := fld b 3, continuous := fld b 4 == 1 }
    else pure c1 : Except Nat DdcCfg)
  let c3 ← (if bit g 2 then do
      need (decide (fld b 5 ≤ 4)) 5
      pure { c2 with shift := fld b 5 } else pure c2 : Except Nat DdcCfg)
  let c4 ← (if bit g 3 then do
      need (decide (fld b 6 ≤ 1)) 6
      need (fld b 6 == 0 || fld b 7 % 64 == 0) 7
      pure { c3 with user := fld b 6 == 1, fir := if fld b 6 == 1 then firCoefs fir else [] }
    else pure c3 : Except Nat DdcCfg)
  let c4 := if c4.user then { c4 with table := none } else if bit g 0 || bit g 3 then { c4 with table := table } else c4
  let c5 ← (if bit g 4 then do
      need (decide (fld b 8 ≤ 2)) 8
      need (within 1 (fld b 9) 15) 9
      need (within 1 (fld b 10) (fld b 9)) 10
      pure { c4 with place := fld b 8, siftN := fld b 9, siftK := fld b 10 } else pure c4 : Except Nat DdcCfg)
  if bit g 5 then do
    let d0 ← parseDet b 11
    let d1 ← parseDet b 17
    pure { c5 with det := #v[d0, d1] }
  else pure c5

/-! ### Felts (R272, R358) -/

/-- 2^40 Ts in units of 2^-24 Ts. -/
def maxTs24 : Int := 2 ^ 64

/-- The settings of a SET_FELT block for felt `f` (R272): START, COL_WIDTH, PERIOD and ORIGIN take two fields each. -/
def parseFelt (f : Nat) (b : List Byte) : Except Nat FeltCfg := do
  need (if f < 8 then decide (fld b 0 ≤ 2) else fld b 0 == 0 || fld b 0 == 3) 0
  need (decide (fld b 1 ≤ 3)) 1
  need (iwithin (-maxTs24) (wideFld b 2) maxTs24) 2
  need (iwithin (2 ^ 16) (wideFld b 4) (2 ^ 48)) 4
  need (iwithin (2 ^ 25) (wideFld b 6) maxTs24) 6
  need (iwithin 0 (wideFld b 8) (wideFld b 6 - 1)) 8
  need (iwithin (-2048) (sfld b 10) 2047) 10
  need (decide (fld b 11 ≤ 2)) 11
  need (decide (fld b 12 ≤ 2)) 12
  need (within 100 (fld b 13) 86400000) 13
  need (decide (fld b 14 ≤ 1)) 14
  pure { map := fld b 0, seq := fld b 1, start := wideFld b 2, colWidth := (wideFld b 4).toNat,
         period := (wideFld b 6).toNat, origin := (wideFld b 8).toNat, rowBase := sfld b 10, rowShift := fld b 11,
         age := fld b 12, ageMs := fld b 13, running := fld b 14 == 1 }

/-! ### Masks (R289, R358) -/

/-- One region from field `k`: KIND, number of vertices, then a field per vertex; the next field index follows. -/
def parseRegion (ncol : Nat) (b : List Byte) (k : Nat) : Except Nat (Region × Nat) := do
  need (decide (fld b k ≤ 1)) k
  need (within 3 (fld b (k + 1)) 64) (k + 1)
  let n := fld b (k + 1)
  let vs := (List.range n).map fun i => ((fld b (k + 2 + i)) % 2 ^ 32, signed 32 (fld b (k + 2 + i) / 2 ^ 32))
  match vs.findIdx? fun v => decide (ncol * 256 < v.1) with
  | some i => .error (k + 2 + i)
  | none => pure ({ outside := fld b k == 1, vertices := vs }, k + 2 + n)

/-- The regions of a SET_MASK block, up to `fuel` of them from field `k`. -/
def parseRegions (ncol : Nat) (b : List Byte) : Nat → Nat → Except Nat (List Region)
  | 0, _ => .ok []
  | fuel + 1, k => do
    let (r, k') ← parseRegion ncol b k
    let rs ← parseRegions ncol b fuel k'
    pure (r :: rs)

/-- The settings of a SET_MASK block (R289). Sixteen field indexes hold the fixed parameters, START, COL_WIDTH, PERIOD and
ORIGIN taking two each, and the number of regions stands in field 16 (R358). -/
def parseMask (b : List Byte) : Except Nat MaskCfg := do
  need (decide (fld b 0 ≤ 1)) 0
  need (decide (fld b 1 ≤ 15)) 1
  need (if fld b 1 < 8 then decide (fld b 2 ≤ 1) else fld b 2 == 2) 2
  need (within 1 (fld b 3) 65536) 3
  need (fld b 2 != 0 || iwithin (2 ^ 25) (wideFld b 4) maxTs24) 4
  need (fld b 2 != 0 || iwithin 0 (wideFld b 6) (wideFld b 4 - 1)) 6
  need (fld b 2 != 1 || decide (fld b 8 ≤ 15)) 8
  need (fld b 2 != 1 || iwithin (960 * 2 ^ 24) (wideFld b 9) maxTs24) 9
  need (fld b 2 != 1 || iwithin (2 ^ 16) (wideFld b 11) (2 ^ 48)) 11
  need (decide (fld b 13 ≤ 15) && !(fld b 2 == 2 && bit (fld b 13) 2)) 13
  need (decide (fld b 14 ≤ 15)) 14
  need (decide (fld b 15 ≤ 15)) 15
  need (within 1 (fld b 16) 4) 16
  let rs ← parseRegions (fld b 3) b (fld b 16) 17
  pure { enable := fld b 0 == 1, source := fld b 1, map := fld b 2, ncol := fld b 3, period := (wideFld b 4).toNat,
         origin := (wideFld b 6).toNat, refTu := fld b 8 % 16, start := (wideFld b 9).toNat,
         colWidth := (wideFld b 11).toNat, regions := rs, actions := BitVec.ofNat 4 (fld b 13),
         capAs := BitVec.ofNat 4 (fld b 14), stopAs := BitVec.ofNat 4 (fld b 15) }

/-! ### Services (R312, R316, R325, R330) -/

/-- Bins that SET_SERVICE checks against: N/2 for a channel, N for a chain (R523). -/
def checkedBins (input n : Nat) : Nat := if input ≤ 7 then n / 2 else n

/-- Trigger output j of a SPECTRAL block: seven fields from field 11 + 7j (R316). -/
def parseSpTrig (bins : Nat) (b : List Byte) (j : Nat) : Except Nat SpTrig := do
  let k := 11 + 7 * j
  need (decide (fld b k ≤ 1)) k
  need (fld b k == 0 || decide (fld b (k + 1) < bins)) (k + 1)
  need (fld b k == 0 || within (fld b (k + 1)) (fld b (k + 2)) (bins - 1)) (k + 2)
  need (iwithin (-32768) (sfld b (k + 3)) 32767) (k + 3)
  need (decide (fld b (k + 4) ≤ 65535)) (k + 4)
  need (decide (fld b (k + 5) ≤ 2)) (k + 5)
  need (decide (fld b (k + 6) ≤ 1)) (k + 6)
  pure { en := fld b k == 1, binLo := fld b (k + 1), binHi := fld b (k + 2), th := sfld b (k + 3),
         hyst := fld b (k + 4), slope := fld b (k + 5), eventEn := fld b (k + 6) == 1 }

/-- Total decimation D of a preset code (R246). -/
def presetD : Nat → Nat
  | 0 => 4 | 1 => 16 | 2 => 64 | 3 => 256 | 4 => 1024 | 5 => 4096 | _ => 0

/-- The parameters of a SPECTRAL block (R316, R523); `d` gives the decimation of a chain's channel. -/
def parseSpectral (d : Nat → Nat) (b : List Byte) : Except Nat SpCfg := do
  let input := fld b 0
  need (decide (input ≤ 7) || within 0x10 input 0x17) 0
  let n := fld b 1
  need ((List.range 8).any fun i => n == 1024 * 2 ^ i) 1
  need (within 1 (fld b 2) 65536) 2
  need (decide (fld b 3 ≤ 1)) 3
  let dd := if input ≤ 7 then 1 else d (input - 0x10)
  need (decide (fld b 4 ≤ 1) && (fld b 4 == 0 || decide (4096 ≤ n * fld b 2 * dd))) 4
  let bins := checkedBins input n
  need (decide (fld b 5 < bins)) 5
  need (within 1 (fld b 6) 64) 6
  need (iwithin (-32768) (sfld b 7) 32767) 7
  need (within 1 (fld b 8) 256) 8
  need (decide (fld b 9 < bins)) 9
  need (within 32 (fld b 10) bins && fld b 10 % 32 == 0 && decide (fld b 9 + fld b 10 ≤ bins)) 10
  let t0 ← parseSpTrig bins b 0
  let t1 ← parseSpTrig bins b 1
  let t2 ← parseSpTrig bins b 2
  let t3 ← parseSpTrig bins b 3
  pure { input := input, n := n, integ := fld b 2, peak := fld b 3 == 1, feltEn := fld b 4 == 1, feltBin0 := fld b 5,
         feltBpc := fld b 6, feltFloor := sfld b 7, feltStep := fld b 8, streamBin0 := fld b 9,
         streamBins := fld b 10, trigs := [t0, t1, t2, t3] }

/-- Limit `k` is used and its HI lies below its LO (R325). -/
def limitReversed (b : List Byte) (k : Nat) : Bool :=
  fld b (7 + 3 * k) != 0xFF
    && decide (Config.ofFloat32 (BitVec.ofNat 32 (fld b (9 + 3 * k))) < Config.ofFloat32 (BitVec.ofNat 32 (fld b (8 + 3 * k))))

/-- The parameters of a MEASURE block (R325); `chans` is CHANNELS of the bound sequencer, `fs` in Hz. -/
def parseMeasure (chans : Byte) (fs : Nat) (b : List Byte) : Except Nat MsCfg := do
  need (decide (fld b 0 ≤ 7) && chans.getLsbD (fld b 0)) 0
  need (fld b 1 == 0xFF || (decide (fld b 1 ≤ 7) && chans.getLsbD (fld b 1))) 1
  need (within 1 (fld b 2) 49) 2
  need (within 2 (fld b 3) 98 && decide (fld b 2 < fld b 3)) 3
  need (within 51 (fld b 4) 99 && decide (fld b 3 < fld b 4)) 4
  need (decide (fld b 5 ≤ 65535)) 5
  need (within (10 ^ 6) (fld b 6) fs) 6
  let lims := (List.range 4).map fun k =>
    (fld b (7 + 3 * k), BitVec.ofNat 32 (fld b (8 + 3 * k)), BitVec.ofNat 32 (fld b (9 + 3 * k)))
  needNone (((List.range 4).find? fun k => !(decide (fld b (7 + 3 * k) ≤ 23) || fld b (7 + 3 * k) == 0xFF)).map (3 * ·)) 7
  needNone (((List.range 4).find? fun k => limitReversed b k).map (3 * ·)) 9
  pure { channel := fld b 0, refChannel := fld b 1, low := fld b 2, mid := fld b 3, high := fld b 4,
         hyst := fld b 5, maxRate := fld b 6, limits := lims }

/-- Channels in a mask. -/
def popcount8 (m : Byte) : Nat := ((List.range 8).filter fun i => m.getLsbD i).length

/-- The parameters of a RECORD_AVERAGE block (R330). -/
def parseAverage (chans : Byte) (l fs : Nat) (b : List Byte) : Except Nat RaCfg := do
  let m := BitVec.ofNat 8 (fld b 0)
  need (within 1 (fld b 0) 255 && m &&& chans == m && decide (l * popcount8 m ≤ 2 ^ 28)) 0
  need (within 2 (fld b 1) 65536) 1
  need (decide (fld b 2 ≤ 1)) 2
  need (decide (fld b 3 ≤ 1)) 3
  need (within (10 ^ 6) (fld b 4) (8 * fs)) 4
  pure { channels := m, count := fld b 1, fine := fld b 2 == 1, again := fld b 3 == 1, maxRate := fld b 4 }

/-! ### Brim and passwords (R358, R392) -/

/-- Codes of an export source (R358). -/
def exportCode (x : Nat) : Bool := decide (x ≤ 0x13) || x == 0xFF

/-- The settings of a SET_BRIM block: L_SYS in ns, export sources, stop mask (R358, R392). -/
def parseBrim (b : List Byte) : Except Nat (Nat × Vector Nat 16 × BitVec 4) := do
  need (within 500 (fld b 0) 100000) 0
  needNone ((List.range 16).find? fun i => !exportCode (fld b (1 + i))) 1
  need (decide (fld b 17 ≤ 15)) 17
  pure (fld b 0, Vector.ofFn fun i : Fin 16 => fld b (1 + i.val), BitVec.ofNat 4 (fld b 17))

/-- The password of an ACC_PASSWORD or ACC_SET_PASSWORD block (R358). -/
def parsePassword (b : List Byte) : Except Nat (List Byte) := do
  need (within 1 (fld b 0) 64) 0
  pure (slice b 0x28 (fld b 0))

/-! ### Timers (R155, R157, R361) -/

/-- Timer source codes (R360). -/
def timerSource (x : Nat) : Bool :=
  within 0x10 x 0x14 || x == 0x18 || x == 0x19 || within 0x20 x 0x2F || within 0x30 x 0x33

/-- The mode of a MODE argument (R361). -/
def timerMode : Nat → TimerMode
  | 0 => .off | 1 => .stamp | 2 => .interval | _ => .frequency

/-- The settings of TIMER_SET (R361); DETAIL is the byte offset of the offending argument (R352). -/
def parseTimer (c : Call) : Except Nat Timer := do
  need (decide (arg1 c 0x19 ≤ 3)) 0x19
  let mode := timerMode (arg1 c 0x19)
  need (mode == .off || timerSource (arg1 c 0x1A)) 0x1A
  need (decide (arg1 c 0x1B ≤ 2)) 0x1B
  need (mode != .interval || timerSource (arg1 c 0x1C)) 0x1C
  need (decide (arg1 c 0x1D ≤ 2)) 0x1D
  need (decide (arg1 c 0x1E ≤ 1)) 0x1E
  need (mode != .interval || within oneTs16 (argN c 0x28 8) maxTs16) 0x28
  need (mode != .frequency || within 1000 (argN c 0x30 8) (10 ^ 12)) 0x30
  pure { Timer.reset with
    mode := mode, startSrc := arg1 c 0x1A, startPol := arg1 c 0x1B, stopSrc := arg1 c 0x1C, stopPol := arg1 c 0x1D,
    nearest := arg1 c 0x1E == 1, guard := argN c 0x20 2, win := argN c 0x28 8, gateNs := argN c 0x30 8 }

end Sys2Proof.Machine
end

