-- ==== Sys2Proof/WellFormed.lean ====
section
/-!
DEFINITION. Which operands are ones the hardware can receive: the lengths that the spec fixes and that a type of Syntax.lean
does not. A command that fails its check here stops with Fault.illFormed.
-/
namespace Sys2Proof.WellFormed

/-- The samples of a slice word as they enter the cartridge FIR (R23, R96), with or without those of the next word, which the FIR and
an interpolation look ahead to. -/
def codes (l : List Int) : Bool := l.length == 40 || l.length == 80

/-- A descriptor is 64 bytes (R351). -/
def descriptor (l : List Byte) : Bool := l.length == 64

/-- A flit is 64 bytes (R384). -/
def flit (rx : Rx) : Bool := rx.flit.length == 64

/-- Sixty-four sensors (R420). -/
def temps (l : List (BitVec 16)) : Bool := l.length == 64

/-- Twenty-two rails (R414). -/
def telemetry (t : Telemetry) : Bool := t.rails.length == 22

/-- A cartridge identity read (R53, R55): the factory area and both wear copies. -/
def cartridge (factory wearA wearB : List Byte) : Bool :=
  factory.length == 2048 && wearA.length == 64 && wearB.length == 64

/-- A cartridge set has 64 taps (R103). -/
def firTaps (l : List Bool) : Bool := l.length == 64

/-- Taps of the position table (R103): 40 positions of 32 taps. -/
def posTaps (l : List (List Int)) : Bool := l.length == 40 && l.all (·.length == 32)

/-- Hits of a calibration run (R150, R151): 4,096 codes, at least 2^24 hits in all. -/
def histogram (l : List Nat) : Bool := l.length == 4096 && decide (2 ^ 24 ≤ l.sum)

/-- A 384-byte coefficient set (R252), or none where the command needs none. -/
def firSet (l : List Byte) : Bool := l.length == 384 || l.isEmpty

/-- Four cores' verification outcomes (R74), eight TAC offsets (R146) and eight sampling outputs (R77). -/
def proofData (d : ProofData) : Bool := d.bandPass.length == 4 && d.tacOffsets.length == 8 && d.delays.length == 8

/-- Counters of a felt (R271). -/
def bins (l : List Nat) : Bool := l.all fun b => decide (b < 2097152)

/-- A serial has 12 characters (R384 DISCOVER). -/
def sites (l : List (List Byte × Bool)) : Bool := l.all fun x => x.1.length == 12

/-- A link that reaches L0 runs at one of seven speeds and at x8 or x16 (R336). -/
def link (gen width : Nat) : Bool := decide (1 ≤ gen ∧ gen ≤ 7) && (width == 8 || width == 16)

/-- A lane code of R519: Brim links 0 to 3, PCIe lanes from 0x10. -/
def serdesLane (l : Fin 32) : Bool := decide (l.val < 4 ∨ 16 ≤ l.val)

/-- Every operand check of a command. -/
def instr : Instr → Bool
  | .setDdc _ _ fir => firSet fir
  | .descriptorFetch _ d => descriptor d
  | .telemetryUpdate t => telemetry t
  | .tmaxEvaluate l => temps l
  | .proofingStepEnd d => proofData d
  | .sliceWord _ x => codes x.codes && bins x.parity
  | .blindEstimatorUpdate _ _ l => posTaps l
  | .cartridgeFirDerived _ l => firTaps l
  | .cartridgeIdRead _ f a b => cartridge f a b
  | .tacCalRunEnd _ h _ => histogram h
  | .spectrumDeliver _ _ r => bins r.parity
  | .triggerMessage rx => flit rx
  | .stopMessage rx => flit rx
  | .epochMessage rx => flit rx
  | .statusMessage rx => flit rx
  | .delayReq rx => flit rx
  | .delayResp rx => flit rx
  | .discover rx => flit rx
  | .mgmtMessage rx => flit rx
  | .updateMessage rx => flit rx
  | .ringFormed l => sites l
  | .hifLink g w => link g w
  | .istSerdes l _ _ => serdesLane l
  | _ => true

end Sys2Proof.WellFormed
end

