-- ==== Sys2Proof/Machine/HostInterface.lean ====
section
/-!
DEFINITION. The host interface of chapter 11: doorbells, queue pairs, the event ring, interrupts, host-memory failures and
the resets that touch the host interface only.
-/
namespace Sys2Proof.Machine

/-! ### Link (R337, R339) -/

/-- PCIE budget in 0.1 GB/s (R337). -/
def pcieBudget (gen width : Nat) : Nat :=
  let half := decide (width < 16)
  match gen with
  | 7 => if half then 1100 else 2200
  | 6 => if half then 550 else 1100
  | 5 => if half then 275 else 550
  | 4 => if half then 137 else 275
  | 3 => if half then 68 else 137
  | 2 => if half then 32 else 64
  | 1 => if half then 16 else 32
  | _ => 0

/-- HIF_LINK.BUDGET (R344). -/
def linkBudget (s : State) : Nat := pcieBudget s.hif.linkGen s.hif.linkWidth

/-- The link runs below 128 GT/s x16 (R344). -/
def linkDegraded (s : State) : Bool := !(s.hif.linkGen == 7 && s.hif.linkWidth == 16)

/-- What waited for DMA goes out: completions of every queue pair in order (R339). -/
def resumeDma (s : State) : State := if dma s then forAll 64 flushComps s else s

/-- The link is in L0 (R339). -/
def linkIsL0 (s : State) : State := resumeDma { s with hif := { s.hif with linkUp := true, linkRecovery := false } }

/-- LINK_L0 (R339): PCIe link reaches or returns to L0 after training or Recovery at the same speed and width, and DMA
resumes. -/
def execLinkL0 (s : State) : Host.Outcome State Fault Refusal := whenLive s <| .next (linkIsL0 s)

/-- The link retrains (R337): a new speed or width raises HIF_LINK; the first training after PERST# does not (R337 speaks
of retraining). -/
def linkTrained (gen width : Nat) (s : State) : State :=
  let changed := s.hif.linkGen ≠ 0 ∧ (s.hif.linkGen ≠ gen ∨ s.hif.linkWidth ≠ width)
  let s := linkIsL0 { s with hif := { s.hif with linkGen := gen, linkWidth := width } }
  if changed then
    raiseNow 0xD2 (if linkDegraded s then sevWarning else sevNotice)
      ([BitVec.ofNat 8 gen, BitVec.ofNat 8 width] ++ le 2 (linkBudget s)) s
  else s

/-- HIF_LINK (R337): Link retrains to a new speed or width and the PCIE budget changes. -/
def execHifLink (gen width : Nat) (s : State) : Host.Outcome State Fault Refusal := whenLive s <|
  if WellFormed.instr (.hifLink gen width) then .next (linkTrained gen width s) else .fault .illFormed

/-- LINK_RECOVERY (R339): PCIe link enters Recovery and DMA waits. -/
def execLinkRecovery (s : State) : Host.Outcome State Fault Refusal := whenLive s <|
  .next { s with hif := { s.hif with linkRecovery := true } }

/-- Bus Master Enable cleared, or D3hot (R339): no DMA and no MSI-X. -/
def execBusMasterDisable (s : State) : Host.Outcome State Fault Refusal := whenReachable s <|
  .next { s with hif := { s.hif with busMaster := false } }

/-- Bus Master Enable set in D0 (R339). MSI-X Enable, which no row writes, is set with it (log 19). -/
def execBusMasterEnable (s : State) : Host.Outcome State Fault Refusal := whenReachable s <|
  .next (resumeDma { s with hif := { s.hif with busMaster := true, msixEnable := true } })

/-- An abandoned transfer lets go of the segment it reads (R215, R339). -/
def abandonXfer (s : State) (f : Fetched) : State :=
  match f.xfer with
  | some (.segment seq _ _ _) =>
    { s with mem := { s.mem with segs := s.mem.segs.map fun g =>
        if g.seq = seq then { g with readers := g.readers - 1 } else g } }
  | _ => s

/-- Every transfer of every queue pair is abandoned (R339). -/
def abandonAll (s : State) : State := forAll 64 (fun n s => (s.hif.qps[n].fetched).foldl abandonXfer s) s

/-- What a source keeps over a reset: a held boot report, with its map at the Reset value (R518). -/
def keepHeld (e : EvSource) : EvSource := if e.held then { e with map := 0 } else EvSource.reset

/-- Open access levels close, and each reports it with a boot report (R489, R518, R519). -/
def closeLevels (s : State) : State :=
  forAll 2 (fun l s =>
    if (s.acc.level[l]).isOpen then
      let fails := (s.acc.level[l]).fails
      raiseBoot 0xF1 sevNotice [BitVec.ofNat 8 l.val, 2, BitVec.ofNat 8 fails]
        { s with acc := { s.acc with level := upd s.acc.level l fun x => { x with isOpen := false } } }
    else s) s

/-- Hot Reset, Link Disable, DL_Down or FLR (R339): the HIF_ registers at their Reset values, queue pairs DISABLED without
completions, the event ring disabled (held boot reports stay, R518), access levels closed (R489), streams closed without END, MSI-X disabled, Bus Master Enable clear. What the
registers only mirror (READY, CC_RESTARTS, CMD_PAUSED, the link) stays (log 20). -/
def resetHif (linkStays : Bool) (s : State) : State :=
  let s := abandonAll s
  closeLevels { s with hif :=
    { Hif.reset with cmdPaused := s.hif.cmdPaused, linkGen := s.hif.linkGen, linkWidth := s.hif.linkWidth,
                     linkUp := linkStays && s.hif.linkUp, linkRecovery := linkStays && s.hif.linkRecovery,
                     ev := { EvRing.reset with src := s.hif.ev.src.map keepHeld }, sent := s.hif.sent } }

/-- HOT_RESET (R339): Hot Reset, Link Disable or DL_Down resets the host interface only. -/
def execHotReset (s : State) : Host.Outcome State Fault Refusal := whenLive s <| .next (resetHif false s)

/-- FLR (R339): Function Level Reset resets the host interface only, within 100 ms. -/
def execFlr (s : State) : Host.Outcome State Fault Refusal := whenReachable s <| .next (resetHif true s)

/-! ### Queue pairs (R345 to R351) -/

/-- The sizes of a QP_CFG word are in range (R345). -/
def qpCfgOk (cfg : W32) : Bool :=
  within 4 (cfg.toNat % 32) 16 && within 4 (cfg.toNat / 256 % 32) 16

/-- The fields of QP_CFG other than ENABLE (R345). -/
def qpCfgFields (cfg : W32) (q : QPair) : QPair :=
  { q with sqLog2 := cfg.toNat % 32, cqLog2 := cfg.toNat / 256 % 32, vector := BitVec.ofNat 6 (cfg.toNat / 2 ^ 16),
           irqEn := cfg.getLsbD 24 }

/-- ENABLE written 1 in DISABLED (R347). ERR_CAUSE reads none again (DEDUCED, log 21). -/
def qpStart (q : QPair) : QPair :=
  { q with enable := true, state := .running, sqHead := 0, sqTail := 0, cqTail := 0, unreleased := 0, phase := true,
           errCause := 0, passed := 0 }

/-- ENABLE written 0 in RUNNING or ERROR (R347): fetched descriptors that have not committed complete with ABORTED. -/
def qpStop (n : Fin 64) (s : State) : State :=
  let open_ := s.hif.qps[n].fetched.filter fun f => !f.committed
  let s := updQp n (fun q => { q with enable := false, state := .draining }) s
  open_.foldl (fun s f => finish n f.tag stAborted 0 [] s) s

/-- A write of QP_CFG (R345, R347). -/
def writeQpCfg (n : Fin 64) (cfg : W32) (s : State) : State :=
  let q := s.hif.qps[n]
  if !qpCfgOk cfg then s
  else match q.state with
    | .draining => s
    | .disabled => updQp n (fun q => if cfg.getLsbD 28 then qpStart (qpCfgFields cfg q) else qpCfgFields cfg q) s
    | _ => if cfg.getLsbD 28 then s else qpStop n s

/-- QP_ENABLE (R347): Write of ENABLE 1 that starts a DISABLED queue pair running. -/
def execQpEnable (n : Fin 64) (cfg : W32) (s : State) : Host.Outcome State Fault Refusal := whenReachable s <|
  .next (writeQpCfg n (cfg ||| 0x10000000#32) s)

/-- QP_DISABLE (R347): Write of ENABLE 0 that moves a queue pair to DRAINING and aborts uncommitted descriptors. -/
def execQpDisable (n : Fin 64) (cfg : W32) (s : State) : Host.Outcome State Fault Refusal := whenReachable s <|
  .next (writeQpCfg n (cfg &&& 0xEFFFFFFF#32) s)

/-- DRAINING ends once every committed command has posted its completion (R347); the tag history is cleared. -/
def execQpDrained (n : Fin 64) (s : State) : Host.Outcome State Fault Refusal := whenLive s <|
  let q := s.hif.qps[n]
  if q.state == .draining && q.fetched.isEmpty && q.waiting.isEmpty then
    .next (updQp n (fun q => { q with state := .disabled, history := [] }) s)
  else .next s

/-- A queue pair enters ERROR (R347, R378). -/
def qpError (n : Fin 64) (cause : Nat) (s : State) : State :=
  if s.hif.qps[n].state == .running then
    raiseNow 0xD0 sevError [BitVec.ofNat 8 n.val, BitVec.ofNat 8 cause]
      (updQp n (fun q => { q with state := .error, errCause := BitVec.ofNat 8 cause }) s)
  else s

/-- SQ_TAIL (R346): a 4-byte write to a RUNNING queue pair; an index out of range puts it into ERROR. -/
def execSqTail (n : Fin 64) (bytes : Nat) (value : W64) (s : State) : Host.Outcome State Fault Refusal := whenReachable s <|
  let q := s.hif.qps[n]
  let v := value.toNat % 2 ^ 16
  if bytes = 4 ∧ q.state = .running then
    if v < 2 ^ q.sqLog2 then .next (updQp n (fun q => { q with sqTail := v }) s)
    else .next (qpError n 0x02 s)
  else .next s

/-- Completions that a CQ_HEAD value releases; none where it would release entries not yet written (R346). -/
def cqRelease (q : QPair) (v : Nat) : Option Nat :=
  let size := 2 ^ q.cqLog2
  if v < size then
    let head := (q.cqTail + size - q.unreleased % size) % size
    let d := (v + size - head) % size
    if d ≤ q.unreleased then some d else none
  else none

/-- CQ_HEAD (R346, R348). -/
def execCqHead (n : Fin 64) (bytes : Nat) (value : W64) (s : State) : Host.Outcome State Fault Refusal := whenReachable s <|
  let q := s.hif.qps[n]
  if bytes = 4 ∧ q.state = .running then
    match cqRelease q (value.toNat % 2 ^ 16) with
    | some d => .next (updQp n (fun q => { q with unreleased := q.unreleased - d }) s)
    | none => .next s
  else .next s

/-- The queue pair has descriptors that the device has not fetched (R348). -/
def hasWork (q : QPair) : Bool := q.state == .running && q.sqHead != q.sqTail

/-- The queue pair may fetch (R349, R350): up to 8 descriptors in execution and a completion slot to reserve. -/
def canFetch (q : QPair) : Bool :=
  hasWork q && decide (q.fetched.length < 8)
    && decide (q.fetched.length + q.waiting.length + q.unreleased < 2 ^ q.cqLog2)

/-- The queue pair that fetches next (R350): one passed over 64 times, else the first in round-robin order after the last. -/
def fetchChoice (s : State) : Option (Fin 64) :=
  let able := (List.finRange 64).filter fun n => canFetch s.hif.qps[n]
  match able.find? fun n => decide (64 ≤ s.hif.qps[n].passed) with
  | some n => some n
  | none => match able.find? fun n => decide (s.hif.lastQp < n.val) with
    | some n => some n
    | none => able.head?

/-- Counts of times passed over after queue pair `n` is served (R350). -/
def passOver (n : Fin 64) (s : State) : State :=
  { s with hif := { s.hif with lastQp := n.val, qps := Vector.ofFn fun i : Fin 64 =>
      let q := s.hif.qps[i]
      if i = n then { q with passed := 0 } else if hasWork q then { q with passed := q.passed + 1 } else q } }

/-- The opcodes of R356. -/
def knownOpcode (op : Nat) : Bool :=
  op == 0x0001 || op == 0x0002 || within 0x0010 op 0x0018 || within 0x0020 op 0x0026 || within 0x0030 op 0x0034
    || within 0x0040 op 0x0041 || within 0x0050 op 0x0054 || within 0x0060 op 0x0064

/-- A new tag enters the history of the last 1,024 (R355). -/
def addTag (tag : W32) (q : QPair) : QPair :=
  { q with history := ({ tag := tag, state := .queued, attempt := 1, comp := none, written := none } :: q.history).take 1024 }

/-- One more descriptor with a tag that the history holds (R352, R355): ATTEMPT sticks at 255. -/
def countAttempt (tag : W32) (q : QPair) : QPair := setTag tag (fun e => { e with attempt := min 255 (e.attempt + 1) }) q

/-- A descriptor that has been read (R351, R355): a tag of the history is not executed again; an opcode that R356 does not
list completes with UNSUPPORTED as soon as it is fetched (log 22). -/
def receive (n : Fin 64) (desc : List Byte) (s : State) : State :=
  let tag := BitVec.ofNat 32 (fieldAt desc 0x04 4)
  let op := fieldAt desc 0x00 2
  match tagOf s.hif.qps[n] tag with
  | some e =>
    let s := updQp n (countAttempt tag) s
    match e.state, e.comp with
    | .done, some c => postComp n c s
    | _, _ => s
  | none =>
    let f : Fetched := { desc := desc, tag := tag, opcode := BitVec.ofNat 16 op, fence := bit (fieldAt desc 0x02 2) 0,
                         committed := false, xfer := none, result := [] }
    let s := updQp n (fun q => addTag tag { q with fetched := q.fetched ++ [f] }) s
    if knownOpcode op then s else finish n tag stUnsupported 0 [] s

/-- A descriptor fetch (R348 to R351): the fetch of a queue pair that the round-robin does not choose, or without CMD_EN or
DMA, does not happen (log 4). -/
def fetch (n : Fin 64) (desc : List Byte) (s : State) : State :=
  if s.hif.cmdEn && dma s && fetchChoice s == some n then
    let s := passOver n s
    let s := updQp n (fun q => { q with sqHead := (q.sqHead + 1) % 2 ^ q.sqLog2 }) s
    receive n desc { s with hif := { s.hif with retries := s.hif.retries.filter fun r => r.1 != n.val } }
  else s

/-- DESCRIPTOR_FETCH (R349): Device fetches a descriptor once a completion slot can be reserved, in round-robin order.
-/
def execDescriptorFetch (n : Fin 64) (desc : List Byte) (s : State) : Host.Outcome State Fault Refusal := whenLive s <|
  if WellFormed.instr (.descriptorFetch n desc) then .next (fetch n desc s) else .fault .illFormed

/-- Retries so far of the read of a queue pair that has failed (R338). -/
def retriesOf (n : Fin 64) (s : State) : Nat := ((s.hif.retries.find? fun r => r.1 == n.val).map (·.2)).getD 0

/-- A read of host memory fails and is tried again (R338). -/
def execHostReadRetry (n : Fin 64) (s : State) : Host.Outcome State Fault Refusal := whenLive s <|
  let k := retriesOf n s
  .next { s with hif := { s.hif with
    retries := (n.val, min 2 (k + 1)) :: s.hif.retries.filter fun r => r.1 != n.val } }

/-- A read of host memory fails for good (R338): HOST_MEM_ERR, HIF_HOST_MEM, and ERROR for a descriptor fetch or HOST_MEM for
the command that needed the bytes. -/
def hostMemFailed (n : Fin 64) (tag : Option W32) (cause : Fin 4) (s : State) : State :=
  let f : Option Fetched := match tag with
    | some t => s.hif.qps[n].fetched.find? fun f => f.tag == t
    | none => none
  let s := { s with hif := { s.hif with hostMemErr := true,
                                        retries := s.hif.retries.filter fun r => r.1 != n.val } }
  let s := raiseNow 0xD1 sevError
    ([BitVec.ofNat 8 n.val, BitVec.ofNat 8 cause.val]
      ++ le 2 ((f.map fun f => f.opcode.toNat).getD 0) ++ le 4 ((f.map fun f => f.tag.toNat).getD 0)) s
  match tag with
  | none => qpError n 0x01 s
  | some t => finish n t stHostMem 0 [] s

/-- HOST_MEM (R338): A host-memory read fails after two retries within 3 ms; before the third attempt nothing has failed for good. -/
def execHostMem (n : Fin 64) (tag : Option W32) (cause : Fin 4) (s : State) : Host.Outcome State Fault Refusal := whenLive s <|
  .next (if retriesOf n s = 2 then hostMemFailed n tag cause s else s)

/-! ### NOP and TAG_STATUS (R356) -/

/-- NOP has no effect of its own (R356). -/
def nop (_ : Call) (s : State) : Reply := .ok s []

/-- NOP (R356): Command that does nothing and completes. -/
def execNop (o : Origin) (s : State) : Host.Outcome State Fault Refusal := whenLive s <|
  .next (runCmd o 0x0001 [] noDeps nop s)

/-- Checks of a destination at PARAM_ADDR of at least `len` bytes: 64-byte aligned (R351) and long enough. The DETAIL is the
offset of the field at fault (log 23). -/
def destFault (c : Call) (len : Nat) : Option Reply :=
  if paramAddr c.desc % 64 ≠ 0 then some (refuse stInvalid 0x08)
  else if paramLen c.desc < len then some (refuse stInvalid 0x10)
  else none

/-- The stored completion of a tag as TAG_STATUS writes it (R355, R356). -/
def storedComp (e : TagEntry) : List Byte :=
  match e.comp with
  | some c => let w := e.written.getD (0, false); compBytes c e.attempt w.1 w.2
  | none => []

/-- TAG_STATUS (R356, R361): the state of a tag; a DONE tag's completion goes to the destination. -/
def tagStatus (c : Call) (s : State) : Reply :=
  let qp := arg1 c 0x18
  let tag := BitVec.ofNat 32 (argN c 0x1C 4)
  match getN s.hif.qps qp with
  | none => refuse stInvalid 0x18
  | some q => match destFault c 32 with
    | some r => r
    | none => match tagOf q tag with
      | none => .ok s [0]
      | some e => match e.state with
        | .queued => .ok s [1]
        | .committed => .ok s [2]
        | .done =>
          if dma s then .ok (hostWrite (paramAddr c.desc) (storedComp e) s) [3]
          else .start s (.toHost (paramAddr c.desc) (storedComp e)) [3]

/-- TAG_STATUS (R374): Command that reports the state of a tag on a queue pair and writes its stored completion when
DONE. -/
def execTagStatus (o : Origin) (s : State) : Host.Outcome State Fault Refusal := whenLive s <|
  .next (runCmd o 0x0002 [] noDeps tagStatus s)

/-! ### Event ring (R367 to R369, R518) -/

/-- A held boot report whose source is enabled becomes an ordinary waiting event, under the map in force (R518). -/
def releaseHeld (src : Fin 256) (s : State) : State :=
  let e := s.hif.ev.src[src]
  if s.hif.ev.enable && e.held && e.map.getLsbD 7 then
    updSource src (fun e => { e with held := false, waiting := e.waiting.map fun w =>
      { w with vector := e.map.truncate 6, irq := e.map.getLsbD 6 } }) s
  else s

/-- Events that wait when the ring is disabled are dropped, but for held boot reports (R518). -/
def dropWaiting (src : Fin 256) (s : State) : State :=
  if s.hif.ev.src[src].held then s else updSource src (fun e => { e with waiting := none }) s

/-- A write of HIF_EVQ_CFG (R367): LOG2 outside 10 to 20 is ignored as a whole, and LOG2 changes only while ENABLE is clear. -/
def writeEvqCfg (cfg : W32) (s : State) : State :=
  let log2 := cfg.toNat % 32
  let en := cfg.getLsbD 16
  if !within 10 log2 20 then s
  else if s.hif.ev.enable then
    if en then s
    else forAll 256 dropWaiting { s with hif := { s.hif with ev := { s.hif.ev with enable := false } } }
  else
    let r := { s.hif.ev with log2 := log2 }
    if en then
      forAll 256 releaseHeld
        { s with hif := { s.hif with ev := { r with enable := true, prod := 0, released := 0, overflow := false } } }
    else { s with hif := { s.hif with ev := r } }

/-- EVQ_ENABLE (R367): Write of ENABLE in HIF_EVQ_CFG that starts or stops the event-ring producer. -/
def execEvqEnable (cfg : W32) (s : State) : Host.Outcome State Fault Refusal := whenReachable s <|
  .next (writeEvqCfg cfg s)

/-- EVQ_HEAD (R346): a 4-byte write of the index of the next record the host will read; a value that would release records
not yet written is ignored. Overflow may end (R369). -/
def execEvqHead (bytes : Nat) (value : W64) (s : State) : Host.Outcome State Fault Refusal := whenReachable s <|
  let r := s.hif.ev
  let size := 2 ^ r.log2
  let v := value.toNat % 2 ^ 20
  let d := (v + size - r.released.toNat % size) % size
  if bytes = 4 ∧ r.enable ∧ v < size ∧ d ≤ (r.prod - r.released).toNat then
    let s := { s with hif := { s.hif with ev := { r with released := r.released + BitVec.ofNat 32 d } } }
    .next (if dma s then leaveOverflow s else s)
  else .next s

/-- The ring writer (R369): overflow ends where it can; a waiting event is written, and its source's summary follows at once
where a count is pending. -/
def writeEvent (src : Fin 256) (s : State) : State :=
  if s.hif.ev.enable && dma s then
    let s := leaveOverflow s
    let e := s.hif.ev.src[src]
    if s.hif.ev.overflow || e.held || evFree s.hif.ev = 0 then s
    else match e.waiting with
      | none => s
      | some ev =>
        let s := putRecord ev false (updSource src (fun e => { e with waiting := none }) s)
        if s.hif.ev.overflow then s else putSummary src s
  else s

/-- EVENT_RECORD_WRITE (R369): Ring writer writes a waiting event record, coalescing into PENDING when needed. -/
def execEventRecordWrite (source : Fin 256) (s : State) : Host.Outcome State Fault Refusal := whenLive s <|
  .next (writeEvent source s)

/-- Map bytes of sources from `base` on (R514): they take effect for events raised after the write. -/
def writeEvtMap (base : Nat) (bytes : List Byte) (s : State) : State :=
  bytes.zipIdx.foldl (fun s p =>
    let src : Fin 256 := Fin.ofNat 256 (base + p.2)
    releaseHeld src (updSource src (fun e => { e with map := p.1 }) s)) s

/-! ### Interrupts (R370) -/

/-- MIN_GAP has passed since the last message of a vector: units of 0.1 µs against always-on cycles of 40 ns (log 2). -/
def gapPassed (s : State) (v : MsixVec) : Bool :=
  match v.lastSent with
  | none => true
  | some t => decide (v.minGap.toNat * 100 ≤ (s.aoCycles - t) * 40)

/-- A pending vector's message is sent (R370): MSI-X enabled, neither mask set, DMA possible and MIN_GAP passed. -/
def execMsixSend (v : Fin 64) (s : State) : Host.Outcome State Fault Refusal := whenLive s <|
  let x := s.hif.vecs[v]
  if x.pending && s.hif.msixEnable && !s.hif.msixMask && !x.ctrl.getLsbD 0 && dma s && gapPassed s x then
    .next { s with hif := { s.hif with
      vecs := upd s.hif.vecs v (fun x => { x with pending := false, lastSent := some s.aoCycles }),
      sent := (x.addr, x.data) :: s.hif.sent } }
  else .next s

/-! ### Accesses of other shapes (R341) -/

/-- A misaligned or wrongly sized BAR0 access (R341): a read returns zero, a write is ignored, BAD_ACCESS is set. -/
def execBadAccess (write : Bool) (s : State) : Host.Outcome State Fault Refusal := whenReachable s <|
  .next { s with hif := { s.hif with badAccess := true }, busRead := if write then s.busRead else 0 }

end Sys2Proof.Machine
end

