-- ==== Sys2Proof/Machine/Access.lean ====
section
/-!
DEFINITION. Access levels (R485 to R490): challenge and response, the OWNER password, failure counts and delays.
-/
namespace Sys2Proof.Machine

/-- One access level changed. -/
def updLevel (l : Fin 2) (f : Level → Level) (s : State) : State :=
  { s with acc := { s.acc with level := upd s.acc.level l f } }

/-- The level that an argument names (R361). -/
def levelArg (x : Nat) : Option (Fin 2) := if h : x < 2 then some ⟨x, h⟩ else none

/-- ACC_STATE (R489, R519): cause 0 OPEN, 1 CLOSE, 2 RESET, 3 FAIL, 4 STORE_LOST. -/
def raiseAcc (l : Fin 2) (sev cause : Nat) (s : State) : State :=
  raiseNow 0xF1 sev [BitVec.ofNat 8 l.val, BitVec.ofNat 8 cause, BitVec.ofNat 8 (s.acc.level[l]).fails] s

/-- The delay that F failures start, in ms (R488). -/
def failDelay (f : Nat) : Option Nat := if 8 ≤ f then some (1000 * min 65536 (2 ^ (f - 8))) else none

/-- The always-on cycle at which that delay ends, counted from now: 25,000 cycles of 40 ns to 1 ms (R46, log 2). -/
def delayEnd (f : Nat) (s : State) : Option Nat := (failDelay f).map fun ms => s.aoCycles + 25000 * ms

/-- Remaining delay of a level in ms, rounded up (R491). -/
def delayLeft (s : State) (x : Level) : Nat :=
  match x.delay with
  | some e => (e - s.aoCycles + 24999) / 25000
  | none => 0

/-- An attempt fails (R488, R489). -/
def authFails (l : Fin 2) (s : State) : Reply :=
  let f := stick 8 ((s.acc.level[l]).fails + 1)
  .refuseIn (raiseAcc l sevWarning 3 (updLevel l (fun x => { x with fails := f, delay := delayEnd f s }) s)) stAuthFailed 0 []

/-- An attempt succeeds (R488, R489). -/
def authOpens (l : Fin 2) (s : State) : Reply :=
  let was := (s.acc.level[l]).isOpen
  let s := updLevel l (fun x => { x with fails := 0, isOpen := true }) s
  .ok (if was then s else raiseAcc l sevNotice 0 s) []

/-- A running delay answers AUTH_DELAY with the remaining ms (R353, R488). -/
def delayed (l : Fin 2) (s : State) (k : Reply) : Reply :=
  match (s.acc.level[l]).delay with
  | some _ => .refuse stAuthDelay 0 (le 4 (delayLeft s s.acc.level[l])) 0
  | none => k

/-- 16 bytes of the random-number generator (R486, R487; log 7). -/
def random16 (s : State) : List Byte × State :=
  let (k, s) := fresh s
  (pad 16 (Config.freeBlob k), s)

/-- ACC_CHALLENGE (R486): a new nonce, which replaces a live one. -/
def accChallenge (c : Call) (s : State) : Reply :=
  match levelArg (arg1 c 0x18) with
  | none => refuse stInvalid 0x18
  | some l => delayed l s (
    let (nonce, s) := random16 s
    .ok (updLevel l (fun x => { x with nonce := some nonce }) s) nonce)

/-- ACC_CHALLENGE (R486): Command that returns a fresh nonce for an access level. -/
def execAccChallenge (o : Origin) (s : State) : Host.Outcome State Fault Refusal := whenLive s <|
  .next (runCmd o 0x0060 [] noDeps accChallenge s)

/-- The response to a nonce (R486). -/
def expectedResponse (l : Fin 2) (nonce : List Byte) : List Byte :=
  pad 32 (Config.hmac (Config.levelKey l.val)
    ([0x59, 0x41, BitVec.ofNat 8 l.val] ++ nonce ++ (List.range 12).map Config.serialByte))

/-- ACC_RESPOND (R486, R488): a nonce serves one response. -/
def accRespond (c : Call) (s : State) : Reply :=
  match levelArg (arg1 c 0x18) with
  | none => refuse stInvalid 0x18
  | some l => delayed l s (
    match (s.acc.level[l]).nonce with
    | none => refuse stState 0
    | some nonce =>
      let s := updLevel l (fun x => { x with nonce := none }) s
      if slice c.desc 0x20 32 = expectedResponse l nonce then authOpens l s else authFails l s)

/-- ACC_RESPOND (R486): Command that opens an access level when the HMAC response matches. -/
def execAccRespond (o : Origin) (s : State) : Host.Outcome State Fault Refusal := whenLive s <|
  .next (runCmd o 0x0061 [] noDeps accRespond s)

/-- ACC_PASSWORD (R487). -/
def accPassword (c : Call) (s : State) : Reply :=
  withBlock 0x0062 9 parsePassword c fun pw =>
    if item c.block ≠ 0 then refuse stInvalid 0xFF
    else delayed 0 s (
      match s.acc.pwHash with
      | none => refuse stState 0
      | some h => if Config.passwordHash s.acc.salt pw = h then authOpens 0 s else authFails 0 s)

/-- ACC_PASSWORD (R487): Command that opens OWNER when the password hash matches. -/
def execAccPassword (o : Origin) (block : List Byte) (s : State) : Host.Outcome State Fault Refusal := whenLive s <|
  .next (runCmd o 0x0062 block noDeps accPassword s)

/-- OWNER rights: either level is open (R485). -/
def ownerRight (a : Acc) : Bool := (a.level[0]).isOpen || (a.level[1]).isOpen

/-- ACC_SET_PASSWORD (R487): a new salt and the new hash. -/
def accSetPassword (c : Call) (s : State) : Reply :=
  withBlock 0x0063 9 parsePassword c fun pw =>
    if item c.block ≠ 0 then refuse stInvalid 0xFF
    else if !ownerRight s.acc then refuse stDenied 0
    else
      let (salt, s) := random16 s
      .ok { s with acc := { s.acc with salt := salt, pwHash := some (Config.passwordHash salt pw) } } []

/-- ACC_SET_PASSWORD (R487): Command that stores a new OWNER password hash with a new salt. -/
def execAccSetPassword (o : Origin) (block : List Byte) (s : State) : Host.Outcome State Fault Refusal := whenLive s <|
  .next (runCmd o 0x0063 block noDeps accSetPassword s)

/-- ACC_CLOSE (R489). -/
def accClose (c : Call) (s : State) : Reply :=
  match levelArg (arg1 c 0x18) with
  | none => refuse stInvalid 0x18
  | some l =>
    if (s.acc.level[l]).isOpen then .ok (raiseAcc l sevNotice 1 (updLevel l (fun x => { x with isOpen := false }) s)) []
    else .ok s []

/-- ACC_CLOSE (R489): Command that closes an access level. -/
def execAccClose (o : Origin) (s : State) : Host.Outcome State Fault Refusal := whenLive s <|
  .next (runCmd o 0x0064 [] noDeps accClose s)

/-- A nonce lapses 60 s after it was issued (R486). -/
def execNonceExpiry (level : Fin 2) (s : State) : Host.Outcome State Fault Refusal := whenLive s <|
  .next (updLevel level (fun x => { x with nonce := none }) s)

/-- A failure delay has run (R488). -/
def execAuthDelayEnd (level : Fin 2) (s : State) : Host.Outcome State Fault Refusal := whenLive s <|
  .next (updLevel level (fun x => { x with delay := none }) s)

/-- After a power loss or PERST#, a delay owed restarts in full at READY (R488). -/
def restartDelays (s : State) : State :=
  forAll 2 (fun l s => updLevel l (fun x => { x with delay := delayEnd x.fails s }) s) s

end Sys2Proof.Machine
end

