-- ==== Sys2Proof/Machine/Flags.lean ====
section
/-!
DEFINITION. Quality flags and their extents (R84, R95, R101, R115, R117, R123, R125): the sample being taken, the spans that
a clock fault marks, the quality byte of a block and the flags of one sample.
-/
namespace Sys2Proof.Machine

/-- Samples exist once proofing step PF2 has ended (R100, R123). -/
def samplesExist (s : State) : Bool := !(s.proof.active && decide (s.proof.step < 3))

/-- The first sample of the lc that is being taken: 40 lc after the one that reaches the compute tiles now (R96, log 3). -/
def takenSample (s : State) : Nat := if samplesExist s then commitSample s + 1600 else 0

/-- TS96 of the sample being taken, which clocking events carry (R81). -/
def tsTaken (s : State) : TS96 := tsOf s (takenSample s)

/-- A clocking event (R81, R519). -/
def raiseClk (src : Fin 256) (sev : Nat) (data : List Byte) (s : State) : State := raise src sev (tsTaken s) data s

/-- Samples become COASTING from `back` samples before the one being taken (R95), unless they are already. -/
def coastFrom (back : Nat) (s : State) : State :=
  if s.clk.coast.any fun x => x.2.isNone then s
  else { s with clk := { s.clk with coast := (takenSample s - back, none) :: s.clk.coast } }

/-- COASTING ends with sample `last` (R95). -/
def coastTo (last : Nat) (s : State) : State :=
  { s with clk := { s.clk with coast := s.clk.coast.map fun x => (x.1, some (x.2.getD last)) } }

/-- The extent of a core switch decided now (R84): S is 3 lc after the deciding lc; samples from S − 32 lc to S + 32 lc. -/
def markSwitch (s : State) : State :=
  if samplesExist s then
    let sw := takenSample s + 120
    { s with clk := { s.clk with csw := (sw - 1280, sw + 1280 + 39) :: s.clk.csw } }
  else s

/-- Two spans of samples meet. -/
def meets (a b c d : Nat) : Bool := decide (a ≤ d ∧ c ≤ b)

/-- A span holds a CLOCK_SWITCH sample. -/
def spanSwitch (s : State) (a b : Nat) : Bool := s.clk.csw.any fun x => meets a b x.1 x.2

/-- A span holds a COASTING sample. -/
def spanCoast (s : State) (a b : Nat) : Bool := s.clk.coast.any fun x => meets a b x.1 (x.2.getD b)

/-- A span holds a LANE_SUBSTITUTED sample of a slice (R115). -/
def spanSubst (n : Fin 8) (s : State) (a b : Nat) : Bool := (s.slices[n]).substWin.any fun x => meets a b x.1 x.2

/-- A sample carries PROOFING (R123). -/
def isProofing (s : State) (x : Nat) : Bool :=
  match s.proof.endSample with
  | some e => decide (x < e)
  | none => s.proof.active

/-- The quality byte of a block of a channel as it is produced (R101, R125); `clipped` says that a sample of it is. -/
def qualByte (n : Fin 8) (b : Nat) (clipped : Bool) (s : State) : Byte :=
  let first := 4096 * b
  let last := first + 4095
  let sl := s.slices[n]
  BitVec.ofNat 8
    (flag clipped 0 + flag (spanSwitch s first last) 1 + flag (spanCoast s first last) 2
      + flag (spanSubst n s first last || (sl.interpFrom.any fun b0 => decide (b0 ≤ b))) 3
      + flag (isProofing s first) 4 + flag (sl.wornFrom.any fun b0 => decide (b0 ≤ b)) 5
      + flag (s.clk.steps.any fun x => decide (x.1 / 4096 = b)) 7)

/-- Quality of a block as stored (R101), or as it stands so far where the block is not complete. -/
def blockQual (n : Fin 8) (b : Nat) (s : State) : Byte :=
  let stored := (((s.slices[n]).qual.find? fun x => x.1 = b).map (·.2)).getD 0
  if 40 * (s.slices[n]).words < 4096 * (b + 1) then
    stored ||| qualByte n b (decide (0 < (s.slices[n]).blockClips ∧ 40 * (s.slices[n]).words / 4096 = b)) s
  else stored

/-- Quality of every block that a span of samples meets, combined. -/
def spanQual (n : Fin 8) (a b : Nat) (s : State) : Byte :=
  ((List.range (b / 4096 + 1 - a / 4096)).map fun i => blockQual n (a / 4096 + i) s).foldl (· ||| ·) 0

/-- EPOCH_UNSET (R135): the timebase is UNSET, ARMED or PENDING. -/
def epochUnset (s : State) : Bool := !(s.tb.state == .set)

/-- EPOCH_STATE was UNSET, ARMED or PENDING as sample `n` arrived, no epoch lying between (R220). -/
def epochUnsetAt (s : State) (n : Nat) : Bool := epochUnset s && decide (s.tb.unsetFrom ≤ n)

/-! ### ALIGNED (R390) -/

/-- Peers that count for ALIGNED (R390): a STATUS has been received, the peer is not STALE and reports SET. -/
def alignPeers (s : State) : List (Fin 64) :=
  (List.finRange 64).filter fun n =>
    n.val ≠ s.brim.position && (s.brim.peers[n]).valid && !(s.brim.peers[n]).stale && (s.brim.peers[n]).epoch == 2

/-- The offset θ of a peer in fs (R405). -/
def peerTheta (s : State) (n : Fin 64) : Int := (s.brim.peers[n]).offset.toInt

/-- The condition of R390. -/
def isAligned (s : State) : Bool :=
  s.tb.state == .set && s.clk.refState == .locked
    && (alignPeers s).all fun n => decide ((peerTheta s n).natAbs ≤ 10 ^ 6)

/-- The peer with the largest |θ| (R390). -/
def worstPeer (s : State) : Option (Fin 64) :=
  (alignPeers s).foldl (fun best n =>
    match best with
    | none => some n
    | some b => if (peerTheta s b).natAbs < (peerTheta s n).natAbs then some n else best) none

/-- ALIGNED follows its condition; a change raises BRIM_ALIGN, which names the worst peer (R390, R519). With no peer to name,
the two fields are free (log 56). -/
def checkAligned (s : State) : State :=
  let now := isAligned s
  if now == s.brim.aligned then s
  else
    let s := { s with brim := { s.brim with aligned := now } }
    let sev := if now then sevNotice else sevWarning
    match worstPeer s with
    | some n =>
      raiseNow 0xE4 sev ([BitVec.ofNat 8 (flag now 0), BitVec.ofNat 8 n.val] ++ List.replicate 6 0
        ++ le 8 (unsigned 64 (peerTheta s n))) s
    | none =>
      let (k, s) := fresh s
      raiseNow 0xE4 sev ([BitVec.ofNat 8 (flag now 0), Config.freeByte k] ++ List.replicate 6 0
        ++ le 8 (Config.freeWord k).toNat) s

end Sys2Proof.Machine
end

