-- ==== Sys2Proof/Machine/Clocks.lean ====
section
/-!
DEFINITION. The clock tile of chapter 3: band selection, lock and unlock, core switches, the bypass clock and the reference
state machine. APPLY and the timebase step touch every block and are in Era.lean.
-/
namespace Sys2Proof.Machine

/-! ### Frequencies (R63 to R65, R85) -/

/-- fPD in mHz for a conditioner setting and a reference in kHz (R63). -/
def fpdMilli (cond : BitVec 2) (refKhz : Nat) : Nat :=
  let ref := refKhz * 10 ^ 6
  if cond = 0 then ref else if cond = 1 then 2 * ref else ref / 2

/-- fPD in force, in mHz. -/
def fpdNow (s : State) : Nat := fpdMilli s.clk.condNow s.clk.refKhzNow

/-- NI and NF for a requested fs (R65): the fraction nearest to the request (DESIGN CHOICE, log 27). -/
def chooseN (fsKhz fpd : Nat) : Nat × Nat :=
  if fpd = 0 then (0, 0)
  else
    let vco := fsKhz * 500000
    let q := (vco * 2 ^ 32 * 2 + fpd) / (2 * fpd)
    (q / 2 ^ 32, q % 2 ^ 32)

/-- Achieved fs in whole mHz, to the nearest: R65 states no rounding (DESIGN CHOICE, log 27). -/
def achieved (fpd ni nf : Nat) : Nat := (2 * fpd * (ni * 2 ^ 32 + nf) + 2 ^ 31) / 2 ^ 32

/-- REF_KHZ within what a conditioner setting allows (R63, R70). -/
def refAllowed (cond : BitVec 2) (refKhz : Nat) : Bool :=
  if cond = 0 then within 10000 refKhz 500000
  else if cond = 1 then within 10000 refKhz 250000
  else if cond = 2 then within 20000 refKhz 500000
  else false

/-- Twice the VCO target of a core, in mHz (R64). -/
def targetTwice (core : Nat) (s : State) : Nat :=
  if core < 2 then fsMilli s else if core = 2 then 16 * 10 ^ 12 else 21250 * 10 ^ 9

/-- NI and NF of a core (R65): those of SYN-S from the last APPLY; SYN-F and SYN-T take the fraction nearest to their VCO frequency
(log 27). -/
def coreN (core : Fin 4) (s : State) : Nat × Nat :=
  if core.val < 2 then (s.clk.ni, s.clk.nf) else chooseN (targetTwice core.val s / 10 ^ 6) (fpdNow s)

/-- Bypass divider of a SYN-F domain of nominal frequency `f` Hz (R85). -/
def bypassDivider (s : State) (f : Nat) : Nat := (fsMilli s + f * 1000 - 1) / (f * 1000)

/-- Nominal frequencies in Hz of the domains on O9 to O12 (R77, R85): fabric, engine, DRAM controller, control. -/
def bypassHz (output : Nat) : Nat := if output = 9 then 1600000000 else if output = 12 then 1000000000 else 2000000000

/-- The device sets the bypass outputs of both SYN-S cores for the fs in force (R76, R77, R85). -/
def setBypass (s : State) : State :=
  { s with clk := { s.clk with outs := Vector.ofFn fun c : Fin 4 =>
      if c.val < 2 then Vector.ofFn fun i : Fin 16 =>
        if 9 ≤ i.val ∧ i.val ≤ 12 then { (s.clk.outs[c])[i] with divider := bypassDivider s (bypassHz i.val) } else (s.clk.outs[c])[i]
      else s.clk.outs[c] } }

/-- Skew calibration sets the delays of the sampling outputs of both SYN-S cores (R76, R77, R109): 0 to 63 half-VCO periods, and
±200.0 ps in 0.1 ps. -/
def setDelays (delays : List (Nat × Int)) (s : State) : State :=
  { s with clk := { s.clk with outs := Vector.ofFn fun c : Fin 4 =>
      if c.val < 2 then Vector.ofFn fun i : Fin 16 =>
        match delays[i.val]? with
        | some d => if i.val ≤ 7 then { (s.clk.outs[c])[i] with coarse := min 63 d.1, fine := max (-2000) (min 2000 d.2) }
                    else (s.clk.outs[c])[i]
        | none => (s.clk.outs[c])[i]
      else s.clk.outs[c] } }

/-- What REFOUT does (R47, R63): high impedance without main rails or with PERST# asserted, steady low while the reference is declared
lost, else the conditioned reference at fPD in mHz. -/
inductive RefOut where
  | highZ
  | low
  | clock (milliHz : Nat)
deriving DecidableEq, Repr

/-- REFOUT (R63). The reference stays declared lost until it qualifies again. -/
def refOut (s : State) : RefOut :=
  if !live s then .highZ
  else match s.clk.refState with
    | .coasting | .free => .low
    | _ => .clock (fpdNow s)

/-! ### Band selection (R73 to R75) -/

/-- Distance of an entry from the target, doubled, in mHz (R73). -/
def bandDistance (target2 : Nat) (e : BandEntry) : Nat :=
  let c := 2 * e.centreKhz.toNat * 10 ^ 6
  if target2 ≤ c then c - target2 else target2 - c

/-- The entry meets R73: VALID, and within 0.35 V × KVCO of the target. -/
def bandQualifies (target2 : Nat) (e : BandEntry) : Bool :=
  e.valid && decide (bandDistance target2 e ≤ 700 * e.kvco.toNat * 10 ^ 6)

/-- The entry that R73 selects among those not excluded: the nearest, then the lower index. -/
def bandChoice (target2 : Nat) (t : Vector BandEntry 32) (excluded : List Nat) : Option (Fin 32) :=
  (List.finRange 32).foldl (fun best i =>
    if excluded.contains i.val || !bandQualifies target2 t[i] then best
    else match best with
      | none => some i
      | some j => if bandDistance target2 t[i] < bandDistance target2 t[j] then some i else best) none

/-- An entry of a core's table changed. -/
def updBand (core : Fin 4) (i : Fin 32) (f : BandEntry → BandEntry) (s : State) : State :=
  { s with clk := { s.clk with bands := upd s.clk.bands core fun t => upd t i f } }

/-- Selection and verification of a core's band (R73, R74): an entry that fails is left out and selection repeats. `pass` are
the entries that pass verification. -/
def selectBandN (core : Fin 4) (pass : List Nat) : Nat → List Nat → State → State
  | 0, _, s => s
  | fuel + 1, excluded, s =>
    match bandChoice (targetTwice core.val s) s.clk.bands[core] excluded with
    | some i =>
      if pass.contains i.val then
        let s := updBand core i (fun e => { e with verified := true }) s
        { s with clk := { s.clk with selected := s.clk.selected.set core (some i.val),
                                     noBand := s.clk.noBand.set core false } }
      else
        let s := updBand core i (fun e => { e with verified := false }) s
        let s := raiseClk 0x18 sevWarning [BitVec.ofNat 8 core.val, BitVec.ofNat 8 i.val, 0]
          { s with clk := { s.clk with bandFault := true } }
        selectBandN core pass fuel (i.val :: excluded) s
    | none =>
      let (k, s) := fresh s
      raiseClk 0x18 sevError [BitVec.ofNat 8 core.val, Config.freeByte k, 1]
        { s with clk := { s.clk with selected := s.clk.selected.set core none,
                                     noBand := s.clk.noBand.set core true } }

/-- The band of a core selected afresh (R73, R74). -/
def selectBand (core : Fin 4) (pass : List Nat) (s : State) : State := selectBandN core pass 33 [] s

/-! ### SYN-S cores (R82 to R84) -/

/-- The active core (R82). -/
def activeCore (s : State) : Fin 2 := if s.clk.core[0] == .active then 0 else if s.clk.core[1] == .active then 1 else 0

/-- The other SYN-S core. -/
def otherCore (c : Fin 2) : Fin 2 := if c = 0 then 1 else 0

/-- A SYN-S core as one of the four cores. -/
def asCore (c : Fin 2) : Fin 4 := if c = 0 then 0 else 1

/-- State of one SYN-S core changed. -/
def setCore (c : Fin 2) (x : CoreState) (s : State) : State :=
  { s with clk := { s.clk with core := s.clk.core.set c x } }

/-- LOCK of one core changed. -/
def setLock (c : Fin 4) (x : Bool) (s : State) : State :=
  { s with clk := { s.clk with lock := s.clk.lock.set c x } }

/-- The other core stands by (R80, R82): STANDBY, and its loop locked. -/
def standbyReady (s : State) : Bool :=
  s.clk.core[otherCore (activeCore s)] == .standby && s.clk.lock[asCore (otherCore (activeCore s))]

/-- One loop opens and holds its tuning word, or closes (R82, R88, R90). -/
def setHeld (c : Fin 4) (x : Bool) (s : State) : State :=
  { s with clk := { s.clk with held := s.clk.held.set c x } }

/-- Core switch (R82, R84): the other core becomes active, the present one BAD; `cause` 0 UNLOCK, 1 REBAND. -/
def switchCore (cause : Nat) (s : State) : State :=
  let a := activeCore s
  let o := otherCore a
  markSwitch (raiseClk 0x10 sevWarning [BitVec.ofNat 8 o.val, BitVec.ofNat 8 cause] (setCore o .active (setCore a .bad s)))

/-- The loops are closed, on fPD or in FREE on XO-H, so that a loop can declare unlock (R78, R82, R93: reference loss takes
precedence). -/
def loopsClosed (s : State) : Bool :=
  match s.clk.refState with
  | .locking | .locked | .slewing | .stepPending | .free => true
  | _ => false

/-- Every SYN-F domain moves to its bypass output (R87). -/
def toBypass (s : State) : State :=
  if s.clk.fBypass then s
  else raiseClk 0x14 sevWarning [0] { s with clk := { s.clk with fBypass := true } }

/-! ### Reference state machine (R89 to R94) -/

/-- Every loop that has a band has met the lock rule (R93). -/
def allLocked (s : State) : Bool :=
  (List.finRange 4).all fun c => s.clk.lock[c] || s.clk.noBand[c]

/-- Loops start to acquire lock again: no loop counts as locked (log 28), and closed loops hold no tuning word. -/
def clearLocks (s : State) : State :=
  { s with clk := { s.clk with lock := Vector.replicate 4 false, held := Vector.replicate 4 false } }

/-- The reference state changed. -/
def toRef (r : RefState) (s : State) : State :=
  let s := if s.clk.refState == .measuring then notIdle 7 s else s
  { s with clk := { s.clk with refState := r } }

/-- LOCKED is reached (R93, R95): COASTING of the reference ends with sample `last`. A core or a SYN-T that still coasts by itself goes on
until its loop meets the lock rule (R82, R88). -/
def reachLocked (last : Nat) (s : State) : State :=
  let s := toRef .locked s
  let s := if s.clk.coreCoast then s else coastTo last s
  { s with clk := { s.clk with refCoast := false, stepDelta := none, relockAt := none, lossAt := none } }

/-- The loops close on XO-H (R93): FREE, with COASTING from `back` samples before the one being taken. -/
def toFree (back : Nat) (s : State) : State :=
  let s := coastFrom back (toRef .free (clearLocks s))
  { s with clk := { s.clk with refCoast := true, coreCoast := false, reband := none } }

/-- Loops that have a band. -/
def banded (s : State) : Vector Bool 4 := s.clk.noBand.map (!·)

/-- The reference is declared lost (R89, R90, R93). In START, FREE and COASTING there is no reference to lose. -/
def refLost (cause : Nat) (s : State) : State :=
  let lost := raiseClk 0x16 sevError [BitVec.ofNat 8 cause] s
  match s.clk.refState with
  | .locking => toFree 1280 lost
  | .locked | .slewing | .stepPending | .measuring =>
    let s' := coastFrom 1280 (toRef .coasting (clearLocks lost))
    { s' with clk := { s'.clk with
        refCoast := true, coreCoast := false, tCoast := !s.clk.noBand[3], held := banded s, steers := 0, reband := none,
        stepDelta := none, relockAt := none,
        lossAt := if s.clk.refState == .measuring then s.clk.lossAt else some (takenSample s) } }
  | _ => s

/-- What the monitor saw declares the reference lost (R89): four edges missing, or more than 50 ppm off; the cause of R519. -/
def lossCause (seen : RefFault) (s : State) : Option Nat :=
  match seen with
  | .missing edges => if 4 ≤ edges then some 0 else none
  | .frequency f =>
    if fpdNow s * 50 < ((f : Int) - fpdNow s).natAbs * 10 ^ 6 then some 1 else none

/-- REF_LOSS (R89): Reference declared lost and all loops coast. -/
def execRefLoss (seen : RefFault) (s : State) : Host.Outcome State Fault Refusal := whenLive s <|
  .next (match lossCause seen s with
    | some cause => checkAligned (refLost cause s)
    | none => s)

/-- The lock register of a core (R79). -/
def lockReg (core : Fin 4) (s : State) : W32 :=
  if core.val < 2 then s.clk.lockS else if core = 2 then s.clk.lockF else s.clk.lockT

/-- The window of a loop in fs: W × 0.5 ps (R78, R79). -/
def lockWindow (core : Fin 4) (s : State) : Nat := ((lockReg core s).toNat % 256) * 500

/-- N consecutive phase samples lie inside W (R78). -/
def lockMet (r : PhaseRun) (s : State) : Bool :=
  decide ((lockReg r.core s).toNat / 2 ^ 16 ≤ r.samples ∧ r.extremeFs ≤ lockWindow r.core s)

/-- M consecutive phase samples lie outside W (R78). -/
def unlockMet (r : PhaseRun) (s : State) : Bool :=
  decide ((lockReg r.core s).toNat / 2 ^ 8 % 256 ≤ r.samples ∧ lockWindow r.core s < r.extremeFs)

/-- The planned switch of a reband once the rebanded core stands by (R75): the other core is rebanded and becomes the standby. -/
def finishReband (s : State) : State :=
  match s.clk.reband with
  | some pass =>
    if standbyReady s then
      let a := activeCore s
      let s := switchCore 1 { s with clk := { s.clk with reband := none } }
      selectBand (asCore a) pass (setLock (asCore a) false s)
    else s
  | none => s

/-- A loop declares lock (R78): the effects of R75, R82, R88 and R93. -/
def lockDeclared (core : Fin 4) (s : State) : State :=
  if s.clk.noBand[core] || s.clk.refState == .coasting || s.clk.refState == .measuring then s
  else
    let s := finishReband (setHeld core false (setLock core true s))
    let isActive := asCore (activeCore s) == core
    let s := if isActive && s.clk.coreCoast then
        let s := { s with clk := { s.clk with coreCoast := false } }
        if s.clk.refCoast then s else coastTo (takenSample s) s
      else s
    let s := if core = 3 then { s with clk := { s.clk with tCoast := false } } else s
    match s.clk.refState with
    | .locking | .slewing => if allLocked s then reachLocked (takenSample s) s else s
    | .stepPending =>
      if isActive && s.clk.relockAt.isNone then
        { s with clk := { s.clk with relockAt := some (takenSample s) } }
      else s
    | _ => s

/-- LOCK_DECLARED (R78): A loop reaches N consecutive phase samples inside W and is declared locked. -/
def execLockDeclared (run : PhaseRun) (s : State) : Host.Outcome State Fault Refusal := whenLive s <|
  .next (if lockMet run s then checkAligned (lockDeclared run.core s) else s)

/-- A SYN-S core declares unlock (R82). -/
def coreUnlock (c : Fin 2) (s : State) : State :=
  let s := setLock (asCore c) false s
  match s.clk.core[c] with
  | .active =>
    if standbyReady s then switchCore 0 { s with clk := { s.clk with reband := none } }
    else
      let s := raiseClk 0x11 sevWarning [BitVec.ofNat 8 c.val] (setHeld (asCore c) true s)
      coastFrom 0 { s with clk := { s.clk with coreCoast := true, relockAt := none } }
  | .standby => raiseClk 0x12 sevWarning [BitVec.ofNat 8 c.val, 0] (setCore c .bad s)
  | .bad => s

/-- A loop declares unlock (R78, R82, R83, R87, R88); `both` says that both SYN-S cores did within one run of M samples. -/
def unlockDeclared (core : Fin 4) (both : Bool) (s : State) : State :=
  if !loopsClosed s then s
  else if core = 0 then (if both then refLost 2 s else coreUnlock 0 s)
  else if core = 1 then (if both then refLost 2 s else coreUnlock 1 s)
  else if core = 2 then toBypass (setLock 2 false s)
  else
    let s := setHeld 3 true (setLock 3 false s)
    raiseClk 0x15 sevWarning [] { s with clk := { s.clk with tCoast := true } }

/-- UNLOCK_DECLARED (R78): A loop reaches M consecutive samples outside W and is declared unlocked. -/
def execUnlockDeclared (run : PhaseRun) (both : Bool) (s : State) : Host.Outcome State Fault Refusal := whenLive s <|
  .next (if unlockMet run s then checkAligned (unlockDeclared run.core both s) else s)

/-- The standby core stays outside ±0.3 ps for 64 lc (R82). -/
def execStandbyDrift (s : State) : Host.Outcome State Fault Refusal := whenLive s <|
  let o := otherCore (activeCore s)
  if s.clk.core[o] == .standby then
    .next (raiseClk 0x12 sevWarning [BitVec.ofNat 8 o.val, 1] (setCore o .bad s))
  else .next s

/-- A BAD core that is locked and aligned for 1 ms becomes STANDBY (R82). -/
def execStandbyReady (s : State) : Host.Outcome State Fault Refusal := whenLive s <|
  let o := otherCore (activeCore s)
  if s.clk.core[o] == .bad && s.clk.lock[asCore o] && !s.clk.noBand[asCore o] then
    .next (finishReband (raiseClk 0x13 sevInfo [BitVec.ofNat 8 o.val] (setCore o .standby s)))
  else .next s

/-- A core is rebanded (R75): for SYN-S the other core first, which relocks before the planned switch to it and the reband of the active
core (`finishReband`); for SYN-F on the bypass clock. SYN-T is rebanded only at APPLY and power-up. Where the other core finds no band
it is unavailable as standby (R74) and the reband ends there, the active core as it is (DESIGN CHOICE, log 145). -/
def rebandCore (core : Fin 4) (pass : List Nat) (s : State) : State :=
  if !s.clk.lock[core] || core = 3 then s
  else if core = 2 then selectBand 2 pass (setLock 2 false (toBypass s))
  else
    let o := otherCore (activeCore s)
    let s := selectBand (asCore o) pass (setLock (asCore o) false s)
    if s.clk.noBand[asCore o] then setCore o .bad s
    else { s with clk := { s.clk with reband := some pass } }

/-- REBAND (R75): Tuning voltage leaves 0.22–0.98 V and the core is rebanded. -/
def execReband (core : Fin 4) (pass : List Nat) (s : State) : Host.Outcome State Fault Refusal := whenLive s <|
  .next (rebandCore core pass s)

/-- SYN-F has stayed locked for 10 ms: its domains return (R87). -/
def execSynfReturn (s : State) : Host.Outcome State Fault Refusal := whenLive s <|
  if s.clk.fBypass && s.clk.lock[2] then
    .next (raiseClk 0x14 sevNotice [1] { s with clk := { s.clk with fBypass := false } })
  else .next s

/-- COAST_STEER (R88, R90): the steering loop compares each VCO that holds its tuning word with XO-H, once every millisecond. What it
holds is a frequency that no register shows (log 98). -/
def execCoastSteer (s : State) : Host.Outcome State Fault Refusal := whenLive s <|
  .next (if s.clk.held.toList.any id then { s with clk := { s.clk with steers := s.clk.steers + 1 } } else s)

/-- DATA of REF_RETURN (R519). -/
def refReturnData (s : State) (first ambig : Bool) (refret : Bool) : List Byte :=
  le 8 s.clk.refJump.toNat ++ [BitVec.ofNat 8 (flag first 0 + flag ambig 1), BitVec.ofNat 8 (flag refret 0)]

/-- The reference qualifies (R91, R93); REFRET in force now governs the return (R66). -/
def refQualify (s : State) : State :=
  match s.clk.refState with
  | .start => toRef .locking (clearLocks s)
  | .free =>
    raiseClk 0x17 sevNotice (refReturnData s true false s.clk.refret) (toRef .locking (clearLocks s))
  | .coasting => toRef .measuring { s with clk := { s.clk with refretNow := s.clk.refret } }
  | _ => s

/-- REF_QUALIFY (R91): Returning reference passes a full 1 ms gate within tolerance. -/
def execRefQualify (s : State) : Host.Outcome State Fault Refusal := whenLive s <| .next (refQualify s)

/-- 10 ms have passed in START without a qualifying reference (R93). -/
def execRefStartTimeout (s : State) : Host.Outcome State Fault Refusal := whenLive s <|
  if s.clk.refState == .start then .next (toFree 0 (raiseClk 0x16 sevError [3] s)) else .next s

/-- Δ lies in (−P/2, +P/2] (R92). -/
def deltaInRange (s : State) (d : Int) : Bool :=
  let x : Int := 2 * d * fpdNow s
  let p : Int := (fsMilli s : Int) * tick
  decide (-p < x ∧ x ≤ p)

/-- The coasting lasted at least 2.5 × 10^6 × P (R92). -/
def ambiguous (s : State) : Bool :=
  match s.clk.lossAt with
  | some n => decide (25 * 10 ^ 5 * fsMilli s ≤ (takenSample s - n) * fpdNow s)
  | none => false

/-- |Δ| ≤ W × 0.5 ps (R93). -/
def deltaInW (s : State) (d : Int) : Bool :=
  decide (d.natAbs * 2 * 10 ^ 15 ≤ (s.clk.lockS.toNat % 256) * tick * fsMilli s)

/-- Δ has been measured (R92, R93). -/
def refReturned (d : Int) (s : State) : State :=
  if s.clk.refState == .measuring && deltaInRange s d then
    let amb := ambiguous s
    let s := { s with clk := { s.clk with refJump := BitVec.ofInt 64 d, phaseAmbig := amb } }
    let s := clearLocks (raiseClk 0x17 (if amb then sevWarning else sevNotice)
      (refReturnData s false amb s.clk.refretNow) s)
    if deltaInW s d then toRef .locking s
    else if s.clk.refretNow then
      toRef .stepPending { s with clk := { s.clk with stepDelta := some d, relockAt := none } }
    else toRef .slewing s
  else s

/-- REF_RETURN (R92): Measurement of Δ over 64 reference edges completes. -/
def execRefReturn (delta : Int) (s : State) : Host.Outcome State Fault Refusal := whenLive s <|
  .next (checkAligned (refReturned delta s))

/-- 100 ms in ticks (R94). -/
def stepWindow (s : State) : Nat := nsToTicks s (10 ^ 8)

/-- Last samples of the era's segments, on any sequencer and however they ended, that end from sample `r` on within 100 ms and have been
taken (R94). -/
def endsAfter (r : Nat) (s : State) : List Nat :=
  (s.mem.segs.filter fun g =>
    g.era == s.proof.era && decide (r ≤ g.last ∧ g.last ≤ r + stepWindow s ∧ g.last ≤ takenSample s + 39)).map (·.last)

/-- The step instant (R94) once SYN-S has met the lock rule: after the first segment to end, or the first sample of the next block of SL0
after 100 ms. -/
def stepInstantOf (s : State) : Option Nat :=
  match s.clk.relockAt with
  | some r => match (endsAfter r s).min? with
    | some l => some (l + 1)
    | none => if r + stepWindow s ≤ takenSample s then some (((r + stepWindow s) / 4096 + 1) * 4096) else none
  | none => none

end Sys2Proof.Machine
end

