-- ==== Sys2Proof/Machine/Latency.lean ====
section
/-!
DEFINITION. Latencies that decide when a firing is known and when a sequencer decides (R178, R181, R246, R264, R522).
-/
namespace Sys2Proof.Machine

/-! ### Decimation chains (R246 to R248, R253, R260, R264) -/

/-- Pipeline latency L_p of a preset code (R246). -/
def presetL (p : Nat) : Nat := 52 + 2 * p

/-- Twice A_p of a preset code in Ts (R246). -/
def presetA2 : Nat → Nat
  | 0 => 212 | 1 => 897 | 2 => 3603 | 3 => 14427 | 4 => 57723 | 5 => 230907 | _ => 0

/-- S_p of a preset code (R246). -/
def presetS : Nat → Nat
  | 0 => 54 | 1 => 58 | 2 => 58 | 3 => 58 | 4 => 58 | 5 => 58 | _ => 0

/-- The chain produces outputs. -/
def chainOn (c : DdcCfg) : Bool := decide (c.preset ≤ 5)

/-- Pipeline latency L (R247). -/
def chainL (c : DdcCfg) : Nat := presetL c.preset + if c.place = 0 then 0 else 1

/-- Alignment A in units of 0.5 Ts (R248, R253, R269); zero with PRESET OFF. -/
def chainA2 (c : DdcCfg) : Nat :=
  if chainOn c then
    presetA2 c.preset + (if c.place = 1 then (c.siftN - 1) * presetD c.preset / 2
                         else if c.place = 2 then (c.siftN - 1) * presetD c.preset else 0)
  else 0

/-- Settling count S (R260). -/
def chainS (c : DdcCfg) : Nat :=
  if chainOn c then
    presetS c.preset + (if c.place = 1 then c.siftN / 2 else if c.place = 2 then c.siftN - 1 else 0)
  else 0

/-- Event latency E in lc (R264); zero with PRESET OFF (R269). -/
def chainE (c : DdcCfg) : Nat :=
  if chainOn c then chainL c + 2 + (chainA2 c + 2 * presetD c.preset + 79) / 80 else 0

/-- The CALDEF image in service, none for the factory's (R442, R456). -/
def calTable (u : Upd) : Option (List Byte) :=
  let b := (u.banks[(5 : Fin 6)])[if u.act.banks.getLsbD 5 then (1 : Fin 2) else 0]
  if b.factory then none else some b.image

/-- The settings of a chain with an accepted change that waits for its switch sample taken in. -/
def chainCfg (d : Ddc) : DdcCfg := match d.next with | some (c, _) => c | none => d.cfg

/-! ### Units and sequencers (R178, R181, R392, R522) -/

/-- L_SYS in lc (R392). -/
def lsysLc (s : State) : Nat := (s.brim.lsysNs * fsMilli s + 40 * 10 ^ 12 - 1) / (40 * 10 ^ 12)

/-- EVENT_LAT that an instance reports: zero while it is not enabled (R334); from its accepted SET_SERVICE on it is that of the
new settings (R313). -/
def instEventLat (s : State) (i : Nat) : Nat :=
  match getN s.insts i with
  | some x => if x.state == .off && x.next.isNone then 0 else x.eventLat
  | none => 0

/-- The settings of a unit with an accepted change that waits for its switch sample taken in (R174, R522). -/
def unitCfg (u : Tu) : TuCfg := match u.next with | some (c, _) => c | none => u.cfg

/-- Decision delay of a unit that is no SEQUENCE unit (R178). -/
def sourceDelay (s : State) (c : TuCfg) : Nat :=
  if c.type == .pattern then 48
  else if isDdcSource c.source then
    (match getN s.ddcs ((c.source - 0x20) / 2) with | some d => chainE (chainCfg d) | none => 0) + 2
  else if isSpectralSource c.source then instEventLat s ((c.source - 0x30) / 4) + 2
  else if isMeasureSource c.source then instEventLat s (8 + (c.source - 0x50) / 4) + 2
  else if isAverageSource c.source then instEventLat s (12 + (c.source - 0x60)) + 2
  else if isBrimSource c.source then lsysLc s + 2
  else 48

/-- Decision delay of a unit in lc (R178), following SEQUENCE units downward at most `fuel` times. -/
def tuDelayN (s : State) : Nat → Nat → Nat
  | 0, _ => 48
  | fuel + 1, u =>
    match getN s.tus u with
    | none => 0
    | some x =>
      let c := unitCfg x
      if c.type == .sequence then
        max (tuDelayN s fuel c.a) (max (tuDelayN s fuel c.b) (if c.rst = 0xFF then 0 else tuDelayN s fuel c.rst)) + 2
      else sourceDelay s c

/-- Decision delay of a unit (R178). -/
def tuDelay (s : State) (u : Nat) : Nat := tuDelayN s 17 u

/-- The largest delay among the units that a SEQUENCE unit names, after which it judges (R172, R178). -/
def seqInputDelay (s : State) (c : TuCfg) : Nat :=
  max (tuDelay s c.a) (max (tuDelay s c.b) (if c.rst = 0xFF then 0 else tuDelay s c.rst))

/-- Units that a term names, as firing unit or in a mask (R179). -/
def termUnits (t : Term) : List Nat :=
  (List.range 16).filter fun i => i = t.unit || t.high.getLsbD i || t.low.getLsbD i

/-- Units that an expression names. -/
def exprUnits (c : SeqCfg) : List Nat := c.terms.flatMap termUnits

/-- D_AS of a configuration (R181): the largest delay among the units named, plus 2 lc, or 50 lc with no terms. -/
def dAs (s : State) (c : SeqCfg) : Nat :=
  if c.terms.isEmpty then 50 else ((exprUnits c).map (tuDelay s)).foldl max 0 + 2

/-- A unit and every unit that it reaches through SEQUENCE units. -/
def reachesN (s : State) : Nat → Nat → List Nat
  | 0, u => [u]
  | fuel + 1, u =>
    match getN s.tus u with
    | none => [u]
    | some x =>
      let c := unitCfg x
      if c.type == .sequence then
        u :: (reachesN s fuel c.a ++ reachesN s fuel c.b ++ (if c.rst = 0xFF then [] else reachesN s fuel c.rst))
      else [u]

/-- Units that an expression names directly or through SEQUENCE units (R174). -/
def exprReach (s : State) (c : SeqCfg) : List Nat := (exprUnits c).flatMap (reachesN s 16)

/-- A sequencer is armed (R186): it is not IDLE, or it waits for START_AT. -/
def armed (q : Seq) : Bool := q.state != .idle || q.startAt.isSome

/-- The lc count at which what is known `d` lc after an instant is known; the instant's completing sample, after sample `kt`, reaches the
compute tiles 40 lc after it was taken (R23). -/
def dueOf (kt d : Nat) : Nat := (kt + 1) / 40 + d - 40

/-- The same for an instant given by its TS96. -/
def dueAt (s : State) (t : TS96) (d : Nat) : Nat := dueOf (triggerSample s t) d

/-- An instant in 2^-24 sample periods from sample number 0, from its TS96 and the latest sample at or before it. -/
def posFrom (s : State) (kt : Nat) (t : TS96) : Int := (kt * tick : Nat) + tsDiff t (tsArrival s kt)

/-- An instant from its TS96. -/
def posOf (s : State) (t : TS96) : Int := posFrom s (triggerSample s t) t

end Sys2Proof.Machine
end

