-- ==== Sys2Proof/Machine/Streams.lean ====
section
/-!
DEFINITION. Streams (R233 to R236, R363 to R366): units in the stream buffer, gaps, groups, the host ring with its tail word
and interrupts, and the end of a stream.
-/
namespace Sys2Proof.Machine

/-- One stream replaced. -/
def setStream (i : Fin 64) (x : Option Stream) (s : State) : State :=
  { s with hif := { s.hif with streams := s.hif.streams.set i x } }

/-- One open stream changed. -/
def updStream (i : Fin 64) (f : Stream → Stream) (s : State) : State :=
  setStream i (s.hif.streams[i].map f) s

/-- Bytes that a stream's buffer holds, with the group under construction as it will stand (R234). -/
def bufUsed (st : Stream) : Nat :=
  (st.buf.map (·.body.length)).sum + (if st.group.isEmpty || st.kind == .ddc then 0 else (pad64 st.group).length)

/-- Free space of a stream's buffer. -/
def bufFree (st : Stream) : Nat := st.bufBytes - bufUsed st

/-- The body of a gap record as it stands in the ring (R235, R364). -/
def gapBody (i : Nat) (g : Gap) : List Byte :=
  pad 64 (le 2 0x0F00 ++ [BitVec.ofNat 8 g.cause, BitVec.ofNat 8 i] ++ le 4 0 ++ tsBytes g.start ++ le 8 g.length)

/-- Channels that a CHANNEL or REDUCTION stream carries, for GAP_COUNT (R223). -/
def gapChannel (st : Stream) : Option Nat :=
  match st.kind with
  | .channel | .reduction => some st.source
  | _ => none

/-- Gap records that a sequencer will report (R223): of streams fed from its channels. -/
def countGap (st : Stream) (s : State) : State :=
  match gapChannel st with
  | some ch => { s with seqs := s.seqs.map fun q =>
      if q.cfg.channels.getLsbD ch then { q with gapCount := q.gapCount + 1 } else q }
  | none => s

/-- The open gap of a stream goes into its buffer as a record (R234) and is reported (R235). -/
def putGap (i : Fin 64) (g : Gap) (s : State) : State :=
  match s.hif.streams[i] with
  | none => s
  | some st =>
    let u : StreamUnit := { body := gapBody i.val g, validAt := 0x1C, weight := 0, ts := g.start, seg := none }
    let s := setStream i (some { st with gap := none, buf := st.buf ++ [u] }) s
    raise 0x80 sevWarning g.start
      ([BitVec.ofNat 8 i.val, BitVec.ofNat 8 g.cause] ++ le 6 0 ++ le 8 g.length) (countGap st s)

/-- A REDUCTION group that a stream has under construction becomes a unit (R365). -/
def closeGroup (st : Stream) : Stream :=
  if st.group.isEmpty then st
  else { st with group := [], groupCount := 0,
                 buf := st.buf ++ [{ body := pad64 st.group, validAt := 0x1C, weight := 0, ts := st.groupTs, seg := none }] }

/-- Cause of a gap that opens now (R235). -/
def gapCause (s : State) : Nat := if dma s then 0x01 else 0x02

/-- A unit that does not fit is discarded: a gap opens, or the open one grows (R234). -/
def discardUnit (ts : TS96) (weight : Nat) (s : State) (st : Stream) : Stream :=
  match st.gap with
  | some g => { st with gap := some { g with length := g.length + weight } }
  | none => { closeGroup st with gap := some { start := ts, length := weight, cause := gapCause s } }

/-- The buffer may take units again (R234): no gap is open, or a quarter of the buffer is free. -/
def mayResume (st : Stream) : Bool := st.gap.isNone || decide (st.bufBytes ≤ 4 * bufFree st)

/-- A gap that may end does so, ahead of the unit that is produced now (R234). -/
def resumeStream (i : Fin 64) (s : State) : State :=
  match s.hif.streams[i] with
  | some st => match st.gap with
    | some g => if mayResume st then putGap i g s else s
    | none => s
  | none => s

/-- The producer writes a unit of an open stream (R234): whole into the buffer beyond the 64 bytes kept for a gap record, or
discarded. -/
def pushUnit (i : Fin 64) (u : StreamUnit) (s : State) : State :=
  let s := resumeStream i s
  match s.hif.streams[i] with
  | none => s
  | some st =>
    if st.closing.isSome then s
    else if st.gap.isNone && decide (u.body.length + 64 ≤ bufFree st) then
      setStream i (some { st with buf := st.buf ++ [u] }) s
    else setStream i (some (discardUnit u.ts u.weight s st)) s

/-- A frame of a decimation chain that a stream has under construction becomes a unit (R265, R267), which waits for the end of its last
block; `groupAt` holds its D. -/
def closeFrame (i : Fin 64) (s : State) : State :=
  updStream i (fun st =>
    if st.group.isEmpty then st
    else
      let u : StreamUnit := { body := pad64 st.group, validAt := 0x1E, weight := st.groupCount * st.groupAt, ts := st.groupTs, seg := none }
      { st with group := [], groupCount := 0,
                waiting := st.waiting ++ [(u, st.groupFrom, fieldAt st.group 8 8 + (st.groupCount - 1) * st.groupAt)] }) s

/-- A finished frame takes its QUAL and goes into the buffer, whole or not at all (R266, R267). -/
def putFrame (ch : Fin 8) (i : Fin 64) (s : State) (x : StreamUnit × Nat × Nat) : State :=
  pushUnit i { x.1 with body := patch x.1.body 6 [spanQual ch x.2.1 x.2.2 s] } s

/-- The block of a frame's last grid sample is complete once the samples before `upTo` have passed. -/
def framePassed (upTo : Nat) (x : StreamUnit × Nat × Nat) : Bool := decide (4096 * (x.2.2 / 4096 + 1) ≤ upTo)

/-- Finished frames of a channel whose blocks are complete go into the buffer (R101, R266; DEDUCED, log 150). -/
def releaseFrames (ch : Fin 8) (upTo : Nat) (i : Fin 64) (st : Stream) (s : State) : State :=
  (st.waiting.filter (framePassed upTo)).foldl (putFrame ch i)
    (updStream i (fun st => { st with waiting := st.waiting.filter fun x => !framePassed upTo x }) s)

/-- Every finished frame goes into the buffer, where the stream ends. -/
def flushFrames (i : Fin 64) (s : State) : State :=
  match s.hif.streams[i] with
  | some st => st.waiting.foldl (putFrame (Fin.ofNat 8 st.source) i) (updStream i (fun st => { st with waiting := [] }) s)
  | none => s

/-- A record joins the group under construction, which it opens with `header` where there is none (R265, R365). -/
def pushGrouped (i : Fin 64) (header : List Byte) (record : List Byte) (ts : TS96) (weight : Nat) (s : State) : State :=
  let s := resumeStream i s
  match s.hif.streams[i] with
  | none => s
  | some st =>
    if st.closing.isSome then s
    else
      let grown := (if st.group.isEmpty then header else st.group) ++ record
      let more := (pad64 grown).length - (if st.group.isEmpty then 0 else (pad64 st.group).length)
      if st.gap.isNone && decide (more + 64 ≤ bufFree st) then
        setStream i (some { st with
          group := grown, groupCount := st.groupCount + 1,
          groupTs := if st.group.isEmpty then ts else st.groupTs,
          groupAt := if st.group.isEmpty then commitSample s else st.groupAt }) s
      else setStream i (some (discardUnit ts weight s st)) s

/-- `f` for every open stream of a kind and source. -/
def forStreams (kind : StreamKind) (source : Nat) (f : Fin 64 → Stream → State → State) (s : State) : State :=
  forAll 64 (fun i s => match s.hif.streams[i] with
    | some st => if st.kind == kind && st.source == source then f i st s else s
    | none => s) s

/-! ### The host ring (R363, R371) -/

/-- Room for `n` more bytes in a stream's ring (R363), counts taken modulo 2^64. -/
def ringRoom (st : Stream) (n : Nat) : Bool := decide ((st.tail - st.consumed).toNat + n ≤ 2 ^ st.ringLog2)

/-- Bytes from the tail to the end of the ring. -/
def toRingEnd (st : Stream) : Nat := 2 ^ st.ringLog2 - st.tail.toNat % 2 ^ st.ringLog2

/-- The phase of a record that starts at the present tail (R363). -/
def ringPhase (st : Stream) : Bool := !(bit st.tail.toNat st.ringLog2)

/-- A record's bytes with its VALID word, which has two bytes in a frame of a decimation chain (R266) and in a
spectrum (R324), and none in a MEASURE record, whose DONE is fixed (R327, log 43). -/
def validBody (st : Stream) (body : List Byte) (validAt : Nat) : List Byte :=
  patch body validAt (le (if validAt = 0x1E then 2 else 4) (flag (ringPhase st) 0))

/-- Records have been written: the vector becomes pending at IRQ_BYTES, or the wait for IRQ_USEC begins (R370). -/
def signal (i : Fin 64) (n : Nat) (s : State) : State :=
  match s.hif.streams[i] with
  | none => s
  | some st =>
    let k := st.unsignalled + n
    if st.irq && decide (st.irqBytes ≤ k) then
      pendVector (vecIndex st.vector) (setStream i (some { st with unsignalled := 0, firstUnsignalledAt := none }) s)
    else
      setStream i (some { st with unsignalled := k,
                                  firstUnsignalledAt := some (st.firstUnsignalledAt.getD s.aoCycles) }) s

/-- `n` bytes of the ring are used by a record: the tail word goes to host memory after the record (R363). -/
def advanceTail (i : Fin 64) (n : Nat) (s : State) : State :=
  match s.hif.streams[i] with
  | none => s
  | some st =>
    let tail := st.tail + BitVec.ofNat 64 n
    signal i n (hostWrite st.tailAddr (le 8 tail.toNat) (setStream i (some { st with tail := tail }) s))

/-- PAD and END records without their VALID word (R364). -/
def controlBody (type i : Nat) (cause : Nat) (count : Nat) : List Byte :=
  pad 64 (le 2 type ++ [BitVec.ofNat 8 i, BitVec.ofNat 8 cause] ++ le 4 0 ++ le 8 count)

/-- One record into the ring (R363); a record that would cross the ring's end is preceded by a PAD. Where the ring has no
room, nothing is written and the answer is false. -/
def ringPut (i : Fin 64) (body : List Byte) (validAt : Nat) (s : State) : State × Bool :=
  match s.hif.streams[i] with
  | none => (s, false)
  | some st =>
    let e := toRingEnd st
    let padded := decide (e < body.length)
    if ringRoom st (body.length + if padded then e else 0) then
      let s := if padded then
          advanceTail i e (hostWrite (st.ringAddr + (2 ^ st.ringLog2 - e))
            (validBody st (controlBody 0x0F02 i.val 0 0) 0x3C) s)
        else s
      match s.hif.streams[i] with
      | none => (s, false)
      | some st =>
        (advanceTail i body.length
          (hostWrite (st.ringAddr + st.tail.toNat % 2 ^ st.ringLog2) (validBody st body validAt) s), true)
    else (s, false)

/-- IRQ_USEC has passed since the first unsignalled record (R370), in always-on cycles of 40 ns (log 2). -/
def usecPassed (s : State) (st : Stream) : Bool :=
  match st.firstUnsignalledAt with
  | some t => decide (st.irqUsec * 1000 ≤ (s.aoCycles - t) * 40)
  | none => false

/-- STREAM_IRQ_TIMEOUT (R370): IRQ_USEC passes since a stream's first unsignalled record and marks its vector pending.
-/
def execStreamIrqTimeout (i : Fin 64) (s : State) : Host.Outcome State Fault Refusal := whenLive s <|
  match s.hif.streams[i] with
  | some st =>
    if st.irq && usecPassed s st then
      .next (pendVector (vecIndex st.vector)
        (setStream i (some { st with unsignalled := 0, firstUnsignalledAt := none }) s))
    else .next s
  | none => .next s

/-- A CONSUMED count that lies between the present one and the tail (R346, R363). -/
def consumedOk (st : Stream) (v : W64) : Bool := decide ((v - st.consumed).toNat ≤ (st.tail - st.consumed).toNat)

/-- A CONSUMED count commits; one that would release bytes not yet written is ignored (R346). -/
def setConsumed (v : W64) (st : Stream) : Stream := if consumedOk st v then { st with consumed := v } else st

/-- CONSUMED (R342, R346): one 8-byte write, or a low half that is held for the high half. -/
def writeConsumed (w : ConsumedWrite) (st : Stream) : Stream :=
  match w with
  | .whole v => setConsumed v st
  | .low v => { st with held := some v }
  | .high v =>
    let low := st.held.getD (st.consumed.truncate 32)
    { setConsumed (v ++ low) st with held := none }
  | .other => st

/-- CONSUMED (R346): Doorbell write of the bytes the host has consumed from a stream ring. -/
def execConsumed (i : Fin 64) (w : ConsumedWrite) (s : State) : Host.Outcome State Fault Refusal := whenReachable s <|
  .next (updStream i (writeConsumed w) s)

/-- The END record is written once the buffer is empty and the ring has room (R366); the stream number is free again and
STRM_END is raised. -/
def endStream (i : Fin 64) (s : State) : State :=
  match s.hif.streams[i] with
  | none => s
  | some st => match st.closing with
    | none => s
    | some cause =>
      if st.buf.isEmpty && st.gap.isNone && st.group.isEmpty && dma s then
        let e := toRingEnd st
        let final := st.tail.toNat + 64 + (if e < 64 then e else 0)
        let (s, done) := ringPut i (controlBody 0x0F01 i.val cause (final % 2 ^ 64)) 0x3C s
        if done then
          raiseNow 0x81 sevInfo ([BitVec.ofNat 8 i.val, BitVec.ofNat 8 cause] ++ le 6 0 ++ le 8 (final % 2 ^ 64))
            (setStream i none s)
        else s
      else s

/-- STREAM_END (R366): END record is written once the ring has room and the stream number is freed. -/
def execStreamEnd (i : Fin 64) (s : State) : Host.Outcome State Fault Refusal := whenLive s <| .next (endStream i s)

/-- A stream closes (R366): with DISCARD its buffered units are dropped; an open gap goes ahead of END. -/
def closeStream (i : Fin 64) (discard : Bool) (s : State) : State :=
  match s.hif.streams[i] with
  | none => s
  | some st =>
    let s := if discard then setStream i (some { st with buf := [], group := [], groupCount := 0, waiting := [] }) s
      else if st.kind == .ddc then flushFrames i (closeFrame i s) else setStream i (some (closeGroup st)) s
    let s := match (s.hif.streams[i]).bind (·.gap) with
      | some g => putGap i g s
      | none => s
    updStream i (fun st => { st with closing := some (if discard then 1 else 0) }) s

/-- STREAM_CLOSE (R361, R362, R366). -/
def streamClose (c : Call) (s : State) : Reply :=
  match getN s.hif.streams (arg1 c 0x18) with
  | none => refuse stInvalid 0x18
  | some none => refuse stNotFound 0
  | some (some st) =>
    if st.closing.isSome then refuse stNotFound 0
    else .ok (closeStream (Fin.ofNat 64 (arg1 c 0x18)) (bit (arg1 c 0x19) 0) s) []

/-- STREAM_CLOSE (R366): Command that closes a stream, optionally discarding buffered units. -/
def execStreamClose (o : Origin) (s : State) : Host.Outcome State Fault Refusal := whenLive s <|
  .next (runCmd o 0x0034 [] noDeps streamClose s)

/-- Some stream is open (R66, R136, R206, R479); one that is closed and still drains is not (R362). -/
def streamOpenNow (s : State) : Bool :=
  s.hif.streams.toList.any fun x => match x with
    | some st => st.closing.isNone
    | none => false

end Sys2Proof.Machine
end

