-- ==== Sys2Proof/Machine/Timers.lean ====
section
/-!
DEFINITION. Time-to-amplitude converters and timers (R142 to R165): stamps, calibration runs, interval pairing, frequency
gates and timer records.
-/
namespace Sys2Proof.Machine

/-! ### Stamps (R144, R145, R148, R161) -/

/-- One timer changed. -/
def updTimer (t : Fin 8) (f : Timer → Timer) (s : State) : State := { s with timers := upd s.timers t f }

/-- Nominal table entry of a fine code (R150). -/
def nominalMid (k : Nat) : Nat := k * 163840 + 81920

/-- MID[k] for an edge of coarse count `c` (R145, R150): the table in use from its swap on, the one before until then. -/
def midOf (t : Tac) (c k : Nat) : Nat :=
  let tab := if c < t.tableFrom then t.oldTable else t.table
  match tab with
  | none => nominalMid k
  | some l => l.getD k 0

/-- Kn in units of 2^-24 Ts (R145, R164). -/
def offsetUnits (s : State) (t : Tac) : Int := fsToUnits s t.offset.toInt

/-- The instant of an edge in 2^-24 sample periods from sample number 0 (R145, R148): before sample 40c by MID[k] and Kn, or from the edge
detector alone by 20 Ts and Kn. -/
def edgePos (n : Fin 8) (c fine : Nat) (coarse : Bool) (s : State) : Int :=
  let t := s.tacs[n]
  (40 * c * tick : Nat) - ((if coarse then ((20 * tick : Nat) : Int) else (midOf t c fine : Nat)) + offsetUnits s t)

/-- TS96 of an instant as it is stamped, in the mapping that applies to the latest sample at or before it (R145, R520). -/
def edgeTs (s : State) (pos : Int) : TS96 := posTs (arrivalMap s (posSample pos)) pos

/-- Timebase steps of the era up to a sample (R158). -/
def stepsAt (s : State) (n : Nat) : Nat := (s.clk.steps.filter fun x => decide (x.1 ≤ n)).length

/-- FLAGS of a stamp (R161) at sample `n`. -/
def stampFlags (s : State) (n : Nat) (coarse dead stale : Bool) : W32 :=
  BitVec.ofNat 32 (flag coarse 0 + flag dead 1 + flag stale 2 + flag (epochUnset s) 3
    + flag (spanCoast s n n) 4 + flag (spanSwitch s n n) 5)

/-- The stamp of an edge (R145), or the coarse-only stamp of R148. -/
def stampOf (n : Fin 8) (c fine : Nat) (coarse : Bool) (s : State) : Stamp :=
  let t := s.tacs[n]
  let pos := edgePos n c fine coarse s
  let k := posSample pos
  { ts := edgeTs s pos, flags := stampFlags s k coarse t.deadBefore (t.stale || t.savedTable || t.fault),
    steps := stepsAt s k }

/-! ### Timer records (R156, R160, R161) -/

/-- U of R156 in units of 2^-24 Ts: 1.5 ps. -/
def unresolvedU (s : State) : Int := fsToUnits s 1500

/-- The flags that an interval's value adds (R156). -/
def intervalFlags (s : State) (d : Int) : Nat :=
  flag (decide (d < 0)) 7 + flag (decide (d.natAbs < (unresolvedU s).toNat)) 8

/-- The 48 bytes of a timer record without VALID (R160). -/
def timerBytes (t : Nat) (r : TimerRec) : List Byte :=
  le 2 r.type.toNat ++ [BitVec.ofNat 8 t, 0] ++ le 4 r.flags.toNat ++ tsBytes r.tA ++ tsBytes r.value
    ++ le 8 r.count.toNat ++ le 4 r.seq.toNat ++ le 4 0

/-- A record of a timer (R155, R160): it becomes the latest one and goes to the timer's result stream. What a gap counts for
a timer record is open (log 30). With no SYN-T band the timers write no records (R149). -/
def emitRecord (t : Fin 8) (type : Nat) (flags : W32) (tA value : TS96) (count : Nat) (s : State) : State :=
  if s.clk.noBand[3] then s
  else
  let r : TimerRec := { type := BitVec.ofNat 16 type, flags := flags, tA := tA, value := value,
                        count := BitVec.ofNat 64 count, seq := s.timers[t].seq }
  let s := updTimer t (fun x => { x with seq := x.seq + 1, latest := some r }) s
  let (k, s) := fresh s
  forStreams .timer t.val (fun i _ s =>
    pushUnit i { body := pad 64 (timerBytes t.val r), validAt := 0x2C, weight := (Config.freeWord k).toNat, ts := tA,
                 seg := none } s) s

/-- An interval is reported (R156, R158, R160). -/
def emitInterval (t : Fin 8) (a b : Stamp) (s : State) : State :=
  let d := tsDiff b.ts a.ts
  let flags := a.flags ||| b.flags ||| BitVec.ofNat 32 (intervalFlags s d + flag (a.steps != b.steps) 6)
  let n := s.timers[t].unpaired
  emitRecord t 0x0002 flags a.ts (b.ts - a.ts) n (updTimer t (fun x => { x with unpaired := 0 }) s)

/-- Starts counted as unpaired. -/
def addUnpaired (k : Nat) (t : Timer) : Timer := { t with unpaired := statAdd t.unpaired k }

/-- WIN and GUARD in units of 2^-24 Ts (R157, R361). -/
def winUnits (t : Timer) : Int := t.win * 256
def guardUnits (t : Timer) : Int := t.guard * tick

/-! ### Interval pairing (R157) -/

/-- FIRST_AFTER: a stop arrives. -/
def firstStop (t : Fin 8) (b : Stamp) (s : State) : State :=
  let x := s.timers[t]
  match x.waiting with
  | a :: _ =>
    if tsDiff b.ts a.ts > winUnits x then
      updTimer t (fun x => addUnpaired 1 { x with waiting := [], unused := x.unused ++ [b] }) s
    else if tsDiff b.ts a.ts ≥ -(guardUnits x) then
      emitInterval t a b (updTimer t (fun x => { x with waiting := [] }) s)
    else updTimer t (fun x => { x with unused := x.unused ++ [b] }) s
  | [] => updTimer t (fun x => { x with unused := x.unused ++ [b] }) s

/-- FIRST_AFTER: a start arrives. It replaces a waiting start, and pairs at once with the first unused stop at or after
T_start − GUARD; stops before that are of no more use. `own` is the same stamp as a stop, which never pairs with itself. -/
def firstStart (t : Fin 8) (a : Stamp) (own : Option Stamp) (s : State) : State :=
  let s := updTimer t (fun x => addUnpaired x.waiting.length { x with waiting := [] }) s
  let x := s.timers[t]
  let useful := x.unused.filter fun b => decide (tsDiff b.ts a.ts ≥ -(guardUnits x))
  match useful.find? fun b => some b != own with
  | some b => emitInterval t a b (updTimer t (fun x => { x with unused := useful.erase b }) s)
  | none => updTimer t (fun x => { x with waiting := [a], unused := useful }) s

/-- NEAREST: the unused stop that a start takes: smallest |Δ| within ±WIN, then the earlier. With one source for both, a stamp
never pairs with itself. -/
def nearestStop (x : Timer) (a : Stamp) : Option Stamp :=
  (x.unused.filter fun b => x.startSrc != x.stopSrc || b != a).foldl (fun best b =>
    let d := (tsDiff b.ts a.ts).natAbs
    if d ≤ (winUnits x).toNat then
      match best with
      | none => some b
      | some c => if d < (tsDiff c.ts a.ts).natAbs then some b else best
    else best) none

/-- NEAREST: the oldest waiting start is decided. -/
def decideNearest (t : Fin 8) (s : State) : State :=
  let x := s.timers[t]
  match x.waiting with
  | [] => s
  | a :: rest => match nearestStop x a with
    | some b => emitInterval t a b (updTimer t (fun x => { x with waiting := rest, unused := x.unused.erase b }) s)
    | none => updTimer t (fun x => addUnpaired 1 { x with waiting := rest }) s

/-- NEAREST: every waiting start whose window ends before `now` is decided, in order. -/
def decideUntil (t : Fin 8) (now : TS96) : Nat → State → State
  | 0, s => s
  | fuel + 1, s =>
    match (s.timers[t]).waiting with
    | a :: _ =>
      if tsDiff now a.ts > winUnits s.timers[t] then decideUntil t now fuel (decideNearest t s) else s
    | [] => s

/-- A stamp put into a list kept in TS96 order; equal stamps keep their order of arrival. -/
def insertStamp (a : Stamp) : List Stamp → List Stamp
  | [] => [a]
  | b :: t => if tsDiff a.ts b.ts < 0 then a :: b :: t else b :: insertStamp a t

/-- NEAREST: a stop arrives. -/
def nearStop (t : Fin 8) (b : Stamp) (s : State) : State :=
  decideUntil t b.ts 64 (updTimer t (fun x => { x with unused := insertStamp b x.unused }) s)

/-- NEAREST: a start arrives; the 65th is counted as unpaired and not queued. -/
def nearStart (t : Fin 8) (a : Stamp) (s : State) : State :=
  updTimer t (fun x =>
    if 64 ≤ x.waiting.length then addUnpaired 1 x else { x with waiting := insertStamp a x.waiting }) s

/-- INTERVAL mode: a stamp that is a stop, a start, or both (R157). -/
def intervalStamp (t : Fin 8) (isStart isStop : Bool) (x : Stamp) (s : State) : State :=
  let near := (s.timers[t]).nearest
  let s := if isStop then (if near then nearStop t x s else firstStop t x s) else s
  if isStart then
    (if near then nearStart t x s else firstStart t x (if isStop then some x else none) s)
  else s

/-- A start that has waited longer than WIN is dropped and counted (FIRST_AFTER), or decided (NEAREST) (R157). -/
def winExpiry (t : Fin 8) (s : State) : State :=
  let x := s.timers[t]
  if x.mode == .interval then
    if x.nearest then decideUntil t (tsNow s) 64 s
    else match x.waiting with
      | a :: _ =>
        if tsDiff (tsNow s) a.ts > winUnits x then updTimer t (fun x => addUnpaired 1 { x with waiting := [] }) s else s
      | [] => s
  else s

/-- INTERVAL_WIN_EXPIRY (R157): A waiting start passes WIN and is dropped or decided. -/
def execIntervalWinExpiry (t : Fin 8) (s : State) : Host.Outcome State Fault Refusal := whenLive s <|
  .next (winExpiry t s)

/-! ### Frequency gates (R159) -/

/-- An input edge of a FREQUENCY timer. -/
def gateStamp (t : Fin 8) (x : Stamp) (s : State) : State :=
  let tm := s.timers[t]
  match tm.gate with
  | none => updTimer t (fun y => { y with gate := some { opening := x, count := 0 }, last := some x }) s
  | some g =>
    if (nsToTicks s tm.gateNs : Int) * tick ≤ tsDiff x.ts g.opening.ts then
      emitRecord t 0x0003 (g.opening.flags ||| x.flags) g.opening.ts (x.ts - g.opening.ts) (g.count + 1)
        (updTimer t (fun y => { y with gate := some { opening := x, count := 0 }, last := some x }) s)
    else updTimer t (fun y => { y with gate := some { g with count := g.count + 1 }, last := some x }) s

/-- A gate that has seen no edge when G has passed gives a record with COUNT 0 and EMPTY (R159); its SPAN is not stated and is free
(log 31). -/
def execFrequencyGateEmpty (t : Fin 8) (s : State) : Host.Outcome State Fault Refusal := whenLive s <|
  let tm := s.timers[t]
  match tm.mode, tm.gate with
  | .frequency, some g =>
    if g.count = 0 ∧ (nsToTicks s tm.gateNs : Int) * tick ≤ tsDiff (tsNow s) g.opening.ts then
      let (k, s) := fresh s
      .next (emitRecord t 0x0003 (g.opening.flags ||| 0x400#32) g.opening.ts
        (BitVec.ofNat 96 (unle (Config.freeBlob k))) 0 (updTimer t (fun y => { y with gate := none, last := none }) s))
    else .next s
  | _, _ => .next s

/-! ### Stamps reach timers (R155, R158) -/

/-- A polarity argument takes an edge (R361); trigger events have no polarity. -/
def polTakes (pol : Nat) (falling : Option Bool) : Bool :=
  match falling with
  | none => true
  | some f => pol == 2 || (if f then pol == 1 else pol == 0)

/-- What a timer does with a stamp of one of its sources. -/
def timerTakes (src : Nat) (falling : Option Bool) (x : Stamp) (t : Fin 8) (s : State) : State :=
  let tm := s.timers[t]
  let isStart := tm.startSrc == src && polTakes tm.startPol falling
  let isStop := tm.stopSrc == src && polTakes tm.stopPol falling
  match tm.mode with
  | .off => s
  | .stamp =>
    if isStart then emitRecord t 0x0001 x.flags x.ts 0 tm.lost (updTimer t (fun y => { y with lost := 0 }) s) else s
  | .interval => intervalStamp t isStart isStop x s
  | .frequency => if isStart then gateStamp t x s else s

/-- A stamp of a source reaches every timer (R155). -/
def timerStamp (src : Nat) (falling : Option Bool) (x : Stamp) (s : State) : State := forAll 8 (timerTakes src falling x) s

/-- A trigger event of a unit or sequencer, with trigger sample `n`, reaches the timers with its placement TS96 (R155). -/
def timerTrigger (src : Nat) (t : TS96) (n : Nat) (coarse : Bool) (s : State) : State :=
  timerStamp src none { ts := t, flags := stampFlags s n coarse false false, steps := stepsAt s n } s

/-- An edge lost to dead time counts for the STAMP timers of its source (R160). The edge counter of a FREQUENCY timer runs apart from the
converter and counts it in the gate (R159); with no stamp, it neither closes nor opens one (DEDUCED, log 146). -/
def timerLost (src : Nat) (falling : Bool) (s : State) : State :=
  { s with timers := s.timers.map fun tm =>
      if tm.startSrc == src && polTakes tm.startPol (some falling) then
        match tm.mode with
        | .stamp => { tm with lost := statAdd tm.lost 1 }
        | .frequency => { tm with gate := tm.gate.map fun g => { g with count := g.count + 1 } }
        | _ => tm
      else tm }

/-- An epoch instant for one timer (R158). -/
def timerEpoch (t : Fin 8) (s : State) : State :=
  let s := updTimer t (fun x => addUnpaired x.waiting.length { x with waiting := [], unused := [] }) s
  let tm := s.timers[t]
  match tm.mode, tm.gate, tm.last with
  | .frequency, some g, some l =>
    emitRecord t 0x0003 (g.opening.flags ||| l.flags ||| BitVec.ofNat 32 (flag true 9 + flag (g.count == 0) 10))
      g.opening.ts (l.ts - g.opening.ts) g.count (updTimer t (fun y => { y with gate := none, last := none }) s)
  | _, _, _ => s

/-! ### Calibration runs (R150 to R154) -/

/-- TACn_CAL (R519). -/
def raiseCal (n : Fin 8) (sev cause : Nat) (s : State) : State :=
  raiseNow (srcId 0x48 n.val) sev ([BitVec.ofNat 8 cause, 0] ++ le 2 (s.tacs[n]).calTemp.toNat) s

/-- The timebase is ARMED for a SYNCIN edge, which suspends TAC4's calibration (R134, R151). -/
def calSuspended (n : Fin 8) (s : State) : Bool := n == 4 && s.tb.state == .armed

/-- Temperatures differ by more than `d` hundredths of a degree. -/
def tempFar (a b : BitVec 16) (d : Nat) : Bool := decide (d < (a.toInt - b.toInt).natAbs)

/-- STALE comes on (R154): reported when it does so for the first time since the last accepted table. -/
def comeStale (n : Fin 8) (s : State) : State :=
  let t := s.tacs[n]
  if t.stale then s
  else
    let s := updTac n (fun t => { t with stale := true, staleTold := t.staleTold || t.calValid }) s
    if t.calValid && !t.staleTold then raiseCal n sevWarning 3 s else s

/-- What a TAC's input is doing keeps it from being idle (R151): TAC4 armed, a TRIGOUT pulse on TAC5 or TAC6, TAC7 measuring. -/
def inputBusy (n : Fin 8) (s : State) : Bool :=
  calSuspended n s || (n == 7 && s.clk.refState == .measuring)
    || (n == 5 && (s.trigouts[0]).activeUntil.isSome) || (n == 6 && (s.trigouts[1]).activeUntil.isSome)

/-- The idleness of R151 in always-on cycles of 40 ns (log 2): 10 s, or 1 ms once the temperature is 2 °C from CAL_TEMP. -/
def idleEnough (n : Fin 8) (temp : BitVec 16) (s : State) : Bool :=
  let t := s.tacs[n]
  let idle := s.aoCycles - t.quietSince
  !inputBusy n s && (decide (250000000 ≤ idle) || (tempFar temp t.calTemp 200 && decide (25000 ≤ idle)))

/-- An idle run starts (R151, R152): hits are kept within 0.5 °C of the run's first temperature. Further idleness counts from here. -/
def execTacIdleCalStart (n : Fin 8) (temp : BitVec 16) (s : State) : Host.Outcome State Fault Refusal := whenLive s <|
  let t := s.tacs[n]
  if t.calRun.isSome || !idleEnough n temp s || s.clk.noBand[3] then .next s
  else
    let keep := decide (0 < t.hits) && !tempFar temp t.runTemp 50
    .next (updTac n (fun t =>
      { t with calRun := some .idle, temp := temp, hits := if keep then t.hits else 0, quietSince := s.aoCycles,
               runTemp := if keep then t.runTemp else temp }) s)

/-- The table of a completed run (R150): MID[k] rounded to the nearest unit. -/
def midTable (h : Nat) : Nat → List Nat → List Nat
  | _, [] => []
  | before, x :: xs => (40 * tick * (2 * before + x) + h) / (2 * h) :: midTable h (before + x) xs

/-- A completed table is accepted (R153): every code hit, no bin above four times the nominal one. -/
def tableAccepted (hist : List Nat) : Bool :=
  hist.all fun x => decide (1 ≤ x ∧ x * 1024 ≤ hist.sum)

/-- A calibration run is collecting hits (R134, R164). -/
def calRunning (n : Fin 8) (s : State) : Bool := (s.tacs[n]).calRun.isSome && !calSuspended n s

/-- A calibration run reaches 2^24 hits (R151, R153, R154): `hist` holds every hit of the run, those of an idle run that stopped and went
on among them where they were kept (R152, log 73). -/
def calRunEnd (n : Fin 8) (hist : List Nat) (temp : BitVec 16) (s : State) : State :=
  let t := s.tacs[n]
  if t.calRun.isNone || calSuspended n s then s
  else
  let s := if t.calRun == some .idle then istPart 1 n.val s else s
  if tableAccepted hist then
    raiseCal n sevInfo 0 (updTac n (fun t =>
      { t with calValid := true, calRun := none, stale := false, staleTold := false, fault := false, calTemp := temp, temp := temp,
               oldTable := t.table, table := some (midTable hist.sum 0 hist), tableFrom := takenSample s / 40,
               savedTable := false, hits := 0, rejects := 0 }) s)
  else
    let s := raiseCal n sevWarning 1 (updTac n (fun t =>
      { t with calRun := none, temp := temp, hits := 0, rejects := t.rejects + 1 }) (istFail 1 s))
    if (s.tacs[n]).rejects = 3 then
      comeStale n (raiseCal n sevError 2 (updTac n (fun t => { t with fault := true }) s))
    else s

/-- TAC_CAL_RUN_END (R153): A calibration run reaches 2^24 hits and its table is accepted or rejected. -/
def execTacCalRunEnd (n : Fin 8) (hist : List Nat) (temp : BitVec 16) (s : State) : Host.Outcome State Fault Refusal := whenLive s <|
  if WellFormed.histogram hist then .next (calRunEnd n hist temp s) else .fault .illFormed

/-- The TAC's temperature against CAL_TEMP (R154). -/
def execStaleCal (n : Fin 8) (temp : BitVec 16) (s : State) : Host.Outcome State Fault Refusal := whenLive s <|
  let s := updTac n (fun t => { t with temp := temp }) s
  let t := s.tacs[n]
  if tempFar temp t.calTemp 200 then .next (comeStale n s)
  else .next (updTac n (fun t => { t with stale := t.savedTable || t.fault }) s)

/-- The edge counter of a TAC's dead time (R148, R164, R237). -/
def countDead (n : Fin 8) (s : State) : State :=
  let sticks := statSticks (s.tacs[n]).deadCount 1
  let s := updTac n (fun t => { t with deadCount := statAdd t.deadCount 1, deadBefore := true,
                                       deadOvf := t.deadOvf || sticks }) s
  if sticks then raiseCal n sevWarning 4 s else s

/-- A write of SYS_TAC_STATUSn (R164): DEAD_OVF by W1C, DEAD_CLR clears the count. -/
def writeTacStatus (n : Fin 8) (value : W32) (s : State) : State :=
  updTac n (fun t => { t with deadOvf := t.deadOvf && !value.getLsbD 4,
                              deadCount := if value.getLsbD 5 then 0 else t.deadCount }) s

/-- DEAD_CLR (R164): Write of DEAD_CLR that clears a TAC's DEAD_COUNT. -/
def execDeadClr (n : Fin 8) (value : W32) (s : State) : Host.Outcome State Fault Refusal := whenReachable s <|
  .next (writeTacStatus n (value ||| 0x20#32) s)

/-! ### TIMER_READ (R155, R356, R361) -/

/-- TIMER_READ: the latest record goes to the destination; whether its VALID carries phase 0 or 1 there is open (log 32). -/
def timerRead (c : Call) (s : State) : Reply :=
  match getN s.timers (arg1 c 0x18) with
  | none => refuse stInvalid 0x18
  | some t => match destFault c 64 with
    | some r => r
    | none => match t.latest with
      | none => .ok s []
      | some r =>
        let (k, s) := fresh s
        let bytes := pad 64 (patch (timerBytes (arg1 c 0x18) r) 0x2C (le 4 (flag (Config.freeBit k) 0)))
        .start s (.toHost (paramAddr c.desc) bytes) (le 4 r.seq.toNat ++ [1])

/-- TIMER_READ (R155): Command that copies a timer's latest record to host memory. -/
def execTimerRead (o : Origin) (s : State) : Host.Outcome State Fault Refusal := whenLive s <|
  .next (runCmd o 0x0026 [] noDeps timerRead s)

end Sys2Proof.Machine
end

