-- ==== Sys2Proof/Machine/Memory.lean ====
section
/-!
DEFINITION. DRAM (R204 to R225, R239 to R243): the history ring and its pins, capture regions and side areas, segments with
their index entries, side data and images, release and overwriting, the index, and damaged data.
-/
namespace Sys2Proof.Machine

/-! ### Samples and blocks (R101, R102) -/

/-- Codes of samples `a` to `b` of a channel, from the words delivered in this era. -/
def samplesOf (n : Fin 8) (a b : Nat) (s : State) : List Int :=
  let sl := s.slices[n]
  let words := ((sl.log.drop (sl.words - 1 - b / 40)).take (b / 40 + 1 - a / 40)).reverse
  ((words.flatten).drop (a % 40)).take (b + 1 - a)

/-- Packed 12-bit groups of two codes (R102); the upper sample of an odd last group is zero (R365). -/
def packed : List Int → List Byte
  | [] => []
  | [a] => le 3 (unsigned 12 a)
  | a :: b :: t => le 3 (unsigned 12 a + 4096 * unsigned 12 b) ++ packed t

/-- Codes as 16-bit left-justified words (R102). -/
def wide16 (l : List Int) : List Byte := l.flatMap fun c => le 2 (16 * unsigned 12 c)

/-- Codes in a FORMAT (R102). -/
def inFormat (wide : Bool) (l : List Int) : List Byte := if wide then wide16 l else packed l

/-- Whole blocks that a span of samples touches. -/
def blocksTouched (a b : Nat) : Nat := b / 4096 + 1 - a / 4096

/-- One span put into a list kept in the order of first blocks. -/
def insertSpan (x : Nat × Nat) : List (Nat × Nat) → List (Nat × Nat)
  | [] => [x]
  | y :: t => if x.1 ≤ y.1 then x :: y :: t else y :: insertSpan x t

/-- Blocks that a list of spans in rising order covers from block `from_` on, shared blocks counted once. -/
def coverFrom : Nat → List (Nat × Nat) → Nat
  | _, [] => 0
  | from_, (a, b) :: t => (b + 1 - max a from_) + coverFrom (max from_ (b + 1)) t

/-- Blocks that a list of block spans covers, shared blocks counted once (R211). -/
def coverCount (l : List (Nat × Nat)) : Nat := coverFrom 0 (l.foldr insertSpan [])

/-- The block span of a segment; spans of different eras do not meet. -/
def blockSpan (g : Segment) : Nat × Nat := (g.era * 2 ^ 60 + g.first / 4096, g.era * 2 ^ 60 + g.last / 4096)

/-! ### History ring (R207 to R209) -/

/-- Depth of the ring in blocks per channel (R207). -/
def histDepth (m : Mem) : Nat :=
  let n := popcount8 m.histChannels
  if n = 0 then 0 else m.histGb * 2 ^ 30 / (n * 6144)

/-- The ring is in use. -/
def histOn (m : Mem) : Bool := decide (0 < histDepth m)

/-- Retained segments. -/
def retained (m : Mem) : List Segment := m.segs.filter fun g => g.retention == .retained

/-- Ring-resident segments that hold a channel. -/
def pinners (m : Mem) (ch : Nat) : List Segment := (retained m).filter fun g => g.ring && g.channels.getLsbD ch

/-- The span of blocks of one of them that have begun to arrive, where `e` blocks of era `era` have (R218: pinned block by block). -/
def arrivedSpan (era e : Nat) (g : Segment) : Option (Nat × Nat) :=
  let (a, z) := blockSpan g
  let stop := if g.era = era then min (z + 1) (era * 2 ^ 60 + e) else z + 1
  if a < stop then some (a, stop - 1) else none

/-- Blocks pinned on a channel (R209) with `e` blocks of era `era` begun. -/
def pinnedOn (era e : Nat) (m : Mem) (ch : Nat) : Nat := coverCount ((pinners m ch).filterMap (arrivedSpan era e))

/-- Largest number of pinned blocks on any ring channel (R243). -/
def pinnedMax (era e : Nat) (m : Mem) : Nat :=
  ((List.range 8).map fun ch => if m.histChannels.getLsbD ch then pinnedOn era e m ch else 0).foldl max 0

/-- One span put into a list kept with the latest last block first. -/
def insertLast (x : Nat × Nat) : List (Nat × Nat) → List (Nat × Nat)
  | [] => [x]
  | y :: t => if y.2 ≤ x.2 then x :: y :: t else y :: insertLast x t

/-- The oldest block such that from it to the block before `e` at most `u` blocks are not pinned; `l` are the pinned spans, the latest
first. -/
def heldFrom : Nat → Nat → List (Nat × Nat) → Nat
  | u, e, [] => e - u
  | u, e, (a, z) :: t => if u < e - (z + 1) then e - u else heldFrom (u - (e - (z + 1))) (min e a) t

/-- The oldest block of a channel that its slots can hold beside its pinned blocks (R208, R209), `e` blocks having begun. -/
def channelFrom (era e : Nat) (m : Mem) (ch : Nat) : Nat :=
  let spans := (pinners m ch).filterMap fun g =>
    if g.era = era then (arrivedSpan era e g).map fun x => (x.1 - era * 2 ^ 60, x.2 - era * 2 ^ 60) else none
  heldFrom (histDepth m - pinnedOn era e m ch) e (spans.foldr insertLast [])

/-- O as the writer leaves it once `e` blocks have begun to arrive (R208, R209): the oldest block held for all channels. A block goes
only when a new one needs its slot. -/
def oldestAfter (era e : Nat) (m : Mem) : Nat :=
  max m.oldest (max m.histStart
    (((List.range 8).map fun ch => if m.histChannels.getLsbD ch then channelFrom era e m ch else 0).foldl max 0))

/-- The writer moves on until the sample before `n` arrives, whose block then has its slot (R208). Blocks from before the ring was
laid out are not in it. -/
def advanceHist (era n : Nat) (m : Mem) : Mem :=
  if histOn m then
    let o := oldestAfter era ((n + 4095) / 4096) m
    { m with oldest := o, wrapped := m.wrapped || decide (max m.oldest m.histStart < o) }
  else m

/-- PINNED of SYS_HIST_PINNED (R243). -/
def pinnedNow (s : State) : Nat := pinnedMax s.proof.era ((commitSample s + 4095) / 4096) s.mem

/-- O in samples (R208). -/
def oldestSample (m : Mem) : Nat := 4096 * m.oldest

/-- HIST_STATE (R519). -/
def raiseHist (cause : Nat) (s : State) : State :=
  raiseNow 0x7C sevNotice ([BitVec.ofNat 8 cause] ++ le 7 0 ++ le 8 s.mem.cutAt) s

/-- The ring discards every sample before `n` (R208): O is `n` itself, which may lie inside a block. -/
def cutHist (n : Nat) (m : Mem) : Mem := { m with oldest := max m.oldest (n / 4096), cutAt := n, wrapped := false }

/-- O (R208): the first sample of the oldest block, or the sample at which the ring was cut. -/
def histO (m : Mem) : Nat := max (oldestSample m) m.cutAt

/-- A sample is in the ring (R208). -/
def inRing (s : State) (n : Nat) : Bool := decide (histO s.mem ≤ n ∧ n < commitSample s)

/-! ### Capture regions and side areas (R210 to R212, R225) -/

/-- Capacity C of a sequencer's region in blocks per channel (R211); the size is in 256 MB units. -/
def capBlocks (units : Nat) (channels : Byte) : Nat :=
  let n := popcount8 channels
  if n = 0 then 0 else units * 2 ^ 28 / (n * 6144)

/-- Look-back J in samples (R211). -/
def lookBack (p das late : Nat) : Nat := p + 40 * (das + late)

/-- ceil64 (R225). -/
def ceil64 (x : Nat) : Nat := (x + 63) / 64 * 64

/-- ceil(a / b). -/
def ceilDiv (a b : Nat) : Nat := if b = 0 then 0 else (a + b - 1) / b

/-- Bound B of one copy of the side data of a segment of length L (R225). -/
def sideBound (reds : Vector RedBank 8) (channels : Byte) (l : Nat) : Nat :=
  128 + ((List.finRange 8).map fun ch =>
    if channels.getLsbD ch.val then
      ceil64 (ceilDiv l 4096 + 1)
        + ((List.finRange 4).map fun k =>
            if (reds[ch]).segRed.getLsbD k.val then
              ceil64 (16 * (ceilDiv l ((reds[ch]).lanes[k]).n + 1)) else 0).sum
    else 0).sum

/-- Side area of a sequencer in bytes; its size is in 64 MB units. -/
def sideCap (m : Mem) (a : Fin 4) : Nat := m.sideSize[a] * 2 ^ 26

/-- Retained segments of a sequencer. -/
def retainedOf (m : Mem) (a : Nat) : List Segment := (retained m).filter fun g => g.sequencer == a

/-- Side area in use by a sequencer's retained segments. -/
def sideUsed (m : Mem) (a : Nat) : Nat := ((retainedOf m a).map (·.sideBytes)).sum

/-- The first condition of R212 once `span` is retained: enough unretained blocks of the capture region remain. -/
def regionFits (a : Fin 4) (q : Seq) (span : Nat × Nat) (m : Mem) : Bool :=
  let used := coverCount (span :: (((retainedOf m a.val).filter fun g => !g.ring).map blockSpan))
  decide (used + ceilDiv (lookBack q.cfg.p q.das q.cfg.lateAllow) 4096 + 2 ≤ capBlocks m.capSize[a] q.cfg.channels)

/-- The second condition of R212: the side area holds both copies. -/
def sideFits (a : Fin 4) (bytes : Nat) (m : Mem) : Bool := decide (sideUsed m a.val + bytes ≤ sideCap m a)

/-- The pins of a ring-resident segment fit (R209): at most B_H / 2 blocks on any of its channels. -/
def pinsFit (channels : Byte) (span : Nat × Nat) (m : Mem) : Bool :=
  (List.range 8).all fun ch =>
    !channels.getLsbD ch
      || decide (2 * coverCount (span :: (((retained m).filter fun g => g.ring && g.channels.getLsbD ch).map blockSpan))
          ≤ histDepth m)

/-- Every segment changed. -/
def mapSegs (f : Segment → Segment) (s : State) : State := { s with mem := { s.mem with segs := s.mem.segs.map f } }

/-- One segment changed, by sequence number. -/
def updSeg (seq : Nat) (f : Segment → Segment) (s : State) : State := mapSegs (fun g => if g.seq = seq then f g else g) s

/-- The segment of a sequence number. -/
def findSeg (s : State) (seq : Nat) : Option Segment := s.mem.segs.find? fun g => g.seq = seq

/-- Memory as it would stand with the segments of a list released. -/
def withoutSegs (l : List Nat) (m : Mem) : Mem :=
  { m with segs := m.segs.map fun g => if l.contains g.seq then { g with retention := .overwritten } else g }

/-- Segments that OVERWRITE may take, oldest first: retained, and not being read (R212, R215, R326). -/
def overwritable (m : Mem) (a : Nat) : List Nat :=
  (((retainedOf m a).filter fun g => g.readers == 0 && g.engReaders == 0).map (·.seq)).reverse

/-- The fewest oldest segments whose release lets `fits` hold (R212). -/
def overwriteSet (fits : Mem → Bool) (m : Mem) (cands : List Nat) : Option (List Nat) :=
  ((List.range (cands.length + 1)).map cands.take).find? fun l => fits (withoutSegs l m)

/-- What R212 decides for a segment to be cut: the segments to release (none when it fits as things stand), or no cut. -/
def cutDecision (overwrite : Bool) (fits : Mem → Bool) (m : Mem) (a : Nat) : Option (List Nat) :=
  if fits m then some [] else if overwrite then overwriteSet fits m (overwritable m a) else none

/-- The index slot of a sequence number is still retained by an earlier segment (R221): its sequence number. -/
def slotBlocked (m : Mem) (seq : Nat) : Option Nat :=
  ((retained m).find? fun g => decide (g.seq < seq) && g.seq % 4194304 == seq % 4194304).map (·.seq)

/-- IDX_SLOT (R221, R519). -/
def raiseSlot (a seq : Nat) (s : State) : State :=
  raiseNow 0x7D sevWarning ([BitVec.ofNat 8 a] ++ le 7 0 ++ le 8 seq) s

/-- ASn_MEM (R212, R519): cause 0 FULL, 1 OVERWRITE. -/
def raiseMem (a : Fin 4) (cause low : Nat) (s : State) : State :=
  raiseNow (srcId 0x74 a.val) sevWarning ([BitVec.ofNat 8 cause] ++ le 7 0 ++ le 8 low) s

/-- OVERWRITE releases a set of segments (R212). -/
def overwriteSegs (a : Fin 4) (l : List Nat) (s : State) : State :=
  match l with
  | [] => s
  | low :: _ => raiseMem a 1 low { s with mem := withoutSegs l s.mem }

/-! ### Reduction records and side data (R225, R229, R230) -/

/-- Mode code of a record (R229). -/
def redModeCode : RedMode → Nat
  | .minmax => 0 | .decimate => 1 | .mean => 2 | .rms => 3 | .sifted => 4 | .off => 7

/-- The 16 bytes of a reduction record (R229). -/
def redBytes (straddle : Bool) (r : RedRec) : List Byte :=
  le 8 r.first
    ++ le 4 (r.value.toNat + flag r.isPartial 24 + flag straddle 25 + flag r.diag 26 + redModeCode r.mode * 2 ^ 27
        + r.lane * 2 ^ 30)
    ++ [r.qual] ++ le 3 (r.count - 1)

/-- Last sample of a record's interval. -/
def redLast (r : RedRec) : Nat := r.first + r.count - 1

/-- The records of a lane that overlap a span (R230), oldest first. -/
def redsOver (b : RedBank) (lane a e : Nat) : List RedRec :=
  (b.recs.filter fun r => r.lane == lane && meets r.first (redLast r) a e).reverse

/-- Reductions of a segment (R225, R230): ascending channels, then lanes with SEG_RED. -/
def segReds (g : Segment) (s : State) : List Byte :=
  (List.finRange 8).flatMap fun ch =>
    if g.channels.getLsbD ch.val then
      (List.range 4).flatMap fun k =>
        if (s.reds[ch]).segRed.getLsbD k then
          pad64 ((redsOver s.reds[ch] k g.first g.last).flatMap fun r =>
            redBytes (decide (r.first < g.first ∨ g.last < redLast r)) r)
        else []
    else []

/-- The quality bytes of a segment's blocks, channel by channel (R225). -/
def segQual (g : Segment) (s : State) : List (List Byte) :=
  ((List.finRange 8).filter fun ch => g.channels.getLsbD ch.val).map fun ch =>
    (List.range (blocksTouched g.first g.last)).map fun i => blockQual ch (g.first / 4096 + i) s

/-- The 128-byte overlap log (R225). -/
def overlapLog (l : List (TS96 × Bool)) : List Byte :=
  let l := l.take 8
  let mask := (l.zipIdx.map fun x => flag x.1.2 x.2).sum
  pad 96 (l.flatMap fun x => tsBytes x.1) ++ [BitVec.ofNat 8 l.length, BitVec.ofNat 8 mask] ++ List.replicate 30 0

/-- The side data of a segment (R225). -/
def sideData (g : Segment) (s : State) : List Byte :=
  overlapLog g.overlap ++ (segQual g s).flatMap pad64 ++ segReds g s

/-! ### Index entries and images (R219 to R222, R365) -/

/-- Trigger sample minus first sample. -/
def preLen (g : Segment) : Nat := g.kt - g.first

/-- Post length: samples from the trigger sample on. -/
def postLen (g : Segment) : Nat := g.last + 1 - g.kt

/-- STATE of an entry (R219). -/
def stateWord (g : Segment) : Nat :=
  flag (g.complete && !g.lost) 0
    + match g.retention with | .retained => 0 | .released => 2 | .overwritten => 4

/-- The 64 bytes of an index entry (R219). -/
def entryBytes (g : Segment) : List Byte :=
  le 8 g.seq ++ tsBytes g.t ++ le 5 (preLen g) ++ le 5 (postLen g) ++ [g.channels, BitVec.ofNat 8 g.sequencer]
    ++ le 2 g.flags.toNat ++ le 2 g.epochGen.toNat ++ le 2 (stick 16 g.postCount) ++ le 2 (stick 16 g.prefillWait)
    ++ le 2 (stick 16 g.holdoffSuppressed) ++ le 1 (stick 8 g.lateMissed) ++ le 1 (stick 8 g.fullMissed)
    ++ le 2 (stick 16 g.gapCount) ++ le 2 g.maskResult.toNat ++ le 6 g.stepDelta.toNat ++ le 2 (stateWord g)
    ++ le 4 g.sidePtr.toNat ++ le 4 g.measPtr.toNat

/-- Positions of a segment's channels in its data that a CHANNELS subset keeps. -/
def keptData (g : Segment) (channels : Byte) : List (List Int) :=
  let chs := (List.range 8).filter fun ch => g.channels.getLsbD ch
  (chs.zip g.data).filterMap fun x => if channels.getLsbD x.1 then some x.2 else none

/-- The image of a segment (R365): channels in ascending order from FIRST, each on a 64-byte boundary, then the side data. -/
def segImage (g : Segment) (first count : Nat) (channels : Byte) (wide side : Bool) : List Byte :=
  ((keptData g channels).flatMap fun l => pad64 (inFormat wide ((l.drop first).take count)))
    ++ (if side then g.side else [])

/-- The bytes of a READ_SEGMENTS transfer as they are read (R215, R240). -/
def imageBytes (seq : Nat) (r : ImageReq) (s : State) : List Byte :=
  match findSeg s seq with
  | some g => segImage g r.first r.count r.channels r.wide r.side
  | none => []

/-- Length of that image without building it (R356, R362). -/
def imageLen (g : Segment) (count : Nat) (channels : Byte) (wide side : Bool) : Nat :=
  popcount8 (channels &&& g.channels) * ceil64 (if wide then 2 * count else ceilDiv count 2 * 3)
    + (if side then g.side.length else 0)

/-! ### Completion (R216, R218, R230) -/

/-- The last sample of a segment is stored (R216, R218): it has reached the writers. -/
def lastStored (g : Segment) (s : State) : Bool :=
  g.closed || decide (g.era < s.proof.era) || decide (g.last < commitSample s)

/-- The diagnostic set (R232): MINMAX, MEAN with K = 8 and SHIFT = 4, RMS and DECIMATE, all with N = 256. -/
def diagLanes : Vector RedLane 4 :=
  #v[{ mode := .minmax, n := 256, k := 8, shift := 8, rank := 32768 },
     { mode := .mean, n := 256, k := 8, shift := 4, rank := 32768 },
     { mode := .rms, n := 256, k := 8, shift := 8, rank := 32768 },
     { mode := .decimate, n := 256, k := 8, shift := 8, rank := 32768 }]

/-- The lane settings that a bank runs: the diagnostic set in a diagnostic span, else the configured one (R232). -/
def lanesNow (b : RedBank) : Vector RedLane 4 := if b.diag.isSome then diagLanes else b.lanes

/-- A lane's intervals that a segment needs have ended (R230). -/
def laneEnded (b : RedBank) (k : Fin 4) (last now : Nat) : Bool :=
  !(b.segRed.getLsbD k.val) || (lanesNow b)[k].mode == .off || decide (last < b.start[k])
    || decide (last + ((lanesNow b)[k]).n < now)

/-- A record that the segment's side data needs waits for its block (R229). -/
def recordWaits (b : RedBank) (g : Segment) : Bool :=
  b.waiting.any fun r => b.segRed.getLsbD r.lane && meets r.first (redLast r) g.first g.last

/-- Every reduction interval that a segment's side data needs has ended (R216, R230). -/
def redsEnded (g : Segment) (s : State) : Bool :=
  decide (g.era < s.proof.era) ||
    (List.finRange 8).all fun ch =>
      !(g.channels.getLsbD ch.val) || (List.finRange 4).all fun k => laneEnded s.reds[ch] k g.last (commitSample s)

/-- The blocks that the segment touches, and those of its last intervals, are complete, so that its quality map and records can be
written (R101, R216: within 256 lc; DEDUCED, log 150). -/
def qualKnown (g : Segment) (s : State) : Bool :=
  decide (g.era < s.proof.era)
    || (decide (4096 * (g.last / 4096 + 1) ≤ commitSample s)
        && (List.finRange 8).all fun ch => !(g.channels.getLsbD ch.val) || !recordWaits s.reds[ch] g)

/-- Samples of a segment as its channels delivered them. -/
def segSamples (g : Segment) (s : State) : List (List Int) :=
  ((List.finRange 8).filter fun ch => g.channels.getLsbD ch.val).map fun ch => samplesOf ch g.first g.last s

/-- A segment is retained and complete, so that it can be read. -/
def readable (g : Segment) : Bool := g.retention == .retained && g.complete

/-! ### READ_SEGMENTS and READ_INDEX (R215, R216, R356, R361, R362) -/

/-- READ_SEGMENTS. -/
def readSegments (c : Call) (s : State) : Reply :=
  let seq := argN c 0x18 8
  match findSeg s seq with
  | none => refuse stNotFound 0
  | some g =>
    let total := g.last + 1 - g.first
    let first := argN c 0x20 5
    let cnt := argN c 0x25 5
    let count := if cnt = 0 then total - first else cnt
    let chs := BitVec.ofNat 8 (arg1 c 0x2A)
    let chs := if chs = 0 then g.channels else chs
    let wide := arg1 c 0x2B == 1
    let side := bit (arg1 c 0x2C) 0
    if g.retention != .retained then refuse stNotFound 0
    else if !g.complete then refuse stBusy 0
    else if total < first + count ∨ total ≤ first then refuse stInvalid 0x20
    else if chs &&& g.channels ≠ chs then refuse stInvalid 0x2A
    else if 1 < arg1 c 0x2B then refuse stInvalid 0x2B
    else
      let len := imageLen g count chs wide side
      match destFault c len with
      | some r => r
      | none =>
        .start (updSeg seq (fun g => { g with readers := g.readers + 1 }) s)
          (.segment seq (paramAddr c.desc) { first := first, count := count, channels := chs, wide := wide, side := side }
            (bit (arg1 c 0x2C) 1)) (le 8 len)

/-- READ_SEGMENTS (R215): Command that transfers a segment image, optionally with side data and release. -/
def execReadSegments (o : Origin) (s : State) : Host.Outcome State Fault Refusal := whenLive s <|
  .next (runCmd o 0x0031 [] noDeps readSegments s)

/-- Bits of an index entry that R219 and R220 give a meaning, byte by byte for the bytes that have reserved ones; VALID is left out. -/
def entryMask : List (Nat × Byte) := [(0x1F, 0x03), (0x21, 0x3F), (0x36, 0x06), (0x37, 0x00)]

/-- An entry with VALID clear (R216, R241): reserved bits are zero (R13), the rest of it is open (log 33). -/
def invalidEntry (s : State) : List Byte × State :=
  let (k, s) := fresh s
  (entryMask.foldl (fun b x => patch b x.1 [(b.getD x.1 0) &&& x.2]) (pad 64 (Config.freeBlob k)), s)

/-- Whether a number's slot is now held by a later segment (R221). -/
def slotReused (s : State) (seq : Nat) : Bool := decide (seq + 4194304 < s.mem.next)

/-- Entries from `seq` on, at most `n`: copying stops at the first number whose segment is not complete (R216). -/
def indexEntries : Nat → Nat → State → List Byte × State
  | 0, _, s => ([], s)
  | n + 1, seq, s =>
    if s.mem.next ≤ seq then ([], s)
    else match findSeg s seq with
      | some g =>
        if !g.complete then ([], s)
        else if slotReused s seq || g.lost then
          let (b, s) := invalidEntry s
          let (rest, s) := indexEntries n (seq + 1) s
          (b ++ rest, s)
        else
          let (rest, s) := indexEntries n (seq + 1) s
          (entryBytes g ++ rest, s)
      | none =>
        let (b, s) := invalidEntry s
        let (rest, s) := indexEntries n (seq + 1) s
        (b ++ rest, s)

/-- READ_INDEX. -/
def readIndex (c : Call) (s : State) : Reply :=
  let count := argN c 0x20 4
  if !within 1 count 65536 then refuse stInvalid 0x20
  else match destFault c (64 * count) with
    | some r => r
    | none =>
      let (bytes, s) := indexEntries count (argN c 0x18 8) s
      .start s (.toHost (paramAddr c.desc) bytes) (le 4 (bytes.length / 64))

/-- READ_INDEX (R216): Command that copies index entries for a range of sequence numbers to host memory. -/
def execReadIndex (o : Origin) (s : State) : Host.Outcome State Fault Refusal := whenLive s <|
  .next (runCmd o 0x0032 [] noDeps readIndex s)

/-! ### Damaged data (R239 to R242) -/

/-- MEM_ECC (R519): cause 0 UNCORRECTABLE, 1 METADATA, 2 METADATA_LOST, 3 OVF. -/
def raiseEcc (sev cause ch which sn : Nat) (s : State) : State :=
  raiseNow 0x7E sev ([BitVec.ofNat 8 cause, BitVec.ofNat 8 ch, BitVec.ofNat 8 which] ++ le 5 0 ++ le 8 sn) s

/-- A corrected read (R237, R239). -/
def eccCorrected (s : State) : State :=
  let sticks := statSticks s.mem.corr 1
  let s := { s with mem := { s.mem with corr := statAdd s.mem.corr 1, corrOvf := s.mem.corrOvf || sticks } }
  if sticks then raiseEcc sevNotice 3 0xFF 0 0 s else s

/-- An uncorrectable read (R237, R239). -/
def eccUncorrectable (s : State) : State :=
  let sticks := statSticks s.mem.uncorr 1
  let s := { s with mem := { s.mem with uncorr := statAdd s.mem.uncorr 1, uncorrOvf := s.mem.uncorrOvf || sticks,
                                        uncorrSeen := true } }
  if sticks then raiseEcc sevNotice 3 0xFF 1 0 s else s

/-- A block's quality byte joined to what is stored for it. -/
def storeQual (b : Nat) (q : Byte) (l : List (Nat × Byte)) : List (Nat × Byte) :=
  if l.any fun x => x.1 = b then l.map fun x => if x.1 = b then (x.1, x.2 ||| q) else x else (b, q) :: l

/-- Bit 6 of a block's stored quality byte is set for good (R240). -/
def markBlock (ch : Fin 8) (b : Nat) (s : State) : State :=
  { s with slices := upd s.slices ch fun sl => { sl with qual := storeQual b 0x40 sl.qual } }

/-- Where the quality byte of a block of a channel stands in a segment's side data (R225). -/
def qualPlace (g : Segment) (ch b : Nat) : Nat :=
  128 + ((List.range ch).filter fun c => g.channels.getLsbD c).length * ceil64 (blocksTouched g.first g.last)
    + (b - g.first / 4096)

/-- A segment that holds a block with bit 6 set: QUALITY_ANY, and the byte of its quality map (R220, R240). -/
def markSeg (era ch b : Nat) (g : Segment) : Segment :=
  if g.channels.getLsbD ch && g.era == era && meets (4096 * b) (4096 * b + 4095) g.first g.last then
    let k := qualPlace g ch b
    { g with flags := g.flags ||| 0x1000#16, side := patch g.side k [(g.side.getD k 0) ||| 0x40#8] }
  else g

/-- An uncorrectable read of the block of sample `sn` of the era `back` APPLYs ago (R240). -/
def markSample (ch : Fin 8) (sn back : Nat) (s : State) : State :=
  let b := sn / 4096
  mapSegs (markSeg (s.proof.era - back) ch.val b) (if back = 0 then markBlock ch b s else s)

/-- What a DRAM read found (R239 to R242). -/
def scrubbed (r : ScrubResult) (s : State) : State :=
  match r with
  | .clean => s
  | .corrected => eccCorrected s
  | .sample ch sn back => raiseEcc sevError 0 ch.val 0 sn (markSample ch sn back (eccUncorrectable s))
  | .metadata => raiseEcc sevWarning 1 0xFF 0 0 (eccUncorrectable s)
  | .metadataLost seq =>
    raiseEcc sevError 2 0xFF 0 0 (updSeg seq (fun g => { g with lost := true }) (eccUncorrectable (eccUncorrectable s)))
  | .other => raiseEcc sevError 0 0xFF 0 0 (eccUncorrectable s)

/-- The DRAM stack of an address (R26): 4 KB granules, address bits [13:12] selecting DS0 to DS3. -/
def stackOf (addr : Nat) : Nat := addr / 4096 % 4

/-- An uncorrectable location that the scrub finds (R26, R431, R519). -/
def raiseScrub (addr : Nat) (row : W32) (s : State) : State :=
  raiseNow 0xF9 sevError ([BitVec.ofNat 8 (stackOf addr), 2, 0, 0] ++ le 4 row.toNat) s

/-- One read of the in-service scrub (R242, R431). Which read ends a pass over the DRAM is open (log 61). -/
def scrubRead (r : ScrubRead) (s : State) : State :=
  let s := scrubbed r.found s
  let s := match r.found with
    | .clean | .corrected => s
    | _ => istFail 2 (raiseScrub r.addr r.row s)
  let (k, s) := fresh s
  if Config.freeBit k then istPart 2 0 s else s

/-- SCRUB (R242): Scrub reads a DRAM location and rewrites or reports it. -/
def execScrub (r : ScrubRead) (s : State) : Host.Outcome State Fault Refusal := whenLive s <| .next (scrubRead r s)

/-! ### Transfers end (R215, R350, R352) -/

/-- A segment that nobody reads any more goes if a RELEASE waits for it (R215, R326). -/
def settleRelease (g : Segment) : Segment :=
  if g.releasing && g.retention == .retained && g.readers == 0 && g.engReaders == 0 then
    { g with retention := .released, releasing := false }
  else g

/-- A reader lets go of a segment (R215); its RELEASE takes effect once no reader is left. -/
def endRead (seq : Nat) (release : Bool) (s : State) : State :=
  updSeg seq (fun g => settleRelease { g with readers := g.readers - 1, releasing := g.releasing || release }) s

end Sys2Proof.Machine
end

