-- ==== Sys2Proof/Machine/Triggers.lean ====
section
/-!
DEFINITION. Trigger units (R166 to R178): detectors, crossings and their placement, the trigger types, SEQUENCE units, levels,
and what a unit takes from an event source. Firings become known in Sequencers.lean.
-/
namespace Sys2Proof.Machine

/-- One trigger unit changed. -/
def updTu (u : Fin 16) (f : Tu → Tu) (s : State) : State := { s with tus := upd s.tus u f }

/-! ### Detectors (R167, R168) -/

/-- A detector pair takes a sample (R167): whether it lies at or above X, at or below X, at or below X − HYST, at or above
X + HYST. The answer is the pair, and whether the rising and the falling detector fire. A detector that fires is not armed by
the same sample. -/
def Detector.feed (d : Detector) (ge le leArm geArm : Bool) : Detector × Bool × Bool :=
  let r := d.rise && ge
  let f := d.fall && le
  ({ rise := !r && (d.rise || leArm), fall := !f && (d.fall || geArm) }, r, f)

/-- A code against a threshold in 1/16 LSB (R167). -/
def feedCode (d : Detector) (th : Int) (hyst : Nat) (code : Int) : Detector × Bool × Bool :=
  let v := 16 * code
  d.feed (decide (th ≤ v)) (decide (v ≤ th)) (decide (v ≤ th - hyst)) (decide (th + hyst ≤ v))

/-- A detector pair disarmed (R168). -/
def Detector.off : Detector := { rise := false, fall := false }

/-- Every detector of a unit is disarmed (R168). -/
def disarm (u : Tu) : Tu := { u with detA := .off, detB := .off, patDet := Vector.replicate 8 .off }

/-! ### Placement (R175 to R177) -/

/-- A code is clipped (R105). -/
def clippedCode (c : Int) : Bool := c == -2048 || c == 2047

/-- Linear interpolation of a crossing (R176), in 2^-16 Ts, held to the interval. -/
def linearPlace (th a b : Int) : Nat := if a = b then 0 else (min 65535 (max 0 ((th - 16 * a) * 65536 / (16 * b - 16 * a)))).toNat

/-- The signal `frac` × 2^-16 Ts after the eighth of sixteen samples (R175), with the coefficients fitted in PF4. -/
def reconstructed (ch : Fin 8) (s : State) (near : List Int) (frac : Nat) : Rat :=
  (near.zipIdx.map fun x => Config.reconTap ch.val (s.slices[ch]).reconFit frac x.2 * x.1).foldl (· + ·) 0

/-- A bisection of `n` steps: the lower end of the interval in which `before` ceases to hold. -/
def bisect (before : Nat → Bool) : Nat → Nat → Nat → Nat
  | 0, lo, _ => lo
  | n + 1, lo, hi => if before ((lo + hi) / 2) then bisect before n ((lo + hi) / 2) hi else bisect before n lo ((lo + hi) / 2)

/-- m of R175: the interval from k − 1 to k bisected sixteen times against the threshold. A value at the threshold has crossed it, as for
the detectors (R167; DEDUCED, log 147). -/
def finePlace (ch : Fin 8) (th : Int) (rise : Bool) (near : List Int) (s : State) : Nat :=
  bisect (fun f => let v := 16 * reconstructed ch s near f
    if rise then decide (v < th) else decide (th < v)) 16 0 65536

/-- Bits [7:0] of a placement's fraction are zero (R177): where the grid fraction has them, the next multiple of 2^-16 Ts, which lies in the
same interval (DESIGN CHOICE, log 148). -/
def onGrid (t : TS96) : TS96 := BitVec.ofNat 96 ((t.toNat + 255) / 256 * 256)

/-- Placement of a crossing of threshold `th` between samples k − 1 and k of a channel (R175, R176): from the reconstruction, or linear where
a sample of k − 8 to k + 7 is clipped. Samples before sample number 0 count as zero (DESIGN CHOICE, log 147). -/
def placeCrossing (ch : Fin 8) (th : Int) (rise : Bool) (k : Nat) (s : State) : TS96 × PlaceFlags :=
  let near := samplesOf ch (k - 8) (k + 7) s
  let at_ := fun (m : Nat) => onGrid (tsArrival s (k - 1) + BitVec.ofNat 96 (256 * m))
  if near.any clippedCode then
    let pair := samplesOf ch (k - 1) k s
    (at_ (linearPlace th (pair.headD 0) (pair.getD 1 0)), { PlaceFlags.none with linear := true })
  else (at_ (finePlace ch th rise (List.replicate (16 - near.length) 0 ++ near) s), PlaceFlags.none)

/-- A crossing that a unit takes: of TH_A or TH_B (or of a PATTERN input), rising or falling, its placement, and its instant in 2^-24
sample periods from sample number 0. -/
structure Crossing where
  t : TS96
  pos : Int
  place : PlaceFlags
  upper : Bool
  rise : Bool
  input : Nat
  /-- a comparator reading at the end of a dead time (R171) -/
  dead : Bool

/-! ### Levels (R169, R179) -/

/-- A unit's level changes at an instant. -/
def setLevel (u : Fin 16) (t : TS96) (b : Bool) (s : State) : State :=
  updTu u (fun x => if x.level == b then x else { x with level := b, levels := (t, b) :: x.levels }) s

/-- The firings that a unit has found since its settings took effect. -/
def firedOf (s : State) (x : Tu) : List TS96 :=
  (x.queue.map (·.t) ++ x.known).filter fun t => decide (0 ≤ tsDiff t (tsOf s x.switchAt))

/-- Types whose level is a hold after each event (R169). -/
def holdsLevel (c : TuCfg) : Bool := c.type != .pattern && c.type != .sequence && isEventSource c.source

/-- LEVEL_HOLD in units of 2^-24 Ts. -/
def holdUnits (c : TuCfg) : Int := c.levelHold * 256

/-- Level of a unit at an instant (R179): every crossing placed at or before `t` counts, except the present firing, which
`own` says is this unit's. -/
def levelAt (s : State) (x : Tu) (t : TS96) (own : Bool) : Bool :=
  let before := fun (a : TS96) => if own then decide (tsDiff a t < 0) else decide (tsDiff a t ≤ 0)
  if holdsLevel x.cfg then
    (firedOf s x).any fun f => before f && decide (tsDiff t f < holdUnits x.cfg)
  else match x.levels.find? fun l => before l.1 with
    | some l => l.2
    | none => false

/-! ### Firings (R178) -/

/-- A firing put into a list kept in placement order. -/
def insertFiring (f : Firing) : List Firing → List Firing
  | [] => [f]
  | g :: t => if tsDiff f.t g.t < 0 then f :: g :: t else g :: insertFiring f t

/-- A SEQUENCE unit names a unit (R172). -/
def seqNames (x : Tu) (u : Nat) : Bool := x.cfg.type == .sequence && (x.cfg.a == u || x.cfg.b == u || x.cfg.rst == u)

/-- A unit finds a firing (R178), which SEQUENCE units that name it will judge (R172). -/
def found (u : Fin 16) (t : TS96) (pos : Int) (place : PlaceFlags) (level : Bool) (due : Nat) (remote : Bool) (s : State) : State :=
  let s := updTu u (fun x => { x with
    queue := insertFiring { t := t, pos := pos, place := place, level := level, due := due, remote := remote } x.queue }) s
  { s with tus := s.tus.map fun x =>
      if seqNames x u.val then { x with inbox := x.inbox ++ [{ unit := u.val, t := t, pos := pos, place := place }] } else x }

/-- CMP of a span (R170); W1 and W2 in 2^-16 Ts. -/
def cmpSpan (c : TuCfg) (w : Int) : Bool :=
  let a : Int := c.w1 * 256
  let b : Int := c.w2 * 256
  match c.cmp with
  | 0 => true
  | 1 => decide (w < a)
  | 2 => decide (a < w)
  | 3 => decide (a ≤ w ∧ w ≤ b)
  | _ => decide (w < a ∨ b < w)

/-- A direction is chosen by SENSE 0 first, 1 second, 2 either (R359). -/
def senseTakes (sense : Nat) (first : Bool) : Bool := sense == 2 || (if first then sense == 0 else sense == 1)

/-- The start of a span noted, with the level high from it (R169). -/
def spanStart (u : Fin 16) (c : Crossing) (s : State) : State :=
  setLevel u c.t true (updTu u (fun x => { x with start := some (c.t, c.place) }) s)

/-- A span ends at a crossing: the unit fires where the span meets CMP; the level is low (R169). -/
def spanEnd (u : Fin 16) (c : Crossing) (due : Nat) (s : State) : State :=
  let x := s.tus[u]
  let s := setLevel u c.t false (updTu u (fun x => { x with start := none }) s)
  match x.start with
  | some (t0, _) => if cmpSpan x.cfg (tsDiff c.t t0) then found u c.t c.pos c.place false due false s else s
  | none => s

/-- A span is dropped. -/
def spanDrop (u : Fin 16) (c : Crossing) (s : State) : State :=
  if (s.tus[u]).start.isSome then setLevel u c.t false (updTu u (fun x => { x with start := none }) s) else s

/-- EDGE and WINDOW (R169): the level follows the crossing, and the unit fires in a chosen direction. -/
def edgeLike (u : Fin 16) (c : Crossing) (high first : Bool) (due : Nat) (s : State) : State :=
  let s := setLevel u c.t high s
  if senseTakes (s.tus[u]).cfg.sense first then found u c.t c.pos c.place high due false s else s

/-- RUNT (R169): `own` is a crossing of the runt's threshold, `out` one in the direction away from rest. -/
def runtCrossing (u : Fin 16) (c : Crossing) (own out : Bool) (due : Nat) (s : State) : State :=
  if own then (if out then spanStart u c s else spanEnd u c due s)
  else if out then spanDrop u c s else s

/-- TIMEOUT (R169): the unit fires at the last entering crossing + W1 once that lies before `now`, an instant after sample `kt`. -/
def timeoutCheck (u : Fin 16) (now : TS96) (kt due : Nat) (s : State) : State :=
  let x := s.tus[u]
  match x.start with
  | some (t0, place) =>
    let t := tsAdd t0 (x.cfg.w1 * 256)
    if tsDiff t now < 0 then
      found u t (posFrom s kt t) place true due false (setLevel u t true (updTu u (fun x => { x with start := none }) s))
    else s
  | none => s

/-- TIMEOUT: a crossing ends the wait and the level, and starts a wait where it enters the chosen state. -/
def timeoutCrossing (u : Fin 16) (c : Crossing) (due : Nat) (s : State) : State :=
  let s := setLevel u c.t false (timeoutCheck u c.t (posSample c.pos) due s)
  updTu u (fun x => { x with start := if senseTakes x.cfg.sense c.rise then some (c.t, c.place) else none }) s

/-- SLEW (R169): a transition completes at its second crossing and then starts anew only at a first one (DEDUCED, log 35). -/
def slewCrossing (u : Fin 16) (c : Crossing) (due : Nat) (s : State) : State :=
  let x := s.tus[u]
  let here := some (c.t, c.place)
  let rise := x.cfg.sense != 1
  let fall := x.cfg.sense != 0
  let (start, fallStart, began) :=
    match c.upper, c.rise with
    | false, true => (if rise then here else none, x.fallStart, none)
    | false, false => (none, none, x.fallStart)
    | true, true => (none, none, x.start)
    | true, false => (x.start, if fall then here else none, none)
  let level := start.isSome || fallStart.isSome
  let s := setLevel u c.t level (updTu u (fun x => { x with start := start, fallStart := fallStart }) s)
  match began with
  | some (t0, _) => if cmpSpan x.cfg (tsDiff c.t t0) then found u c.t c.pos c.place level due false s else s
  | none => s

/-! ### PATTERN (R171) -/

/-- An input's state matches what the pattern asks of it. -/
def patMatches (p : PatInput) (high : Bool) : Bool :=
  match p.state with
  | 0 => true
  | 1 => high
  | _ => !high

/-- Truth of a pattern for given input states. -/
def patTruth (c : TuCfg) (ins : List Bool) : Bool := (c.inputs.zip ins).all fun x => patMatches x.1 x.2

/-- An input change (R171): the pattern is evaluated, and a change of its truth is the unit's crossing. -/
def patChange (u : Fin 16) (c : Crossing) (due : Nat) (s : State) : State :=
  let x := s.tus[u]
  if (x.patIn.getD c.input false) == c.rise then s
  else
    let ins := x.patIn.set c.input c.rise
    let truth := patTruth x.cfg ins
    let s := updTu u (fun x => { x with patIn := ins }) s
    if truth == x.truth then s
    else
      let s := setLevel u c.t truth (updTu u (fun x =>
        { x with truth := truth, start := if truth then some (c.t, c.place) else none }) s)
      match x.cfg.sense, truth with
      | 0, true => found u c.t c.pos c.place true due false s
      | 1, false => found u c.t c.pos c.place false due false s
      | 2, false => match x.start with
        | some (t0, _) => if cmpSpan x.cfg (tsDiff c.t t0) then found u c.t c.pos c.place false due false s else s
        | none => s
      | _, _ => s

/-! ### One crossing (R169) -/

/-- What a unit does with a crossing, by type. -/
def takeCrossing (u : Fin 16) (c : Crossing) (due : Nat) (s : State) : State :=
  let cfg := (s.tus[u]).cfg
  if c.dead && cfg.type != .pattern then s
  else match cfg.type with
    | .edge => edgeLike u c c.rise c.rise due s
    | .window => let enter := c.upper != c.rise; edgeLike u c enter enter due s
    | .pulseWidth => if c.rise == (cfg.sense == 0) then spanStart u c s else spanEnd u c due s
    | .runt =>
      if cfg.sense = 0 then runtCrossing u c (!c.upper) c.rise due s else runtCrossing u c c.upper (!c.rise) due s
    | .timeout => timeoutCrossing u c due s
    | .slew => slewCrossing u c due s
    | .pattern => patChange u c due s
    | _ => s

/-- A crossing put into a list in placement order; equal placements keep their order. -/
def insertCrossing (c : Crossing) : List Crossing → List Crossing
  | [] => [c]
  | d :: t => if tsDiff c.t d.t < 0 then c :: d :: t else d :: insertCrossing c t

/-- Crossings in placement order. -/
def sortCrossings (l : List Crossing) : List Crossing := l.foldl (fun acc c => insertCrossing c acc) []

/-- A channel sample through the detectors of a unit's thresholds: the crossings that complete at sample k, B before A when
rising and A before B when falling, the second placed no earlier than the first (DEDUCED, log 36). -/
def channelCrossings (u : Fin 16) (ch : Fin 8) (k : Nat) (code : Int) (s : State) : List Crossing × State :=
  let x := s.tus[u]
  let (da, ra, fa) := feedCode x.detA x.cfg.thA x.cfg.hyst code
  let (db, rb, fb) := feedCode x.detB x.cfg.thB x.cfg.hyst code
  let s := updTu u (fun x => { x with detA := da, detB := db }) s
  let needsB := x.cfg.type == .window || x.cfg.type == .runt || x.cfg.type == .slew
  let put (on upper rise : Bool) (th : Int) (acc : List Crossing) : List Crossing :=
    if on then
      let p := placeCrossing ch th rise k s
      let t := match acc.getLast? with
        | some c => if tsDiff p.1 c.t < 0 then c.t else p.1
        | none => p.1
      acc ++ [{ t := t, pos := posFrom s (k - 1) t, place := p.2, upper := upper, rise := rise, input := ch.val, dead := false }]
    else acc
  (put (fb && needsB) false false x.cfg.thB (put fa true false x.cfg.thA
    (put ra true true x.cfg.thA (put (rb && needsB) false true x.cfg.thB []))), s)

/-- A channel sample through the detector of one PATTERN input. -/
def patternCrossing (u : Fin 16) (ch : Fin 8) (k : Nat) (s : State) : List Crossing × State :=
  let x := s.tus[u]
  match x.cfg.inputs[ch.val]? with
  | none => ([], s)
  | some p =>
    if p.state = 0 then ([], s)
    else match samplesOf ch k k s with
      | code :: _ =>
        let (d, r, f) := feedCode x.patDet[ch] p.th p.hyst code
        let s := updTu u (fun x => { x with patDet := x.patDet.set ch d }) s
        if r || f then
          let q := placeCrossing ch p.th r k s
          ([{ t := q.1, pos := posFrom s (k - 1) q.1, place := q.2, upper := true, rise := r, input := ch.val, dead := false }], s)
        else ([], s)
      | [] => ([], s)

/-- An AUX edge as a crossing. -/
def auxCrossing (e : AuxEdge) : Crossing :=
  { t := e.t, pos := e.pos, place := e.place, upper := true, rise := !e.falling, input := 8 + e.input, dead := e.dead }

/-- AUX edges that fall before sample k and that the word before has not taken. -/
def auxBefore (s : State) (k : Nat) (first : Bool) : List AuxEdge :=
  s.auxEdges.filter fun e =>
    let n := posSample e.pos
    decide (n < k) && (first || decide (k ≤ n + 1))

/-- A channel has delivered the samples that placement of a crossing in word `j` needs. -/
def hasWord (s : State) (ch : Fin 8) (j : Nat) : Bool := decide (j + 1 < (s.slices[ch]).words)

/-- Sample k of word j for one unit: AUX edges, then the channel crossings, in placement order, then TIMEOUT. The detectors are disarmed
from the commit sample of an epoch (R168, R520). -/
def unitSample (u : Fin 16) (j i : Nat) (s : State) : State :=
  let k := 40 * j + i
  let due := j + 8
  let s := if commitAt s k then updTu u disarm s else s
  let cfg := (s.tus[u]).cfg
  let aux := (auxBefore s k (i == 0)).map auxCrossing
  let (cs, s) : List Crossing × State :=
    if cfg.type == .pattern then
      (List.finRange 8).foldl (fun acc ch =>
        if hasWord s ch j then let (l, s) := patternCrossing u ch k acc.2; (acc.1 ++ l, s) else acc) (aux, s)
    else if isAux cfg.source then (aux.filter fun c => c.input == 8 + (cfg.source - 0x10), s)
    else match (if h : cfg.source < 8 then some (⟨cfg.source, h⟩ : Fin 8) else none) with
      | some ch =>
        if hasWord s ch j then
          match samplesOf ch k k s with
          | code :: _ => channelCrossings u ch k code s
          | [] => ([], s)
        else ([], s)
      | none => ([], s)
  let s := (sortCrossings cs).foldl (fun s c => takeCrossing u c due s) s
  if cfg.type == .timeout then timeoutCheck u (tsArrival s k) (k - 1) due s else s

/-! ### Switch of a unit (R168, R171, R174) -/

/-- Level of the land comparator of an AUX input when sample `n` is taken (R171). -/
def auxLevel (s : State) (n i : Nat) : Bool :=
  match getN s.tacs i with
  | some t => match t.levels.find? fun x => decide (x.1 ≤ ((n * tick : Nat) : Int)) with
    | some x => x.2
    | none => (t.levels.getLast?.map fun x => !x.2).getD t.level
  | none => false

/-- The states in which a PATTERN unit's inputs start at its switch sample (R171). -/
def patStart (c : TuCfg) (n : Nat) (s : State) : List Bool :=
  ((List.finRange 8).map fun ch => match c.inputs[ch.val]?, samplesOf ch n n s with
    | some p, code :: _ => decide (p.th ≤ 16 * code)
    | _, _ => false) ++ (List.range 4).map (auxLevel s n)

/-- New settings of a unit take effect at word j where their switch sample has come (R174). -/
def unitSwitch (u : Fin 16) (j : Nat) (s : State) : State :=
  match (s.tus[u]).next with
  | some (c, n) =>
    if n ≤ 40 * j then
      let ins := patStart c (40 * j) s
      let truth := c.type == .pattern && patTruth c ins
      updTu u (fun x =>
        { x with cfg := c, configured := true, next := none, switchAt := n, detA := .off, detB := .off,
                 patDet := Vector.replicate 8 .off, patIn := ins, truth := truth, start := none, fallStart := none,
                 level := truth, levels := [(tsArrival s n, truth)], armedAt := none, count := 0, inbox := [] }) s
    else s
  | none => s

/-! ### SEQUENCE (R172) -/

/-- A SEQUENCE unit returns to waiting at an instant. -/
def seqReset (u : Fin 16) (t : TS96) (s : State) : State :=
  setLevel u t false (updTu u (fun x => { x with armedAt := none, count := 0 }) s)

/-- A SEQUENCE unit is armed at T_A. -/
def seqArm (u : Fin 16) (t : TS96) (s : State) : State :=
  setLevel u t true (updTu u (fun x => { x with armedAt := some t, count := 0 }) s)

/-- W1 of a unit in units of 2^-24 Ts. -/
def w1Units (c : TuCfg) : Int := c.w1 * 256

/-- WITHIN: T_A + W1 has passed by the instant `t`. -/
def seqExpire (u : Fin 16) (t : TS96) (s : State) : State :=
  let x := s.tus[u]
  match x.armedAt with
  | some a => if x.cfg.qual = 3 ∧ w1Units x.cfg ≤ tsDiff t a then seqReset u (tsAdd a (w1Units x.cfg)) s else s
  | none => s

/-- B meets the qualifier (R172). -/
def seqQualifies (x : Tu) (a t : TS96) : Bool :=
  match x.cfg.qual with
  | 0 => true
  | 1 => decide (w1Units x.cfg ≤ tsDiff t a)
  | 2 => x.count + 1 == x.cfg.n
  | _ => decide (tsDiff t a < w1Units x.cfg)

/-- A firing of a unit that a SEQUENCE unit names (R172). -/
def seqItem (u : Fin 16) (e : SeqInput) (due : Nat) (s : State) : State :=
  let v := e.unit
  let t := e.t
  let s := seqExpire u t s
  let x := s.tus[u]
  let s := match x.armedAt with
    | some a => if v = x.cfg.rst ∧ 0 < tsDiff t a then seqReset u t s else s
    | none => s
  let x := s.tus[u]
  match x.armedAt with
  | none => if v = x.cfg.a then seqArm u t s else s
  | some a =>
    if v = x.cfg.b ∧ 0 < tsDiff t a then
      if seqQualifies x a t then found u t e.pos e.place false due false (seqReset u t s)
      else if x.cfg.qual = 2 then updTu u (fun x => { x with count := x.count + 1 }) s
      else if v = x.cfg.a then seqArm u t s else s
    else if v = x.cfg.a then seqArm u t s else s

/-- Order of inbox entries: placement, then RST before the others, then the unit number. -/
def inboxBefore (rst : Nat) (a b : SeqInput) : Bool :=
  let d := tsDiff a.t b.t
  decide (d < 0) || (decide (d = 0) && (a.unit == rst || (b.unit != rst && decide (a.unit < b.unit))))

/-- One entry put in order. -/
def insertInbox (rst : Nat) (a : SeqInput) : List SeqInput → List SeqInput
  | [] => [a]
  | b :: t => if inboxBefore rst a b then a :: b :: t else b :: insertInbox rst a t

/-- A SEQUENCE unit judges every firing that can no longer be overtaken by an earlier one (R172, R178). -/
def seqJudge (u : Fin 16) (s : State) : State :=
  let x := s.tus[u]
  let d := seqInputDelay s x.cfg
  let due := fun (e : SeqInput) (d : Nat) => dueOf (posSample e.pos) d
  let ripe := x.inbox.filter fun e => decide (due e d ≤ lcNow s)
  let s := updTu u (fun x => { x with inbox := x.inbox.filter fun e => decide (lcNow s < due e d) }) s
  let s := (ripe.foldl (fun acc e => insertInbox x.cfg.rst e acc) []).foldl (fun s e => seqItem u e (due e (d + 2)) s) s
  match (s.tus[u]).armedAt with
  | some a =>
    let t := tsAdd a (w1Units (s.tus[u]).cfg)
    if dueAt s t d ≤ lcNow s then seqExpire u t s else s
  | none => s

/-! ### Event sources (R166, R169, R173) -/

/-- The settings of a unit for an event that comes now (R174): the new ones from the lc of their switch sample on; none before SET_TU. -/
def cfgForEvent (s : State) (x : Tu) : Option TuCfg :=
  match x.next with
  | some (c, n) => if n ≤ commitSample s then some c else if x.configured then some x.cfg else none
  | none => if x.configured then some x.cfg else none

/-- An event of a source reaches the units that name it (R166); `due` is the lc at which their firing is known. A
FILTERED_THRESHOLD unit ignores UNSETTLED events unless UNSETTLED_OK is set (R173). -/
def sourceEvent (src : Nat) (t : TS96) (place : PlaceFlags) (remote : Bool) (due : Nat) (s : State) : State :=
  forAll 16 (fun u s =>
    match cfgForEvent s s.tus[u] with
    | some c =>
      if c.type != .pattern && c.type != .sequence && c.source == src && (!place.unsettled || c.unsettledOk) then
        found u t (posOf s t) place (decide (0 < c.levelHold)) due remote s
      else s
    | none => s) s

/-! ### A word of every unit -/

/-- Word j through one unit (R166 to R176). A unit that SET_TU has never written has no settings and does not fire (log 37). -/
def unitWord (u : Fin 16) (j : Nat) (s : State) : State :=
  let s := unitSwitch u j s
  let x := s.tus[u]
  if !x.configured then s
  else if x.cfg.type == .sequence then seqJudge u s
  else if x.cfg.type != .pattern && isEventSource x.cfg.source then s
  else (List.range 40).foldl (fun s i => unitSample u j i s) s

/-- The trigger processors when SL0 has delivered its words up to `w` (R166): they process word w − 3, whose placements need
the samples of the next one of every slice. AUX edges before its last sample are then done with. -/
def triggerWord (s : State) : State :=
  let w := lcNow s
  if w < 3 then s
  else
    let j := w - 3
    let s := forAll 16 (fun u s => unitWord u j s) s
    { s with auxEdges := s.auxEdges.filter fun e => decide (40 * j + 39 ≤ posSample e.pos) }

end Sys2Proof.Machine
end

