-- ==== Sys2Proof/Machine/Links.lean ====
section
/-!
DEFINITION. The Brim ring's links and flits (R379 to R388, R393 to R397): the flit format, flooding and duplicates, the links'
states, delay exchanges, export and import of triggers. Members, array stops and SET_BRIM are in Brim.lean.
-/
namespace Sys2Proof.Machine

/-- The Brim block changed. -/
def updBrim (f : Brim → Brim) (s : State) : State := { s with brim := f s.brim }

/-- One link changed. -/
def updLink (p : Fin 4) (f : BrimLink → BrimLink) (s : State) : State :=
  { s with brim := { s.brim with links := upd s.brim.links p f } }

/-! ### Flits (R384) -/

def flitKind (f : List Byte) : Nat := fieldAt f 0x00 1
def flitOrigin (f : List Byte) : Fin 64 := Fin.ofNat 64 (fieldAt f 0x01 1)
def flitWest (f : List Byte) : Bool := bit (fieldAt f 0x01 1) 6
def flitHops (f : List Byte) : Nat := fieldAt f 0x02 1
def flitClass (f : List Byte) : Nat := fieldAt f 0x03 1
def flitSeq (f : List Byte) : W32 := BitVec.ofNat 32 (fieldAt f 0x04 4)
def flitT (f : List Byte) : TS96 := BitVec.ofNat 96 (fieldAt f 0x08 12)
def flitCorr (f : List Byte) : Int := signed 64 (fieldAt f 0x14 8)
def flitTb (f : List Byte) : Nat := fieldAt f 0x1C 1
def flitFlags (f : List Byte) : Nat := fieldAt f 0x1D 1
/-- Field of the BODY, by offset within the flit. -/
def flitBody (f : List Byte) (off n : Nat) : Nat := fieldAt f off n

/-- A flit's CRC put in (R384). -/
def withCrc (f : List Byte) : List Byte := let b := pad 60 f; b ++ le 4 (crc32c b).toNat

/-- EPOCH_STATE code (R162). -/
def epochCode : EpochState → Nat
  | .unset => 0 | .armed => 1 | .set => 2 | .pending => 3

/-- The sample at which TB describes the sender (R384): that of T for TRIGGER and STOP, the one being taken for the kinds whose T is the
time of sending or an epoch value. -/
def tbSample (s : State) (kind : Nat) (t : TS96) : Nat := if kind = 1 ∨ kind = 2 then triggerSample s t else takenSample s

/-- EPOCH_STATE code as sample `n` arrived: SET where the timebase left SET after it (R134, R384). -/
def epochCodeAt (s : State) (n : Nat) : Nat := if epochUnset s && !epochUnsetAt s n then 2 else epochCode s.tb.state

/-- TB of a flit at sample `n` (R384). -/
def tbByte (s : State) (n : Nat) : Nat :=
  epochCodeAt s n + flag (spanCoast s n n) 2 + flag (spanSwitch s n n) 3 + flag (s.clk.refState == .stepPending) 4

/-- A message of this member (R384). -/
def message (s : State) (kind cls : Nat) (seq : W32) (t : TS96) (flags : Nat) (body : List Byte) : List Byte :=
  withCrc ([BitVec.ofNat 8 kind, BitVec.ofNat 8 s.brim.position, 0, BitVec.ofNat 8 cls] ++ le 4 seq.toNat ++ tsBytes t
    ++ le 8 0 ++ [BitVec.ofNat 8 (tbByte s (tbSample s kind t)), BitVec.ofNat 8 flags, 0, 0] ++ pad 28 body)

/-- DIR of a flit by the port it leaves on (R384, R386): east on ports 0 and 1. -/
def withDir (p : Fin 4) (f : List Byte) : List Byte :=
  withCrc (patch f 1 [BitVec.ofNat 8 (fieldAt f 1 1 % 64 + flag (decide (2 ≤ p.val)) 6)])

/-- An egress stamp, which the time of sending decides (log 38). -/
def egressStamp (s : State) : TS96 × State :=
  let (k, s) := fresh s
  (BitVec.ofNat 96 (unle (Config.freeBlob k)), s)

/-! ### Links (R382, R383, R386) -/

/-- A link is UP. -/
def linkUp (s : State) (p : Fin 4) : Bool := (s.brim.links[p]).state == .up

/-- 200 ns in lc, rounded up. -/
def keepLc (s : State) : Nat := (nsToTicks s 200 + 39) / 40

/-- 1 ms in lc. -/
def msLc (s : State) : Nat := nsToTicks s (10 ^ 6) / 40

/-- A flit goes out on an UP link, which keeps it for 200 ns (R383). -/
def sendOn (p : Fin 4) (f : List Byte) (s : State) : State :=
  if linkUp s p then
    updLink p (fun l => { l with
      sent := f :: l.sent,
      kept := (f, lcNow s, 0) :: l.kept.filter fun k => decide (lcNow s ≤ k.2.1 + keepLc s) }) s
  else s

/-- Retransmission from the kept flit `index` (0 the oldest kept) on: it and every later one, in order, each at most three
times and within 200 ns of its first transmission (R383). -/
def retransmit (p : Fin 4) (index : Nat) (s : State) : State :=
  let l := s.brim.links[p]
  let old := l.kept.reverse
  let again := fun (k : List Byte × Nat × Nat) => decide (k.2.2 < 3) && decide (lcNow s ≤ k.2.1 + keepLc s)
  let resent := (old.drop index).filter again
  updLink p (fun l => { l with
    sent := (resent.map (·.1)).reverse ++ l.sent,
    kept := (old.take index ++ (old.drop index).map fun k => if again k then (k.1, k.2.1, k.2.2 + 1) else k).reverse }) s

/-- FLIT_RETRANSMIT (R383): Receiver requests retransmission and the transmitter resends from that flit. -/
def execFlitRetransmit (p : Fin 4) (index : Nat) (s : State) : Host.Outcome State Fault Refusal := whenLive s <|
  .next (if linkUp s p then retransmit p index s else s)

/-- A counter of R406 advances (R237): 0 LATE, 1 DROPPED_LATE, 2 REJECTED, 3 EXPORT_SUPP, 4 IMPORT_FULL, 5 ABANDONED. -/
def brimCount (i : Fin 6) (k : Nat) (s : State) : State :=
  let sticks := statSticks s.brim.counters[i] k
  let s := updBrim (fun b => { b with
    counters := upd b.counters i fun c => statAdd c k,
    ovf := if sticks then b.ovf ||| BitVec.ofNat 6 (2 ^ i.val) else b.ovf }) s
  if sticks then raiseNow 0xE7 sevNotice [BitVec.ofNat 8 i.val] s else s

/-- A flit that could not be delivered within 200 ns is abandoned (R383). -/
def execFlitAbandon (p : Fin 4) (s : State) : Host.Outcome State Fault Refusal := whenLive s <|
  .next (brimCount 5 1 (updLink p (fun l => { l with kept := l.kept.dropLast, abandoned := (lcNow s :: l.abandoned).take 64 }) s))

/-- BRIM_LINK (R519). -/
def raiseLink (p : Fin 4) (sev state cause : Nat) (s : State) : State :=
  raiseNow 0xE1 sev [BitVec.ofNat 8 p.val, BitVec.ofNat 8 state, BitVec.ofNat 8 cause] s

/-- RING code (R404). -/
def ringCode : RingState → Nat
  | .alone => 0 | .forming => 1 | .formed => 2 | .degraded => 3 | .split => 4

/-- LIVE (R404): members reachable, this one included; a stale peer is not reachable (DEDUCED, log 39). -/
def liveCount (b : Brim) : Nat :=
  1 + ((List.finRange 64).filter fun n => n.val ≠ b.position && (b.peers[n]).valid && !(b.peers[n]).stale).length

/-- The ring changes state (R402); the event is raised for a change, or for TOO_MANY. -/
def toRing (r : RingState) (cause : Nat) (s : State) : State :=
  if s.brim.ring == r && cause == 0 then s
  else
    let s := updBrim (fun b => { b with ring := r }) s
    raiseNow 0xE0 (if r == .split || cause == 1 then sevWarning else sevNotice)
      [BitVec.ofNat 8 (ringCode r), BitVec.ofNat 8 s.brim.sites.length, BitVec.ofNat 8 (liveCount s.brim),
       BitVec.ofNat 8 s.brim.position, BitVec.ofNat 8 cause] s

/-- Every link is UP and no site is dark (R402). -/
def ringWhole (b : Brim) : Bool := b.links.toList.all (fun l => l.state == .up) && b.sites.all fun x => !x.dark

/-- FORMED and DEGRADED follow the links and the dark sites (R402). -/
def settleRing (s : State) : State :=
  match s.brim.ring with
  | .formed => if ringWhole s.brim then s else toRing .degraded 0 s
  | .degraded => if ringWhole s.brim then toRing .formed 0 s else s
  | _ => s

/-- A neighbour is dark (R379) when its NEAR link is DOWN and the SKIP link in the same direction UP: its site is marked. -/
def markDark (s : State) : State :=
  let n := s.brim.sites.length
  let down := fun (p : Fin 4) => (s.brim.links[p]).state == .down
  if n = 0 then s
  else
    let east := (s.brim.position + 1) % n
    let west := (s.brim.position + n - 1) % n
    updBrim (fun b => { b with sites := b.sites.zipIdx.map fun x =>
      if x.2 = s.brim.position then x.1
      else if (x.2 = east ∧ down 0 ∧ linkUp s 1) ∨ (x.2 = west ∧ down 2 ∧ linkUp s 3) then { x.1 with dark := true }
      else if (x.2 = east ∧ linkUp s 0) ∨ (x.2 = west ∧ linkUp s 2) then { x.1 with dark := false }
      else x.1 }) s

/-- A link reaches UP (R382, R402). -/
def brimLinkUp (p : Fin 4) (s : State) : State :=
  if linkUp s p then s
  else
    let s := raiseLink p sevNotice 2 0 (updLink p (fun l => { l with state := .up }) s)
    let s := if s.brim.ring == .alone then toRing .forming 0 s else s
    settleRing (markDark s)

/-- BRIM_LINK_UP (R382): A Brim link trains and runs 1 ms clean and becomes UP. With no SYN-T band the ports stay in electrical idle (R74). -/
def execBrimLinkUp (p : Fin 4) (s : State) : Host.Outcome State Fault Refusal := whenLive s <|
  .next (if s.clk.noBand[3] then s else brimLinkUp p s)

/-- 64 flits of a link have been abandoned within 1 ms (R382). -/
def gaveUp64 (p : Fin 4) (s : State) : Bool :=
  decide (64 ≤ ((s.brim.links[p]).abandoned.filter fun t => decide (lcNow s < t + msLc s)).length)

/-- A link goes DOWN (R382, R402): cause 0 LOCK, 1 ABANDONED, which takes 64 abandoned flits within 1 ms. -/
def brimLinkDown (p : Fin 4) (abandoned : Bool) (s : State) : State :=
  if (s.brim.links[p]).state == .down || (abandoned && !gaveUp64 p s) then s
  else
    let was := linkUp s p
    let s := updLink p (fun l => { l with state := .down, kept := [], abandoned := [], sentT1 := none, samples := [] }) s
    let s := if was then raiseLink p sevWarning 0 (if abandoned then 1 else 0) s else s
    if s.brim.links.toList.all fun l => l.state == .down then toRing .alone 0 s
    else settleRing (markDark s)

/-- BRIM_LINK_DOWN (R382): A Brim link loses block lock or abandons 64 flits and goes DOWN. -/
def execBrimLinkDown (p : Fin 4) (abandoned : Bool) (s : State) : Host.Outcome State Fault Refusal := whenLive s <|
  .next (brimLinkDown p abandoned s)

/-- BRIM_LINK_TRAINING (R382, R404): a DOWN link finds its partner and trains. With no SYN-T band the ports stay in electrical idle (R74). -/
def execBrimLinkTraining (p : Fin 4) (s : State) : Host.Outcome State Fault Refusal := whenLive s <|
  .next (if (s.brim.links[p]).state == .down && !s.clk.noBand[3] then updLink p (fun l => { l with state := .training }) s else s)

/-! ### Duplicates and flooding (R386, R387) -/

/-- A key is new to the table of its origin: the table with it recorded, or none for a duplicate (R387). -/
def dupCheck (t : Option DupTable) (seq : W32) : Option DupTable :=
  match t with
  | none => some { highest := seq, seen := [] }
  | some t =>
    if seq = 0 then some { highest := 0, seen := [] }
    else
      let d := (seq - t.highest).toInt
      if 0 < d then
        some { highest := seq, seen := (t.highest :: t.seen).filter fun x => decide ((seq - x).toNat ≤ 64) }
      else if d = 0 ∨ d < -64 ∨ t.seen.contains seq then none
      else some { t with seen := seq :: t.seen }

/-- A key recorded. -/
def recordKey (origin : Fin 64) (t : DupTable) (s : State) : State :=
  updBrim (fun b => { b with dup := b.dup.set origin (some t) }) s

/-- Distance from this member to the origin in the direction of travel, in sites (R386); 0 where the ring has no positions. -/
def originAhead (b : Brim) (origin : Nat) (west : Bool) : Nat :=
  let n := b.sites.length
  if n = 0 then 0 else if west then (b.position + n - origin % n) % n else (origin + n - b.position) % n

/-- Distance that a link spans. -/
def linkSpan (p : Fin 4) : Nat := if p = 0 ∨ p = 2 then 1 else 2

/-- A link faces the direction of travel. -/
def facing (p : Fin 4) (west : Bool) : Bool := west == decide (2 ≤ p.val)

/-- A received flooded message goes on (R386, R388): HOPS one higher, CORR with the delay of the link it came in on and the
residence, which the egress stamp decides (log 38); not to the origin or beyond it. -/
def forward (rx : Rx) (s : State) : State :=
  let west := flitWest rx.flit
  let ahead := originAhead s.brim (flitOrigin rx.flit).val west
  forAll 4 (fun p s =>
    if facing p west && (ahead = 0 || decide (linkSpan p < ahead)) then
      let (out, s) := egressStamp s
      let corr := flitCorr rx.flit + (s.brim.links[rx.link]).delay + tsDiff out rx.arrival
      sendOn p (withCrc (patch (patch rx.flit 0x02 [BitVec.ofNat 8 (flitHops rx.flit + 1)]) 0x14
        (le 8 (unsigned 64 corr)))) s
    else s) s

/-- A flooded flit is received (R386, R387): with a good CRC and a new key it is forwarded and taken by `take`. -/
def flooded (rx : Rx) (take : State → State) (s : State) : State :=
  if linkUp s rx.link && crcOk rx.flit then
    match dupCheck s.brim.dup[flitOrigin rx.flit] (flitSeq rx.flit) with
    | some t => take (forward rx (recordKey (flitOrigin rx.flit) t s))
    | none => s
  else s

/-- The next message number (R387): after 2^32 − 1 comes 1. -/
def nextSeq (q : W32) : W32 := if q + 1 = 0 then 1 else q + 1

/-- A message of this member is flooded on all four links, and its key recorded (R386, R395). -/
def floodSeq (seq : W32) (kind cls : Nat) (t : TS96) (flags : Nat) (body : List Byte) (s : State) : State :=
  let f := message s kind cls seq t flags body
  let own : Fin 64 := Fin.ofNat 64 s.brim.position
  let s := match dupCheck s.brim.dup[own] seq with
    | some d => recordKey own d s
    | none => s
  forAll 4 (fun p s => sendOn p (withDir p f) s) s

/-- A flooded message under the next number. -/
def flood (kind cls : Nat) (t : TS96) (flags : Nat) (body : List Byte) (s : State) : State :=
  let seq := s.brim.seq
  floodSeq seq kind cls t flags body (updBrim (fun b => { b with seq := nextSeq b.seq }) s)

/-! ### Import (R395 to R397) -/

/-- L_SYS in units of 2^-24 Ts. -/
def lsysUnits (s : State) : Int := fsToUnits s ((s.brim.lsysNs : Int) * 10 ^ 6)

/-- BRIM_IMPORT (R397): at most once per 1 ms while an import counter advances, with the increments. -/
def reportImport (s : State) : State :=
  let due := match s.brim.importAt with
    | none => true
    | some t => decide (t + msLc s ≤ lcNow s)
  let now : Vector Nat 4 :=
    #v[s.brim.counters[0], s.brim.counters[1], s.brim.counters[2], s.brim.counters[4]]
  if due && now != s.brim.reported then
    raiseNow 0xE2 sevWarning
      ((List.finRange 4).flatMap fun i => le 4 (stick 32 (now[i] - s.brim.reported[i])))
      (updBrim (fun b => { b with reported := now, importAt := some (lcNow s) }) s)
  else s

/-- An import counter advances and is reported. -/
def importCount (i : Fin 6) (k : Nat) (s : State) : State := reportImport (brimCount i k s)

/-- The oldest sample held by any armed sequencer (R181), if one is armed. -/
def oldestHeld (s : State) : Option Nat :=
  ((s.seqs.toList.filter armed).map fun q => commitSample s - (q.cfg.p + 40 * (q.das + q.cfg.lateAllow))).foldl
    (fun best n => some (match best with | some b => min b n | none => n)) none

/-- T is older than everything held (R397). -/
def tooOld (s : State) (t : TS96) : Bool :=
  (match oldestHeld s with
    | some n => decide (tsDiff t (tsOf s n) < 0)
    | none => true)
  && (!histOn s.mem || decide (tsDiff t (tsOf s (histO s.mem)) < 0))

/-- Margin in whole ns, rounded toward minus infinity (R395), held to 32 bits. -/
def marginNs (s : State) (margin : Int) : W32 :=
  BitVec.ofInt 32 (min (2 ^ 31 - 1) (max (-(2 ^ 31)) (unitsToFs s margin / 10 ^ 6)))

/-- A trigger is presented to the units of its class (R395). -/
def presentTrigger (cls : Nat) (t : TS96) (s : State) : State :=
  sourceEvent (0x80 + cls) t PlaceFlags.none true (lcNow s + 2) s

/-- A TRIGGER reaches the import of this member (R395 to R397): `tbSet` says that its TB shows SET, `sameFs` that its origin
reports this member's FS_KHZ. -/
def importTrigger (cls : Nat) (t arrival : TS96) (tbSet sameFs : Bool) (s : State) : State :=
  if s.brim.tooMany then s
  else if !(tbSet && s.tb.state == .set && sameFs) then importCount 2 1 s
  else
    let margin := tsDiff t arrival + lsysUnits s
    let ns := marginNs s margin
    let s := updBrim (fun b => { b with marginMin := if ns.toInt < b.marginMin.toInt then ns else b.marginMin }) s
    if 0 ≤ margin then
      if 32768 ≤ s.brim.queue.length then importCount 4 1 s
      else updBrim (fun b => { b with queue := b.queue ++ [{ cls := cls, t := t, late := false }] }) s
    else if tooOld s t then importCount 1 1 s
    else presentTrigger cls t (importCount 0 1 s)

/-- A TRIGGER flit is received (R386, R396): with more than 64 sites seen it is neither taken nor forwarded (R402). -/
def execTriggerMessage (rx : Rx) (s : State) : Host.Outcome State Fault Refusal := whenLive s <|
  if WellFormed.instr (.triggerMessage rx) then
    .next (if s.brim.tooMany then s else flooded rx (fun s =>
      let p := s.brim.peers[flitOrigin rx.flit]
      importTrigger (flitClass rx.flit % 16) (flitT rx.flit) rx.arrival (flitTb rx.flit % 4 == 2)
        (p.valid && p.fsKhz == BitVec.ofNat 32 s.clk.fsKhzNow) s) s)
  else .fault .illFormed

/-- The queued trigger whose T + L_SYS comes first is presented once that instant is being taken (R395). -/
def execTriggerPresent (s : State) : Host.Outcome State Fault Refusal := whenLive s <|
  let due := fun (m : Import) => decide (tsDiff m.t (tsOf s (takenSample s + 39)) + lsysUnits s ≤ 0)
  let first := (s.brim.queue.filter due).foldl (fun (best : Option Import) m =>
    match best with
    | none => some m
    | some b => if tsDiff m.t b.t < 0 then some m else best) none
  match first with
  | some m => .next (presentTrigger m.cls m.t (updBrim (fun b => { b with queue := b.queue.erase m }) s))
  | none => .next s

/-- Every queued trigger is discarded and counted as rejected (R396: an epoch instant, an accepted APPLY). -/
def rejectQueued (s : State) : State :=
  let n := s.brim.queue.length
  if n = 0 then s else importCount 2 n (updBrim (fun b => { b with queue := [] }) s)

/-! ### Export (R393, R394) -/

/-- An export is suppressed (R393, R394): counted, and reported at most once per 1 ms. -/
def suppressExport (s : State) : State :=
  let s := brimCount 3 1 (updBrim (fun b => { b with suppressed := b.suppressed + 1 }) s)
  let due := match s.brim.exportAt with
    | none => true
    | some t => decide (t + msLc s ≤ lcNow s)
  if due then
    raiseNow 0xE3 sevWarning (le 4 (stick 32 s.brim.suppressed))
      (updBrim (fun b => { b with suppressed := 0, exportAt := some (lcNow s) }) s)
  else s

/-- The credit for a TRIGGER is there (R394). -/
def triggerCredit (s : State) : Bool :=
  match s.brim.lastTrigger with
  | none => true
  | some t => decide (t + 512 ≤ lcNow s)

/-- One class is exported (R393 to R395). -/
def exportClass (cls : Fin 16) (t : TS96) (flags : Nat) (s : State) : State :=
  if s.brim.tooMany then s
  else if triggerCredit s then
    let tbSet := epochCodeAt s (triggerSample s t) == 2
    let s := flood 0x01 cls.val t flags [] (updBrim (fun b => { b with lastTrigger := some (lcNow s) }) s)
    importTrigger cls.val t (tsTaken s) tbSet true s
  else suppressExport s

/-- A firing or a cut segment of an export source goes out on every class that it feeds (R393); a unit whose source is a Brim
class is not exported. -/
def exportTrigger (source : Nat) (remote : Bool) (t : TS96) (flags : Nat) (s : State) : State :=
  forAll 16 (fun c s =>
    if s.brim.exports[c] = source then (if remote then suppressExport s else exportClass c t flags s) else s) s

/-! ### Delay exchanges (R385, R388) -/

/-- A message of one link, whose SEQ the spec leaves open (log 38). -/
def linkMessage (p : Fin 4) (kind : Nat) (t : TS96) (body : List Byte) (s : State) : State :=
  let (k, s) := fresh s
  sendOn p (withDir p (message s kind 0 ((Config.freeWord k).truncate 32) t 0 body)) s

/-- DELAY_REQ is sent on an UP link (R388). -/
def execDelayReqSend (p : Fin 4) (s : State) : Host.Outcome State Fault Refusal := whenLive s <|
  if linkUp s p then
    let (t1, s) := egressStamp s
    .next (linkMessage p 0x05 t1 [] (updLink p (fun l => { l with sentT1 := some t1 }) s))
  else .next s

/-- DELAY_REQ is answered on its link (R388). -/
def execDelayReq (rx : Rx) (s : State) : Host.Outcome State Fault Refusal := whenLive s <|
  if WellFormed.instr (.delayReq rx) then
    if linkUp s rx.link && crcOk rx.flit then
      let (t3, s) := egressStamp s
      .next (linkMessage rx.link 0x06 t3 (tsBytes rx.arrival) s)
    else .next s
  else .fault .illFormed

/-- Average of a list of integers, toward minus infinity; 0 for none. -/
def average (l : List Int) : Int := if l.isEmpty then 0 else l.sum / l.length

/-- DELAY_RESP (R388): d and θ of the exchange, averaged over the last 128. -/
def delayResp (rx : Rx) (s : State) : State :=
  if linkUp s rx.link && crcOk rx.flit then
    match (s.brim.links[rx.link]).sentT1 with
    | some t1 =>
      let t2 := BitVec.ofNat 96 (flitBody rx.flit 0x20 12)
      let t3 := flitT rx.flit
      let t4 := rx.arrival
      let d := (tsDiff t4 t1 - tsDiff t3 t2) / 2
      let theta := (tsDiff t2 t1 - tsDiff t4 t3) / 2
      updLink rx.link (fun l =>
        let samples := ((d, theta) :: l.samples).take 128
        { l with samples := samples, delay := average (samples.map (·.1)), sentT1 := none }) s
    | none => s
  else s

/-- DELAY_RESP (R388): DELAY_RESP received and link delay and offset updated. -/
def execDelayResp (rx : Rx) (s : State) : Host.Outcome State Fault Refusal := whenLive s <|
  if WellFormed.instr (.delayResp rx) then .next (delayResp rx s) else .fault .illFormed

end Sys2Proof.Machine
end

