-- ==== Sys2Proof/Machine/Sequencers.lean ====
section
/-!
DEFINITION. Acquisition sequencers (R179 to R202, R210 to R218): firings made known, decisions, segments cut, ARM, FORCE, stops,
retro-captures and TRIGOUT.
-/
namespace Sys2Proof.Machine

/-- One sequencer changed. -/
def updAs (a : Fin 4) (f : Seq → Seq) (s : State) : State := { s with seqs := upd s.seqs a f }

/-- The counts of a sequencer changed. -/
def updCounts (a : Fin 4) (f : SeqCounts → SeqCounts) (s : State) : State := updAs a (fun q => { q with counts := f q.counts }) s

/-! ### State at an instant (R187) -/

/-- The segment being filled, or the one filled last since the arm. -/
def curSeg (q : Seq) (s : State) : Option Segment :=
  match q.openSeg with
  | some n => findSeg s n
  | none => q.lastSeg.bind (findSeg s)

/-- COUNT is reached (R183, R187). -/
def countReached (q : Seq) : Bool := q.cfg.count != 0 && decide (q.cfg.count ≤ q.cutSinceArm)

/-- Holdoff that starts at S runs at sample `k` (R190). -/
def inHoldoff (q : Seq) (k : Nat) : Bool :=
  (q.cfg.holdTime != 0 && decide (k < q.fillStart + q.cfg.holdTime))
    || (q.cfg.holdCount != 0 && (decide (q.holdSeen < q.cfg.holdCount) || decide (k < q.holdEnd)))

/-- FILL or READY at sample `k` (R187, R188). -/
def fillOrReady (q : Seq) (k : Nat) : SeqState := if k < q.fillStart + q.cfg.p then .fill else .ready

/-- A stop has disarmed the sequencer at or before sample `k` (R197). -/
def stoppedBy (q : Seq) (k : Nat) : Bool := q.state == .idle && q.stopAt.any fun n => decide (n ≤ k)

/-- The state of a sequencer at sample `k` (R187, R197), judged from its arm sample, its segments, S and the last stop; with
STOP_PENDING it is IDLE after the open segment. -/
def stateAt (q : Seq) (s : State) (k : Nat) : SeqState :=
  match q.armSample with
  | none => .idle
  | some a =>
    if k < a ∨ stoppedBy q k = true then .idle
    else match curSeg q s with
      | some g =>
        if k ≤ g.last then .post
        else if countReached q || q.stopPending.isSome then .idle
        else if q.cfg.mode == .continuous then .post
        else if inHoldoff q k then .holdoff
        else fillOrReady q k
      | none => if q.cfg.mode == .continuous then .post else fillOrReady q k

/-- The sample at which READY is entered after S (R187, R193). -/
def readySample (q : Seq) : Nat :=
  let afterHold := if q.cutSinceArm = 0 then q.fillStart else max (q.fillStart + q.cfg.holdTime) q.holdEnd
  max (q.fillStart + q.cfg.p) afterHold

/-! ### Events (R191, R203) -/

/-- ASn_STATE (R203, R519) with every count not yet reported, which it takes up. -/
def raiseAs (a : Fin 4) (cause lowMask : Nat) (s : State) : State :=
  let c := (s.seqs[a]).counts
  let sev := if 3 ≤ cause then sevWarning else sevNotice
  updAs a (fun q => { q with counts := SeqCounts.zero })
    (raiseNow (srcId 0x70 a.val) sev
      ([BitVec.ofNat 8 cause] ++ le 1 (stick 8 c.lateMissed) ++ le 2 (stick 16 c.prefillWait)
        ++ le 2 (stick 16 c.holdoffSuppressed) ++ le 2 (stick 16 c.afterStop) ++ le 2 (stick 16 c.fullMissed)
        ++ [BitVec.ofNat 8 lowMask]) s)

/-- Order of the causes of stops that commit in one lc: URGENT, MASK, ARRAY, STOP (R296). -/
def stopRank : Nat → Nat
  | 3 => 0 | 4 => 1 | 5 => 2 | _ => 3

/-- Of two stops of one lc the cause that the event names, with the lowest mask (R294, R296). -/
def firstCause (x y : Nat × Nat) : Nat × Nat :=
  if x.1 = y.1 then (x.1, min x.2 y.2) else if stopRank x.1 < stopRank y.1 then x else y

/-- The event of a stop waits for the end of its lc: what is counted in that lc goes into it, and stops of one lc are one (R198, R296). -/
def holdStop (a : Fin 4) (cause low : Nat) (s : State) : State :=
  updAs a (fun q => { q with stopEvent := some (match q.stopEvent with
    | some e => firstCause e (cause, low)
    | none => (cause, low)) }) s

/-- The lc of a stop ends, or an ARM follows it: its event is raised (R197, R198). -/
def endStop (a : Fin 4) (s : State) : State :=
  match (s.seqs[a]).stopEvent with
  | some (cause, low) => raiseAs a cause low (updAs a (fun q => { q with stopEvent := none }) s)
  | none => s

/-! ### TRIGOUT (R199 to R201) -/

/-- Source code, polarity and WIDTH of an output (R201). -/
def trigSrc (s : State) (o : Fin 2) : Nat := s.trigCfg.toNat / 2 ^ (16 * o.val) % 32
def trigPol (s : State) (o : Fin 2) : Bool := s.trigCfg.getLsbD (16 * o.val + 5)
def trigWidth (s : State) (o : Fin 2) : Nat := s.trigCfg.toNat / 2 ^ (16 * o.val + 8) % 256

/-- One output changed. -/
def updOut (o : Fin 2) (f : TrigOut → TrigOut) (s : State) : State := { s with trigouts := upd s.trigouts o f }

/-- A trigger for every output that follows a source (R199); the source decides now. -/
def queueTrigout (src : Nat) (pos : Int) (late : Bool) (s : State) : State :=
  forAll 2 (fun o s =>
    if trigSrc s o = src then
      updOut o (fun x => { x with queue := x.queue ++ [{ pos := pos, decided := lcNow s, late := late }] }) s
    else s) s

/-- A unit on a Brim, spectral or engine source, whose TRIGOUT edges are always late (R199). -/
def lateSource (c : TuCfg) : Bool :=
  c.type != .sequence && c.type != .pattern
    && (isSpectralSource c.source || isMeasureSource c.source || isAverageSource c.source || isBrimSource c.source)

/-- TRIGOUT_EVENT (R519): cause 0 MERGED, 1 LATE. -/
def raiseTrigout (o : Fin 2) (cause : Nat) (s : State) : State :=
  raiseNow 0x64 sevNotice [BitVec.ofNat 8 o.val, BitVec.ofNat 8 cause] s

/-- One lc in 2^-24 sample periods. -/
def lcUnits : Int := 40 * 2 ^ 24

/-- The start of the present lc at the land: 40 lc after the first sample that reaches the compute tiles in it was taken (R23). -/
def landNow (s : State) : Int := (lcNow s + 40 : Nat) * lcUnits

/-- The instant of a trigger's edge at the land, and whether it goes out late (R199): T + 80 lc where the decision came by T + 74 lc, else
the first lc boundary at least 6 lc after the decision. -/
def trigEdge (x : OutTrigger) : Int × Bool :=
  if x.late || decide (dueOf (posSample x.pos) 74 < x.decided) then ((x.decided + 46 : Nat) * lcUnits, true)
  else (x.pos + 80 * lcUnits, false)

/-- An edge at `at_` falls while the output is active, or within 2 lc after a pulse ends (R200). -/
def outBusy (x : TrigOut) (at_ : Int) : Bool :=
  match x.activeUntil, x.quietFrom with
  | some u, _ => decide (at_ < u + 2 * lcUnits)
  | none, some q => decide (at_ < q + 2 * lcUnits)
  | none, none => false

/-- The TAC of an output's loopback (R142). -/
def loopTac (o : Fin 2) : Fin 8 := ⟨5 + o.val, by omega⟩

/-- The edge of the output's oldest trigger comes due (R199, R200). -/
def trigoutPulse (o : Fin 2) (s : State) : State :=
  let x := s.trigouts[o]
  match x.queue with
  | [] => s
  | e :: rest =>
    let (at_, late) := trigEdge e
    if landNow s + lcUnits ≤ at_ then s
    else
      let s := updOut o (fun x => { x with queue := rest }) s
      if outBusy x at_ then
        let s := updOut o (fun x => { x with merged := true, mergedCount := x.mergedCount + 1 }) s
        if x.merged then s else raiseTrigout o 0 s
      else
        let s := notIdle (loopTac o) (updOut o (fun x =>
          { x with activeUntil := some (at_ + trigWidth s o * lcUnits), level := !(trigPol s o), late := x.late || late }) s)
        if late && !x.late then raiseTrigout o 1 s else s

/-- TRIGOUT_PULSE (R199): TRIGOUT edge goes out at T + 80 lc or late. -/
def execTrigoutPulse (o : Fin 2) (s : State) : Host.Outcome State Fault Refusal := whenLive s <|
  .next (trigoutPulse o s)

/-- A pulse ends after WIDTH lc (R200). -/
def execTrigoutPulseEnd (o : Fin 2) (s : State) : Host.Outcome State Fault Refusal := whenLive s <|
  match (s.trigouts[o]).activeUntil with
  | some u =>
    if u < landNow s + lcUnits then
      .next (notIdle (loopTac o) (updOut o (fun x => { x with activeUntil := none, quietFrom := some u, level := trigPol s o }) s))
    else .next s
  | none => .next s

/-! ### Instants reach the sequencers (R179 to R182) -/

/-- An instant that is known at an lc joins a sequencer's queue: decided at t + D_AS, or when it is known where it is late
(R181, R182). -/
def pushInstant (a : Fin 4) (known : Nat) (t : TS96) (kt : Nat) (kind : InstantKind) (place : PlaceFlags)
    (waiter : Option (Nat × W32)) (s : State) : State :=
  let q := s.seqs[a]
  let due := dueOf kt q.das
  updAs a (fun q => { q with queue := q.queue ++
    [{ t := t, kt := kt, kind := kind, place := place, due := max due known, late := decide (due < known),
       waiter := waiter }] }) s

/-- Terms of an expression whose firing unit is `u`. -/
def termsOf (q : Seq) (u : Nat) : List Nat := (q.cfg.terms.zipIdx.filter fun x => x.1.unit == u).map (·.2)

/-- The firing that a unit makes known now (R178): the earliest placed one whose delay has passed. -/
def ripeFiring (s : State) (x : Tu) : Option Firing := x.queue.find? fun f => decide (f.due ≤ lcNow s)

/-- TUn_FIRE (R203, R519). -/
def raiseFire (u : Fin 16) (f : Firing) (s : State) : State :=
  raise (srcId 0x50 u.val) sevInfo f.t
    [BitVec.ofNat 8 (tuTypeCode (s.tus[u]).cfg.type), BitVec.ofNat 8 (flag f.level 0),
     BitVec.ofNat 8 (flag f.place.linear 0 + flag f.place.coarse 1)] s

/-- A unit's firing becomes known (R178): to the sequencers, the timers, TRIGOUT, the ring and, with EVENT_EN, the host. -/
def tuFire (u : Fin 16) (s : State) : State :=
  match ripeFiring s s.tus[u] with
  | none => s
  | some f =>
    let s := updTu u (fun x => { x with queue := x.queue.erase f, known := f.t :: x.known }) s
    let s := if (s.tus[u]).cfg.eventEn then raiseFire u f s else s
    let s := forAll 4 (fun a s =>
      if (s.seqs[a]).configured then
        (termsOf s.seqs[a] u.val).foldl (fun s i =>
          pushInstant a f.due f.t (posSample f.pos) (.trigger i) f.place none s) s
      else s) s
    let s := timerTrigger (0x20 + u.val) f.t (posSample f.pos) f.place.coarse s
    exportTrigger u.val f.remote f.t 0 (queueTrigout u.val f.pos (lateSource (s.tus[u]).cfg) s)

/-- TRIGGER_UNIT_FIRE (R178): A trigger unit's firing becomes known at its decision delay. -/
def execTriggerUnitFire (u : Fin 16) (s : State) : Host.Outcome State Fault Refusal := whenLive s <|
  .next (tuFire u s)

/-! ### Segments are cut (R188 to R193, R210 to R214) -/

/-- Flag bits of an index entry (R220). -/
def fAuto : Nat := 0x0001
def fForced : Nat := 0x0002
def fPartialPre : Nat := 0x0004
def fRetro : Nat := 0x0008
def fTruncated : Nat := 0x0010
def fLate : Nat := 0x0020
def fRing : Nat := 0x2000

/-- The flags that a placement gives (R220). -/
def placeFlagBits (p : PlaceFlags) : Nat := flag p.linear 6 + flag p.coarse 7 + flag p.unsettled 8 + flag p.flagged 9

/-- A segment to be cut: T, trigger sample, first and last sample, flags, and whether it is ring-resident. -/
structure Cut where
  t : TS96
  kt : Nat
  first : Nat
  last : Nat
  flags : Nat
  ring : Bool

/-- Bytes of side area that a segment of full length needs, both copies (R212, R225, R241). -/
def sideNeed (a : Fin 4) (s : State) : Nat :=
  let q := s.seqs[a]
  2 * sideBound s.reds q.cfg.channels q.cfg.l

/-- Blocks of a span in this era. -/
def spanBlocks (s : State) (first last : Nat) : Nat × Nat :=
  (s.proof.era * 2 ^ 60 + first / 4096, s.proof.era * 2 ^ 60 + last / 4096)

/-- The conditions of R212, or those of a ring-resident segment. -/
def cutFits (a : Fin 4) (c : Cut) (s : State) (m : Mem) : Bool :=
  let q := s.seqs[a]
  let span := spanBlocks s c.first (max c.first c.last)
  sideFits a (sideNeed a s) m
    && (if c.ring then pinsFit q.cfg.channels span m else regionFits a q span m)

/-- The segment record of a cut (R219, R191); where the device places its side data is its own choice (log 40). -/
def makeSegment (a : Fin 4) (c : Cut) (n : SeqCounts) (s : State) : Segment × State :=
  let q := s.seqs[a]
  let (k, s) := fresh s
  ({ seq := s.mem.next, sequencer := a.val, t := c.t, kt := c.kt, off := tsDiff c.t (tsOf s c.kt),
     first := c.first, last := c.last, channels := q.cfg.channels, flags := BitVec.ofNat 16 (c.flags + flag (epochUnsetAt s c.kt) 11 + flag c.ring 13),
     epochGen := s.tb.epochGen, postCount := 0, prefillWait := n.prefillWait,
     holdoffSuppressed := n.holdoffSuppressed, lateMissed := n.lateMissed, fullMissed := n.fullMissed,
     gapCount := q.gapCount, maskResult := 0, stepDelta := 0, retention := .retained,
     sidePtr := (Config.freeWord k).truncate 32, measPtr := 0xFFFFFFFF#32, overlap := [], ring := c.ring, readers := 0,
     releasing := false, closed := false, complete := false, lost := false, era := s.proof.era,
     sideBytes := sideNeed a s, data := [], side := [], meas := [], engReaders := 0 }, s)

/-- The segment joins memory under the next number (R214); from now on the history writer counts the pins of a ring-resident one (R209). -/
def addSegment (g : Segment) (s : State) : State :=
  let m := { s.mem with segs := g :: s.mem.segs, next := s.mem.next + 1 }
  { s with mem := m }

/-- A trigger is counted FULL_MISSED (R212, R213, R221). -/
def fullMissed (a : Fin 4) (s : State) : State := updCounts a (fun c => { c with fullMissed := c.fullMissed + 1 }) s

/-- The lc at which a segment's T is known to the felts (R276): T + max(D_AS + 4, 63) lc, later for a LATE trigger. -/
def refKnown (a : Fin 4) (t : TS96) (late : Bool) (s : State) : Nat :=
  max (dueAt s t (max ((s.seqs[a]).das + 4) 63)) (if late then lcNow s + 4 else 0)

/-- The segment's reference for the TRIGGERED felts of its sequencer (R276). -/
def feltReference (a : Fin 4) (t : TS96) (late : Bool) (s : State) : State :=
  updAs a (fun q => { q with refs := (t, refKnown a t late s, late) :: q.refs }) s

/-- ASn_TRIG (R203, R519): a segment is cut and TRIG_EVENT is set. -/
def raiseCut (a : Fin 4) (g : Segment) (s : State) : State :=
  if (s.seqs[a]).cfg.trigEvent then raise (srcId 0x60 a.val) sevInfo g.t (le 8 g.seq ++ le 2 g.flags.toNat) s else s

/-- What a cut tells the rest of the device (R199, R203, R276, R155, R393); of it, retro and stop segments have only ASn_TRIG. -/
def announceCut (a : Fin 4) (g : Segment) (s : State) : State :=
  let s := raiseCut a g s
  let s := feltReference a g.t (g.flags.getLsbD 5) (queueTrigout (0x10 + a.val) ((g.kt * tick : Nat) + g.off) false s)
  let s := timerTrigger (0x30 + a.val) g.t g.kt (g.flags.getLsbD 7) s
  exportTrigger (0x10 + a.val) false g.t
    (1 + flag (g.flags.getLsbD 0) 1 + flag (g.flags.getLsbD 1) 2 + flag (g.flags.getLsbD 5) 3) s

/-- A cut that R212 or R221 does not allow: counted, and reported the first time (R212). -/
def missCut (a : Fin 4) (s : State) : State :=
  let s := fullMissed a s
  if (s.seqs[a]).fullSeen then s else raiseMem a 0 0 (updAs a (fun q => { q with fullSeen := true }) s)

/-- A sequencer cuts a segment (R212, R214, R221): the answer says whether it did. -/
def cutSegment (a : Fin 4) (c : Cut) (s : State) : State × Bool :=
  match slotBlocked s.mem s.mem.next with
  | some n => (raiseSlot a.val n (fullMissed a s), false)
  | none =>
    match cutDecision (s.mem.overwrite.getLsbD a.val) (cutFits a c s) s.mem a.val with
    | none => (missCut a s, false)
    | some l =>
      let s := overwriteSegs a l s
      let (g, s) := makeSegment a c (s.seqs[a]).counts s
      let s := updAs a (fun q =>
        { q with state := .post, openSeg := some g.seq, lastT := some c.t, segments := statAdd q.segments 1,
                 cutSinceArm := q.cutSinceArm + 1, fullSeen := false, gapCount := 0, holdSeen := 0, holdEnd := 0,
                 fillStart := max (c.last + 1) c.first,
                 counts := { SeqCounts.zero with afterStop := q.counts.afterStop } }) (addSegment g s)
      (announceCut a g s, true)

/-! ### Classification (R187 to R190, R194) -/

/-- An entry of the overlap log put in T order (R189). -/
def insertLog (x : TS96 × Bool) : List (TS96 × Bool) → List (TS96 × Bool)
  | [] => [x]
  | y :: l => if tsDiff x.1 y.1 < 0 then x :: y :: l else y :: insertLog x l

/-- An instant is logged in the segment that holds it, which keeps the first eight in T order (R189); in CONTINUOUS an instant of a skipped segment counts as
FULL_MISSED (R213). -/
def logPost (a : Fin 4) (t : TS96) (kt : Nat) (forced : Bool) (s : State) : State :=
  match s.mem.segs.find? fun g =>
      g.sequencer == a.val && g.era == s.proof.era && !g.flags.getLsbD 3 && decide (g.first ≤ kt ∧ kt ≤ g.last) with
  | some g => updSeg g.seq (fun g =>
      { g with postCount := g.postCount + 1, overlap := (insertLog (t, forced) g.overlap).take 8 }) s
  | none => fullMissed a s

/-- The cut of a trigger with pre length `pre`. -/
def cutAt (q : Seq) (t : TS96) (kt pre flags : Nat) (ring : Bool) : Cut :=
  { t := t, kt := kt, first := kt - pre, last := kt + (q.cfg.l - q.cfg.p) - 1, flags := flags, ring := ring }

/-- A trigger on time is classified (R187 to R190). -/
def classify (a : Fin 4) (t : TS96) (kt flags : Nat) (s : State) : State :=
  let q := s.seqs[a]
  match stateAt q s kt with
  | .ready => (cutSegment a (cutAt q t kt q.cfg.p flags false) s).1
  | .fill =>
    if q.cfg.accept then (cutSegment a (cutAt q t kt (kt - q.fillStart) (flags + fPartialPre) false) s).1
    else updCounts a (fun c => { c with prefillWait := c.prefillWait + 1 }) s
  | .post => logPost a t kt false s
  | .holdoff =>
    updAs a (fun q => { q with
      counts := { q.counts with holdoffSuppressed := q.counts.holdoffSuppressed + 1 }, holdSeen := q.holdSeen + 1,
      holdEnd := if q.holdSeen + 1 = q.cfg.holdCount then kt + 1 else q.holdEnd }) s
  | .idle => s

/-- Every sample from `first` on is still held by the capture writer (R181). -/
def heldByWriter (q : Seq) (s : State) (first : Nat) : Bool :=
  decide (commitSample s ≤ first + lookBack q.cfg.p q.das q.cfg.lateAllow)

/-- Every sample from `first` on lies in the history ring for all the sequencer's channels (R182). -/
def heldByRing (q : Seq) (s : State) (first : Nat) : Bool :=
  histOn s.mem && q.cfg.channels &&& s.mem.histChannels == q.cfg.channels && decide (histO s.mem ≤ first)

/-- A late trigger is accepted only under the conditions of R182, else counted LATE_MISSED. -/
def classifyLate (a : Fin 4) (t : TS96) (kt flags : Nat) (s : State) : State :=
  let q := s.seqs[a]
  let missed := updCounts a (fun c => { c with lateMissed := c.lateMissed + 1 }) s
  let newest := match q.lastT with
    | some l => decide (0 ≤ tsDiff t l)
    | none => true
  let st := stateAt q s kt
  if !(armed q) || !newest then missed
  else if st == .ready || (st == .fill && q.cfg.accept) then
    let pre := if st == .ready then q.cfg.p else kt - q.fillStart
    let fl := flags + fLate + (if st == .ready then 0 else fPartialPre)
    if heldByWriter q s (kt - pre) then (cutSegment a (cutAt q t kt pre fl false) s).1
    else if heldByRing q s (kt - pre) then (cutSegment a (cutAt q t kt pre fl true) s).1
    else missed
  else missed

/-- A stop has disarmed the sequencer after the instant's sample (R198), or the instant lies before a new arm and before the
stop of the last one. -/
def afterStopInstant (q : Seq) (kt : Nat) : Bool :=
  match q.stopAt with
  | some n => decide (kt < n) && (q.state == .idle || (match q.armSample with | some a => decide (kt < a) | none => true))
  | none => false

/-- An outcome of FORCE is entered in the command that waits for it (R194): byte 8 + a of RESULT. Its completion is posted once
every named sequencer has classified it. -/
def forceOutcome (w : Option (Nat × W32)) (a : Fin 4) (code : Byte) (s : State) : State :=
  match w with
  | none => s
  | some (n, tag) =>
    if h : n < 64 then
      let qp : Fin 64 := ⟨n, h⟩
      match s.hif.qps[qp].fetched.find? fun f => f.tag == tag with
      | some f =>
        let result := patch f.result (8 + a.val) [code]
        let left := match f.xfer with
          | some (.wait m) => m - (if bit m a.val then 2 ^ a.val else 0)
          | _ => 0
        let s := updQp qp (fun q => { q with fetched := q.fetched.map fun g =>
          if g.tag == tag then { g with result := result, xfer := some (.wait left) } else g }) s
        if left = 0 then finish qp tag stSuccess 0 result s else s
      | none => s
    else s

/-- A FORCE is classified (R194); what it reports where R212 allows no segment is open (log 41). -/
def classifyForce (a : Fin 4) (i : Instant) (s : State) : State :=
  let q := s.seqs[a]
  let cut (pre flags : Nat) (code : Byte) : State :=
    let (s, done) := cutSegment a (cutAt q i.t i.kt pre flags false) s
    if done then forceOutcome i.waiter a code s
    else
      let (k, s) := fresh s
      forceOutcome i.waiter a (Config.freeByte k) s
  match stateAt q s i.kt with
  | .ready => cut q.cfg.p fForced 1
  | .fill | .holdoff =>
    let pre := min q.cfg.p (i.kt - q.fillStart)
    if pre = q.cfg.p then cut pre fForced 1 else cut pre (fForced + fPartialPre) 2
  | .post => forceOutcome i.waiter a 3 (logPost a i.t i.kt true s)
  | .idle => forceOutcome i.waiter a 0 s

/-- The levels of a term allow a trigger at T (R179). -/
def termHolds (s : State) (q : Seq) (i : Nat) (t : TS96) : Bool :=
  match q.cfg.terms[i]? with
  | none => false
  | some term => (List.finRange 16).all fun u =>
      let own := u.val == term.unit
      (!term.high.getLsbD u.val || levelAt s s.tus[u] t own) && (!term.low.getLsbD u.val || !levelAt s s.tus[u] t own)

/-- Order of decisions (R181): trigger samples, then triggers ahead of a FORCE, then T, then the lower term. -/
def instantRank (i : Instant) : Nat × Nat :=
  match i.kind with
  | .trigger k => (0, k)
  | .capture _ => (0, 4)
  | .force => (1, 0)

/-- `a` is decided before `b`. -/
def decidesBefore (a b : Instant) : Bool :=
  let d := tsDiff a.t b.t
  let ra := instantRank a
  let rb := instantRank b
  if a.kt = b.kt then
    if ra.1 = rb.1 then decide (d < 0) || (decide (d = 0) && decide (ra.2 < rb.2)) else decide (ra.1 < rb.1)
  else decide (d < 0)

/-- The instant of a list that is decided first. -/
def firstInstant (l : List Instant) : Option Instant :=
  l.foldl (fun best i => match best with
    | none => some i
    | some b => if decidesBefore i b then some i else some b) none

/-- The instant is a firing of a term at a trigger sample. -/
def isTermAt (kt : Nat) (late : Bool) (i : Instant) : Bool :=
  match i.kind with
  | .trigger _ => i.kt == kt && i.late == late
  | _ => false

/-- The firing's term lets it through. -/
def instantHolds (s : State) (q : Seq) (i : Instant) : Bool :=
  match i.kind with
  | .trigger k => termHolds s q k i.t
  | _ => true

/-- A trigger, from terms or from a mask, at its decision (R182, R187, R198). -/
def decideTrigger (a : Fin 4) (i : Instant) (s : State) : State :=
  let q := s.seqs[a]
  if afterStopInstant q i.kt then updCounts a (fun c => { c with afterStop := c.afterStop + 1 }) s
  else if i.late then classifyLate a i.t i.kt (placeFlagBits i.place) s
  else classify a i.t i.kt (placeFlagBits i.place) s

/-- The sample at which READY has lasted AUTO_TIMEOUT (R193). -/
def expirySample (q : Seq) (s : State) : Nat := readySample q + nsToTicks s q.cfg.autoNs

/-- The expiry of the AUTO timer is to be decided now, ahead of every instant at sample `k` or later (R181, R193). -/
def expiryFirst (q : Seq) (k : Option Nat) (s : State) : Bool :=
  let e := expirySample q s
  q.cfg.mode == .auto && decide (q.readyAt ≤ e) && stateAt q s e == .ready && decide (dueAt s (tsOf s e) q.das ≤ lcNow s)
    && (match k with | some k => decide (e < k) | none => true)

/-- The expiry is decided (R193, R198): an AUTO segment, or a count of AFTER_STOP where a stop has come first. -/
def decideExpiry (a : Fin 4) (s : State) : State :=
  let q := s.seqs[a]
  let e := expirySample q s
  let s := updAs a (fun q => { q with readyAt := e + 1 }) s
  if afterStopInstant q e then updCounts a (fun c => { c with afterStop := c.afterStop + 1 }) s
  else (cutSegment a (cutAt q (tsOf s e) e q.cfg.p fAuto false) s).1

/-- The next decision of a sequencer (R180, R181): the first instant whose time has come, an expiry where that comes first;
firings of several terms at one trigger sample make one trigger, at the earliest T, ties going to the lower term. -/
def seqDecide (a : Fin 4) (s : State) : State :=
  let q := s.seqs[a]
  match firstInstant (q.queue.filter fun i => decide (i.due ≤ lcNow s)) with
  | none => s
  | some i =>
    if expiryFirst q (some i.kt) s then decideExpiry a s
    else match i.kind with
    | .trigger _ =>
      let group := q.queue.filter (isTermAt i.kt i.late)
      let s := updAs a (fun q => { q with queue := q.queue.filter fun x => !isTermAt i.kt i.late x }) s
      match firstInstant (group.filter (instantHolds s q)) with
      | some x => decideTrigger a x s
      | none => s
    | .capture _ => decideTrigger a i (updAs a (fun q => { q with queue := q.queue.erase i }) s)
    | .force =>
      let s := updAs a (fun q => { q with queue := q.queue.erase i }) s
      if afterStopInstant q i.kt then
        forceOutcome i.waiter a 0 (updCounts a (fun c => { c with afterStop := c.afterStop + 1 }) s)
      else classifyForce a i s

/-- SEQUENCER_DECISION (R181): Sequencer classifies triggers, FORCEs and expiries of an instant at D_AS later. -/
def execSequencerDecision (a : Fin 4) (s : State) : Host.Outcome State Fault Refusal := whenLive s <|
  .next (seqDecide a s)

/-! ### State changes with time (R187, R190, R193, R213) -/

/-- CONTINUOUS opens its next segment at a grid boundary (R185, R213); a boundary that R212 does not allow is skipped. -/
def openContinuous (a : Fin 4) (n : Nat) (s : State) : State :=
  let q := s.seqs[a]
  let s := updAs a (fun q => { q with nextOpen := some (n + q.cfg.l) }) s
  (cutSegment a { t := tsOf s n, kt := n, first := n, last := n + q.cfg.l - 1, flags := 0, ring := false } s).1

/-- P samples have passed since S (R187). -/
def prefillDone (a : Fin 4) (s : State) : State :=
  let q := s.seqs[a]
  if q.state == .fill && stateAt q s (commitSample s) == .ready then
    updAs a (fun q => { q with state := .ready, readyAt := readySample q }) s
  else s

/-- PREFILL_DONE (R187): P samples have passed since S and the sequencer becomes READY. -/
def execPrefillDone (a : Fin 4) (s : State) : Host.Outcome State Fault Refusal := whenLive s <|
  .next (prefillDone a s)

/-- Every holdoff criterion is met (R190). -/
def execHoldoffEnd (a : Fin 4) (s : State) : Host.Outcome State Fault Refusal := whenLive s <|
  let q := s.seqs[a]
  if q.state == .holdoff && !inHoldoff q (commitSample s) then .next (updAs a (fun q => { q with state := .fill }) s)
  else .next s

/-- READY has lasted AUTO_TIMEOUT and no trigger or FORCE comes first (R181, R193): a segment at the expiry sample. -/
def autoTimeout (a : Fin 4) (s : State) : State :=
  let q := s.seqs[a]
  if expiryFirst q none s && !(q.queue.any fun i => decide (i.kt ≤ expirySample q s)) then decideExpiry a s else s

/-- AUTO_TIMEOUT (R193): READY has lasted AUTO_TIMEOUT and an AUTO segment is cut. -/
def execAutoTimeout (a : Fin 4) (s : State) : Host.Outcome State Fault Refusal := whenLive s <|
  .next (autoTimeout a s)

/-- The sequencer leaves POST for IDLE, HOLDOFF or FILL (R187). -/
def leavePost (a : Fin 4) (s : State) : State :=
  let q := s.seqs[a]
  match q.stopPending with
  | some cause =>
    holdStop a cause 0 (updAs a (fun q => { q with state := .idle, das := dAs s q.cfg, stopPending := none, stopAt := some q.fillStart }) s)
  | none =>
    if countReached q then raiseAs a 1 0 (updAs a (fun q => { q with state := .idle, das := dAs s q.cfg, stopAt := none }) s)
    else if q.cfg.mode == .continuous then openContinuous a q.fillStart s
    else if q.cfg.holdTime != 0 || q.cfg.holdCount != 0 then updAs a (fun q => { q with state := .holdoff }) s
    else updAs a (fun q => { q with state := .fill }) s

/-- The sequencer may leave POST after last sample `last` (R187, R197): at once, or with STOP_PENDING when it has decided every
instant up to that sample. -/
def mayLeave (q : Seq) (last : Nat) (s : State) : Bool :=
  decide (last < commitSample s) && (q.stopPending.isNone
    || (decide (dueAt s (tsOf s last) q.das ≤ lcNow s) && !(q.queue.any fun i => decide (i.kt ≤ last ∧ i.due ≤ lcNow s))))

/-- The last sample of the open segment has passed (R187), or the next grid boundary of a CONTINUOUS sequencer without a
segment (R213). -/
def segmentEnd (a : Fin 4) (s : State) : State :=
  let q := s.seqs[a]
  match q.openSeg with
  | some n => match findSeg s n with
    | some g =>
      if mayLeave q g.last s then
        leavePost a (updAs a (fun q => { q with openSeg := none, lastSeg := some n }) s)
      else s
    | none => s
  | none =>
    match q.nextOpen with
    | some b =>
      if q.state == .post && q.cfg.mode == .continuous && decide (b < commitSample s) then
        (if q.stopPending.isSome then leavePost a s else openContinuous a b s)
      else s
    | none => s

/-- SEGMENT_END (R187): Last sample of a segment passes and the sequencer moves on. -/
def execSegmentEnd (a : Fin 4) (s : State) : Host.Outcome State Fault Refusal := whenLive s <| .next (segmentEnd a s)

/-! ### ARM (R186) -/

/-- A sequencer starts filling at its arm sample (R187). -/
def startFill (n : Nat) (a : Fin 4) (s : State) : State :=
  let s := updAs a (fun q =>
    { q with state := .fill, armSample := some n, startAt := none, fillStart := n, readyAt := n, openSeg := none,
             lastSeg := none, holdEnd := 0, holdSeen := 0, nextOpen := none }) s
  if (s.seqs[a]).cfg.mode == .continuous then openContinuous a n (updAs a (fun q => { q with state := .post }) s) else s

/-- Arming of one sequencer (R186, R187, R522): the event takes every count, SEGMENTS is cleared, D_AS is taken anew. With START_AT the
sequencer is in FILL, or in POST with MODE = CONTINUOUS, from its ARM on, and S is the arm sample. -/
def armOne (start : Option TS96) (a : Fin 4) (s : State) : State :=
  let s := raiseAs a 0 0 (endStop a s)
  let s := updAs a (fun q =>
    { q with das := dAs s q.cfg, built := (exprReach s q.cfg).map fun u => (u, tuDelay s u), segments := 0, cutSinceArm := 0,
             lastT := none, stopPending := none }) s
  match start with
  | none => startFill (commitSample s) a s
  | some t =>
    let n := firstAt s t
    updAs a (fun q =>
      { q with state := if q.cfg.mode == .continuous then .post else .fill, armSample := some n, startAt := start, fillStart := n,
               readyAt := n, openSeg := none, lastSeg := none, holdEnd := 0, holdSeen := 0, nextOpen := none }) s

/-- Sequencers of a four-bit mask. -/
def maskAs (m : Nat) : List (Fin 4) := (List.finRange 4).filter fun a => bit m a.val

/-- ARM (R186, R361). -/
def armCmd (c : Call) (s : State) : Reply :=
  let named := maskAs (arg1 c 0x18)
  let start := if bit (arg1 c 0x19) 0 then some (argTs c 0x20) else none
  if named.any fun a => !(s.seqs[a]).configured then refuse stInvalid 0x18
  else if start.any fun t => decide (tsDiff t (tsNow s) < 65536 * 40 * tick) then refuse stInvalid 0x20
  else if named.any (fun a => armed s.seqs[a]) || s.tb.state == .armed || s.tb.state == .pending then refuse stBusy 0
  else
    let n := match start with
      | none => commitSample s
      | some t => firstAt s t
    .ok (named.foldl (fun s a => armOne start a s) s) (le 8 n)

/-- ARM (R186): Command that arms the named sequencers at a shared arm sample. -/
def execArm (o : Origin) (s : State) : Host.Outcome State Fault Refusal := whenLive s <|
  .next (runCmd o 0x0020 [] noDeps armCmd s)

/-- The arm sample of START_AT arrives (R186). -/
def execArmStart (a : Fin 4) (s : State) : Host.Outcome State Fault Refusal := whenLive s <|
  match (s.seqs[a]).startAt with
  | some t => let n := firstAt s t
    if n ≤ commitSample s then .next (startFill n a s) else .next s
  | none => .next s

/-! ### FORCE (R194) -/

/-- FORCE (R194, R361): the completion waits until every named sequencer has classified it. A restore never issues one. -/
def forceCmd (n : Option (Fin 64)) (c : Call) (s : State) : Reply :=
  let m := arg1 c 0x18 % 16
  let k := commitSample s
  let waiter : Option (Nat × W32) := n.map fun n => (n.val, BitVec.ofNat 32 (fieldAt c.desc 0x04 4))
  let s' := (maskAs m).foldl (fun s a => pushInstant a 0 (tsOf s k) k .force PlaceFlags.none waiter s) s
  if m = 0 then .ok s (le 8 k) else .start s' (.wait m) (pad 16 (le 8 k))

/-- FORCE (R194): Command that forces a segment on the named sequencers at the force sample. -/
def execForce (o : Origin) (s : State) : Host.Outcome State Fault Refusal := whenLive s <|
  .next (runCmd o 0x0022 [] noDeps (forceCmd (match o with | .host n => some n | .restore => none)) s)

/-! ### Stops (R196 to R198, R400) -/

/-- The open segment is closed by a stop with last sample s − 1 (R197). -/
def truncate (n : Nat) (g : Segment) : Segment :=
  { g with last := n - 1, closed := true,
           flags := if n ≤ g.last then g.flags ||| BitVec.ofNat 16 fTruncated else g.flags }

/-- The sequencer goes to IDLE at stop sample `n` and its open segment is closed (R197). -/
def stopClose (a : Fin 4) (n : Nat) (s : State) : State :=
  let q := s.seqs[a]
  let s := match q.openSeg.bind (findSeg s) with
    | some g => if n ≤ g.last then updSeg g.seq (truncate n) s else s
    | none => s
  updAs a (fun q =>
    { q with state := .idle, das := dAs s q.cfg, startAt := none, stopPending := none, stopAt := some n, nextOpen := none,
             lastSeg := match q.openSeg with | some g => some g | none => q.lastSeg, openSeg := none,
             fillStart := if q.openSeg.isSome then min q.fillStart n else q.fillStart }) s

/-- The decisions of the present lc, at most `k` of them. -/
def decideAll (a : Fin 4) : Nat → State → State
  | 0, s => s
  | k + 1, s => decideAll a k (seqDecide a s)

/-- A stop that takes effect at sample `n` (R197). What the sequencer decides in the same lc is discarded, and its AFTER_STOP goes into the
event of the stop (R198; log 149). -/
def stopNow (a : Fin 4) (n cause low : Nat) (s : State) : State :=
  let s := stopClose a n s
  holdStop a cause low (autoTimeout a (decideAll a (s.seqs[a]).queue.length s))

/-- A stop on a sequencer (R196, R197): IMMEDIATE, or AFTER_SEGMENT, which waits while a segment is open. On one that another stop of this
lc has stopped it counts for the cause alone (R296). -/
def stopSeq (cause : Nat) (afterSegment : Bool) (a : Fin 4) (s : State) : State :=
  let q := s.seqs[a]
  if !(armed q) then (if q.stopEvent.isSome then holdStop a cause 0 s else s)
  else if afterSegment && q.state == .post && q.startAt.isNone then updAs a (fun q => { q with stopPending := some cause }) s
  else stopNow a (commitSample s) cause 0 s

/-- BRIM_STOP (R400, R519). -/
def raiseStop (received : Bool) (origin : Nat) (urgent : Bool) (t : TS96) (s : State) : State :=
  raise 0xE6 sevWarning t [BitVec.ofNat 8 (flag received 0), BitVec.ofNat 8 origin, BitVec.ofNat 8 (flag urgent 0)] s

/-- The credit for a STOP is there (R400). -/
def stopCredit (s : State) : Bool :=
  match s.brim.lastStop with
  | none => true
  | some t => decide (t + 512 ≤ lcNow s)

/-- A STOP message goes out, or waits for its credit (R400). -/
def sendStop (t : TS96) (urgent : Bool) (s : State) : State :=
  if stopCredit s && s.brim.stopWaiting.isEmpty then
    raiseStop false s.brim.position urgent t
      (flood 0x02 0 t (flag urgent 0) [] (updBrim (fun b => { b with lastStop := some (lcNow s) }) s))
  else updBrim (fun b => { b with stopWaiting := b.stopWaiting ++ [(t, urgent)] }) s

/-- A STOP that waited is sent once its credit is back; this is tried at every lc (R400). -/
def stopTick (s : State) : State :=
  match s.brim.stopWaiting with
  | (t, u) :: rest =>
    if stopCredit s then
      raiseStop false s.brim.position u t (flood 0x02 0 t (flag u 0) []
        (updBrim (fun b => { b with lastStop := some (lcNow s), stopWaiting := rest }) s))
    else s
  | [] => s

/-- STOP (R196, R361). -/
def stopCmd (c : Call) (s : State) : Reply :=
  if 1 < arg1 c 0x19 then refuse stInvalid 0x19
  else if 1 < arg1 c 0x1A then refuse stInvalid 0x1A
  else
    let n := commitSample s
    let s := (maskAs (arg1 c 0x18)).foldl (fun s a => stopSeq 2 (arg1 c 0x19 == 1) a s) s
    .ok (if arg1 c 0x1A = 1 then sendStop (tsOf s n) false s else s) (le 8 n)

/-- STOP (R197): Command that stops the named sequencers IMMEDIATE or AFTER_SEGMENT, optionally array-wide. -/
def execStop (o : Origin) (s : State) : Host.Outcome State Fault Refusal := whenLive s <|
  .next (runCmd o 0x0021 [] noDeps stopCmd s)

/-- A write of HIF_URGENT_STOP (R377). -/
def urgentStop (value : W32) (s : State) : State :=
  if value.getLsbD 0 then
    let n := commitSample s
    let s := forAll 4 (stopSeq 3 false) { s with hif := { s.hif with urgentSeen := true } }
    if value.getLsbD 1 then sendStop (tsOf s n) true s else s
  else s

/-- URGENT_STOP (R377): Write to HIF_URGENT_STOP that stops every sequencer within 64 ns and optionally sends an array
stop. -/
def execUrgentStop (value : W32) (s : State) : Host.Outcome State Fault Refusal := whenReachable s <|
  .next (urgentStop value s)

/-- A STOP flit is received (R386, R400): the first copy stops the sequencers of SET_BRIM field 17. -/
def execStopMessage (rx : Rx) (s : State) : Host.Outcome State Fault Refusal := whenLive s <|
  if WellFormed.instr (.stopMessage rx) then
    .next (flooded rx (fun s =>
      raiseStop true (flitOrigin rx.flit).val (bit (flitFlags rx.flit) 0) (flitT rx.flit)
        ((maskAs s.brim.stopMask.toNat).foldl (fun s a => stopSeq 5 false a s) s)) s)
  else .fault .illFormed

/-! ### RETRO_CAPTURE (R195, R217, R218) -/

/-- Retro-captures of a sequencer in progress (R195, R218). -/
def retroBusy (s : State) (a : Nat) : Nat :=
  (s.mem.segs.filter fun g => g.sequencer == a && g.flags.getLsbD 3 && !g.complete).length

/-- RETRO_CAPTURE (R195, R217). -/
def retroCmd (c : Call) (s : State) : Reply :=
  match (if h : arg1 c 0x18 < 4 then some (⟨arg1 c 0x18, h⟩ : Fin 4) else none) with
  | none => refuse stInvalid 0x18
  | some a =>
    let q := s.seqs[a]
    let t := argTs c 0x20
    let kt := triggerSample s t
    let o := histO s.mem
    if !q.configured || !(histOn s.mem) || q.cfg.channels &&& s.mem.histChannels != q.cfg.channels then
      refuse stInvalid 0x18
    else if 2 ^ 40 * tick < tsDiff t (tsNow s) then refuse stInvalid 0x20
    else if 4 ≤ retroBusy s a.val then refuse stBusy 0
    else if (triggerSampleIn s.tb.maps none t).isNone || kt < o then refuse stRange 0
    else
      let short := decide (kt < o + q.cfg.p)
      let pre := if short then kt - o else q.cfg.p
      let cut := cutAt q t kt pre (fRetro + (if short then fPartialPre else 0)) true
      match slotBlocked s.mem s.mem.next with
      | some n => .refuseIn (raiseSlot a.val n s) stNoSpace 0 []
      | none =>
        if cutFits a cut s s.mem then
          let (g, s) := makeSegment a cut SeqCounts.zero s
          let s := updAs a (fun q => { q with gapCount := 0 }) (raiseCut a g (addSegment g s))
          .ok s (le 8 g.seq ++ le 5 pre ++ [BitVec.ofNat 8 (flag short 0)])
        else refuse stNoSpace 0

/-- RETRO_CAPTURE (R217): Command that cuts a ring-resident segment at a past or near-future instant T. -/
def execRetroCapture (o : Origin) (s : State) : Host.Outcome State Fault Refusal := whenLive s <|
  .next (runCmd o 0x0023 [] noDeps retroCmd s)

end Sys2Proof.Machine
end

