-- ==== Sys2Proof/Machine/Felts.lean ====
section
/-!
DEFINITION. Felts (R271 to R287): mapping of samples to bins, counters and spills, aging, SET_FELT, and the bake cycle.
-/
namespace Sys2Proof.Machine

/-- One felt changed. -/
def updFelt (f : Fin 16) (g : Felt → Felt) (s : State) : State := { s with felts := upd s.felts f g }

/-- FELTn_STATE (R302, R519): cause 0 SAT, 1 LOST, 2 OVF. -/
def raiseFelt (f : Fin 16) (cause which bin : Nat) (s : State) : State :=
  raiseNow (srcId 0xA0 f.val) sevWarning ([BitVec.ofNat 8 cause, BitVec.ofNat 8 which, 0, 0] ++ le 4 bin) s

/-! ### Bins (R271, R282) -/

/-- Largest value of a bin, at which it sticks (R282). -/
def binMax : Nat := 2 ^ 32 - 1

/-- The value of a bin. -/
def binOf (b : Bins) (i : Nat) : Nat := ((b.find? fun x => x.1 = i).map (·.2)).getD 0

/-- A bin set; bins that are zero are not listed. -/
def setBin : Bins → Nat → Nat → Bins
  | [], i, v => if v = 0 then [] else [(i, v)]
  | (j, w) :: t, i, v =>
    if i < j then (if v = 0 then (j, w) :: t else (i, v) :: (j, w) :: t)
    else if i = j then (if v = 0 then t else (i, v) :: t)
    else (j, w) :: setBin t i v

/-- A saturating add (R279, R282). -/
def addBin (b : Bins) (i w : Nat) : Bins := setBin b i (min binMax (binOf b i + w))

/-- Every bin of one buffer added into another (R286). -/
def mergeBins (into b : Bins) : Bins := b.foldl (fun acc x => addBin acc x.1 x.2) into

/-- A value aged once (R283): halved, rounding down, or cleared; a stuck bin stays (R282). -/
def ageValue (clear : Bool) (v : Nat) : Nat := if clear then 0 else v / 2

/-- A buffer aged `n` times (R282, R283). -/
def ageBins (clear stickAtMax : Bool) : Nat → Bins → Bins
  | 0, b => b
  | n + 1, b => ageBins clear stickAtMax n
      ((b.map fun x => (x.1, if stickAtMax && x.2 == binMax then x.2 else ageValue clear x.2)).filter fun x => x.2 != 0)

/-- The buffer A or B of a felt. -/
def bufOf (f : Felt) (b : Bool) : Bins := if b then f.bufB else f.bufA

/-- The buffer A or B replaced. -/
def setBuf (b : Bool) (x : Bins) (f : Felt) : Felt := if b then { f with bufB := x } else { f with bufA := x }

/-- A weight added to a buffer's bin; the first bin that sticks is reported (R282). -/
def applyWeight (f : Fin 16) (toB : Bool) (bin w : Nat) (s : State) : State :=
  let x := s.felts[f]
  let b := addBin (bufOf x toB) bin w
  let stuck := binOf b bin == binMax
  let s := updFelt f (fun x => { setBuf toB b x with sat := x.sat || stuck }) s
  if stuck && !x.sat then raiseFelt f 0 0 0 s else s

/-! ### Hits (R278, R279, R285) -/

/-- A residue or a late hit goes to the baked buffer; where a sweep is under way there it waits for it, since it holds hits that follow
the aging instant and others that the counter has aged already (R283, R285). -/
def toBaked (f : Fin 16) (bin w : Nat) (s : State) : State :=
  let x := s.felts[f]
  match x.sweep with
  | some (b, _) =>
    if b == !x.activeB then
      updFelt f (fun x => { x with spills := x.spills ++ [{ bin := bin, toB := b, weight := w, before := false }] }) s
    else applyWeight f (!x.activeB) bin w s
  | none => applyWeight f (!x.activeB) bin w s

/-- A hit of the present generation (R278, R279, R285): a residue of the old generation goes to the baked buffer first; at 128
the counter spills. -/
def feltHit (f : Fin 16) (bin : Nat) (s : State) : State :=
  let x := s.felts[f]
  let old := binOf x.oldCount bin
  let s := if old = 0 then s
    else toBaked f bin old (updFelt f (fun x => { x with oldCount := setBin x.oldCount bin 0 }) s)
  let n := binOf x.count bin + 1
  updFelt f (fun x =>
    if 128 ≤ n then
      { x with count := setBin x.count bin (n - 128),
               spills := x.spills ++ [{ bin := bin, toB := x.activeB, weight := 128, before := false }] }
    else { x with count := setBin x.count bin n }) s

/-- A span with counts added, which stick (R237, R287). -/
def FeltSpan.add (hits outside clamp : Nat) (p : FeltSpan) : FeltSpan :=
  { p with hits := statAdd p.hits hits, outside := statAdd p.outside outside, rowClamp := statAdd p.rowClamp clamp }

/-- A change to the span that hits belong to: the one that accumulates, or for late hits of a snapshot the baked one, which under RUNNING
is part of the other as well (R285, R287). -/
def inSpan (late : Bool) (g : FeltSpan → FeltSpan) (x : Felt) : Felt :=
  { x with span := if !late || x.cfg.running then g x.span else x.span, baked := if late then g x.baked else x.baked }

/-- Statistics counts of a span advance (R237, R287): HITS, OUTSIDE, ROW_CLAMP. -/
def feltCount (f : Fin 16) (late : Bool) (hits outside clamp : Nat) (s : State) : State :=
  let p := if late then (s.felts[f]).baked else (s.felts[f]).span
  let s' := updFelt f (inSpan late (FeltSpan.add hits outside clamp)) s
  let s' := if statSticks p.hits hits then raiseFelt f 2 0 0 s' else s'
  let s' := if statSticks p.outside outside then raiseFelt f 2 1 0 s' else s'
  if statSticks p.rowClamp clamp then raiseFelt f 2 2 0 s' else s'

/-- A counter with a parity error is set to zero (R281): LOST stands in the state and in the record of the bake that covers the hits it
held, which for a counter of the old generation is the one under way. -/
def counterLost (f : Fin 16) (bin : Nat) (s : State) : State :=
  let old := binOf (s.felts[f]).oldCount bin != 0
  raiseFelt f 1 0 bin (updFelt f (fun x => inSpan old (fun p => { p with lostPart := true })
    { x with lost := true, oldCount := setBin x.oldCount bin 0, count := if old then x.count else setBin x.count bin 0 }) s)

/-- Counters of a felt found with a parity error (R281). -/
def feltParity (f : Fin 16) (bins : List Nat) (s : State) : State :=
  if (s.felts[f]).running then bins.foldl (fun s b => counterLost f b s) s else s

/-! ### Mapping (R274 to R276) -/

/-- Row of a code and whether it was clamped (R274). -/
def feltRow (c : FeltCfg) (code : Int) : Nat × Bool :=
  let r := (code - c.rowBase) / (2 ^ c.rowShift : Nat)
  if r < 0 then (0, true) else if 1023 < r then (1023, true) else (r.toNat, false)

/-- Column under FREE (R275). -/
def freeColumn (t : TS96) (origin period ncol : Nat) : Nat :=
  if period = 0 then 0 else (t.toNat + period - origin) % period * ncol / period

/-- References of a felt's sequencer (R276). -/
def feltRefs (x : Felt) (s : State) : List (TS96 × Nat × Bool) :=
  match getN s.seqs x.cfg.seq with
  | some q => q.refs
  | none => []

/-- The latest reference with T + START ≤ t among those known at an lc (R276). -/
def feltRef (x : Felt) (s : State) (t : TS96) (lc : Nat) : Option (TS96 × Bool) :=
  (feltRefs x s).foldl (fun best r =>
    if r.2.1 ≤ lc ∧ tsDiff r.1 t + x.cfg.start ≤ 0 then
      match best with
      | none => some (r.1, r.2.2)
      | some b => if tsDiff b.1 r.1 < 0 then some (r.1, r.2.2) else best
    else best) none

/-- Column of a sample, and whether a LATE trigger gives it (R275, R276); none where it lies outside. -/
def feltColumn (x : Felt) (s : State) (t : TS96) (lc : Nat) : Option (Nat × Bool) :=
  if x.cfg.map = 2 then some (freeColumn t x.cfg.origin x.cfg.period 2048, false)
  else match feltRef x s t lc with
    | none => none
    | some (r, late) =>
      let c := (tsDiff t r - x.cfg.start) / (x.cfg.colWidth : Int)
      if 0 ≤ c ∧ c ≤ 2047 then some (c.toNat, late) else none

/-- The lc at which sample n reaches the map stage (R276): 4,096 lc after the compute tiles. -/
def mapLc (n : Nat) : Nat := n / 40 + 4097

/-- One sample at the map stage of a channel felt (R274 to R278). -/
def mapSample (f : Fin 16) (n : Nat) (code : Int) (s : State) : State :=
  let x := s.felts[f]
  match feltColumn x s (tsArrival s n) (mapLc n) with
  | none => feltCount f false 0 1 0 s
  | some (c, late) =>
    let (r, clamped) := feltRow x.cfg code
    feltCount f false 1 0 (if clamped then 1 else 0) (feltHit f (r * 2048 + c)
      (updFelt f (fun x => { x with span := { x.span with latePart := x.span.latePart || late } }) s))

/-! ### The generation switch (R285, R287) -/

/-- Time between aging instants in samples (R283). -/
def ageSamples (x : Felt) (s : State) : Nat := nsToTicks s (x.cfg.ageMs * 10 ^ 6)

/-- What the switch fixes of the bake record's header (R287): identity, span, timestamps, EPOCH_CHANGED and CONFIG_GEN. -/
def bakeHeader (f : Fin 16) (s : State) : List Byte :=
  let x := s.felts[f]
  let b := x.bakeSample
  let changed := s.tb.moments.any fun m => decide (x.span.first < m ∧ m < b)
  pad 128 (le 2 0x0A00 ++ [BitVec.ofNat 8 f.val, BitVec.ofNat 8 (x.cfg.map + flag x.cfg.running 2 + flag x.activeB 3)]
    ++ le 4 x.bakeSeq.toNat ++ le 8 x.span.first ++ le 8 b ++ tsBytes (tsArrival s x.span.first) ++ tsBytes (tsArrival s b)
    ++ le 8 0 ++ le 8 0 ++ le 8 0 ++ le 8 0 ++ le 4 0 ++ [0, BitVec.ofNat 8 (flag changed 2)] ++ le 2 x.configGen.toNat)

/-- Under DELTA a new span begins at the bake sample; under RUNNING the span goes on (R287). -/
def nextSpan (x : Felt) : FeltSpan := if x.cfg.running then x.span else { FeltSpan.reset with first := x.bakeSample }

/-- QUAL of a channel felt's span (R287): every block of it. -/
def feltQual (f : Fin 16) (x : Felt) (s : State) : Byte :=
  if h : f.val < 8 then (if x.span.first < x.bakeSample then spanQual ⟨f.val, h⟩ x.span.first (x.bakeSample - 1) s else 0)
  else x.span.qual

/-- The counters switch generation when b reaches the map stage (R285). -/
def genSwitch (f : Fin 16) (s : State) : State :=
  let hdr := bakeHeader f s
  let qual := feltQual f s.felts[f] s
  updFelt f (fun x =>
    { x with bake := .flushing, bakeHdr := hdr, baked := { x.span with qual := qual }, span := nextSpan x, oldCount := x.count,
             count := [], activeB := !x.activeB, switchLc := lcNow s }) s

/-! ### Aging instants (R283, R284) -/

/-- The sample of the next aging instant, if the felt ages: one that was postponed is taken at its new sample first (R283, R284). -/
def nextAging (x : Felt) (s : State) : Option Nat :=
  if x.cfg.age = 0 then none
  else match x.ageDue with
    | some a => some a
    | none => some (x.switchAt + (x.agesTaken + x.agePending + 1) * ageSamples x s)

/-- Flush or merge runs, which postpones an aging instant; one postponed takes those that follow along until both have ended (R284). -/
def postpones (x : Felt) : Bool :=
  x.bake == .flushing || (x.bake == .clearing && x.cfg.running) || (decide (0 < x.agePending) && x.ageDue.isNone)

/-- An aging instant is postponed (R284); one that was due already waits anew. -/
def postpone (x : Felt) : Felt :=
  if x.ageDue.isSome then { x with ageDue := none } else { x with agePending := x.agePending + 1 }

/-- Postponed instants are taken at the first sample of the lc after flush and merge have ended (R284). -/
def ageResume (a : Nat) (x : Felt) : Felt := if 0 < x.agePending then { x with ageDue := some a } else x

/-- A spill after the sweep: at half weight, or not at all under CLEAR, where its hits predate the instant (R283). -/
def agedSpill (clear : Bool) (n : Nat) (b : Bool) (p : Spill) : Spill :=
  if p.before && p.toB == b then { p with weight := if clear then 0 else p.weight / 2 ^ n, before := false } else p

/-- The sweep of a buffer has passed all of it (R283). -/
def endSweep (x : Felt) : Felt :=
  match x.sweep with
  | some (b, n) =>
    { setBuf b (ageBins (x.cfg.age == 2) true n (bufOf x b)) x with
      sweep := none, spills := x.spills.map (agedSpill (x.cfg.age == 2) n b) }
  | none => x

/-- Aging instants taken at sample `a` (R283, R284): the counters act now, the buffer is swept, and spills queued for it predate
the instant. A sweep still under way has ended by then (log 100). -/
def takeAging (f : Fin 16) (a : Nat) (s : State) : State :=
  updFelt f (fun x =>
    let x := endSweep x
    let n := if x.ageDue.isSome then x.agePending else 1
    { x with count := ageBins (x.cfg.age == 2) false n x.count, sweep := some (x.activeB, n),
             spills := x.spills.map fun p => if p.toB == x.activeB then { p with before := true } else p,
             agesTaken := x.agesTaken + n, agePending := if x.ageDue.isSome then 0 else x.agePending, ageDue := none,
             span := { x.span with ageLast := some a, ageCount := x.span.ageCount + n } }) s

/-! ### Passing the map stage (R276, R283) -/

/-- One sample passes the map stage; a bake sample switches the generation first, and an aging instant that must wait is
postponed (R284, R285). -/
def passSample (f : Fin 16) (ch : Fin 8) (s : State) : State :=
  let n := (s.felts[f]).mapped
  let s := if (s.felts[f]).bake == .waiting && decide ((s.felts[f]).bakeSample ≤ n) then genSwitch f s else s
  let x := s.felts[f]
  let s := if x.running && postpones x && nextAging x s == some n then updFelt f postpone s else s
  let s := updFelt f (fun x => { x with mapped := n + 1 }) s
  if x.running && decide (x.switchAt ≤ n) then
    match samplesOf ch n n s with
    | code :: _ => mapSample f n code s
    | [] => s
  else s

/-- Samples pass the map stage up to sample `limit`, and no further than an aging instant that must be taken first. -/
def passUntil (f : Fin 16) (ch : Fin 8) (limit : Nat) : Nat → State → State
  | 0, s => s
  | fuel + 1, s =>
    let x := s.felts[f]
    if x.mapped < limit ∧ (nextAging x s ≠ some x.mapped ∨ !x.running ∨ postpones x) then
      passUntil f ch limit fuel (passSample f ch s)
    else s

/-- The first sample that has not reached the map stage of a channel (R276): samples do so 4,096 lc after the compute tiles. -/
def mapLimit (ch : Fin 8) (s : State) : Nat := 40 * ((s.slices[ch]).words - 4096)

/-- A word of a channel moves its felt's map stage on. -/
def feltWord (ch : Fin 8) (s : State) : State :=
  let f : Fin 16 := ⟨ch.val, by omega⟩
  passUntil f ch (mapLimit ch s) (mapLimit ch s - (s.felts[f]).mapped) s

/-! ### Spills and aging (R279, R283, R284) -/

/-- The oldest spill that the sweep does not hold back (R283): one whose hits follow the aging instant waits for it. -/
def nextSpill (x : Felt) : Option Spill :=
  x.spills.find? fun p => match x.sweep with
    | some (b, _) => p.before || p.toB != b
    | none => true

/-- The DRAM controller executes a spill (R279). -/
def feltSpill (f : Fin 16) (s : State) : State :=
  match nextSpill s.felts[f] with
  | some p => applyWeight f p.toB p.bin p.weight (updFelt f (fun x => { x with spills := x.spills.erase p }) s)
  | none => s

/-- FELT_SPILL (R279): DRAM controller applies a queued spill to a felt bin. -/
def execFeltSpill (f : Fin 16) (s : State) : Host.Outcome State Fault Refusal := whenLive s <| .next (feltSpill f s)

/-- LATENCY of the instance that feeds a spectral felt (R285, R334). -/
def serviceLat (f : Fin 16) (s : State) : Nat := match getN s.insts (f.val - 8) with | some i => i.outputLat | none => 0

/-- Where a felt stands: for a channel felt the first sample that has not passed the map stage, for a spectral one the first whose spectra
may still arrive (R283, R285). -/
def feltStage (f : Fin 16) (s : State) : Nat :=
  if f.val < 8 then (s.felts[f]).mapped else commitSample s - 40 * serviceLat f s

/-- An aging instant is reached: it is taken, or postponed (R283, R284). -/
def meetAging (f : Fin 16) (a : Nat) (s : State) : State :=
  if postpones s.felts[f] then updFelt f postpone s else takeAging f a s

/-- An aging instant arrives (R283, R284). -/
def agingInstant (f : Fin 16) (s : State) : State :=
  let x := s.felts[f]
  if x.running then
    match nextAging x s with
    | some a => if a ≤ feltStage f s then meetAging f a s else s
    | none => s
  else s

/-- AGING_INSTANT (R283): an aging instant comes; a channel felt then passes on the samples that waited behind it. -/
def execAgingInstant (f : Fin 16) (s : State) : Host.Outcome State Fault Refusal := whenLive s <|
  let s := agingInstant f s
  .next (if h : f.val < 8 then feltWord ⟨f.val, h⟩ s else s)

/-- AGING_SWEEP_DONE (R283): the sweep of a buffer is complete. -/
def execAgingSweepDone (f : Fin 16) (s : State) : Host.Outcome State Fault Refusal := whenLive s <|
  if (s.felts[f]).sweep.isSome then .next (updFelt f endSweep s) else .next s

/-! ### SET_FELT (R273) -/

/-- The felt's clear begins (R273): accumulation stops, buffers, counters, counts, SAT and LOST are cleared. -/
def startClear (f : Fin 16) (cfg : FeltCfg) (s : State) : State :=
  updFelt f (fun x => { Felt.reset with cfg := cfg, configGen := x.configGen, clearing := true, activeB := x.activeB,
                                        mapped := x.mapped }) s

/-- SET_FELT (R273). -/
def setFelt (c : Call) (s : State) : Reply :=
  let u := item c.block
  match headerFault 0x0015 15 c with
  | some r => r
  | none =>
    if h : u < 16 then
      match parseFelt u c.block with
      | .error d => refuse stInvalid d
      | .ok cfg =>
        if (s.felts[(⟨u, h⟩ : Fin 16)]).bake != .idle then refuse stBusy 0
        else .start (updFelt ⟨u, h⟩ (fun x => { x with configGen := x.configGen + 1 }) (startClear ⟨u, h⟩ cfg s)) (.wait u) []
    else refuse stInvalid 0xFF

/-- Dependencies of a felt's item (R478): its sequencer where MAP is TRIGGERED. -/
def feltDeps (c : Call) : List (Nat × Nat) := if fld c.block 0 = 1 then [(0x0012, fld c.block 1)] else []

/-- SET_FELT (R273): Command that stops, clears and reconfigures one felt. -/
def execSetFelt (o : Origin) (block : List Byte) (s : State) : Host.Outcome State Fault Refusal := whenLive s <|
  .next (runCmd o 0x0015 block feltDeps setFelt s)

/-- Every command that waits for a unit completes. -/
def finishWaits (op key : Nat) (result : List Byte) : Nat → State → State
  | 0, s => s
  | fuel + 1, s =>
    match findWait op key s with
    | some (n, tag) => finishWaits op key result fuel (finish n tag stSuccess 0 result s)
    | none => s

/-- The clear completes (R273): the switch sample follows and the command completes. -/
def feltClearDone (f : Fin 16) (s : State) : State :=
  if (s.felts[f]).clearing then
    let n := nextSample s
    finishWaits 0x0015 f.val (le 8 n) 512 (updFelt f (fun x =>
      { x with clearing := false, running := x.cfg.map != 0, switchAt := n, span := { x.span with first := n } }) s)
  else s

/-- FELT_CLEAR_DONE (R273): Felt clear completes and accumulation starts at the switch sample. -/
def execFeltClearDone (f : Fin 16) (s : State) : Host.Outcome State Fault Refusal := whenLive s <|
  .next (feltClearDone f s)

/-! ### BAKE (R285 to R287) -/

/-- Length of a bake record (R287). -/
def bakeBytes : Nat := 8388736

/-- BAKE (R285, R286). -/
def bakeCmd (c : Call) (s : State) : Reply :=
  match (if h : arg1 c 0x18 < 16 then some (⟨arg1 c 0x18, h⟩ : Fin 16) else none) with
  | none => refuse stInvalid 0x18
  | some f =>
    match destFault c bakeBytes with
    | some r => r
    | none =>
      if (s.felts[f]).cfg.map = 0 then refuse stInvalid 0x18
      else if (s.felts[f]).bake != .idle || (s.felts[f]).clearing then refuse stBusy 0
      else
        let b := nextSample s
        let s := updFelt f (fun x => { x with bake := .waiting, bakeSample := b, bakeSeq := x.bakeSeq + 1 }) s
        .start s (.bake f.val (paramAddr c.desc)) (le 4 (s.felts[f]).bakeSeq.toNat ++ le 4 0 ++ le 8 b)

/-- BAKE (R285): Command that snapshots a felt at the bake sample and copies the baked buffer when final. -/
def execBake (o : Origin) (s : State) : Host.Outcome State Fault Refusal := whenLive s <|
  .next (runCmd o 0x0030 [] noDeps bakeCmd s)

/-- A spectral felt to which no spectrum stamped at or after b has come switches once all before b have arrived (R285). -/
def lateSwitch (f : Fin 16) (s : State) : State :=
  let x := s.felts[f]
  if 8 ≤ f.val && x.bake == .waiting && decide (x.bakeSample ≤ feltStage f s) then genSwitch f s else s

/-- Where postponed aging instants are taken once flush and merge have ended (R284). -/
def resumeSample (f : Fin 16) (s : State) : Nat := if h : f.val < 8 then mapLimit ⟨f.val, h⟩ s else nextSample s

/-- The flush is complete 32,768 lc after the switch (R285): every residue is in the baked buffer. -/
def bakeFlushDone (f : Fin 16) (s : State) : State :=
  let s := lateSwitch f s
  let x := s.felts[f]
  if x.bake == .flushing && decide (x.switchLc + 32768 ≤ lcNow s) then
    let s := x.oldCount.foldl (fun s r => toBaked f r.1 r.2 s) s
    updFelt f (fun x => (if x.cfg.running then id else ageResume (resumeSample f s)) { x with oldCount := [], bake := .copying }) s
  else s

/-- BAKE_FLUSH_DONE (R285): Residue flush completes 32,768 lc after the generation switch. -/
def execBakeFlushDone (f : Fin 16) (s : State) : Host.Outcome State Fault Refusal := whenLive s <|
  .next (bakeFlushDone f s)

/-- The latency of the service that feeds a spectral felt has passed after b (R285). -/
def latencyPassed (f : Fin 16) (s : State) : Bool :=
  decide (f.val < 8) || decide ((s.felts[f]).bakeSample / 40 + serviceLat f s ≤ lcNow s)

/-- The baked buffer is final (R285). -/
def bakeFinal (f : Fin 16) (s : State) : Bool :=
  let x := s.felts[f]
  x.bake == .copying && !(x.spills.any fun p => p.toB != x.activeB)
    && (match x.sweep with | some (b, _) => b == x.activeB | none => true) && latencyPassed f s

/-- The counts of the baked span in the record's header (R287). -/
def bakeCounts (stuck : Bool) (p : FeltSpan) (hdr : List Byte) : List Byte :=
  patch hdr 0x30 (le 8 p.hits ++ le 8 p.outside ++ le 8 p.rowClamp ++ le 8 (p.ageLast.getD (2 ^ 64 - 1)) ++ le 4 (stick 32 p.ageCount)
    ++ [p.qual, (hdr.getD 0x55 0) ||| BitVec.ofNat 8 (flag stuck 0 + flag p.lostPart 1 + flag p.latePart 3)])

/-- The bake record (R287). -/
def bakeRecord (f : Fin 16) (s : State) : List Byte :=
  let x := s.felts[f]
  let bins := bufOf x (!x.activeB)
  let stuck := bins.any fun b => b.2 == binMax
  patch (bakeCounts stuck x.baked x.bakeHdr) 0x7C (le 4 1) ++ (List.range 2097152).flatMap fun i => le 4 (binOf bins i)

/-- The BAKE that waits for a felt's copy. -/
def findBake (f : Nat) (s : State) : Option (Fin 64 × Fetched × Nat) :=
  (List.finRange 64).findSome? fun n =>
    s.hif.qps[n].fetched.findSome? fun g => match g.xfer with
      | some (.bake k addr) => if k = f then some (n, g, addr) else none
      | _ => none

/-- The copy has been written (R286): the completion is posted and the cycle goes on to merge and clear. -/
def bakeCopyDone (f : Fin 16) (s : State) : State :=
  if bakeFinal f s && dma s then
    let done := updFelt f (fun x => { x with bake := .clearing }) s
    match findBake f.val s with
    | some (n, g, addr) => finish n g.tag stSuccess 0 g.result (hostWrite addr (bakeRecord f s) done)
    | none => done
  else s

/-- BAKE_COPY_DONE (R286): Bake record copy finishes and the BAKE completion is posted. Its reads of the bins found `ecc` (R239). -/
def execBakeCopyDone (r : UnitRead 16) (s : State) : Host.Outcome State Fault Refusal := whenLive s <|
  .next (bakeCopyDone r.unit (scrubbed r.ecc s))

/-- Merge under RUNNING and clear are complete (R286). -/
def bakeCycleEnd (f : Fin 16) (s : State) : State :=
  let x := s.felts[f]
  if x.bake == .clearing then
    let b := !x.activeB
    let s := if x.cfg.running then (bufOf x b).foldl (fun s r => applyWeight f x.activeB r.1 r.2 s) s else s
    updFelt f (fun x => (if x.cfg.running then ageResume (resumeSample f s) else id) { setBuf b [] x with bake := .idle }) s
  else s

/-- BAKE_CYCLE_END (R286): Merge and clear of the baked buffer complete and BAKE_BUSY clears. -/
def execBakeCycleEnd (f : Fin 16) (s : State) : Host.Outcome State Fault Refusal := whenLive s <|
  .next (bakeCycleEnd f s)

end Sys2Proof.Machine
end

