-- ==== Sys2Proof/Machine/Masks.lean ====
section
/-!
DEFINITION. Mask testing (R288 to R299): regions and limits, columns, the test of a channel word, actions, stops, episodes,
SET_MASK and its raster.
-/
namespace Sys2Proof.Machine

/-- One mask changed. -/
def updMask (m : Fin 64) (f : Mask → Mask) (s : State) : State := { s with masks := upd s.masks m f }

/-- MK_CHn or MK_SFn of the comparator `source` (R302, R519): cause 0 VIOL_START, 1 VIOL_END, 2 STOP, 3 RELOAD, 4 OVF. -/
def raiseMask (m : Fin 64) (source cause which count : Nat) (ts : TS96) (s : State) : State :=
  raise (srcId 0xB0 source) (if cause = 2 ∨ cause = 3 then sevWarning else sevNotice) ts
    ([BitVec.ofNat 8 m.val, BitVec.ofNat 8 cause, BitVec.ofNat 8 which, 0] ++ le 4 count) s

/-! ### Limits (R290) -/

/-- Edges of a polygon. -/
def polyEdges (r : Region) : List ((Nat × Int) × (Nat × Int)) :=
  match r.vertices with
  | [] => []
  | v :: t => (v :: t).zip (t ++ [v])

/-- Points at which an edge meets the line at X = x (in 1/256 column). -/
def edgePoints (x : Nat) (e : (Nat × Int) × (Nat × Int)) : List Rat :=
  let (a, b) := e
  if a.1 = b.1 then (if a.1 = x then [(a.2 : Rat), (b.2 : Rat)] else [])
  else if min a.1 b.1 ≤ x ∧ x ≤ max a.1 b.1 then
    [(a.2 : Rat) + ((x : Rat) - a.1) * ((b.2 : Rat) - a.2) / ((b.1 : Rat) - a.1)]
  else []

/-- A value put into a rising list without repeats. -/
def insertRat (y : Rat) : List Rat → List Rat
  | [] => [y]
  | z :: t => if y < z then y :: z :: t else if y = z then z :: t else z :: insertRat y t

/-- The points at which a polygon's boundary meets the centre line of column c. -/
def linePoints (r : Region) (c : Nat) : List Rat :=
  ((polyEdges r).flatMap (edgePoints (256 * c + 128))).foldl (fun acc y => insertRat y acc) []

/-- The open stretch between two neighbouring points of the line belongs to the closed polygon: an edge runs along it, or an odd
number of edges lies above it. -/
def stretchInside (r : Region) (x : Nat) (lo hi : Rat) : Bool :=
  let along := (polyEdges r).any fun e =>
    e.1.1 = x ∧ e.2.1 = x ∧ (min e.1.2 e.2.2 : Int) ≤ lo ∧ hi ≤ (max e.1.2 e.2.2 : Int)
  let above := (polyEdges r).filter fun e =>
    (decide (e.1.1 ≤ x ∧ x < e.2.1) || decide (e.2.1 ≤ x ∧ x < e.1.1))
      && (edgePoints x e).any fun y => decide (hi ≤ y)
  along || above.length % 2 == 1

/-- Stretches between neighbouring points that lie inside. -/
def insideCount (r : Region) (x : Nat) : List Rat → Nat
  | a :: b :: t => (if stretchInside r x a b then 1 else 0) + insideCount r x (b :: t)
  | _ => 0

/-- Closed intervals in which the polygon meets the centre line of column c (R290). -/
def intervalCount (r : Region) (c : Nat) : Nat :=
  let ps := linePoints r c
  ps.length - insideCount r (256 * c + 128) ps

/-- The limits of a column as the ends of its interval; none where it is uncovered (R290). Comparison values between LO and HI
are those between the ends. -/
def regionLimits (r : Region) (c : Nat) : Option (Rat × Rat) :=
  match linePoints r c with
  | [] => none
  | a :: t => some (a, (a :: t).getLast?.getD a)

/-- The first region and column that R290 refuses: met in two or more intervals. -/
def badColumn (c : MaskCfg) : Option (Nat × Nat) :=
  c.regions.zipIdx.findSome? fun r =>
    ((List.range c.ncol).find? fun k => decide (2 ≤ intervalCount r.1 k)).map fun k => (r.2, k)

/-! ### Columns and tests (R291, R292) -/

/-- A firing may be a reference for sample n (R174): SET_TU has not written the unit since, or the sample lies before that. -/
def refAllowedAt (x : Mask) (s : State) (n : Nat) (f : TS96) : Bool :=
  x.refFrom.all fun r => decide (r.1 ≠ x.cfg.refTu ∨ r.2 ≤ triggerSample s f ∨ n < r.2)

/-- The latest known firing that a FIRING mask may take as reference for sample n at the instant t (R174, R291). -/
def maskRef (x : Mask) (s : State) (n : Nat) (t : TS96) : Option TS96 :=
  match getN s.tus x.cfg.refTu with
  | none => none
  | some u => u.known.foldl (fun best f =>
      if tsDiff f t + (x.cfg.start : Int) ≤ 0 ∧ refAllowedAt x s n f then
        match best with
        | none => some f
        | some b => if tsDiff b f < 0 then some f else best
      else best) none

/-- Column of channel sample n (R291). -/
def maskColumn (x : Mask) (s : State) (n : Nat) : Option Nat :=
  let t := tsArrival s n
  if x.cfg.map = 0 then some (freeColumn t x.cfg.origin x.cfg.period x.cfg.ncol)
  else if x.cfg.map = 1 then
    match maskRef x s n t with
    | some r =>
      let c := ((tsDiff t r - x.cfg.start) / (x.cfg.colWidth : Int)).toNat
      if c < x.cfg.ncol then some c else none
    | none => none
  else none

/-- A value in column c is tested: the column is covered, and not under reload (R292, R299). -/
def maskTested (x : Mask) (c : Nat) : Bool :=
  !x.reloading.contains c && x.cfg.regions.any fun r => (regionLimits r c).isSome

/-- A value in column c violates the mask (R292). -/
def maskViolates (x : Mask) (c : Nat) (v : Int) : Bool :=
  x.cfg.regions.any fun r => match regionLimits r c with
    | some (lo, hi) => if r.outside then decide ((v : Rat) < lo ∨ hi < (v : Rat)) else decide (lo ≤ (v : Rat) ∧ (v : Rat) ≤ hi)
    | none => false

/-! ### Counts, episodes and actions (R293, R298) -/

/-- 2^21 lc: the quiet time between episodes (R298). -/
def episodeGap : Nat := 2 ^ 21

/-- Tested and violating values counted under COUNT (R237, R293, R301). -/
def maskCount (m : Fin 64) (tested viol : Nat) (s : State) : State :=
  let x := s.masks[m]
  if x.cfg.actions.getLsbD 0 then
    let a := statSticks x.tested tested
    let b := statSticks x.viol viol
    let s := updMask m (fun x => { x with tested := statAdd x.tested tested, viol := statAdd x.viol viol,
                                          testedOvf := x.testedOvf || a, violOvf := x.violOvf || b }) s
    let s := if a then raiseMask m x.cfg.source 4 0 0 (tsNow s) s else s
    if b then raiseMask m x.cfg.source 4 1 0 (tsNow s) s else s
  else s

/-- Violating values in the lc `lc`, the first at T (R298): an episode starts or goes on. -/
def maskEpisode (m : Fin 64) (lc n : Nat) (t : TS96) (s : State) : State :=
  let x := s.masks[m]
  let starts := match x.lastViol with
    | none => true
    | some l => decide (l + episodeGap ≤ lc)
  let s := updMask m (fun x => { x with lastViol := some lc, violNow := true,
                                        episode := stick 32 ((if starts then 0 else x.episode) + n) }) s
  if starts && x.cfg.actions.getLsbD 3 then raiseMask m x.cfg.source 0 0 0 t s else s

/-- CAPTURE: one trigger to each sequencer in CAP_AS (R293); `delay` is the mask's decision delay. -/
def maskCapture (m : Fin 64) (c : MaskCfg) (delay : Nat) (t : TS96) (s : State) : State :=
  if c.actions.getLsbD 1 then
    (maskAs c.capAs.toNat).foldl (fun s a =>
      if (s.seqs[a]).configured then
        pushInstant a (dueAt s t delay) t (triggerSample s t) (.capture m.val) PlaceFlags.none none s
      else s) s
  else s

/-- STOP starts with the first violating sample v (R293, R294): it commits 58 lc after v was taken. -/
def maskStopStart (m : Fin 64) (c : MaskCfg) (v : Nat) (t : TS96) (s : State) : State :=
  if c.actions.getLsbD 2 && (s.masks[m]).stop.isNone then
    raiseMask m c.source 2 0 0 t (updMask m (fun x => { x with stop := some (v, v / 40 + 18, c.stopAs) }) s)
  else s

/-- Everything that follows from the violating samples of one word (R293, R298); `late` where they lie before the switch sample, at which
counters and episode are cleared (R292). -/
def maskActions (m : Fin 64) (c : MaskCfg) (late : Bool) (viols : List Nat) (s : State) : State :=
  match viols with
  | [] => s
  | v :: _ =>
    let t := tsArrival s v
    let s := updMask m (fun x => { x with violations := viols.reverse.map (·, c.source) ++ x.violations }) s
    maskStopStart m c v t (maskCapture m c 48 t (if late then s else maskEpisode m (v / 40) viols.length t s))

/-! ### A channel word (R292) -/

/-- Settings whose limits are loaded take effect at their switch sample (R292, R298, R301). -/
def maskSwitch (m : Fin 64) (n : Nat) (s : State) : State :=
  match (s.masks[m]).next with
  | some (c, w) =>
    if w ≤ n then
      updMask m (fun x => { x with cfg := c, prev := x.cfg, configured := true, next := none, switchAt := w, tested := 0, viol := 0,
                                   violNow := false, episode := 0, lastViol := none, reloading := [] }) s
    else s
  | none => s

/-- Channel masks test nothing while calibration signals are injected (R292). -/
def masksPaused (s : State) : Bool := s.proof.active && decide (3 ≤ s.proof.step ∧ s.proof.step ≤ 5)

/-- The mask as it stands for what comes before its switch sample (R292). -/
def oldMask (x : Mask) : Mask := { x with cfg := x.prev, reloading := [] }

/-- A word of samples from `x0` on through one channel mask as it stands for them (R292, R293). -/
def maskWord (m : Fin 64) (x : Mask) (late : Bool) (x0 : Nat) (codes : List Int) (s : State) : State :=
  let cols := codes.zipIdx.filterMap fun c =>
    (maskColumn x s (x0 + c.2)).bind fun k => if maskTested x k then some (k, 16 * c.1, x0 + c.2) else none
  let viols := (cols.filter fun c => maskViolates x c.1 c.2.1).map fun c => c.2.2
  maskActions m x.cfg late viols (if late then s else maskCount m cols.length viols.length s)

/-- A word of a channel through every mask of its comparator (R288, R292). -/
def masksWord (ch : Fin 8) (x0 : Nat) (codes : List Int) (s : State) : State :=
  forAll 64 (fun m s =>
    let s := maskSwitch m x0 s
    let late := decide (x0 < (s.masks[m]).switchAt)
    let x := if late then oldMask s.masks[m] else s.masks[m]
    if x.cfg.enable && x.cfg.source == ch.val && !masksPaused s then maskWord m x late x0 codes s else s) s

/-! ### Stops (R294 to R296) -/

/-- Stops that commit in an lc on a sequencer, from every mask (R294): the earliest v and the lowest mask. -/
def jointStop (s : State) (lc : Nat) (a : Fin 4) : Option (Nat × Nat) :=
  (List.finRange 64).foldl (fun best m =>
    match (s.masks[m]).stop with
    | some (v, c, as) =>
      if c = lc ∧ as.getLsbD a.val then
        match best with
        | none => some (v, m.val)
        | some (w, k) => some (min v w, min k m.val)
      else best
    | none => best) none

/-- The sequencer's segment that holds v (R295). -/
def segmentHolding (s : State) (a v : Nat) : Option Segment :=
  s.mem.segs.find? fun g =>
    g.sequencer == a && g.era == s.proof.era && !g.flags.getLsbD 3 && decide (g.first ≤ v ∧ v ≤ g.last)

/-- S0 (R295): the later of the arm sample and the sample after the most recent segment before v. -/
def stopFrom (s : State) (a : Fin 4) (v : Nat) : Nat :=
  let arm := (s.seqs[a]).armSample.getD 0
  ((s.mem.segs.filter fun g => g.sequencer == a.val && g.era == s.proof.era && !g.flags.getLsbD 3
      && decide (g.last < v ∧ arm ≤ g.last)).map fun g => g.last + 1).foldl max arm

/-- The first sample after v of a segment that is open at c, or that another stop has closed at c (R295, R296). -/
def openAfter (s : State) (a : Fin 4) (v : Nat) : Option Nat :=
  let q := s.seqs[a]
  ((if armed q then q.openSeg else q.lastSeg).bind (findSeg s)).bind fun g => if v < g.first then some g.first else none

/-- STOPPED set in a segment's MASK_RESULT (R295). -/
def setStopped (seq : Nat) (s : State) : State := updSeg seq (fun g => { g with maskResult := g.maskResult ||| 2#16 }) s

/-- A stop segment (R295), where R212 allows it. `next` is the first sample of a segment that was open at c. -/
def stopSegment (a : Fin 4) (v n : Nat) (next : Option Nat) (s : State) : State :=
  let q := s.seqs[a]
  let pre := min q.cfg.p (v - stopFrom s a v)
  let last := match next with
    | some f => min (n - 1) (f - 1)
    | none => n - 1
  let short := decide (n - v < q.cfg.l - q.cfg.p)
  let cut : Cut := { t := tsArrival s v, kt := v, first := v - pre, last := last, ring := false,
                     flags := (if short then fTruncated else 0) + (if pre < q.cfg.p then fPartialPre else 0) }
  match slotBlocked s.mem s.mem.next with
  | some k => raiseSlot a.val k (fullMissed a s)
  | none => match cutDecision (s.mem.overwrite.getLsbD a.val) (cutFits a cut s) s.mem a.val with
    | none => missCut a s
    | some l =>
      let s := overwriteSegs a l s
      let (g, s) := makeSegment a cut (s.seqs[a]).counts s
      let s := updAs a (fun q => { q with segments := statAdd q.segments 1, gapCount := 0,
                                          counts := { SeqCounts.zero with afterStop := q.counts.afterStop } }) s
      raiseCut a g (setStopped g.seq (addSegment { g with closed := true } s))

/-- The segment that holds v is marked, or a stop segment is cut (R295). -/
def keepStopped (v n : Nat) (next : Option Nat) (a : Fin 4) (s : State) : State :=
  match segmentHolding s a.val v with
  | some g => setStopped g.seq s
  | none => if (s.seqs[a]).armSample.any fun m => decide (m ≤ v) then stopSegment a v n next s else s

/-- A mask stop commits on one sequencer at stop sample n (R197, R295). Where another stop has committed on it in that lc, they
are one stop, and v is kept all the same (R296). -/
def maskStopOn (v n low : Nat) (a : Fin 4) (s : State) : State :=
  let q := s.seqs[a]
  if armed q then keepStopped v n (openAfter s a v) a (stopNow a n 4 low s)
  else if q.stopAt == some n then holdStop a 4 low (keepStopped v n (openAfter s a v) a s)
  else s

/-- A mask's stop commits (R294, R296): stops of several masks in one lc on one sequencer make one stop. -/
def maskStop (m : Fin 64) (s : State) : State :=
  match (s.masks[m]).stop with
  | some (_, c, as) =>
    if c ≤ lcNow s then
      let s' := (maskAs as.toNat).foldl (fun t a =>
        match jointStop s c a with
        | some (v, low) => maskStopOn v (40 * c) low a t
        | none => t) s
      updMask m (fun x => { x with stop := none }) s'
    else s
  | none => s

/-- MASK_STOP (R294): Stop from a mask violation commits 58 lc after v, cutting a stop segment. -/
def execMaskStop (m : Fin 64) (s : State) : Host.Outcome State Fault Refusal := whenLive s <| .next (maskStop m s)

/-- An episode ends once 2^21 lc pass without a violating value (R298). -/
def execViolEpisodeEnd (m : Fin 64) (s : State) : Host.Outcome State Fault Refusal := whenLive s <|
  let x := s.masks[m]
  match x.lastViol with
  | some l =>
    if x.violNow && decide (l + episodeGap ≤ lcNow s) then
      let s := updMask m (fun x => { x with violNow := false }) s
      .next (if x.cfg.actions.getLsbD 3 then raiseMask m x.cfg.source 1 0 x.episode (tsNow s) s else s)
    else .next s
  | none => .next s

/-! ### SET_MASK (R288 to R290) -/

/-- Settings that a mask has or will have. -/
def maskSettled (x : Mask) : MaskCfg :=
  match x.raster, x.next with
  | some c, _ => c
  | none, some (c, _) => c
  | none, none => x.cfg

/-- Enabled masks of a comparator other than `m`. -/
def othersOn (s : State) (m : Fin 64) (source : Nat) : List MaskCfg :=
  ((List.finRange 64).filter fun k => k ≠ m).filterMap fun k =>
    let c := maskSettled s.masks[k]
    if c.enable && c.source == source then some c else none

/-- Region-columns of a mask (R288). -/
def regionColumns (c : MaskCfg) : Nat := c.ncol * c.regions.length

/-- The comparator takes the mask (R288): at most 8 enabled masks and 262,144 region-columns. -/
def comparatorFits (s : State) (m : Fin 64) (c : MaskCfg) : Bool :=
  let o := othersOn s m c.source
  !c.enable || (decide (o.length < 8) && decide ((o.map regionColumns).sum + regionColumns c ≤ 262144))

/-- REF_TU of a FIRING mask (R289): its sources are channels or AUX inputs only. -/
def refTuAllowed (c : TuCfg) : Bool :=
  c.type == .pattern || (c.type != .sequence && c.type != .filtered && c.type != .spectral && !isEventSource c.source)

/-- The unit that a mask names as REF_TU is allowed; one that SET_TU has not written has no type or source yet (log 42). -/
def maskRefOk (s : State) (c : MaskCfg) : Bool :=
  c.map != 1 || (match getN s.tus c.refTu with
    | some u => refTuAllowed (unitCfg u)
    | none => false)

/-- SET_MASK at its commit (R289): ranges, REF_TU and the comparator; the raster then decides the polygons (R290). -/
def setMask (c : Call) (s : State) : Reply :=
  let u := item c.block
  match headerFault 0x0016 17 c with
  | some r => r
  | none =>
    if h : u < 64 then
      let m : Fin 64 := ⟨u, h⟩
      match parseMask c.block with
      | .error d => refuse stInvalid d
      | .ok cfg =>
        if !comparatorFits s m cfg then .refuse stCapacity 0x07 [] u
        else if !maskRefOk s cfg then refuse stInvalid 8
        else .start (updMask m (fun x => { x with raster := some cfg }) s) (.wait u) []
    else refuse stInvalid 0xFF

/-- Dependencies of a mask's item (R478): REF_TU under FIRING, the sequencers it names, and the instance of a spectral mask. -/
def maskDeps (c : Call) : List (Nat × Nat) :=
  (if fld c.block 2 = 1 then [(0x0011, fld c.block 8)] else [])
    ++ ((List.range 4).filter fun a => (bit (fld c.block 13) 1 && bit (fld c.block 14) a)
        || (bit (fld c.block 13) 2 && bit (fld c.block 15) a)).map (fun a => (0x0012, a))
    ++ (if 8 ≤ fld c.block 1 then [(0x0017, fld c.block 1 - 8)] else [])

/-- SET_MASK (R289): Command that writes one mask and hands its polygons to rasterisation. -/
def execSetMask (o : Origin) (block : List Byte) (s : State) : Host.Outcome State Fault Refusal := whenLive s <|
  .next (runCmd o 0x0016 block maskDeps setMask s)

/-- MASK_RASTER on a reserve engine is paused while the engines are throttled; with no reserve free the control complex rasters (R315,
R332). -/
def rasterPaused (s : State) : Bool := s.eng.throttled && s.eng.reserve.toList.any (·.isSome)

/-- The raster is done (R290): a polygon that meets a centre line twice is refused; else the limits are loaded and the command
completes with the switch sample. -/
def maskRasterDone (m : Fin 64) (s : State) : State :=
  match if rasterPaused s then none else (s.masks[m]).raster with
  | none => s
  | some cfg =>
    match badColumn cfg with
    | some (r, k) =>
      let s := settleMask m.val false (updMask m (fun x => { x with raster := none }) s)
      match findWait 0x0016 m.val s with
      | some (n, tag) => finish n tag stInvalid 0xFF ([BitVec.ofNat 8 r, 0] ++ le 2 k) s
      | none => s
    | none =>
      let n := nextSample s
      let s := settleMask m.val true (updMask m (fun x => { x with raster := none, next := some (cfg, n) }) s)
      finishWaits 0x0016 m.val (le 8 n) 512 s

/-- MASK_RASTER_DONE (R332): Mask rasterisation completes and the limits load. -/
def execMaskRasterDone (m : Fin 64) (s : State) : Host.Outcome State Fault Refusal := whenLive s <|
  .next (maskRasterDone m s)

/-! ### Limit memory (R299) -/

/-- An uncorrectable error in a region-column (R299): values of the column are not tested until the reload. -/
def execMaskLimitError (m : Fin 64) (column : Nat) (s : State) : Host.Outcome State Fault Refusal := whenLive s <|
  if (s.masks[m]).cfg.enable && decide (column < (s.masks[m]).cfg.ncol) then
    .next (updMask m (fun x => { x with reloading := column :: x.reloading }) s)
  else .next s

/-- The limits of a comparator are reloaded (R299): every mask of it with a column in error is tested there again and reports it. -/
def reloadComparator (source : Nat) (s : State) : State :=
  forAll 64 (fun k s =>
    if (s.masks[k]).cfg.source = source ∧ (s.masks[k]).reloading ≠ [] then
      raiseMask k source 3 0 0 (tsNow s) (updMask k (fun x => { x with reloading := [] }) s)
    else s) s

/-- MASK_LIMIT_RELOAD (R299): the limits of the comparator of a mask in error are reloaded. -/
def execMaskLimitReload (m : Fin 64) (s : State) : Host.Outcome State Fault Refusal := whenLive s <|
  .next (if (s.masks[m]).reloading.isEmpty then s else reloadComparator (s.masks[m]).cfg.source s)

/-! ### MASK_RESULT (R297) -/

/-- A channel mask of a segment's channels that a sample of it violated: for a ring-resident segment, of any block it touches. The
violation bears the mask's channel as it was then, since violation bits travel with the samples. -/
def violatedIn (g : Segment) (x : Mask) : Bool :=
  x.violations.any fun v => g.channels.getLsbD v.2 &&
    if g.ring then decide (g.first / 4096 ≤ v.1 / 4096 ∧ v.1 / 4096 ≤ g.last / 4096)
    else decide (g.first ≤ v.1 ∧ v.1 ≤ g.last)

/-- MASK_RESULT of a segment when it is complete (R219, R224, R297); STOPPED stands already. -/
def maskResultOf (g : Segment) (s : State) : BitVec 16 :=
  let l := (List.finRange 64).filter fun m => violatedIn g s.masks[m]
  match l with
  | [] => g.maskResult
  | m :: _ => g.maskResult ||| BitVec.ofNat 16 (1 + m.val * 4 + l.length * 256)

end Sys2Proof.Machine
end

