-- ==== Sys2Proof/Machine/Reductions.lean ====
section
/-!
DEFINITION. The reduction bank (R226 to R232): lane values, records, the interval grid, diagnostic spans and REDUCTION streams.
-/
namespace Sys2Proof.Machine

/-! ### Values (R228, R231) -/

/-- Integer square root by bits from 2^31 down. -/
def isqrt (n : Nat) : Nat :=
  (List.range 32).foldl (fun r i => let c := r + 2 ^ (31 - i); if c * c ≤ n then c else r) 0

/-- √(Σ code² / count) in units of 1/256 LSB, to the nearest (R228). -/
def rmsValue (l : List Int) : Nat :=
  (isqrt (4 * 65536 * (l.map fun c => c.natAbs * c.natAbs).sum / l.length) + 1) / 2

/-- The smallest code that at least `k` codes do not exceed (R228). -/
def siftedValue (l : List Int) (k : Nat) : Int :=
  match (List.range 4096).find? fun (i : Nat) => decide (k ≤ (l.filter fun c => decide (c ≤ (i : Int) - 2048)).length) with
  | some i => (i : Int) - 2048
  | none => 2047

/-- Smallest and largest code of a list. -/
def minCode (l : List Int) : Int := l.foldl min 2047
def maxCode (l : List Int) : Int := l.foldl max (-2048)

/-- VALUE[23:0] of an interval's codes, oldest first (R228, R231). -/
def laneValue (l : RedLane) (codes : List Int) : BitVec 24 :=
  match l.mode with
  | .minmax => BitVec.ofNat 24 (unsigned 12 (minCode codes) + 4096 * unsigned 12 (maxCode codes))
  | .decimate => BitVec.ofInt 24 (codes.headD 0)
  | .mean => BitVec.ofInt 24 (codes.sum / (2 ^ l.shift : Nat))
  | .rms => BitVec.ofNat 24 (rmsValue codes)
  | .sifted => BitVec.ofInt 24 (siftedValue codes (ceilDiv (l.rank * codes.length) 65536))
  | .off => 0

/-! ### Records and streams (R229, R365) -/

/-- One bank changed. -/
def updRed (ch : Fin 8) (f : RedBank → RedBank) (s : State) : State := { s with reds := upd s.reds ch f }

/-- Header of a REDUCTION group; COUNT is filled in as the group grows (R365). -/
def redHeader (ch lane count : Nat) : List Byte :=
  pad 32 (le 2 0x0200 ++ [BitVec.ofNat 8 ch, BitVec.ofNat 8 lane] ++ le 2 count)

/-- The group of a stream closes when it holds 1,024 records, or before a record produced 1 ms or more after its first
(R365). -/
def redGroupDue (st : Stream) (s : State) : Bool :=
  decide (st.groupCount = 1024) || (decide (0 < st.groupCount)
    && decide (st.groupAt + nsToTicks s (10 ^ 6) ≤ commitSample s))

/-- A record goes to one REDUCTION stream (R233, R365). -/
def streamRecord (r : RedRec) (i : Fin 64) (st : Stream) (s : State) : State :=
  if st.lane == r.lane && decide (st.first ≤ r.first) then
    let s := if redGroupDue st s then updStream i closeGroup s else s
    let s := pushGrouped i (redHeader st.source st.lane 0) (redBytes false r) (tsOf s r.first) r.count s
    updStream i (fun st => if st.group.isEmpty then st else { st with group := patch st.group 4 (le 2 st.groupCount) }) s
  else s

/-- A record is produced: kept for segments, and sent to the lane's streams (R229, R230). Its QUAL is that of the blocks of its
interval. -/
def putRecordRed (ch : Fin 8) (s : State) (r : RedRec) : State :=
  let r := { r with qual := spanQual ch r.first (redLast r) s }
  forStreams .reduction ch.val (streamRecord r) (updRed ch (fun b => { b with recs := r :: b.recs }) s)

/-- An interval has ended: its record waits for the end of its last block, whose flags QUAL takes in (R101, R229; DEDUCED, log 150). -/
def endRecord (ch : Fin 8) (r : RedRec) (s : State) : State := updRed ch (fun b => { b with waiting := r :: b.waiting }) s

/-- The block of a record's last sample is complete once the samples before `upTo` have passed. -/
def blockPassed (upTo : Nat) (r : RedRec) : Bool := decide (4096 * (redLast r / 4096 + 1) ≤ upTo)

/-- Records whose blocks are complete are produced, in the order in which their intervals ended. -/
def releaseRecords (ch : Fin 8) (upTo : Nat) (s : State) : State :=
  ((s.reds[ch]).waiting.filter (blockPassed upTo)).reverse.foldl (putRecordRed ch)
    (updRed ch (fun b => { b with waiting := b.waiting.filter fun r => !blockPassed upTo r }) s)

/-- Every record that waits is produced, where the era ends. -/
def flushRecords (ch : Fin 8) (s : State) : State :=
  (s.reds[ch]).waiting.reverse.foldl (putRecordRed ch) (updRed ch (fun b => { b with waiting := [] }) s)

/-- The record of a lane's open interval. -/
def laneRecord (ch : Fin 8) (k : Fin 4) (isPartial : Bool) (s : State) : RedRec :=
  let b := s.reds[ch]
  let codes := (b.acc[k]).reverse
  let l := (lanesNow b)[k]
  { lane := k.val, mode := l.mode, first := b.start[k], value := laneValue l codes, isPartial := isPartial,
    diag := b.diag.isSome, qual := 0, count := codes.length }

/-- A lane starts a new interval at a sample. -/
def restartLane (ch : Fin 8) (k : Fin 4) (at_ : Nat) (s : State) : State :=
  updRed ch (fun b => { b with start := b.start.set k at_, acc := b.acc.set k [] }) s

/-- A lane's open interval ends with the sample before `at_` (R231). -/
def endPartial (ch : Fin 8) (at_ : Nat) (k : Fin 4) (s : State) : State :=
  let b := s.reds[ch]
  let s := if (lanesNow b)[k].mode == .off || (b.acc[k]).isEmpty then s
    else endRecord ch (laneRecord ch k true s) s
  restartLane ch k at_ s

/-- A switch of a bank (R231): every open interval ends, then the bank takes what `f` gives it. -/
def redSwitch (ch : Fin 8) (at_ : Nat) (f : RedBank → RedBank) (s : State) : State :=
  updRed ch f (forAll 4 (endPartial ch at_) s)

/-- The configured settings that wait, if any, come into force (R226, R232). -/
def takeNext (b : RedBank) : RedBank :=
  match b.next with
  | some (lanes, seg, _) => { b with lanes := lanes, segRed := seg, next := none }
  | none => b

/-- Exit from a diagnostic span (R232): the configured set resumes. -/
def leaveDiag (b : RedBank) : RedBank := { takeNext b with diag := none }

/-- Switches of a bank that fall at the first sample of a word: a SET_RED, and the end of proofing (R226, R232). -/
def redSwitches (ch : Fin 8) (x0 : Nat) (s : State) : State :=
  let b := s.reds[ch]
  if b.diag == some .proofing && !isProofing s x0 then redSwitch ch x0 leaveDiag s
  else match b.next with
    | some (_, _, some n) =>
      if n ≤ x0 then redSwitch ch x0 (if b.diag == some .selftest then leaveDiag else takeNext) s else s
    | _ => s

/-- One code into one lane: the interval is complete at its N samples (R227). -/
def laneCode (ch : Fin 8) (k : Fin 4) (c : Int) (x : Nat) (s : State) : State :=
  let l := (lanesNow s.reds[ch])[k]
  if l.mode == .off then s
  else
    let s := updRed ch (fun b => { b with acc := b.acc.set k (c :: b.acc[k]) }) s
    if ((s.reds[ch]).acc[k]).length = l.n then
      restartLane ch k (x + 1) (endRecord ch (laneRecord ch k false s) s)
    else s

/-- A slice word through a channel's bank (R226 to R232). -/
def redWord (ch : Fin 8) (x0 : Nat) (codes : List Int) (s : State) : State :=
  releaseRecords ch (x0 + 40)
    (codes.zipIdx.foldl (fun s c => forAll 4 (fun k s => laneCode ch k c.1 (x0 + c.2) s) s) (redSwitches ch x0 s))

/-! ### Diagnostic spans (R232) -/

/-- The accumulator parity check of a bank fails (R232): the open intervals end with values that their damaged accumulators
leave open (log 34), the bank is cleared, and recovery runs for 2^16 lc. -/
def damagePartial (ch : Fin 8) (at_ : Nat) (k : Fin 4) (s : State) : State :=
  let b := s.reds[ch]
  let s := if (lanesNow b)[k].mode == .off || (b.acc[k]).isEmpty then s
    else
      let (c, s) := fresh s
      endRecord ch { laneRecord ch k true s with value := BitVec.ofInt 24 (Config.freeInt c) } s
  restartLane ch k at_ s

/-- BANK_RECOVERY (R232): Reduction accumulator parity fails and bank recovery starts. -/
def execBankRecovery (n : Fin 8) (s : State) : Host.Outcome State Fault Refusal := whenLive s <|
  let s := forAll 4 (damagePartial n (commitSample s)) s
  let s := if (s.reds[n]).diag == some .selftest then istFail 4 s else s
  let s := updRed n (fun b => { b with diag := some (.recovery (lcNow s + 65536)) }) s
  .next (raiseNow 0x7F sevWarning [BitVec.ofNat 8 n.val] s)

/-- Exit from a recovery (R232): into the span of proofing where that goes on, else to the configured set. -/
def leaveRecovery (proofing : Bool) (b : RedBank) : RedBank := if proofing then { b with diag := some .proofing } else leaveDiag b

/-- The span of a recovery or SELFTEST ends and the configured set resumes (R232). -/
def execDiagnosticSpanEnd (n : Fin 8) (s : State) : Host.Outcome State Fault Refusal := whenLive s <|
  match (s.reds[n]).diag with
  | some .selftest => .next (istPart 4 n.val (redSwitch n (commitSample s) leaveDiag s))
  | some (.recovery e) =>
    if e ≤ lcNow s then .next (redSwitch n (commitSample s) (leaveRecovery (isProofing s (commitSample s))) s) else .next s
  | _ => .next s

/-- An open REDUCTION stream uses the bank (R232). -/
def redStreamed (ch : Fin 8) (s : State) : Bool :=
  s.hif.streams.toList.any fun x => match x with
    | some st => st.kind == .reduction && st.source == ch.val
    | none => false

/-- The in-service test starts a SELFTEST on an unused bank (R232). -/
def execBankSelftestStart (n : Fin 8) (s : State) : Host.Outcome State Fault Refusal := whenLive s <|
  let b := s.reds[n]
  if b.diag.isNone && b.segRed == 0 && !redStreamed n s then
    .next (redSwitch n (commitSample s) (fun b => { b with diag := some .selftest }) s)
  else .next s

end Sys2Proof.Machine
end

