-- ==== Sys2Proof/Machine/Services.lean ====
section
/-!
DEFINITION. Engines and services (R303 to R334): engine failures, reserves and self-tests, SPECTRAL outputs, and what a complete
segment gives MEASURE and RECORD_AVERAGE. SET_SERVICE is in Settings.lean, the measurement values in Measure.lean.
-/
namespace Sys2Proof.Machine

/-- One instance changed. -/
def updInst (i : Fin 16) (f : Inst → Inst) (s : State) : State := { s with insts := upd s.insts i f }

/-- The engines changed. -/
def updEng (f : Eng → Eng) (s : State) : State := { s with eng := f s.eng }

/-- State code of an instance (R334). -/
def instCode : InstState → Nat
  | .off => 0 | .running => 1 | .failed => 2

/-- SVC_STATE (R335, R519): cause 0 ENABLED, 1 DISABLED, 2 FAILED, 3 OVF. -/
def raiseSvc (i : Fin 16) (sev cause : Nat) (s : State) : State :=
  raiseNow 0xCA sev [BitVec.ofNat 8 i.val, BitVec.ofNat 8 (instCode (s.insts[i]).state), BitVec.ofNat 8 cause] s

/-- SKIPS of an instance advance (R237, R315, R334). -/
def countSkips (i : Fin 16) (k : Nat) (s : State) : State :=
  let sticks := statSticks (s.insts[i]).skips k
  let s := updInst i (fun x => { x with skips := statAdd x.skips k, skipOvf := x.skipOvf || sticks }) s
  if sticks then raiseSvc i sevNotice 3 s else s

/-! ### Engines (R303 to R310) -/

/-- Free reserves (R307). -/
def reserveFree (e : Eng) : Nat := (e.reserve.toList.filter (·.isSome)).length

/-- ENG_RESERVE with the present count (R335, R519). -/
def raiseReserve (s : State) : State :=
  let n := reserveFree s.eng
  raiseNow 0xCD (if n = 0 then sevError else sevWarning) [BitVec.ofNat 8 n] s

/-- RESERVE_FREE was `before` (R335): ENG_RESERVE is raised where it falls below 8 or reaches 0. -/
def reserveFell (before : Nat) (s : State) : State :=
  if reserveFree s.eng < before && (decide (8 ≤ before) || reserveFree s.eng == 0) then raiseReserve s else s

/-- ENG_MIGRATE (R307, R519). -/
def raiseMigrate (old new inst : Nat) (s : State) : State :=
  raiseNow 0xCC sevWarning (le 2 old ++ le 2 new ++ [BitVec.ofNat 8 inst]) s

/-- The instance that an engine serves. -/
def servedBy (s : State) (e : Nat) : Option (Fin 16) := (List.finRange 16).find? fun i => (s.insts[i]).engines.contains e

/-- An engine is assigned to an instance: it serves one, or is to take a share over at the next frame (R305, R307). -/
def assigned (s : State) (e : Nat) : Bool := (servedBy s e).isSome || s.eng.moving.any fun m => m.2.1 == e

/-- Distance between engine numbers. -/
def engDistance (a b : Nat) : Nat := if a ≤ b then b - a else a - b

/-- The reserve that takes over (R307): that of the same cluster pair, else the nearest in number on the same tile, else on the
other. -/
def chooseReserve (s : State) (e : Nat) : Option Nat :=
  let free := s.eng.reserve.toList.filterMap id
  let near := fun (l : List Nat) => l.foldl (fun (best : Option Nat) x => match best with
    | none => some x
    | some b => if engDistance x e < engDistance b e then some x else some b) none
  match free.find? fun x => x / 32 = e / 32 with
  | some x => some x
  | none => match near (free.filter fun x => x / 128 = e / 128) with
    | some x => some x
    | none => near free

/-- A reserve is taken from its pair; a SELFTEST on it is preempted (R310). -/
def takeReserve (e : Nat) (s : State) : State :=
  updEng (fun g => { g with
    reserve := g.reserve.map fun r => if r = some e then none else r,
    selftest := if g.selftest = some (e / 32) then none else g.selftest }) s

/-- An instance goes to FAILED (R308). -/
def instFails (i : Fin 16) (s : State) : State :=
  raiseSvc i sevError 2 (raiseReserve (updInst i (fun x => { x with state := .failed }) s))

/-- d of an input: 1 for a channel, D for a chain (R316). -/
def inputD (s : State) (input : Nat) : Nat :=
  if input ≤ 7 then 1
  else match getN s.ddcs (input - 0x10) with
    | some x => max 1 (presetD x.cfg.preset)
    | none => 1

/-- The service frame under way in an instance: the hop that the present sample lies in (R314, R318). -/
def frameNow (x : Inst) (s : State) : Nat :=
  match x.cfg with
  | some (.spectral c) => commitSample s / (c.n * inputD s c.input)
  | _ => 0

/-- The share of engine `e` of an instance is given to a reserve, which takes it over at the next frame; with no reserve free the
instance fails (R307, R308). -/
def handOver (e : Nat) (i : Fin 16) (s : State) : State :=
  match chooseReserve s e with
  | some r => reserveFell (reserveFree s.eng) (updEng (fun g => { g with moving := g.moving ++ [(e, r, i.val)] }) (takeReserve r s))
  | none => instFails i s

/-- A reserve that was to take a share over has failed before it did: another one is to. -/
def handOn (e : Nat) (s : State) : State :=
  match s.eng.moving.find? fun m => m.2.1 = e with
  | some (f, _, i) => handOver f (Fin.ofNat 16 i) (updEng (fun g => { g with moving := g.moving.filter fun m => m.2.1 != e }) s)
  | none => s

/-- An engine fails (R306 to R308): it is retired for good; its share moves from the next frame, or its instance fails. A segment that
the instance is at work on is taken again from its start (R326, R331). -/
def engineFail (e : Nat) (s : State) : State :=
  if s.eng.retired.contains e then s
  else
    let before := reserveFree s.eng
    let s := updEng (fun g => { g with retired := e :: g.retired }) s
    match servedBy s e with
    | some i =>
      handOver e i (updInst i (fun x =>
        { x with faults := (frameNow x s, e) :: x.faults, moved := x.moved || !x.queue.isEmpty }) s)
    | none => handOn e (reserveFell before (raiseMigrate e 0xFFFF 0xFF (takeReserve e s)))

/-- A corrected local-memory error is counted (R306, R333). -/
def countEngEcc (s : State) : State :=
  updEng (fun g => { g with ecc := statAdd g.ecc 1, eccOvf := g.eccOvf || statSticks g.ecc 1 }) s

/-- ENGINE_FAIL (R306, R307): An engine is declared failed and retired; an error that was corrected is counted. -/
def execEngineFail (e : EngineFault) (s : State) : Host.Outcome State Fault Refusal := whenLive s <|
  .next (if e.error = .corrected then countEngEcc s else engineFail e.engine.val s)

/-- From the next frame the reserve does the failed engine's share (R307). -/
def engMigrate (e : Nat) (s : State) : State :=
  match s.eng.moving.find? fun m => m.1 = e with
  | some (_, r, i) =>
    let s := updEng (fun g => { g with moving := g.moving.filter fun m => m.1 != e }) s
    let s := { s with insts := updN s.insts i fun x =>
      { x with engines := x.engines.map fun y => if y = e then r else y, migrated := true } }
    raiseMigrate e r i s
  | none => s

/-- ENG_MIGRATE (R307): Failed engine's share moves to a reserve engine at the next frame. -/
def execEngMigrate (e : Fin 256) (s : State) : Host.Outcome State Fault Refusal := whenLive s <|
  .next (engMigrate e.val s)

/-- A pair's turn of SELFTEST comes 2 s after its last (R309). -/
def turnDue (pair : Fin 8) (s : State) : Bool :=
  match s.eng.turnAt[pair] with
  | none => true
  | some t => decide (t + 50000000 ≤ s.aoCycles)

/-- RESERVE_ROTATION (R309, R315): The in-service test starts SELFTEST on a pair's free reserve. -/
def execReserveRotation (pair : Fin 8) (s : State) : Host.Outcome State Fault Refusal := whenLive s <|
  if s.eng.reserve[pair].isSome && s.eng.selftest.isNone && !s.eng.throttled && turnDue pair s then
    .next (updEng (fun g => { g with selftest := some pair.val, turnAt := g.turnAt.set pair (some s.aoCycles) }) s)
  else .next s

/-- The pair's lowest-numbered engine that is neither retired, nor its reserve, nor tested since the last round. -/
def nextTested (s : State) (pair r : Nat) : Option Nat :=
  ((List.range 32).map fun i => 32 * pair + i).find? fun e =>
    e != r && !s.eng.retired.contains e && !s.eng.tested.contains e

/-- SELFTEST ends (R309): a passed reserve takes the share of the pair's lowest untested engine, which becomes the reserve; a
failed one is retired and reported. While the engines are throttled SELFTEST is paused (R315). -/
def selftestDone (pair : Fin 8) (failed : Option (Fin 3)) (s : State) : State :=
  match s.eng.selftest, s.eng.reserve[pair] with
  | some p, some r =>
    if p = pair.val && !s.eng.throttled then
      let s := updEng (fun g => { g with selftest := none }) s
      match failed with
      | some t => engineFail r (raiseNow 0xCE sevWarning (le 2 r ++ [BitVec.ofNat 8 t.val]) (istFail 3 s))
      | none =>
        let s := updEng (fun g => { g with tested := r :: g.tested }) s
        match nextTested s pair.val r with
        | some e =>
          let s := { s with insts := s.insts.map fun x =>
            { x with engines := x.engines.map fun y => if y = e then r else y } }
          updEng (fun g => { g with reserve := g.reserve.set pair (some e) }) s
        | none => istPart 3 pair.val (updEng (fun g => { g with tested := g.tested.filter fun e => e / 32 != pair.val }) s)
    else s
  | _, _ => s

/-- SELFTEST_DONE (R309): Engine SELFTEST completes and the share moves or the engine is retired. -/
def execSelftestDone (pair : Fin 8) (failed : Option (Fin 3)) (s : State) : Host.Outcome State Fault Refusal := whenLive s <|
  .next (selftestDone pair failed s)

/-- The reserve of every pair at the end of proofing (R305). -/
def designateReserves (s : State) : State :=
  updEng (fun g => { g with reserve := Vector.ofFn fun p : Fin 8 =>
    ((List.range 32).map fun i => 32 * p.val + 31 - i).find? fun e => !g.retired.contains e && !assigned s e }) s

/-! ### SPECTRAL (R316 to R324) -/

/-- Pairs without a reserve get one again from engines that a SET_SERVICE leaves free (R305, R307). -/
def refillReserves (s : State) : State :=
  if s.proof.active then s
  else updEng (fun g => { g with reserve := Vector.ofFn fun p : Fin 8 =>
    match g.reserve[p] with
    | some e => some e
    | none => ((List.range 32).map fun i => 32 * p.val + 31 - i).find? fun e => !g.retired.contains e && !assigned s e }) s

/-- Channel of an input. -/
def inputChannel (input : Nat) : Fin 8 := Fin.ofNat 8 input

/-- The input is complex (R317). -/
def inputComplex (s : State) (input : Nat) : Bool :=
  decide (0x10 ≤ input) && (s.ddcs[inputChannel input]).cfg.nco

/-- Bins that exist (R317). -/
def binsNow (s : State) (c : SpCfg) : Nat := if inputComplex s c.input then c.n else c.n / 2

/-- Last input of a hop, as a sample number or grid sample (R318). -/
def hopEnd (s : State) (c : SpCfg) (hop : Nat) : Nat := ((hop + 1) * c.n - 1) * inputD s c.input

/-- TS96 of the spectrum whose last hop is `hop` (R318): for a chain, that of the output. -/
def spectrumTs (s : State) (c : SpCfg) (hop : Nat) : TS96 :=
  let d := inputD s c.input
  let a : Int := if c.input ≤ 7 then 0 else (chainA2 (s.ddcs[inputChannel c.input]).cfg * tick / 2 : Nat)
  tsAdd (tsArrival s (hopEnd s c hop)) (-a - (8 * (c.n : Int) - 1) * d * tick / 2)

/-- First hop that a restart at a sample leaves (R318). -/
def firstHop (s : State) (c : SpCfg) (n : Nat) : Nat := ceilDiv n (c.n * inputD s c.input)

/-- A SPECTRAL instance restarts at a sample (R318). -/
def spRestart (i : Fin 16) (n : Nat) (s : State) : State :=
  match (s.insts[i]).cfg with
  | some (.spectral c) =>
    updInst i (fun x => { x with restartAt := firstHop s c n, lastHop := none, faults := [], armed := List.replicate 4 .off }) s
  | _ => s

/-- Every SPECTRAL instance on a chain restarts (R258, R318). -/
def restartOnChain (ch : Fin 8) (n : Nat) (s : State) : State :=
  forAll 16 (fun i s => match (s.insts[i]).cfg with
    | some (.spectral c) => if c.input = 0x10 + ch.val then spRestart i n s else s
    | _ => s) s

/-- A spectrum as delivered. -/
structure Spectrum where
  ts : TS96
  power : List Int
  unsettled : Bool
  flagged : Bool
  clamped : Bool
  skipped : Nat
  qual : Byte

/-- Power held to its 16 bits (R317). -/
def clampPower (p : Int) : Int := max (-32768) (min 32767 p)

/-- Inputs that the windows of a delivered spectrum's INTEG hops span together (R318). -/
def windowLen (c : SpCfg) : Nat := (8 + c.integ - 1) * c.n

/-- Outputs of the chain that the windows of a spectrum's hops hold (R318). -/
def windowOuts (s : State) (c : SpCfg) (hop : Nat) : List DdcOut :=
  let e := hopEnd s c hop
  (s.ddcs[inputChannel c.input]).outs.filter fun o => decide (o.g ≤ e ∧ e < o.g + windowLen c * inputD s c.input)

/-- A window of a spectrum holds an UNSETTLED chain output (R318). -/
def windowUnsettled (s : State) (c : SpCfg) (hop : Nat) : Bool :=
  decide (0x10 ≤ c.input) && (windowOuts s c hop).any (·.unsettled)

/-- Input `k` of an instance in LSB at the input plane (R316, R317): a sample, or a chain's output with its gain and SHIFT removed. An input
that the era does not have is zero; spectra that hold one carry UNSETTLED. -/
def spInput (s : State) (c : SpCfg) (k : Int) : Rat × Rat :=
  if k < 0 then (0, 0)
  else if c.input ≤ 7 then (((samplesOf (inputChannel c.input) k.toNat k.toNat s).headD 0 : Int), 0)
  else match (s.ddcs[inputChannel c.input]).outs.find? fun o => o.g = k.toNat * inputD s c.input with
    | some o => ((o.i : Rat) / o.scale, (o.q : Rat) / o.scale)
    | none => (0, 0)

/-- The 8N inputs of a hop's window (R318). -/
def hopWindow (s : State) (c : SpCfg) (hop : Nat) : List (Rat × Rat) :=
  (List.range (8 * c.n)).map fun i => spInput s c ((hop : Int) * c.n - 7 * c.n + (i : Nat))

/-- Linear power of bin j of a hop (R316). -/
def hopPower (s : State) (c : SpCfg) (hop j : Nat) : Rat := Config.binPower c.n (inputComplex s c.input) (hopWindow s c hop) j

/-- The same as an instance has it (R321): the bins of an engine that failed in the hop take their values from the hop before. -/
def keptPower (i : Nat) (x : Inst) (s : State) (c : SpCfg) (hop j : Nat) : Rat :=
  if x.faults.any fun f => f.1 == hop && Config.computes i f.2 j then hopPower s c (hop - 1) j else hopPower s c hop j

/-- Hops that a delivered spectrum combines (R318). -/
def hopsOf (c : SpCfg) (hop : Nat) : List Nat := (List.range c.integ).map fun k => hop + 1 - c.integ + k

/-- Power of bin j of a delivered spectrum in 1/64 dB (R316 DETECT, R317): the mean or the largest of the linear powers of its hops. -/
def binLevel (i : Nat) (x : Inst) (s : State) (c : SpCfg) (hop j : Nat) : Int :=
  let l := (hopsOf c hop).map fun h => keptPower i x s c h j
  Config.powerDb (if c.peak then l.foldl max 0 else l.sum / l.length)

/-- QUAL of a spectrum (R318): the blocks that its window's inputs depend on. -/
def windowQual (s : State) (c : SpCfg) (hop : Nat) : Byte :=
  let e := hopEnd s c hop
  let a := if c.input ≤ 7 then 0 else chainA2 (s.ddcs[inputChannel c.input]).cfg
  spanQual (inputChannel c.input) (e - (windowLen c - 1) * inputD s c.input - a) e s

/-- The hop that ends the next spectrum of an instance if none is dropped (R318): INTEG hops, grouped on their multiples, from the restart
or the last delivery on. -/
def nextHop (x : Inst) (c : SpCfg) : Nat :=
  match x.lastHop with
  | some l => l + c.integ
  | none => ceilDiv x.restartAt c.integ * c.integ + c.integ - 1

/-- The spectrum that an instance delivers (R315, R317, R318, R321). -/
def makeSpectrum (i : Nat) (x : Inst) (c : SpCfg) (hop : Nat) (s : State) : Spectrum :=
  let levels := (List.range (binsNow s c)).map (binLevel i x s c hop)
  { ts := spectrumTs s c hop, power := levels.map clampPower,
    unsettled := decide (hop < x.restartAt + 7 + (c.integ - 1)) || windowUnsettled s c hop,
    flagged := x.faults.any fun f => (hopsOf c hop).contains f.1, clamped := levels.any fun p => p != clampPower p,
    skipped := hop - nextHop x c, qual := windowQual s c hop }

/-- Largest of a list of powers. -/
def maxPower (l : List Int) : Int := l.foldl max (-32768)

/-- Sample `n` lies at or before the instant that a hit carries (R283, R285): instants of a spectral felt are compared with TS96. -/
def reachedBy (s : State) (ts : TS96) (n : Nat) : Bool := decide (0 ≤ tsDiff ts (tsArrival s n))

/-- Aging instants and a bake sample that lie at or before a spectrum act before its hits, in their order (R283, R285). -/
def spectralMoments (f : Fin 16) (ts : TS96) : Nat → State → State
  | 0, s => s
  | fuel + 1, s =>
    let x := s.felts[f]
    let a := (nextAging x s).filter (reachedBy s ts)
    if x.bake == .waiting && reachedBy s ts x.bakeSample && (a.all fun a => decide (x.bakeSample ≤ a)) then
      spectralMoments f ts fuel (genSwitch f s)
    else match a with
      | some a => spectralMoments f ts fuel (meetAging f a s)
      | none => s

/-- A spectrum's hits in its felt (R277, R285, R322); those stamped before the bake sample belong to the baked span while its snapshot is
under way. -/
def spectralFelt (f : Fin 16) (c : SpCfg) (p : Spectrum) (s : State) : State :=
  let x := s.felts[f]
  if c.feltEn && x.running && x.cfg.map = 3 && reachedBy s p.ts x.switchAt then
    let s := spectralMoments f p.ts (commitSample s / max 1 (ageSamples x s) + 2) s
    let x := s.felts[f]
    let late := (x.bake == .flushing || x.bake == .copying) && !reachedBy s p.ts x.bakeSample
    let s := updFelt f (inSpan late fun q => { q with qual := q.qual ||| p.qual }) s
    (List.range 2048).foldl (fun s col =>
      let lo := c.feltBin0 + col * c.feltBpc
      if lo + c.feltBpc ≤ p.power.length then
        let v := maxPower ((p.power.drop lo).take c.feltBpc)
        let r := (v - c.feltFloor) / (c.feltStep : Int)
        let row := (max 0 (min 1023 r)).toNat
        feltCount f late 1 0 (if r < 0 ∨ 1023 < r then 1 else 0)
          (if late then toBaked f (row * 2048 + col) 1 s else feltHit f (row * 2048 + col) s)
      else s) s
  else s

/-- A spectrum through the masks of its comparator (R291 to R293): one stamped before a mask's switch sample is tested as the mask stood
then, and what it finds is no longer counted (DEDUCED, log 131). -/
def spectralMasks (i : Fin 16) (p : Spectrum) (s : State) : State :=
  forAll 64 (fun m s =>
    let s := maskSwitch m (commitSample s) s
    let sw := (s.masks[m]).switchAt
    let late := decide (0 < sw) && !reachedBy s p.ts sw
    let x := if late then oldMask s.masks[m] else s.masks[m]
    if x.cfg.enable && x.cfg.source == 8 + i.val then
      let tested := (p.power.take x.cfg.ncol).zipIdx.filter fun v => maskTested x v.2
      let viols := tested.filter fun v => maskViolates x v.2 v.1
      let s := if late then s else maskCount m tested.length viols.length s
      if viols.isEmpty then s
      else maskCapture m x.cfg ((s.insts[i]).eventLat + 2) p.ts
        (if late then s else maskEpisode m (lcNow s) viols.length p.ts s)
    else s) s

/-- One trigger output (R323, R173, R523). -/
def spectralTrig (i : Fin 16) (j : Nat) (t : SpTrig) (p : Spectrum) (s : State) : State :=
  let bins := (p.power.drop t.binLo).take (t.binHi + 1 - t.binLo)
  if !t.en || p.unsettled || bins.isEmpty then s
  else
    let v := maxPower bins
    let d := (s.insts[i]).armed.getD j Detector.off
    let (d, r, f) := d.feed (decide (t.th ≤ v)) (decide (v ≤ t.th)) (decide (v ≤ t.th - t.hyst)) (decide (t.th + t.hyst ≤ v))
    let s := updInst i (fun x => { x with armed := x.armed.set j d }) s
    if (r && t.slope != 1) || (f && t.slope != 0) then
      let s := sourceEvent (0x30 + 4 * i.val + j) p.ts { PlaceFlags.none with flagged := p.flagged } false
        (dueAt s p.ts ((s.insts[i]).eventLat + 2)) s
      if t.eventEn then
        raise (srcId 0xC0 i.val) sevInfo p.ts
          ([BitVec.ofNat 8 j, BitVec.ofNat 8 (flag f 0)] ++ le 2 (unsigned 16 v) ++ [BitVec.ofNat 8 (flag p.flagged 0)]) s
      else s
    else s

/-- A spectrum's record for a SPECTRUM stream (R324). -/
def spectrumBody (i : Nat) (x : Inst) (c : SpCfg) (p : Spectrum) : List Byte :=
  let bins := (List.range c.streamBins).map fun k =>
    match p.power[c.streamBin0 + k]? with
    | some v => le 2 (unsigned 16 v)
    | none => le 2 0x8000
  let absent := decide (p.power.length < c.streamBin0 + c.streamBins)
  pad64 (le 2 0x0C00 ++ [BitVec.ofNat 8 i, BitVec.ofNat 8 c.input] ++ le 4 c.streamBin0 ++ tsBytes p.ts
    ++ le 2 (c.streamBins / 32)
    ++ [p.qual, BitVec.ofNat 8 (flag p.unsettled 0 + flag p.flagged 1 + flag p.clamped 2 + flag (decide (0 < p.skipped)) 3
          + flag c.peak 4 + flag absent 5)]
    ++ le 2 (stick 16 p.skipped) ++ le 2 (c.integ - 1) ++ le 2 x.configGen.toNat ++ le 2 0 ++ bins.flatten)

/-- An instance runs, or has failed and still delivers up to the frame in which it did (R307, R308). -/
def delivers (x : Inst) (hop : Nat) : Bool := x.state == .running || (x.state == .failed && x.faults.any fun f => decide (hop ≤ f.1))

/-- `hop` ends a spectrum that may be delivered (R315, R318): its input runs, its last input has been taken and the block of that input
is whole (log 150), and the group is the next, or a later one where throttled engines may have dropped hops. -/
def hopDue (x : Inst) (c : SpCfg) (hop : Nat) (s : State) : Bool :=
  (decide (c.input ≤ 7) || chainOn (s.ddcs[inputChannel c.input]).cfg)
    && decide (4096 * (hopEnd s c hop / 4096 + 1) ≤ commitSample s)
    && (hop == nextHop x c || (x.mayDrop && (hop + 1) % c.integ == 0 && decide (nextHop x c ≤ hop)))

/-- A spectrum becomes available (R315 to R324); a hop that ends no spectrum delivers nothing. -/
def spectrumDeliver (i : Fin 16) (hop : Nat) (s : State) : State :=
  let x := s.insts[i]
  match x.cfg with
  | some (.spectral c) =>
    if delivers x hop && hopDue x c hop s then
      let p := makeSpectrum i.val x c hop s
      let s := updInst i (fun x => { x with lastHop := some hop, mayDrop := s.eng.throttled,
                                            faults := x.faults.filter fun f => decide (hop < f.1) }) (countSkips i p.skipped s)
      let s := spectralMasks i p (spectralFelt ⟨8 + i.val % 8, by omega⟩ c p s)
      let s := c.trigs.zipIdx.foldl (fun s t => spectralTrig i t.2 t.1 p s) s
      forStreams .spectrum i.val (fun k _ s =>
        pushUnit k { body := spectrumBody i.val x c p, validAt := 0x1E, weight := c.n * c.integ * inputD s c.input,
                     ts := p.ts, seg := none } s) s
    else s
  | _ => s

/-- SPECTRUM_DELIVER (R318): SPECTRAL instance delivers an integrated spectrum to felt, mask, triggers and stream. -/
def execSpectrumDeliver (i : Fin 8) (hop : Nat) (r : SpectrumReads) (s : State) : Host.Outcome State Fault Refusal := whenLive s <|
  if WellFormed.instr (.spectrumDeliver i hop r) then
    .next (spectrumDeliver ⟨i.val, by omega⟩ hop (feltParity ⟨8 + i.val, by omega⟩ r.parity (scrubbed r.ecc s)))
  else .fault .illFormed

/-! ### Switch of an instance (R313) -/

/-- A reader of an engine lets go of a segment (R326). -/
def engRelease (seq : Nat) (s : State) : State :=
  updSeg seq (fun g => settleRelease { g with engReaders := g.engReaders - 1 }) s

/-- Segments that an instance has queued are let go (R313). -/
def dropQueue (i : Fin 16) (s : State) : State :=
  (s.insts[i]).queue.foldl (fun s seq => engRelease seq s) (updInst i (fun x => { x with queue := [] }) s)

/-- The engines of an instance are loaded (R313): its settings take effect and work in progress is discarded. -/
def serviceSwitch (i : Fin 16) (s : State) : State :=
  match (s.insts[i]).next with
  | some c =>
    let n := nextSample s
    let s := updInst i (fun x =>
      { x with cfg := some c, next := none, switchAt := n, state := .running, sums := [], added := 0,
               leftOut := 0, stopped := false, skipping := false, qual := 0, stepSeen := false, moved := false, faults := [], mayDrop := s.eng.throttled })
      (dropQueue i s)
    raiseSvc i sevNotice 0 (spRestart i n s)
  | none => s

/-- SERVICE_SWITCH (R313): Instance engines are loaded and the service switches at its switch sample. -/
def execServiceSwitch (i : Fin 16) (s : State) : Host.Outcome State Fault Refusal := whenLive s <|
  .next (serviceSwitch i s)

/-! ### Segments for MEASURE and RECORD_AVERAGE (R326, R331) -/

/-- MS_STATE and RA_STATE (R335, R519). -/
def raiseMs (i cause seq : Nat) (s : State) : State :=
  raiseNow 0xC8 sevNotice ([BitVec.ofNat 8 i, BitVec.ofNat 8 cause] ++ le 6 0 ++ le 8 seq) s
def raiseRa (i cause seq : Nat) (s : State) : State :=
  raiseNow 0xC9 (if cause = 1 then sevNotice else sevInfo) ([BitVec.ofNat 8 i, BitVec.ofNat 8 cause] ++ le 6 0 ++ le 8 seq) s

/-- A segment joins an instance's queue of 16, or is skipped (R326): the answer says whether it was queued. -/
def enqueueSeg (i : Fin 16) (seq : Nat) (report : State → State) (s : State) : State × Bool :=
  let x := s.insts[i]
  if x.queue.length < 16 then
    (updSeg seq (fun g => { g with engReaders := g.engReaders + 1 })
      (updInst i (fun x => { x with queue := x.queue ++ [seq], skipping := false }) s), true)
  else
    let s := countSkips i 1 (updInst i (fun x => { x with skipping := true }) s)
    (if x.skipping then s else report s, false)

/-- MSn takes a segment whose entry is written (R326). -/
def queueMeasure (g : Segment) (s : State) : State :=
  let i : Fin 16 := Fin.ofNat 16 (8 + g.sequencer)
  if (s.insts[i]).state == .running then
    let (s, ok) := enqueueSeg i g.seq (raiseMs i.val 0 g.seq) s
    if ok then updSeg g.seq (fun g => { g with measPtr := BitVec.ofNat 32 (g.seq % 4194304) }) s else s
  else s

/-- RAn takes a segment of full PRE and POST (R331). -/
def queueAverage (g : Segment) (s : State) : State :=
  let i : Fin 16 := Fin.ofNat 16 (12 + g.sequencer)
  match (s.insts[i]).cfg, getN s.seqs g.sequencer with
  | some (.average _), some q =>
    if (s.insts[i]).state == .running && !(s.insts[i]).stopped then
      if preLen g = q.cfg.p ∧ postLen g = q.cfg.l - q.cfg.p then (enqueueSeg i g.seq (raiseRa i.val 1 g.seq) s).1
      else updInst i (fun x => { x with leftOut := x.leftOut + 1 }) s
    else s
  | _, _ => s

end Sys2Proof.Machine
end

