-- ==== Sys2Proof/Machine/Measure.lean ====
section
/-!
DEFINITION. What follows the end of a segment (R216, R224, R236, R326 to R331): its index entry and side data, the SEGMENT
streams, the measurement record and the average.
-/
namespace Sys2Proof.Machine

/-! ### A segment becomes complete (R216, R218, R224) -/

/-- The timebase step that a segment holds (R94, R219): between its first and its last sample. -/
def segStep (g : Segment) (s : State) : Option Int :=
  (s.clk.steps.find? fun x => g.era == s.proof.era && decide (g.first < x.1 ∧ x.1 ≤ g.last)).map (·.2)

/-- Any quality byte of the segment is not zero (R220). -/
def qualAny (g : Segment) (s : State) : Bool := (segQual g s).any fun l => l.any fun b => b != 0

/-- A segment with its entry and side data written (R216, R219, R220, R224). -/
def completed (g : Segment) (s : State) : Segment :=
  { g with
    complete := true, closed := true, data := segSamples g s, side := sideData g s, maskResult := maskResultOf g s,
    flags := g.flags ||| BitVec.ofNat 16 (flag (segStep g s).isSome 10 + flag (qualAny g s) 12),
    stepDelta := BitVec.ofInt 48 ((segStep g s).getD 0) }

/-- A SEGMENT stream that is open when a segment completes will deliver it (R233, R236). -/
def streamSegment (seq : Nat) (i : Fin 64) (st : Stream) (s : State) : State :=
  if st.closing.isSome then s
  else setStream i (some { st with buf := st.buf ++
    [{ body := [], validAt := 0x3C, weight := 0, ts := 0, seg := some seq }] }) s

/-- ASn_RETRO (R218, R519). -/
def raiseRetro (g : Segment) (s : State) : State :=
  if g.flags.getLsbD 3 then
    raiseNow (srcId 0x78 g.sequencer) sevInfo
      (le 8 g.seq ++ [BitVec.ofNat 8 (flag (g.flags.getLsbD 2) 0 + flag (g.flags.getLsbD 4) 1)]) s
  else s

/-- A segment becomes complete: ASn_RETRO, the SEGMENT streams, and the queues of MEASURE and RECORD_AVERAGE. -/
def finishSegment (g : Segment) (s : State) : State :=
  let g := completed g s
  let s := raiseRetro g (updSeg g.seq (fun _ => g) s)
  queueAverage g (queueMeasure g (forStreams .segment g.sequencer (streamSegment g.seq) s))

/-- SEGMENT_COMPLETE (R216): a segment whose last sample is stored and whose reduction intervals have ended, once what its quality map
holds is known. -/
def segmentComplete (seq : Nat) (s : State) : State :=
  match findSeg s seq with
  | some g =>
    if g.complete || !lastStored g s || !redsEnded g s || !qualKnown g s then s
    else finishSegment g s
  | none => s

/-- SEGMENT_COMPLETE (R216): Segment becomes complete and its index entry and side data are written. -/
def execSegmentComplete (seq : Nat) (s : State) : Host.Outcome State Fault Refusal := whenLive s <|
  .next (segmentComplete seq s)

/-! ### Levels and crossings (R328) -/

/-- How often a code occurs. -/
def codeCount (l : List Int) (c : Int) : Nat := (l.filter fun x => x == c).length

/-- The most frequent codes among some; where several are equally frequent, which of them counts is open (R328). -/
def modes (l : List Int) : List Int :=
  let best := (l.map (codeCount l)).foldl max 0
  l.eraseDups.filter fun c => codeCount l c == best

/-- The mode of one half of the code range, and whether it holds at least 2 % of that half. -/
def halfMode (half : List Int) (s : State) : (Int × Bool) × State :=
  let m := modes half
  let (k, s) := fresh s
  let c := m.getD ((Config.freeInt k).natAbs % m.length) 0
  ((c, decide (half.length ≤ 50 * codeCount half c)), s)

/-- Top, base and LEVEL_FALLBACK of a segment's codes (R328). The middle code of the range belongs to both halves (DESIGN
CHOICE, log 44). -/
def topBase (l : List Int) (s : State) : (Int × Int × Bool) × State :=
  let lo := minCode l
  let hi := maxCode l
  let (t, s) := halfMode (l.filter fun c => decide (lo + hi ≤ 2 * c)) s
  let (b, s) := halfMode (l.filter fun c => decide (2 * c ≤ lo + hi)) s
  if t.2 && b.2 then ((t.1, b.1, false), s) else ((if t.2 then t.1 else hi, if b.2 then b.1 else lo, true), s)

/-- A crossing: its place in samples from the segment's first, and whether it rises. -/
structure MeasCross where
  at_ : Rat
  rising : Bool

/-- Crossings of the level base + pct % × (top − base) (R167, R328): each lies on the line between the sample that completes it
and the one before. -/
def crossings (l : List Int) (top base : Int) (pct hyst : Nat) : List MeasCross :=
  let level : Rat := base + (pct : Rat) * (top - base) / 100
  let h : Rat := (hyst : Rat) / 16
  (l.zipIdx.foldl (fun (a : Detector × Int × List MeasCross) c =>
    let v : Rat := c.1
    let (d, r, f) := a.1.feed (decide (level ≤ v)) (decide (v ≤ level)) (decide (v ≤ level - h)) (decide (level + h ≤ v))
    let place : Rat := if c.1 = a.2.1 then c.2 else (c.2 : Rat) - 1 + (level - a.2.1) / (v - a.2.1)
    (d, c.1, if r || f then a.2.2 ++ [{ at_ := place, rising := r }] else a.2.2)) (Detector.off, 0, [])).2.2

/-- The first crossing of a direction at or after a place. -/
def nextCross (l : List MeasCross) (rising : Bool) (from_ : Rat) : Option Rat :=
  (l.find? fun c => c.rising == rising && decide (from_ ≤ c.at_)).map (·.at_)

/-- From the first crossing of one list to the following one of another, both of a direction. -/
def spanOf (a : List MeasCross) (da : Bool) (b : List MeasCross) (db : Bool) : Option Rat :=
  match a.find? fun c => c.rising == da with
  | some x => (nextCross b db x.at_).map fun y => y - x.at_
  | none => none

/-- Sum of rationals. -/
def ratSum (l : List Rat) : Rat := l.foldl (· + ·) 0

/-- Mean of codes, and mean of their squares. -/
def meanOf (l : List Int) : Rat := if l.isEmpty then 0 else ((l.sum : Int) : Rat) / l.length
def squareOf (l : List Int) : Rat := if l.isEmpty then 0 else (((l.map fun c => c * c).sum : Int) : Rat) / l.length

/-- Positive time from a first to a last rising crossing: from each rising crossing to the next falling one. -/
def positiveTime (l : List MeasCross) (a e : Rat) : Rat :=
  ratSum (l.filterMap fun c =>
    if c.rising && decide (a ≤ c.at_ ∧ c.at_ < e) then (nextCross l false c.at_).map fun f => (min f e) - c.at_ else none)

/-- A value of the record before its conversion: exact, the square root of an exact value, or absent. -/
inductive Meas where
  | exact (x : Rat)
  | root (x : Rat)
  | open_ (valid : Bool) (w : W32)
  | none_

/-- An exact value that may be missing. -/
def Meas.opt : Option Rat → Meas
  | some x => .exact x
  | none => .none_

/-- A ratio to AMPLITUDE: with an amplitude of zero the spec gives neither its value nor its validity, so both are free
(log 45). -/
def ampRatio (x amp : Rat) (s : State) : Meas × State :=
  if amp = 0 then
    let (k, s) := fresh s
    (.open_ (Config.freeBit k) ((Config.freeWord k).truncate 32), s)
  else (.exact (x / amp), s)

/-- An angle reduced to (−180, 180] (R328). -/
def reduceAngle (x : Rat) : Rat :=
  let y := x - 360 * ((x / 360).floor : Int)
  if 180 < y then y - 360 else y

/-- NOMINAL_GAIN of the active cartridge as a factor, and volts per code (R53, R328). -/
def voltsPerCode (ch : Fin 8) (s : State) : Rat :=
  let c := s.carts[ch]
  let g := if c.state == .active then Config.gainFactor (signed 32 (fieldAt c.factory 0x028 4)) else 1
  (1 : Rat) / 8192 * g

/-- Seconds per sample (R69, R328). -/
def secPerSample (s : State) : Rat := if fsMilli s = 0 then 0 else (1000 : Rat) / fsMilli s

/-- The 24 values of R328 in order, with LEVEL_FALLBACK. -/
def measure (c : MsCfg) (g : Segment) (s : State) : (List Meas × Bool) × State :=
  let codes := fun (ch : Nat) => ((keptData g (BitVec.ofNat 8 (2 ^ ch))).headD [])
  let l := codes c.channel
  let ((top, base, fb), s) := topBase l s
  let v := voltsPerCode (Fin.ofNat 8 c.channel) s
  let ts := secPerSample s
  let low := crossings l top base c.low c.hyst
  let mid := crossings l top base c.mid c.hyst
  let high := crossings l top base c.high c.hyst
  let ups := mid.filter (·.rising)
  let first : Rat := (ups.head?.map (·.at_)).getD 0
  let final : Rat := (ups.getLast?.map (·.at_)).getD 0
  let cycles := ups.length - 1
  let period : Option Rat := if cycles = 0 then none else some ((final - first) / cycles)
  let inCycles := (l.zipIdx.filter fun x => decide (first ≤ (x.2 : Rat) ∧ (x.2 : Rat) < final)).map (·.1)
  let amp : Rat := top - base
  let (above, s) := ampRatio (maxCode l - top) amp s
  let (pre, s) := ampRatio (base - minCode l) amp s
  let ((rt, rb, _), s) := if c.refChannel = 0xFF then ((0, 0, false), s) else topBase (codes c.refChannel) s
  let ref := if c.refChannel = 0xFF then [] else crossings (codes c.refChannel) rt rb c.mid c.hyst
  let delay := if c.refChannel = 0xFF then none else spanOf ref true mid true
  let secs := fun (x : Option Rat) => Meas.opt (x.map (· * ts))
  let inst : Rat := ((g.kt : Int) - g.first : Int) + (g.off : Rat) / (tick : Nat)
  (([secs period,
     Meas.opt (period.map fun p => 1 / (p * ts)),
     .exact (amp * v),
     secs (spanOf low true high true),
     secs (spanOf high false low false),
     secs (spanOf mid true mid false),
     secs (spanOf mid false mid true),
     Meas.opt (period.map fun p => positiveTime mid first final / cycles / p),
     .exact (maxCode l * v), .exact (minCode l * v), .exact ((maxCode l - minCode l : Int) * v),
     .exact (top * v), .exact (base * v), .exact (meanOf l * v),
     .root (squareOf l * v * v), .root ((squareOf l - meanOf l * meanOf l) * v * v),
     above, pre,
     Meas.opt (period.map fun _ => meanOf inCycles * v),
     (match period with | some _ => .root (squareOf inCycles * v * v) | none => .none_),
     .exact ups.length,
     secs (mid.head?.map fun x => x.at_ - inst),
     secs delay,
     Meas.opt (match delay, period with | some d, some p => some (reduceAngle (360 * d / p)) | _, _ => none)], fb), s)

/-! ### The measurement record (R327, R329) -/

/-- A value as its float32 word, and whether it is valid (R327). -/
def measWord : Meas → W32 × Bool
  | .exact x => (Config.toFloat32 x, true)
  | .root x => (Config.sqrtFloat32 x, true)
  | .open_ v w => (if v then w else 0x7FC00000#32, v)
  | .none_ => (0x7FC00000#32, false)

/-- The quality bytes of a segment's channel, from its side data (R225). -/
def sideQuality (g : Segment) (ch : Nat) : List Byte :=
  let n := blocksTouched g.first g.last
  let k := ((List.range ch).filter fun i => g.channels.getLsbD i).length
  slice g.side (128 + k * ceil64 n) n

/-- Quality bytes combined. -/
def orBytes (l : List Byte) : Byte := l.foldl (· ||| ·) 0

/-- A clipped code (R121). -/
def clippedAny (l : List Int) : Bool := l.any clippedCode

/-- OVR_MASK (R327): every value rests on levels or sums that use all samples of CHANNEL, and values 22 and 23 also on those
of REF_CHANNEL (DEDUCED, log 46). -/
def ovrMask (c : MsCfg) (g : Segment) (valid : List Bool) : Nat :=
  let own := clippedAny ((keptData g (BitVec.ofNat 8 (2 ^ c.channel))).headD [])
  let ref := decide (c.refChannel ≤ 7) && clippedAny ((keptData g (BitVec.ofNat 8 (2 ^ c.refChannel))).headD [])
  (valid.zipIdx.map fun x => flag (x.1 && (own || (decide (22 ≤ x.2) && ref))) x.2).sum

/-- The 128 bytes of a measurement record (R327). -/
def measBytes (c : MsCfg) (g : Segment) (vals : List (W32 × Bool)) (moved abandoned fallback : Bool) (s : State) : List Byte :=
  let mask := (vals.zipIdx.map fun x => flag x.1.2 x.2).sum
  let ovr := if abandoned then 0 else ovrMask c g (vals.map (·.2))
  le 2 0x0440 ++ [0x02, BitVec.ofNat 8 c.channel] ++ le 4 g.seq ++ le 8 (g.t.toNat / 256) ++ le 4 mask ++ le 4 ovr
    ++ le 4 (Config.toFloat32 (secPerSample s)).toNat
    ++ [orBytes (sideQuality g c.channel),
        BitVec.ofNat 8 (flag moved 0 + flag abandoned 1 + flag fallback 2 + flag (g.flags.getLsbD 10) 3
          + flag (g.flags.getLsbD 11) 4)]
    ++ le 2 1 ++ vals.flatMap fun x => le 4 x.1.toNat

/-- The limits tested when a record completes (R329); events of a MIGRATED record flag their source (R173). -/
def limitsTested (n : Fin 4) (i : Fin 16) (c : MsCfg) (seq : Nat) (vals : List (W32 × Bool)) (moved : Bool) (s : State) : State :=
  c.limits.zipIdx.foldl (fun s lim =>
    match vals[lim.1.1]? with
    | some (w, true) =>
      if Config.ofFloat32 w < Config.ofFloat32 lim.1.2.1 ∨ Config.ofFloat32 lim.1.2.2 < Config.ofFloat32 w then
        raiseMs i.val (2 + lim.2) seq
          (sourceEvent (0x50 + 4 * n.val + lim.2) (tsNow s) { PlaceFlags.none with flagged := moved } false (dueAt s (tsNow s) 6) s)
      else s
    | _ => s) s

/-- TS96 of a segment's first sample. -/
def segStart (g : Segment) : TS96 := tsAdd g.t (-(preLen g * tick : Nat) - g.off)

/-- MSn finishes the segment at the head of its queue (R326 to R329). -/
def measureRecord (n : Fin 4) (s : State) : State :=
  let i : Fin 16 := ⟨8 + n.val, by omega⟩
  let x := s.insts[i]
  match x.cfg, x.queue with
  | some (.measure c), seq :: rest =>
    if x.state == .running && x.next.isNone then
      match findSeg s seq with
      | some g =>
        let gone := g.retention != .retained
        let ((ms, fb), s) := if gone then ((List.replicate 24 Meas.none_, false), s) else measure c g s
        let vals := ms.map measWord
        let body := measBytes c g vals x.moved gone fb s
        let s := updSeg seq (fun g => { g with meas := body }) s
        let s := updInst i (fun x => { x with queue := rest, moved := false }) s
        let s := forStreams .measure i.val (fun k _ s =>
          pushUnit k { body := body, validAt := 128, weight := g.last + 1 - g.first, ts := segStart g, seg := none } s) s
        let s := if gone then raiseMs i.val 1 seq s else limitsTested n i c seq vals x.moved s
        engRelease seq s
      | none => updInst i (fun x => { x with queue := rest }) s
    else s
  | _, _ => s

/-- MEASURE_RECORD (R327): MEASURE finishes a segment and writes its record and limit events. Its reads of the segment found `ecc`
(R239). -/
def execMeasureRecord (r : UnitRead 4) (s : State) : Host.Outcome State Fault Refusal := whenLive s <|
  .next (measureRecord r.unit (scrubbed r.ecc s))

/-! ### The average (R330, R331) -/

/-- The samples of a segment as they are added: as they stand, or resampled so that sample i stands for T + (i − P) Ts. -/
def averageData (c : RaCfg) (g : Segment) : List (List Int) :=
  (keptData g c.channels).map fun l =>
    if c.fine then (List.range l.length).map (Config.resampled l g.off.toNat) else l

/-- The record of a complete average (R331). -/
def averageBytes (i : Nat) (c : RaCfg) (x : Inst) (g : Segment) : List Byte :=
  pad64 (le 2 0x0D00 ++ [BitVec.ofNat 8 i, c.channels] ++ le 4 x.added ++ le 8 x.firstSeq ++ le 8 x.lastSeq
    ++ tsBytes x.firstT ++ le 5 (preLen g) ++ le 5 (g.last + 1 - g.first) ++ le 4 (stick 32 x.leftOut)
    ++ [x.qual, BitVec.ofNat 8 (flag c.fine 0 + flag x.moved 1 + flag x.stepSeen 2)] ++ List.replicate 12 0
    ++ x.sums.flatten.flatMap fun v => le 4 (unsigned 32 (v * 256 / x.added)))

/-- An AVERAGE stream carries the instance's averages. -/
def averageStreamed (i : Nat) (s : State) : Bool :=
  s.hif.streams.toList.any fun x => match x with
    | some st => st.kind == .average && st.source == i && st.closing.isNone
    | none => false

/-- An average is complete (R331): delivered or lost, the engine event DONE, and the next average or none. -/
def averageComplete (n : Fin 4) (i : Fin 16) (c : RaCfg) (g : Segment) (s : State) : State :=
  let x := s.insts[i]
  let body := averageBytes i.val c x g
  let s := if averageStreamed i.val s then
      raiseRa i.val 0 x.lastSeq (forStreams .average i.val (fun k _ s =>
        pushUnit k { body := body, validAt := 0x3C, weight := x.added * (g.last + 1 - g.first), ts := segStart g,
                     seg := none } s) s)
    else raiseRa i.val 1 x.lastSeq (countSkips i 1 s)
  let s := sourceEvent (0x60 + n.val) (tsNow s) { PlaceFlags.none with flagged := x.moved } false (dueAt s (tsNow s) 6) s
  let s := updInst i (fun x => { x with sums := [], added := 0, leftOut := 0, qual := 0, stepSeen := false,
                                        moved := false, stopped := !c.again }) s
  if c.again then s else dropQueue i s

/-- RAn adds the segment at the head of its queue (R331). -/
def averageAdd (n : Fin 4) (s : State) : State :=
  let i : Fin 16 := ⟨12 + n.val, by omega⟩
  let x := s.insts[i]
  match x.cfg, x.queue with
  | some (.average c), seq :: rest =>
    if x.state == .running && x.next.isNone then
      match findSeg s seq with
      | some g =>
        let data := averageData c g
        let chs := (List.range 8).filter fun ch => c.channels.getLsbD ch
        let s := updInst i (fun x =>
          { x with queue := rest, added := x.added + 1, lastSeq := seq,
                   firstSeq := if x.added = 0 then seq else x.firstSeq, firstT := if x.added = 0 then g.t else x.firstT,
                   sums := if x.added = 0 then data else x.sums.zipWith (fun a b => a.zipWith (· + ·) b) data,
                   qual := x.qual ||| orBytes (chs.flatMap (sideQuality g)),
                   stepSeen := x.stepSeen || g.flags.getLsbD 10 }) s
        let s := engRelease seq s
        if (s.insts[i]).added = c.count then averageComplete n i c g s else s
      | none => updInst i (fun x => { x with queue := rest }) s
    else s
  | _, _ => s

/-- AVERAGE_ADD (R331): RECORD_AVERAGE adds a queued segment to the running average. Its reads of the segment found `ecc` (R239). -/
def execAverageAdd (r : UnitRead 4) (s : State) : Host.Outcome State Fault Refusal := whenLive s <|
  .next (averageAdd r.unit (scrubbed r.ecc s))

/-! ### The transfer engine (R234, R236, R363, R365) -/

/-- Bytes of image that one part carries at most (R365). -/
def partMax : Nat := 1048576

/-- A SEGMENT part without its VALID word (R365). -/
def partBody (st : Stream) (g : Segment) (flags off : Nat) (bytes : List Byte) (total : Nat) : List Byte :=
  pad64 (pad 64 (le 2 0x0300 ++ [BitVec.ofNat 8 (flag st.wide 0), BitVec.ofNat 8 flags] ++ le 4 bytes.length ++ le 8 off
    ++ le 8 total) ++ entryBytes g ++ bytes)

/-- The next part of a segment that a SEGMENT stream delivers, the image bytes it carries, and whether it is the last (R236,
R365). -/
def nextPart (st : Stream) (g : Segment) (off : Nat) : List Byte × Nat × Bool :=
  let image := segImage g 0 (g.last + 1 - g.first) g.channels st.wide true
  match g.retention with
  | .overwritten => (partBody st g 2 off [] image.length, 0, true)
  | .released => (partBody st g 4 off [] image.length, 0, true)
  | .retained =>
    let n := min partMax (image.length - off)
    let fin := decide (image.length ≤ off + n)
    (partBody st g (flag fin 0) off ((image.drop off).take n) image.length, n, fin)

/-- One record moves from a stream's buffer to its ring, if the ring has room (R234, R363). -/
def streamTransfer (i : Fin 64) (s : State) : State :=
  match s.hif.streams[i] with
  | none => s
  | some st => match st.buf with
    | [] => s
    | u :: rest =>
      if !dma s then s
      else match u.seg with
        | none =>
          let (s', done) := ringPut i u.body u.validAt s
          if done then updStream i (fun st => { st with buf := rest }) s' else s
        | some seq => match findSeg s seq with
          | none => updStream i (fun st => { st with buf := rest }) s
          | some g =>
            let (body, n, fin) := nextPart st g u.weight
            let (s', done) := ringPut i body 0x3C s
            if done then
              updStream i (fun st => { st with buf := if fin then rest else { u with weight := u.weight + n } :: rest }) s'
            else s

/-- STREAM_TRANSFER (R234), with what the DRAM read of the unit found (R239, R240). -/
def execStreamTransfer (i : Fin 64) (ecc : ScrubResult) (s : State) : Host.Outcome State Fault Refusal := whenLive s <|
  .next (streamTransfer i (scrubbed ecc s))

end Sys2Proof.Machine
end

