-- ==== Sys2Proof/Machine/Admission.lean ====
section
/-!
DEFINITION. Admission control (R205, R211, R212, R319, R325, R330, R493 to R506, R522): charges and limits of every budget for the
configuration that a state holds, the checks of a command against them, and the change of D_AS.
-/
namespace Sys2Proof.Machine

/-! ### Clock factors (R496) -/

/-- fs in GS/s for an fs in mHz. -/
def fsGiga (milli : Nat) : Rat := (milli : Rat) / 1000000000000

/-- Factor of a domain of nominal frequency f in GHz (R85, R496). -/
def clockFactor (milli : Nat) (f : Rat) : Rat :=
  let fs := fsGiga milli
  let nb := (fs / f).ceil
  if nb ≤ 0 then 1 else min 1 (fs / (nb * f))

/-- k_F, k_D and k_E: fabric 1.6 GHz, DRAM controllers and engines 2.0 GHz (R30, R76). -/
def kFabric (milli : Nat) : Rat := clockFactor milli (8 / 5)
def kDram (milli : Nat) : Rat := clockFactor milli 2
def kEngine (milli : Nat) : Rat := clockFactor milli 2

/-! ### Charges of instances (R304, R319, R325, R330, R502) -/

/-- The settings with which an instance counts: those in force or being loaded while it is enabled (R493). -/
def chargedCfg (x : Inst) : Option SvcCfg :=
  if x.state == .off && x.next.isNone then none else match x.next with | some c => some c | none => x.cfg

/-- log2 of a power of two. -/
def log2 (n : Nat) : Nat := n.log2

/-- L of the sequencer that an instance is bound to. -/
def boundL (s : State) (i : Nat) : Nat := match getN s.seqs (i % 4) with | some q => q.cfg.l | none => 0

/-- Engines of an instance (R304, R319, R325, R330). -/
def svcEngines (milli : Nat) (c : SvcCfg) : Nat :=
  let credit := 60 * kEngine milli
  match c with
  | .spectral c =>
    let chain := decide (0x10 ≤ c.input)
    let r := if chain then fsGiga milli / 4 else fsGiga milli
    (r * (if chain then 18 + 2 * log2 c.n else 10 + log2 c.n : Nat) / credit).ceil.toNat
  | .measure c => ((c.maxRate : Rat) / 1000000000 * 8 / credit).ceil.toNat + 1
  | .average c => ((c.maxRate : Rat) / 1000000000 * (if c.fine then 18 else 2) / credit).ceil.toNat + 1

/-- Engines of an instance under the SVC image in service (R304, R454): what an image other than the factory's declares is its
own (log 62). -/
def instEngines (s : State) (milli i : Nat) (c : SvcCfg) : Nat :=
  match s.upd.svcImage with
  | some img => Config.svcEngines img i
  | none => svcEngines milli c

/-- Engine scratch of an instance in GB/s (R319, R325, R330). -/
def svcScratch (milli : Nat) (c : SvcCfg) : Rat :=
  match c with
  | .spectral c => if 0x10 ≤ c.input then 4 * (fsGiga milli / 4) + 5 else 3 / 2 * fsGiga milli + 5
  | .measure c => 3 / 2 * ((c.maxRate : Rat) / 1000000000)
  | .average c => 19 / 2 * ((c.maxRate : Rat) / 1000000000)

/-- Engine scratch space of an instance in MB (R330, R502). -/
def svcSpace (s : State) (i : Nat) (c : SvcCfg) : Rat :=
  match c with
  | .spectral _ => 256
  | .measure _ => 64
  | .average c => 64 + (8 * boundL s i * popcount8 c.channels : Nat) / 1048576

/-- Points of spectral memory (R319). -/
def svcPoints (c : SvcCfg) : Nat := match c with | .spectral c => c.n | _ => 0

/-- The sum of a charge over the enabled instances. -/
def sumInst (s : State) (f : Nat → SvcCfg → Rat) : Rat :=
  ((List.finRange 16).map fun i => match chargedCfg s.insts[i] with | some c => f i.val c | none => 0).foldl (· + ·) 0

/-! ### Charges of streams (R268, R498, R500) -/

/-- Padded size F of a full frame of a chain (R268). -/
def frameBytes (c : DdcCfg) : Nat :=
  ceil64 (32 + 1024 * (if 2 ≤ c.preset then 3 else 2) * (if c.nco then 2 else 1))

/-- Records per second of a timer in units of 10^9 (R498). -/
def timerRate (milli : Nat) (t : Timer) : Rat :=
  let edge := fun (src : Nat) =>
    if within 0x10 src 0x14 then (1 : Rat) / 4
    else if src = 0x18 ∨ src = 0x19 then fsGiga milli / 160
    else if within 0x20 src 0x2F then fsGiga milli / 2 else fsGiga milli / 64
  match t.mode with
  | .off => 0
  | .stamp => edge t.startSrc
  | .interval => edge t.stopSrc
  | .frequency => if t.gateNs = 0 then 0 else (1 : Rat) / t.gateNs

/-- S of a stream in GB/s (R498). -/
def streamCharge (milli : Nat) (s : State) (st : Stream) : Rat :=
  let fs := fsGiga milli
  match st.kind with
  | .channel => fs * (if st.wide then 8256 else 6208) / 4096
  | .reduction => if st.laneN = 0 then 0 else fs / st.laneN * (257 / 16) + 65536 / 1000000000
  | .segment => 0
  | .ddc => match getN s.ddcs st.source with
    | some d => let c := chainCfg d
      if chainOn c then fs / presetD c.preset * frameBytes c / 1024 else 0
    | none => 0
  | .spectrum => match (getN s.insts st.source).bind chargedCfg with
    | some (.spectral c) =>
      let d := if c.input ≤ 7 then 1 else match getN s.ddcs (c.input - 0x10) with
        | some x => presetD (chainCfg x).preset
        | none => 0
      if d = 0 then 0 else fs / (c.n * c.integ * d : Nat) * ceil64 (32 + 2 * c.streamBins)
    | _ => 0
  | .measure => match (getN s.insts st.source).bind chargedCfg with
    | some (.measure c) => 2 * (c.maxRate : Rat) / 1000000000
    | _ => 0
  | .average => match (getN s.insts st.source).bind chargedCfg with
    | some (.average c) => 5 * (c.maxRate : Rat) / c.count / 1000000000
    | _ => 0
  | .timer => match getN s.timers st.source with | some t => 64 * timerRate milli t | none => 0

/-- The part of a stream that is produced on a tile (R500). -/
def onTile (tile : Nat) (st : Stream) : Rat :=
  match st.kind with
  | .channel | .reduction | .ddc => if st.source / 4 = tile then 1 else 0
  | .spectrum | .measure | .average => 1 / 2
  | .timer => if tile = 0 then 1 else 0
  | .segment => 0

/-- Open streams (R493). -/
def openStreams (s : State) : List Stream := s.hif.streams.toList.filterMap fun x => match x with
  | some st => if st.closing.isNone then some st else none
  | none => none

/-- Sum of rationals over the open streams. -/
def sumStreams (s : State) (f : Stream → Rat) : Rat := ((openStreams s).map f).foldl (· + ·) 0

/-! ### Budgets (R496 to R502) -/

/-- Channels captured by configured sequencers (R496). -/
def capturedChannels (s : State) : Byte :=
  (List.finRange 4).foldl (fun m a => if (s.seqs[a]).configured then m ||| (s.seqs[a]).cfg.channels else m) 0

/-- Channels of a mask on a compute tile (R21). -/
def tileCount (tile : Nat) (m : Byte) : Nat := ((List.range 4).filter fun i => m.getLsbD (4 * tile + i)).length

/-- B_PCIE in GB/s. -/
def pcieGiga (s : State) : Rat := (pcieBudget s.hif.linkGen s.hif.linkWidth : Rat) / 10

/-- DRAM used in MB (R205, R502). Side areas count with their capture region (DEDUCED, log 29). -/
def spaceUsed (s : State) : Rat :=
  4096 + (1024 * s.mem.histGb : Nat)
    + (((List.finRange 4).map fun a => 256 * s.mem.capSize[a] + if s.mem.capSize[a] = 0 then 0 else 64 * s.mem.sideSize[a]).sum : Nat)
    + sumStreams s (fun st => (st.bufBytes / 1048576 : Nat)) + sumInst s (svcSpace s)

/-- The larger of two rationals by tile. -/
def overTiles (f : Nat → Rat) : Rat := max (f 0) (f 1)

/-- Charge of a budget at an fs in mHz (R497 to R502); CAPTURE_REGION and MASK_LIMITS are judged per item. -/
def budgetUsed (milli k : Nat) (s : State) : Rat :=
  let fs := fsGiga milli
  let x := sumInst s fun _ c => svcScratch milli c
  let sigma := sumStreams s (streamCharge milli s)
  match k with
  | 0x01 =>
    3 / 2 * fs * (popcount8 s.mem.histChannels + popcount8 (capturedChannels s) : Nat) + sigma + pcieGiga s + 10 + x
      + (4 * fs / 128 * 8 + 4 * fs / 256 * 8 + 4) + 6
  | 0x02 =>
    overTiles fun t => 1 / 2 * (3 / 2 * fs * (tileCount t s.mem.histChannels + tileCount t (capturedChannels s) : Nat)
      + sumStreams s (fun st => onTile t st * streamCharge milli s st)) + x / 4 + 10
  | 0x03 => sigma
  | 0x04 => overTiles fun t => sumStreams s fun st => onTile t st * streamCharge milli s st
  | 0x05 => spaceUsed s
  | 0x08 => sumInst s fun i c => (instEngines s milli i c : Nat)
  | 0x09 => x
  | 0x0A => sumInst s fun _ c => (svcPoints c : Nat)
  | _ => 0

/-- Limit of a budget (R305, R319, R497 to R502). -/
def budgetLimit (milli k : Nat) (s : State) : Rat :=
  match k with
  | 0x01 => 5600 * kDram milli
  | 0x02 => 2400 * kFabric milli
  | 0x03 => pcieGiga s * 63 / 64
  | 0x04 => 192 * kFabric milli
  | 0x05 => 262144
  | 0x08 => ((256 - s.eng.retired.eraseDups.length : Int) - 8)
  | 0x09 => 1000 * kEngine milli
  | 0x0A => 131072
  | _ => 0

/-- A change exceeds a budget (R494): it raises the charge, and the charge after it stands above the limit. -/
def exceeds (milli k : Nat) (s s' : State) : Bool :=
  decide (budgetUsed milli k s < budgetUsed milli k s' ∧ budgetLimit milli k s' < budgetUsed milli k s')

/-! ### Capture regions (R211, R212, R522) -/

/-- The settings that a bank has or will have. -/
def redSettled (b : RedBank) : Vector RedLane 4 × BitVec 4 :=
  match b.next with
  | some (l, g, _) => (l, g)
  | none => (b.lanes, b.segRed)

/-- The banks with the settings accepted last. -/
def settledReds (s : State) : Vector RedBank 8 :=
  s.reds.map fun b => { b with lanes := (redSettled b).1, segRed := (redSettled b).2 }

/-- The sizing test of R212 for a sequencer, with every SET_RED accepted so far. -/
def regionSized (s : State) (a : Fin 4) : Bool :=
  let q := s.seqs[a]
  decide (ceilDiv q.cfg.l 4096 + 1 + ceilDiv (lookBack q.cfg.p q.das q.cfg.lateAllow) 4096 + 2
    ≤ capBlocks s.mem.capSize[a] q.cfg.channels)
    && decide (2 * sideBound (settledReds s) q.cfg.channels q.cfg.l ≤ sideCap s.mem a)

/-- The first sequencer of some that would fail the sizing test. -/
def regionFault (s' : State) (which : Fin 4 → Bool) : Option (Fin 4) :=
  (List.finRange 4).find? fun a => (s'.seqs[a]).configured && which a && !regionSized s' a

/-- The budgets of a list that a command would exceed, in ascending code (R494): the code, and the ITEM where the budget is
judged per sequencer. -/
def admission (codes : List Nat) (item : Nat) (which : Fin 4 → Bool) (s s' : State) : Option (Nat × Nat) :=
  codes.findSome? fun k =>
    if k = 0x06 then (regionFault s' which).map fun a => (k, if item = 0x100 then a.val else item)
    else if exceeds (fsMilli s) k s s' then some (k, if item = 0x100 then 0 else item) else none

/-- A command that exceeds a budget is refused with CAPACITY (R494, R505); one that does not goes on. -/
def admitted (codes : List Nat) (item : Nat) (which : Fin 4 → Bool) (s s' : State) (k : Reply) : Reply :=
  match admission codes item which s s' with
  | some (code, it) => .refuse stCapacity code [] it
  | none => k

/-- Every budget that is a sum (R504). -/
def sumBudgets : List Nat := [0x01, 0x02, 0x03, 0x04, 0x05, 0x08, 0x09, 0x0A]

/-! ### Changes of D_AS (R522) -/

/-- D_AS of every configured sequencer that is not armed, computed anew. -/
def refreshDas (s : State) : State :=
  { s with seqs := s.seqs.map fun q => if q.configured && !armed q then { q with das := dAs s q.cfg } else q }

/-- The sequencer's D_AS differs between two states. -/
def dasMoved (s s' : State) (a : Fin 4) : Bool := !armed s.seqs[a] && (s.seqs[a]).das != (s'.seqs[a]).das

/-- An armed sequencer was built on a delay that a change would raise (R522). -/
def raisesArmed (s s' : State) : Bool :=
  (List.finRange 4).any fun a =>
    (s.seqs[a]).configured && armed s.seqs[a] && (s.seqs[a]).built.any fun x => decide (x.2 < tuDelay s' x.1)

/-! ### Admission registers (R506) -/

/-- A value in the unit of SYS_ADMITk; a fraction of the unit is dropped (DESIGN CHOICE, log 51). -/
def admitUnit (k : Nat) (x : Rat) : Nat :=
  let u := if k = 0x01 ∨ k = 0x02 ∨ k = 0x03 ∨ k = 0x04 ∨ k = 0x09 then 10 * x else x
  u.floor.toNat % 2 ^ 32

/-- SYS_ADMITk (R506). -/
def admitReg (k : Nat) (s : State) : W64 :=
  if k = 0x06 ∨ k = 0x07 ∨ k = 0 ∨ 0x0A < k then 0
  else BitVec.ofNat 64 (admitUnit k (budgetUsed (fsMilli s) k s) + 2 ^ 32 * admitUnit k (budgetLimit (fsMilli s) k s))

end Sys2Proof.Machine
end

