-- ==== Sys2Proof/Machine/Chains.lean ====
section
/-!
DEFINITION. The decimation chains (R245 to R269): the NCO mix, the filters and the Sifter, switches, settling, outputs, detectors and
their events, and the frames of DDC streams. The filters are computed without loss from the codes of the channel; the taps that the
spec does not give, and the rounding of an output, are constants of Config (log 47).
-/
namespace Sys2Proof.Machine

/-- One chain changed. -/
def updDdc (ch : Fin 8) (f : Ddc → Ddc) (s : State) : State := { s with ddcs := upd s.ddcs ch f }

/-- DDCn_STATE (R270, R519): cause 0 SETTLED, 1 CLIP, 2 RECOVER, 3 OVF. -/
def raiseDdc (ch : Fin 8) (cause : Nat) (s : State) : State :=
  raiseNow (srcId 0x98 ch.val) (if cause = 2 then sevWarning else sevNotice)
    ([BitVec.ofNat 8 cause, 0] ++ le 2 (s.ddcs[ch]).configGen.toNat) s

/-! ### The NCO (R249, R250) -/

/-- The accumulator of a CONTINUOUS span, or PHASE of a COHERENT one, at sample `n` (R250). -/
def spanAt (p : NcoSpan) (n : Nat) : Nat := if p.continuous then (p.base + p.ftw * (n - p.start)) % 2 ^ 48 else p.base

/-- The NCO's settings for a sample (R250). -/
def ncoFor (d : Ddc) (n : Nat) : NcoSpan :=
  (d.nco.find? fun p => decide (p.start ≤ n)).getD { start := 0, ftw := 0, base := 0, continuous := false }

/-- φ of a sample in turns × 2^48 (R250). A product that lies midway is rounded up (DESIGN CHOICE, log 47). -/
def ncoPhase (s : State) (d : Ddc) (n : Nat) : Nat :=
  let p := ncoFor d n
  if p.continuous then spanAt p n else (p.base + (p.ftw * (tsArrival s n).toNat + 2 ^ 23) / 2 ^ 24) % 2 ^ 48

/-- The NCO as new settings leave it at their switch sample `w` (R250): a new PHASE sets the accumulator, a retune changes its increment
only. On a change to CONTINUOUS the accumulator starts from PHASE (DESIGN CHOICE, log 47). -/
def ncoSwitch (old new : DdcCfg) (w : Nat) (d : Ddc) : Ddc :=
  if old.ftw = new.ftw && old.phase = new.phase && old.continuous = new.continuous then d
  else
    let keep := new.continuous && old.continuous && old.phase == new.phase
    { d with nco := { start := w, ftw := new.ftw, base := if keep then spanAt (ncoFor d w) w else new.phase,
                      continuous := new.continuous } :: d.nco }

/-- Sample numbers restart: the accumulator goes on from where the channel's samples end. -/
def rebaseNco (ch : Fin 8) (s : State) : State :=
  let n := 40 * (s.slices[ch]).words
  updDdc ch (fun d => { d with nco := [{ ncoFor d n with start := 0, base := spanAt (ncoFor d n) n }] }) s

/-! ### Switches and settling (R257 to R260) -/

/-- The change clears the filter state (R258). -/
def ddcClears (a b : DdcCfg) : Bool :=
  a.preset != b.preset || a.nco != b.nco || a.user != b.user || a.fir != b.fir || a.table != b.table || a.place != b.place
    || a.siftN != b.siftN || a.siftK != b.siftK

/-- The change makes the chain settle anew (R258). -/
def ddcSettles (a b : DdcCfg) : Bool :=
  ddcClears a b || a.ftw != b.ftw || a.phase != b.phase || a.continuous != b.continuous

/-- The chain marks S outputs from now on (R260). -/
def settleDdc (d : Ddc) : Ddc := { d with toMark := chainS d.cfg }

/-- The filter state of a chain cleared from sample `n` on, with its detectors disarmed (R258). -/
def clearDdc (n : Nat) (d : Ddc) : Ddc := { d with clearedAt := n, armed := Vector.replicate 2 .off, last := none }

/-- Frames under construction of a chain's streams end (R265). -/
def closeFrames (ch : Fin 8) (s : State) : State := forStreams .ddc ch.val (fun i _ s => closeFrame i s) s

/-- The settings of a chain change at its switch sample (R258, R269). A frame ends at a change of PRESET (R265). -/
def chainSwitch (ch : Fin 8) (new : DdcCfg) (w : Nat) (s : State) : State :=
  let old := (s.ddcs[ch]).cfg
  let s := if old.preset != new.preset then closeFrames ch s else s
  let s := updDdc ch (fun d =>
    let d := ncoSwitch old new w { d with
      cfg := new, next := none, configGen := if old = new then d.configGen else d.configGen + 1,
      switches := if ddcClears old new then d.switches + 1 else d.switches }
    let d := if ddcSettles old new then settleDdc d else d
    if ddcClears old new then clearDdc w d
    else if old.det = new.det then d else { d with armed := Vector.replicate 2 .off }) s
  if ddcClears old new then restartOnChain ch w s else s

/-- An accepted SET_DDC whose switch sample has come (R257). -/
def chainSwitchDue (ch : Fin 8) (x0 : Nat) (s : State) : State :=
  match (s.ddcs[ch]).next with
  | some (c, w) => if w ≤ x0 then chainSwitch ch c w s else s
  | none => s

/-- Proofing is entered (R259, R318): the state is cleared and the first S outputs of the new grid are marked. A default FIR set is
loaded anew (R456). -/
def chainProofing (ch : Fin 8) (s : State) : State :=
  let s := match (s.ddcs[ch]).next with
    | some (c, _) => chainSwitch ch c 0 s
    | none => s
  restartOnChain ch 0 (updDdc ch (fun d => { settleDdc (clearDdc 0 d) with
    outs := [], cfg := if d.cfg.user then d.cfg else { d.cfg with table := calTable s.upd } }) s)

/-- An epoch instant or a timebase step (R250, R259): a COHERENT chain with the NCO on settles anew, from its first output at
or after it. -/
def chainEpoch (d : Ddc) : Ddc := if d.cfg.nco && !d.cfg.continuous then settleDdc d else d

/-- Chain recovery (R259): the state is cleared at the next lc boundary of the channel. -/
def execChainRecovery (n : Fin 8) (s : State) : Host.Outcome State Fault Refusal := whenLive s <|
  .next (raiseDdc n 2 (updDdc n (fun d => settleDdc (clearDdc (40 * (s.slices[n]).words) d)) s))

/-! ### The stages (R245, R246, R249, R252, R253) -/

/-- A complex value. -/
abbrev Cplx := Rat × Rat

/-- A sum of complex values, each with a weight. -/
def weighted (n : Nat) (c : Nat → Rat) (f : Nat → Cplx) : Cplx :=
  (List.range n).foldl (fun a k => (a.1 + c k * (f k).1, a.2 + c k * (f k).2)) (0, 0)

/-- CIC ratio R of a preset (R246); 1 is the bypass. -/
def cicRatio : Nat → Nat
  | 0 => 1 | 1 => 2 | 2 => 8 | 3 => 32 | 4 => 128 | 5 => 512 | _ => 1

/-- Half-band filters of a preset (R246). -/
def halfBands (p : Nat) : Nat := if p = 0 then 1 else 2

/-- The mix of sample `t` (R245, R249): the code, or 2·code·e^(−jφ) with the NCO on; what lies before the cleared state is zero. -/
def mixed (ch : Fin 8) (s : State) (d : Ddc) (t : Int) : Cplx :=
  if t < d.clearedAt then (0, 0)
  else
    let c : Rat := (samplesOf ch t.toNat t.toNat s).headD 0
    if d.cfg.nco then
      let i := ncoPhase s d t.toNat / 2 ^ 28
      (2 * c * Config.cosine i, -(2 * c * Config.sine i))
    else (c, 0)

/-- `k` integrator-comb pairs of ratio `r`, each the mean of r inputs (R245; unity gain DEDUCED, log 47). -/
def cic (r : Nat) : Nat → (Int → Cplx) → Int → Cplx
  | 0, f => f
  | k + 1, f => fun t => weighted r (fun _ => 1 / r) fun i => cic r k f (t - i)

/-- A 23-tap half-band filter with inputs `step` samples apart (R245). -/
def halfBand (p stage step : Nat) (f : Int → Cplx) (t : Int) : Cplx :=
  weighted 23 (Config.halfBand p stage) fun k => f (t - k * step)

/-- The half-band cascade after the CIC (R245, R246). -/
def cascade (p : Nat) (f : Int → Cplx) : Int → Cplx :=
  let r := cicRatio p
  let g := halfBand p 0 r (cic r 5 f)
  if halfBands p = 1 then g else halfBand p 1 (2 * r) g

/-- A value put into a sorted list. -/
def rankInsert (v : Rat) : List Rat → List Rat
  | [] => [v]
  | a :: t => if v ≤ a then v :: a :: t else a :: rankInsert v t

/-- The k-th smallest of a list (R253). -/
def rankOf (k : Nat) (l : List Rat) : Rat := (l.foldl (fun acc v => rankInsert v acc) []).getD (k - 1) 0

/-- The Sifter on inputs `step` samples apart: I and Q are ranked apart (R253). -/
def sifter (c : DdcCfg) (step : Nat) (f : Int → Cplx) (t : Int) : Cplx :=
  let l := (List.range c.siftN).map fun (i : Nat) => f (t - i * step)
  (rankOf c.siftK (l.map (·.1)), rankOf c.siftK (l.map (·.2)))

/-- Coefficient of the FIR in force, of Q1.16 (R251, R252). -/
def firTap (c : DdcCfg) (k : Nat) : Rat :=
  ((if c.user then c.fir.getD k 0 else Config.defaultFir c.table c.preset k : Int) : Rat) / 65536

/-- The stages from the mix to the Sifter in its AFTER position, in order (R245), in LSB of the input. -/
def chainRaw (ch : Fin 8) (s : State) (d : Ddc) : Int → Cplx :=
  let c := d.cfg
  let half := presetD c.preset / 2
  let u := cascade c.preset (mixed ch s d)
  let v := if c.place = 1 then sifter c half u else u
  let y := fun t => weighted 96 (firTap c) fun k => v (t - k * half)
  if c.place = 2 then sifter c (2 * half) y else y

/-! ### Outputs (R247, R248, R254, R255, R261) -/

/-- Words of 24 bits (R246, R254). -/
def wide24 (c : DdcCfg) : Bool := decide (2 ≤ c.preset)

/-- Values per LSB of a word (R254). -/
def wordUnit (c : DdcCfg) : Nat := if wide24 c then 256 else 4

/-- Largest value of a word (R254). -/
def wordMax (c : DdcCfg) : Int := if wide24 c then 4194303 else 16383

/-- A value of the word nearest below or above an exact one; which of the two the chain takes is open (log 47). -/
def roundOut (x : Rat) : Int := if x = x.floor then x.floor else x.floor + (if Config.ddcRoundsUp x then 1 else 0)

/-- A filter output in LSB shifted and clamped (R254, R255), and whether it was clamped. -/
def shiftClamp (c : DdcCfg) (v : Rat) : Int × Bool :=
  let x := roundOut (v * wordUnit c * 2 ^ c.shift)
  let y := max (-(wordMax c) - 1) (min (wordMax c) x)
  (y, y != x)

/-- TS96 of the output with grid sample `g` (R248, R520). -/
def outputTs (s : State) (c : DdcCfg) (g : Nat) : TS96 := tsAdd (tsArrival s g) (-(chainA2 c * (tick / 2) : Nat))

/-- An output word (R254). -/
def outWord (c : DdcCfg) (v : Int) (unsettled : Bool) : List Byte :=
  if wide24 c then le 3 (2 * unsigned 23 v + flag unsettled 0) else le 2 (2 * unsigned 15 v + flag unsettled 0)

/-- The bytes of an output (R254): one word, or I and then Q. -/
def outBytes (c : DdcCfg) (o : DdcOut) : List Byte :=
  outWord c o.i o.unsettled ++ if c.nco then outWord c o.q o.unsettled else []

/-! ### Detectors (R262, R263) -/

/-- What a detector tests, squared for MAG (R262). -/
def detValue (t : DdcDet) (o : DdcOut) : Int :=
  if t.src = 3 then o.i * o.i + o.q * o.q else if t.src = 2 then o.q else o.i

/-- A level for that test; a MAG level below zero is below every magnitude. -/
def detLevel (t : DdcDet) (x : Int) : Int := if t.src = 3 then (if x < 0 then -1 else x * x) else x

/-- p√A + q√B ≤ C for p, q, A, B not below zero, decided exactly. -/
def rootsBelow (p a q b : Nat) (c : Int) : Bool :=
  let d := c * c - (p * p * a + q * q * b : Nat)
  decide (0 ≤ c ∧ 0 ≤ d ∧ ((4 * p * p * q * q * a * b : Nat) : Int) ≤ d * d)

/-- p√A + q√B ≥ C, decided exactly. -/
def rootsAbove (p a q b : Nat) (c : Int) : Bool :=
  let d := c * c - (p * p * a + q * q * b : Nat)
  decide (c ≤ 0 ∨ d ≤ 0 ∨ d * d ≤ ((4 * p * p * q * q * a * b : Nat) : Int))

/-- Largest m below 65,536 for which a test holds that holds up to some m: bit by bit from the top. -/
def largestM (test : Nat → Bool) : Nat :=
  (List.range 16).foldl (fun m i => if test (m + 2 ^ (15 - i)) then m + 2 ^ (15 - i) else m) 0

/-- m of R263: where the line from output j − 1 to output j meets TH. -/
def eventPlace (t : DdcDet) (a b : DdcOut) (rising : Bool) : Nat :=
  if t.src = 3 then
    let sa := (detValue t a).toNat
    let sb := (detValue t b).toNat
    largestM fun m => if rising then rootsBelow (65536 - m) sa m sb (65536 * t.th) else rootsAbove (65536 - m) sa m sb (65536 * t.th)
  else
    let va := detValue t a
    let vb := detValue t b
    if va = vb then 0 else (max 0 (min 65535 (65536 * (t.th - va) / (vb - va)))).toNat

/-- DDCn_THR (R263, R519). -/
def raiseThr (ch : Fin 8) (k : Nat) (falling : Bool) (t : TS96) (o : DdcOut) (s : State) : State :=
  raise (srcId 0x90 ch.val) sevInfo t
    ([BitVec.ofNat 8 k, BitVec.ofNat 8 (flag falling 0), BitVec.ofNat 8 (flag o.unsettled 0), 0]
      ++ le 4 (unsigned 32 o.i) ++ le 4 (unsigned 32 o.q)) s

/-- One detector takes an output (R262, R263). -/
def detOutput (ch : Fin 8) (o : DdcOut) (k : Fin 2) (s : State) : State :=
  let d := s.ddcs[ch]
  let t := d.cfg.det[k]
  if !t.enable then s
  else
    let v := detValue t o
    let (x, r, f) := (d.armed[k]).feed (decide (detLevel t t.th ≤ v)) (decide (v ≤ detLevel t t.th))
      (decide (v ≤ detLevel t (t.th - t.hyst))) (decide (detLevel t (t.th + t.hyst) ≤ v))
    let s := updDdc ch (fun d => { d with armed := d.armed.set k x }) s
    match d.last with
    | some l =>
      if (r && t.slope != 1) || (f && t.slope != 0) then
        let ts := tsAdd l.ts (eventPlace t l o r * presetD d.cfg.preset * 256 : Nat)
        let at_ : Int := (l.g * tick : Nat) - (chainA2 d.cfg * (tick / 2) : Nat) + (eventPlace t l o r * presetD d.cfg.preset * 256 : Nat)
        let s := sourceEvent (0x20 + 2 * ch.val + k.val) ts { PlaceFlags.none with unsettled := o.unsettled } false
          (dueOf (posSample at_) (chainE d.cfg + 2)) s
        if t.eventEn then raiseThr ch k.val f ts o s else s
      else s
    | none => s

/-! ### Frames (R265 to R267) -/

/-- FORMAT of a frame (R266). -/
def frameFormat (c : DdcCfg) : Nat :=
  c.preset + flag c.nco 3 + flag (wide24 c) 4 + c.place * 32 + flag c.user 7

/-- The header of a frame that begins with an output (R266); COUNT, QUAL and FLAGS are filled in as it grows. -/
def frameHeader (ch : Fin 8) (d : Ddc) (switched : Bool) (o : DdcOut) : List Byte :=
  le 2 0x0800 ++ [BitVec.ofNat 8 ch.val, BitVec.ofNat 8 (frameFormat d.cfg)] ++ le 2 0
    ++ [0, BitVec.ofNat 8 (flag switched 1)] ++ le 8 o.g ++ tsBytes o.ts ++ le 2 d.configGen.toNat ++ le 2 0

/-- An output in a frame: a frame keeps the FORMAT that it began with, over a change of NCO_EN too (DESIGN CHOICE, log 48). -/
def frameWords (d : Ddc) (body : List Byte) (o : DdcOut) : List Byte :=
  outBytes { d.cfg with nco := bit (fieldAt body 3 1) 3 } o

/-- An output joins the frame under construction of one stream (R265, R266), which ends where the next grid sample is a
multiple of 1,024 × D. -/
def frameOutput (ch : Fin 8) (d : Ddc) (o : DdcOut) (i : Fin 64) (st : Stream) (s : State) : State :=
  if st.closing.isSome || decide (o.g < st.first) then s
  else
    let dd := presetD d.cfg.preset
    let opens := st.group.isEmpty
    let body := if opens then frameHeader ch d (st.told != d.switches) o else st.group
    let body := body ++ frameWords d body o
    let flags := (body.getD 7 0) ||| BitVec.ofNat 8 (flag o.unsettled 0 + flag o.clipped 2)
    let body := patch body 4 (le 2 (st.groupCount + 1) ++ [0, flags])
    let s := setStream i (some { st with group := body, groupCount := st.groupCount + 1, groupAt := dd,
                                         groupTs := if opens then o.ts else st.groupTs,
                                         groupFrom := if opens then o.g - chainA2 d.cfg else st.groupFrom,
                                         told := if opens then d.switches else st.told }) s
    if (o.g + dd) % (1024 * dd) = 0 then closeFrame i s else s

/-! ### A word through a chain -/

/-- The chain's count of clamped outputs (R255). -/
def countClip (ch : Fin 8) (s : State) : State :=
  let d := s.ddcs[ch]
  let sticks := statSticks d.clips 1
  let s := updDdc ch (fun d => { d with clips := statAdd d.clips 1, clipSeen := true, clipOvf := d.clipOvf || sticks }) s
  let s := if d.clipSeen then s else raiseDdc ch 1 s
  if sticks then raiseDdc ch 3 s else s

/-- The output of a chain at a grid sample (R247 to R263). -/
def chainOutput (ch : Fin 8) (g : Nat) (s : State) : State :=
  let moved := s.tb.moments.any fun m => decide (m ≤ g ∧ g < m + presetD (s.ddcs[ch]).cfg.preset)
  let s := if moved then updDdc ch chainEpoch s else s
  let d := s.ddcs[ch]
  let y := chainRaw ch s d g
  let i := shiftClamp d.cfg y.1
  let q := shiftClamp d.cfg y.2
  let o : DdcOut := { g := g, ts := outputTs s d.cfg g, i := i.1, q := q.1, unsettled := decide (0 < d.toMark),
                      clipped := i.2 || q.2, scale := (if wide24 d.cfg then 256 else 4) * 2 ^ d.cfg.shift }
  let s := updDdc ch (fun d => { d with toMark := d.toMark - 1 }) s
  let s := if o.clipped then countClip ch s else s
  let s := if d.toMark = 1 then raiseDdc ch 0 s else s
  let s := detOutput ch o 1 (detOutput ch o 0 s)
  let s := forStreams .ddc ch.val (frameOutput ch s.ddcs[ch] o) s
  updDdc ch (fun d => { d with last := some o, outs := o :: d.outs }) s

/-- A slice word through the channel's chain (R245, R247): an output at every multiple of D. -/
def chainWord (ch : Fin 8) (x0 : Nat) (s : State) : State :=
  let s := chainSwitchDue ch x0 s
  let s := forStreams .ddc ch.val (releaseFrames ch (x0 + 40)) s
  let c := (s.ddcs[ch]).cfg
  if !chainOn c then s
  else (List.range 40).foldl (fun s i => if (x0 + i) % presetD c.preset = 0 then chainOutput ch (x0 + i) s else s) s

end Sys2Proof.Machine
end

