-- ==== Sys2Proof/Machine/Settings.lean ====
section
/-!
DEFINITION. The SET_ commands that load units (R183, R184, R206, R174, R226, R257, R313, R392), TIMER_SET (R151, R155) and
STREAM_OPEN (R233, R265, R361, R362). Each checks its ranges, then the budgets, then the rest (R494).
-/
namespace Sys2Proof.Machine

/-- A unit number of a block as an index. -/
def asFin (n x : Nat) : Option (Fin n) := if h : x < n then some ⟨x, h⟩ else none

/-- A block command for unit ITEM of `n` units: the header, the unit, the ranges, then the rest. -/
def forUnit {α : Type} (n op fields : Nat) (parse : Fin n → List Byte → Except Nat α) (c : Call) (k : Fin n → α → Reply) :
    Reply :=
  match headerFault op fields c with
  | some r => r
  | none => match asFin n (item c.block) with
    | none => refuse stInvalid 0xFF
    | some u => match parse u c.block with
      | .error d => refuse stInvalid d
      | .ok x => k u x

/-! ### SET_MEMORY (R205, R206, R211, R212) -/

/-- DRAM as a SET_MEMORY asks for it. -/
structure MemArgs where
  channels : Byte
  gb : Nat
  policy : BitVec 4
  cap : Vector Nat 4
  side : Vector Nat 4

/-- The arguments of SET_MEMORY (R361). -/
def parseMemory (c : Call) : Except Nat MemArgs := do
  need (decide (arg1 c 0x19 ≤ 192)) 0x19
  need (decide (arg1 c 0x1A ≤ 15)) 0x1A
  needNone (((List.range 4).find? fun n => decide (992 < argN c (0x20 + 2 * n) 2)).map (2 * ·)) 0x20
  needNone (((List.range 4).find? fun n => !within 1 (argN c (0x28 + 2 * n) 2) 256).map (2 * ·)) 0x28
  pure { channels := BitVec.ofNat 8 (arg1 c 0x18), gb := arg1 c 0x19, policy := BitVec.ofNat 4 (arg1 c 0x1A),
         cap := Vector.ofFn fun n : Fin 4 => argN c (0x20 + 2 * n.val) 2,
         side := Vector.ofFn fun n : Fin 4 => argN c (0x28 + 2 * n.val) 2 }

/-- The regions laid out anew (R206): the history ring starts empty with the next block, and nothing stays retained. -/
def layMemory (a : MemArgs) (s : State) : State :=
  let b := (nextSample s + 4095) / 4096
  { s with mem := { s.mem with
      histChannels := a.channels, histGb := a.gb, wrapped := false, histStart := b, oldest := b, cutAt := 4096 * b,
      capSize := a.cap, sideSize := a.side, overwrite := a.policy,
      segs := s.mem.segs.map fun g => if g.retention == .retained then { g with retention := .released, releasing := false } else g } }

/-- A READ_SEGMENTS is in progress (R206). -/
def readingSegments (s : State) : Bool :=
  s.hif.qps.toList.any fun q => q.fetched.any fun f => match f.xfer with
    | some (.segment ..) => true
    | _ => false

/-- SET_MEMORY. -/
def setMemory (c : Call) (s : State) : Reply :=
  match parseMemory c with
  | .error d => refuse stInvalid d
  | .ok a =>
    let s' := layMemory a s
    admitted [0x01, 0x02, 0x05, 0x06] 0x100 (fun _ => true) s s'
      (if s.seqs.toList.any armed || (List.range 4).any (fun n => decide (0 < retroBusy s n)) || streamOpenNow s
          || readingSegments s then refuse stBusy 0
       else .ok (raiseHist 0 s') [])

/-- SET_MEMORY (R206): Command that lays out the DRAM regions, discards the history ring and releases retained
segments. -/
def execSetMemory (o : Origin) (s : State) : Host.Outcome State Fault Refusal := whenLive s <|
  .next (runCmd o 0x0010 [] noDeps setMemory s)

/-! ### SET_TU (R166, R174, R522) -/

/-- An armed sequencer reaches the unit through its expression (R174). -/
def armedReaches (s : State) (u : Nat) : Bool :=
  s.seqs.toList.any fun q => armed q && (exprReach s q.cfg).contains u

/-- An enabled FIRING mask takes the unit as its reference (R174, R289). -/
def maskNames (u : Nat) (x : Mask) : Bool :=
  [x.cfg, maskSettled x].any fun c => c.enable && c.map == 1 && c.refTu == u

/-- A unit's new settings, which take effect at `n`; FIRING masks on it take only firings from there (R174). -/
def withTu (u : Fin 16) (cfg : TuCfg) (n : Nat) (s : State) : State :=
  refreshDas { updTu u (fun x => { x with next := some (cfg, n) }) s with
    masks := s.masks.map fun x => if maskNames u.val x then { x with refFrom := (u.val, n) :: x.refFrom.filter (·.1 != u.val) } else x }

/-- SET_TU. -/
def setTu (c : Call) (s : State) : Reply :=
  forUnit 16 0x0011 29 (fun u => parseTu u.val) c fun u cfg =>
    let n := nextSample s
    let s' := withTu u cfg n s
    admitted [0x06] u.val (dasMoved s s') s s'
      (if armedReaches s u.val || raisesArmed s s' then refuse stBusy 0
       else if s.masks.toList.any (maskNames u.val) && !refTuAllowed cfg then refuse stInvalid 1
       else .ok s' (le 8 n))

/-- Items that a SET_TU item names (R478): the units of a SEQUENCE unit, the instance of an event source. -/
def tuDeps (c : Call) : List (Nat × Nat) :=
  let src := fld c.block 1
  if fld c.block 0 = 7 then [(0x0011, fld c.block 10), (0x0011, fld c.block 11), (0x0011, fld c.block 12)]
  else if fld c.block 0 = 6 then []
  else if isSpectralSource src then [(0x0017, (src - 0x30) / 4)]
  else if isMeasureSource src then [(0x0017, 8 + (src - 0x50) / 4)]
  else if isAverageSource src then [(0x0017, 12 + (src - 0x60))]
  else []

/-- SET_TU (R174): Command that writes one trigger unit's type, source and parameters from its switch sample. -/
def execSetTu (o : Origin) (block : List Byte) (s : State) : Host.Outcome State Fault Refusal := whenLive s <|
  .next (runCmd o 0x0011 block tuDeps setTu s)

/-! ### SET_AS (R183, R184, R325) -/

/-- Another configured sequencer captures one of the channels (R184). -/
def channelTaken (s : State) (a : Fin 4) (channels : Byte) : Bool :=
  (List.finRange 4).any fun b => b ≠ a && (s.seqs[b]).configured && (s.seqs[b]).cfg.channels &&& channels != 0

/-- An enabled MSn measures a channel that the sequencer would no longer capture (R325). -/
def measuredAway (s : State) (a : Fin 4) (channels : Byte) : Bool :=
  match (getN s.insts (8 + a.val)).bind chargedCfg with
  | some (.measure m) => !channels.getLsbD m.channel || (m.refChannel != 0xFF && !channels.getLsbD m.refChannel)
  | _ => false

/-- SET_AS. -/
def setAs (c : Call) (s : State) : Reply :=
  forUnit 4 0x0012 16 (fun _ => parseAs) c fun a cfg =>
    let d := dAs s cfg
    let s' := updAs a (fun q => { q with cfg := cfg, configured := true, das := d }) s
    admitted [0x01, 0x02, 0x06] a.val (· = a) s s'
      (if armed s.seqs[a] then refuse stBusy 0
       else if channelTaken s a cfg.channels || measuredAway s a cfg.channels then refuse stInvalid 1
       else .ok s' (le 4 d))

/-- Items that a SET_AS item names (R478): the units of its terms. -/
def asDeps (c : Call) : List (Nat × Nat) :=
  (List.range (min 4 (fld c.block 11))).flatMap fun i => (termUnits (termField (fld c.block (12 + i)))).map fun u => (0x0011, u)

/-- SET_AS (R183): Command that writes one acquisition sequencer's configuration and reports D_AS. -/
def execSetAs (o : Origin) (block : List Byte) (s : State) : Host.Outcome State Fault Refusal := whenLive s <|
  .next (runCmd o 0x0012 block asDeps setAs s)

/-! ### SET_RED (R226, R232) -/

/-- The switch sample of a SET_RED, where it is known at commit (R232). -/
def redSwitchSample (b : RedBank) (n : Nat) : Option Nat :=
  match b.diag with
  | some .proofing | some (.recovery _) => none
  | _ => some n

/-- SET_RED: in proofing and in recovery the switch sample is not known at commit (R232). -/
def setRed (c : Call) (s : State) : Reply :=
  forUnit 8 0x0013 17 (fun _ => parseRed) c fun ch cfg =>
    let n := nextSample s
    let grows := cfg.2 &&& ~~~(redSettled s.reds[ch]).2 != 0
    let at_ := redSwitchSample s.reds[ch] n
    let s' := updRed ch (fun b => { b with next := some (cfg.1, cfg.2, at_) }) s
    admitted (if grows then [0x06] else []) ch.val (fun a => (s.seqs[a]).cfg.channels.getLsbD ch.val) s s'
      (.ok s'
        (match at_ with | none => List.replicate 8 0xFF | some n => le 8 n))

/-- SET_RED (R226): Command that writes one channel's reduction bank from its switch sample. -/
def execSetRed (o : Origin) (block : List Byte) (s : State) : Host.Outcome State Fault Refusal := whenLive s <|
  .next (runCmd o 0x0013 block noDeps setRed s)

/-! ### SET_DDC (R256 to R258) and the latencies of SPECTRAL (R320) -/

/-- Output latency L_in of a SPECTRAL input in units of 1/80 lc (R247, R320): 40 lc for a channel; for a chain L_p, A_p and the
Sifter's lc. With PRESET OFF there are no outputs, and it counts as zero (log 53). -/
def inputLat80 (s : State) (input : Nat) : Nat :=
  if input ≤ 7 then 3200
  else match getN s.ddcs (input - 0x10) with
    | some d => let c := chainCfg d; if chainOn c then 80 * chainL c + presetA2 c.preset else 0
    | none => 0

/-- d of an input under the settings accepted last. -/
def settledD (s : State) (input : Nat) : Nat :=
  if input ≤ 7 then 1 else match getN s.ddcs (input - 0x10) with
    | some d => presetD (chainCfg d).preset
    | none => 0

/-- OUTPUT_LAT of an instance in lc (R314, R320). -/
def outputLatency (s : State) (c : SvcCfg) : Nat :=
  match c with
  | .spectral c => ceilDiv (inputLat80 s c.input + 16000 + 12 * c.n * settledD s c.input) 80
  | _ => 0

/-- EVENT_LAT of an instance in lc (R314, R320), or what an SVC image other than the factory's declares (R454, log 62). -/
def eventLatency (s : State) (i : Nat) (c : SvcCfg) : Nat :=
  match s.upd.svcImage, c with
  | some img, _ => Config.svcEventLat img i
  | none, .spectral _ => outputLatency s c + 2
  | none, _ => 4

/-- The latencies of every enabled instance computed anew, for chains whose settings have changed (DEDUCED, log 53). -/
def refreshLatency (s : State) : State :=
  { s with insts := Vector.ofFn fun i : Fin 16 => match chargedCfg s.insts[i] with
      | some c => { s.insts[i] with outputLat := outputLatency s c, eventLat := eventLatency s i.val c }
      | none => s.insts[i] }

/-- A DDC stream is open on the chain (R257). -/
def ddcStreamed (s : State) (ch : Nat) : Bool := (openStreams s).any fun st => st.kind == .ddc && st.source == ch

/-- SET_DDC. -/
def setDdc (c : Call) (s : State) : Reply :=
  forUnit 8 0x0014 23 (fun ch => parseDdc (calTable s.upd) (chainCfg s.ddcs[ch]) (slice c.block 216 384)) c fun ch cfg =>
    let n := nextSample s
    let s' := refreshDas (refreshLatency (updDdc ch (fun d => { d with next := some (cfg, n) }) s))
    admitted ((if ddcStreamed s ch.val then [0x01, 0x02, 0x03, 0x04] else []) ++ [0x06]) ch.val (dasMoved s s') s s'
      (if raisesArmed s s' then refuse stBusy 0
       else .ok s' (le 8 n ++ le 2 ((s.ddcs[ch]).configGen + (if cfg = (s.ddcs[ch]).cfg then 0 else 1)).toNat))

/-- SET_DDC (R257): Command that writes groups of one decimation chain's settings from switch sample w. -/
def execSetDdc (o : Origin) (block fir : List Byte) (s : State) : Host.Outcome State Fault Refusal := whenLive s <|
  if WellFormed.instr (.setDdc o block fir) then .next (runCmd o 0x0014 (pad 216 block ++ fir) noDeps setDdc s)
  else .fault .illFormed

/-! ### SET_SERVICE (R311 to R313, R319, R325, R330) -/

/-- SERVICE that an instance runs (R311). -/
def serviceOf (i : Nat) : Nat := if i < 8 then 1 else if i < 12 then 2 else 3

/-- Parameters that a service has (R316, R325, R330). -/
def serviceFields (service : Nat) : Nat := if service = 1 then 39 else if service = 2 then 19 else 5

/-- The header of R312 is right (R313). -/
def serviceHeader (b : List Byte) : Bool :=
  let i := fieldAt b 2 1
  decide (i < 16) && fieldAt b 0 2 == serviceOf i && decide (fieldAt b 3 1 ≤ 1) && fieldAt b 4 4 == ifVersion1
    && decide (0x20 + 8 * serviceFields (serviceOf i) ≤ fieldAt b 8 4)

/-- The settings of a SET_SERVICE block for an instance (R316, R325, R330). -/
def parseService (s : State) (i : Nat) (b : List Byte) : Except Nat SvcCfg :=
  match getN s.seqs (i % 4) with
  | some q =>
    if i < 8 then (parseSpectral (fun ch => settledD s (0x10 + ch)) b).map .spectral
    else if i < 12 then (parseMeasure q.cfg.channels (fsMilli s / 1000) b).map .measure
    else (parseAverage q.cfg.channels q.cfg.l (fsMilli s / 1000) b).map .average
  | none => .error 0

/-- Engines that an instance may be given: neither retired, nor a reserve, nor assigned to another instance (R305). -/
def freeEngines (s : State) (i : Fin 16) : List Nat :=
  (List.range 256).filter fun e => !s.eng.retired.contains e && !s.eng.reserve.contains (some e)
    && (match servedBy s e with | some j => j == i | none => !(s.eng.moving.any fun m => m.2.1 == e && m.2.2 != i.val))

/-- One engine put in the order in which the device takes them, which the spec leaves open (log 54). -/
def insertEngine (k e : Nat) : List Nat → List Nat
  | [] => [e]
  | x :: t => if Config.engineKey k e ≤ Config.engineKey k x then e :: x :: t else x :: insertEngine k e t

/-- BUSY of R313. -/
def serviceBusy (s : State) (i : Fin 16) : Bool :=
  if i.val < 8 then
    (match getN s.felts (8 + i.val) with | some f => f.cfg.map == 3 | none => false)
      || s.masks.toList.any (fun x => (maskSettled x).enable && (maskSettled x).source == 8 + i.val)
      || (List.finRange 16).any (fun u =>
          let c := unitCfg s.tus[u]
          c.type != .pattern && c.type != .sequence && isSpectralSource c.source && (c.source - 0x30) / 4 == i.val
            && armedReaches s u.val)
  else match getN s.seqs (i.val % 4) with | some q => armed q | none => false

/-- An instance with the settings it is given, or disabled (R313, R314, R334). -/
def withService (i : Fin 16) (cfg : Option SvcCfg) (version : W32) (engines : List Nat) (s : State) : State :=
  refreshDas (match cfg with
    | some c => updInst i (fun x =>
        { x with next := some c, ifVersion := version, engines := engines, configGen := x.configGen + 1,
                 outputLat := outputLatency s c, eventLat := eventLatency s i.val c }) s
    | none => updInst i (fun x =>
        { x with state := .off, cfg := none, next := none, ifVersion := version, engines := [], configGen := x.configGen + 1,
                 outputLat := 0, eventLat := 0, sums := [], added := 0, stopped := false }) s)

/-- RESULT of SET_SERVICE (R356): engines, scratch in whole MB/s (log 51), OUTPUT_LAT, EVENT_LAT. -/
def serviceResult (s : State) (i : Nat) (cfg : Option SvcCfg) : List Byte :=
  match cfg with
  | some c => le 2 (instEngines s (fsMilli s) i c) ++ le 4 (svcScratch (fsMilli s) c * 1000).floor.toNat
      ++ le 4 (outputLatency s c) ++ le 4 (eventLatency s i c)
  | none => []

/-- Disabling takes effect at once: queued segments are let go, and SVC_STATE tells it of an instance that was enabled. -/
def disableService (i : Fin 16) (was : Bool) (s : State) : State :=
  let s := dropQueue i s
  if was then raiseSvc i sevNotice 1 s else s

/-- The new SVC image while an update is ACTIVATING (R454). -/
def newSvc (s : State) : Option (List Byte) :=
  if s.upd.state == .activating && s.upd.act.banks.getLsbD 4 != s.upd.act.prevBanks.getLsbD 4 then
    some ((s.upd.banks[(4 : Fin 6)])[(if s.upd.act.banks.getLsbD 4 then 1 else 0 : Fin 2)]).image
  else none

/-- The state as an SVC image would run it. -/
def withImage (img : List Byte) (s : State) : State :=
  refreshDas (refreshLatency { s with upd := { s.upd with svcImage := some img } })

/-- The new image supports an IF_VERSION (R445, R454): IF_MIN and IF_MAX stand in the manifest of the record. -/
def imageTakes (s : State) (version : Nat) : Bool :=
  let e := slice (s.upd.manifests[(if s.upd.act.manifestSlot then 1 else 0 : Fin 2)]) (0xC0 + 192 * 4) 192
  within (fieldAt e 0xA0 4) version (fieldAt e 0xA4 4)

/-- SET_SERVICE; while an update is ACTIVATING it passes under both SVC images (R454). -/
def setService (c : Call) (s : State) : Reply :=
  if !serviceHeader c.block then refuse stInvalid 0xFF
  else
    let i : Fin 16 := Fin.ofNat 16 (fieldAt c.block 2 1)
    let parsed : Except Nat (Option SvcCfg) :=
      if fieldAt c.block 3 1 = 1 then (parseService s i.val c.block).map some else .ok none
    match parsed with
    | .error d => refuse stInvalid d
    | .ok cfg =>
      let (k, s) := fresh s
      let n := match cfg with | some x => instEngines s (fsMilli s) i.val x | none => 0
      let order := (freeEngines s i).foldl (fun acc e => insertEngine k e acc) []
      let s' := withService i cfg (BitVec.ofNat 32 (fieldAt c.block 4 4)) (order.take n) s
      let s' := updEng (fun g => { g with moving := g.moving.filter fun m => m.2.2 != i.val }) s'
      let judged := fun (s s' : State) (k : Reply) =>
        admitted [0x01, 0x02, 0x05, 0x06, 0x08, 0x09, 0x0A] i.val (dasMoved s s') s s' k
      let both := fun (k : Reply) => match newSvc s with
        | some img =>
          let s1 := withImage img s
          let s1' := withImage img s'
          if cfg.isSome && !imageTakes s (fieldAt c.block 4 4) then refuse stUnsupported 0
          else judged s1 s1' (if raisesArmed s s1' then refuse stBusy 0 else k)
        | none => k
      judged s s' (both
        (if serviceBusy s i || raisesArmed s s' then refuse stBusy 0
         else .ok (refillReserves (if cfg.isNone then disableService i (chargedCfg s.insts[i]).isSome s' else s'))
           (serviceResult s i.val cfg)))

/-- The item that a SET_SERVICE item names (R478): the sequencer that MS and RA are bound to. -/
def serviceDeps (c : Call) : List (Nat × Nat) :=
  let i := fieldAt c.block 2 1
  if 8 ≤ i ∧ i < 16 then [(0x0012, i % 4)] else []

/-- SET_SERVICE (R313): Command that enables, disables or reconfigures a service instance after admission checks. -/
def execSetService (o : Origin) (block : List Byte) (s : State) : Host.Outcome State Fault Refusal := whenLive s <|
  .next (runCmd o 0x0017 block serviceDeps setService s)

/-! ### SET_BRIM (R392) -/

/-- H_deg of a ring of `n` sites (R381). -/
def hDeg (n : Nat) : Nat := if 4 ≤ n then (n / 2 + 1) / 2 + 1 else 1

/-- The ring has positions: FORMED or DEGRADED. -/
def ringUp (b : Brim) : Bool := b.ring == .formed || b.ring == .degraded

/-- L_SYS is too short for the ring as it is formed (R392). -/
def lsysTooShort (b : Brim) (ns : Nat) : Bool := ringUp b && decide (ns ≤ 400 * hDeg b.sites.length)

/-- A unit's own source is a Brim class (R392). -/
def brimUnit (s : State) (u : Nat) : Bool :=
  match getN s.tus u with
  | some x => let c := unitCfg x; c.type != .pattern && c.type != .sequence && isBrimSource c.source
  | none => false

/-- An armed sequencer's expression names a unit on a Brim class (R392). -/
def brimArmed (s : State) : Bool := (List.range 16).any fun u => brimUnit s u && armedReaches s u

/-- SET_BRIM. -/
def setBrim (c : Call) (s : State) : Reply :=
  withBlock 0x0018 18 parseBrim c fun (ns, exports, mask) =>
    let s' := refreshDas (updBrim (fun b =>
      { b with lsysNs := ns, exports := exports, stopMask := mask, lsysShort := b.lsysShort && lsysTooShort b ns }) s)
    admitted [0x06] (item c.block) (dasMoved s s') s s'
      (if lsysTooShort s.brim ns then refuse stInvalid 0
       else match (List.range 16).find? fun k => (getN exports k).any fun u => decide (u < 16) && brimUnit s u with
         | some k => refuse stInvalid (1 + k)
         | none =>
           if (ns ≠ s.brim.lsysNs && brimArmed s) || raisesArmed s s' then refuse stBusy 0
           else .ok s' [])

/-- Items that a SET_BRIM item names (R478): the exported units and sequencers. -/
def brimDeps (c : Call) : List (Nat × Nat) :=
  (List.range 16).filterMap fun i =>
    let x := fld c.block (1 + i)
    if x < 0x10 then some (0x0011, x) else if x < 0x14 then some (0x0012, x - 0x10) else none

/-- SET_BRIM (R392): Command that sets L_SYS, trigger-class export sources and the array-stop sequencer mask. -/
def execSetBrim (o : Origin) (block : List Byte) (s : State) : Host.Outcome State Fault Refusal := whenLive s <|
  .next (runCmd o 0x0018 block brimDeps setBrim s)

/-! ### TIMER_SET (R151, R155, R361, R362) -/

/-- A forced run is under way on a TAC that CAL_NOW names (R362). -/
def forcedBusy (s : State) (calNow : Nat) : Bool :=
  (List.finRange 7).any fun i => bit calNow i.val && (s.tacs[(⟨i.val, by omega⟩ : Fin 8)]).calRun == some .forced

/-- Forced runs begin (R151), unless SYN-T has no band and no TAC converts (R149). -/
def startForced (calNow : Nat) (s : State) : State :=
  if s.clk.noBand[3] then s
  else forAll 7 (fun i s =>
    if bit calNow i.val then updTac ⟨i.val, by omega⟩ (fun t => { t with calRun := some .forced, hits := 0 }) s else s) s

/-- TIMER_SET: the record numbers of a timer run on, and its latest record stays (DEDUCED, log 55). -/
def timerSet (c : Call) (s : State) : Reply :=
  let n := arg1 c 0x18
  let cal := arg1 c 0x1F
  if n = 0xFF then (if forcedBusy s cal then refuse stBusy 0 else .ok (startForced cal s) [])
  else match asFin 8 n with
    | none => refuse stInvalid 0x18
    | some t => match parseTimer c with
      | .error d => refuse stInvalid d
      | .ok tm =>
        let s' := updTimer t (fun x => { tm with seq := x.seq, latest := x.latest }) s
        let streamed := (openStreams s).any fun st => st.kind == .timer && st.source == n
        admitted (if streamed then [0x01, 0x02, 0x03, 0x04] else []) 0 (fun _ => false) s s'
          (if forcedBusy s cal then refuse stBusy 0 else .ok (startForced cal s') [])

/-- TIMER_SET (R155): Command that configures a timer and optionally starts forced TAC calibration runs. -/
def execTimerSet (o : Origin) (s : State) : Host.Outcome State Fault Refusal := whenLive s <|
  .next (runCmd o 0x0025 [] noDeps timerSet s)

/-! ### STREAM_OPEN (R233, R265, R361 to R363) -/

/-- The kind of a KIND code (R361). -/
def streamKind : Nat → Option StreamKind
  | 1 => some .channel | 2 => some .reduction | 3 => some .segment | 4 => some .ddc | 5 => some .spectrum
  | 6 => some .measure | 7 => some .average | 8 => some .timer
  | _ => none

/-- A SOURCE that exists for a kind (R311, R361). -/
def sourceExists (k : StreamKind) (x : Nat) : Bool :=
  match k with
  | .channel | .reduction | .ddc | .spectrum | .timer => decide (x ≤ 7)
  | .segment => decide (x ≤ 3)
  | .measure => within 8 x 11
  | .average => within 12 x 15

/-- The largest record that a stream can produce (R364, R365). -/
def largestRecord (s : State) (st : Stream) : Nat :=
  match st.kind with
  | .channel => if st.wide then 8256 else 6208
  | .reduction => 16448
  | .segment => 1048704
  | .ddc => match getN s.ddcs st.source with | some d => frameBytes (chainCfg d) | none => 64
  | .spectrum => match (getN s.insts st.source).bind chargedCfg with
    | some (.spectral c) => ceil64 (32 + 2 * c.streamBins)
    | _ => 64
  | .measure => 128
  | .average => match (getN s.insts st.source).bind chargedCfg with
    | some (.average c) => ceil64 (64 + 4 * boundL s st.source * popcount8 c.channels)
    | _ => 64
  | .timer => 64

/-- The lane that a REDUCTION stream names, as SET_RED left it. -/
def laneSettled (s : State) (ch lane : Nat) : Option RedLane :=
  match getN s.reds ch with
  | some b => getN (redSettled b).1 lane
  | none => none

/-- First sample of the first interval that begins at or after sample `n` on a lane's grid (R227, R233): a SET_RED that waits
starts a new grid, and a SELFTEST gives way to the stream (R232). -/
def firstInterval (b : RedBank) (lane n : Nat) : Nat :=
  let onGrid := match getN b.start lane, getN (lanesNow b) lane with
    | some o, some l => o + ceilDiv (n - o) l.n * l.n
    | _, _ => n
  if b.diag == some .selftest then n
  else match b.next with
    | some (l, _, some w) => match getN l lane with
      | some x => w + ceilDiv (n - w) x.n * x.n
      | none => n
    | _ => onGrid

/-- The first sample that a stream covers (R233, R265, R356); zero for kinds that report none. -/
def firstCovered (s : State) (k : StreamKind) (source lane : Nat) : Nat :=
  let n := nextSample s
  match k with
  | .channel => ceilDiv n 4096 * 4096
  | .reduction => match getN s.reds source with | some b => firstInterval b lane n | none => 0
  | .ddc => match getN s.ddcs source with
    | some d => let dd := presetD (chainCfg d).preset; if dd = 0 then n else ceilDiv n dd * dd
    | none => 0
  | _ => 0

/-- The stream that STREAM_OPEN asks for (R361). -/
def parseStream (s : State) (c : Call) : Except Nat (Fin 64 × Stream) := do
  need (decide (arg1 c 0x18 ≤ 63)) 0x18
  need (streamKind (arg1 c 0x19)).isSome 0x19
  let k := (streamKind (arg1 c 0x19)).getD .channel
  let source := arg1 c 0x1A
  need (sourceExists k source) 0x1A
  need (decide (arg1 c 0x1B ≤ (if k == .reduction then 3 else 0))) 0x1B
  let lane := laneSettled s source (arg1 c 0x1B)
  need (k != .reduction || lane.any fun l => l.mode != .off) 0x1B
  need (decide (arg1 c 0x1C ≤ (if k == .channel || k == .segment then 1 else 0))) 0x1C
  need (within 1 (argN c 0x1E 2) 1024) 0x1E
  need (argN c 0x20 8 % 8 == 0) 0x20
  need (within 22 (arg1 c 0x30) 32) 0x30
  need (paramAddr c.desc % 65536 == 0) 0x08
  pure (Fin.ofNat 64 (arg1 c 0x18),
    { kind := k, source := source, lane := arg1 c 0x1B, wide := arg1 c 0x1C == 1, vector := BitVec.ofNat 6 (arg1 c 0x1D),
      irq := bit (arg1 c 0x1D) 7, bufBytes := argN c 0x1E 2 * 67108864, tailAddr := argN c 0x20 8, irqBytes := argN c 0x28 4,
      irqUsec := argN c 0x2C 4, ringLog2 := arg1 c 0x30, ringAddr := paramAddr c.desc,
      first := if k == .reduction || k == .ddc then nextSample s else firstCovered s k source (arg1 c 0x1B), laneN := match lane with | some l => l.n | none => 0,
      buf := [], gap := none, tail := 0, consumed := 0, held := none, unsignalled := 0, firstUnsignalledAt := none,
      closing := none, seq := 0, group := [], groupCount := 0, groupTs := 0, groupAt := 0, groupFrom := 0, waiting := [],
      told := match getN s.ddcs source with | some d => if k == .ddc then d.switches else 0 | none => 0 })

/-- A REDUCTION stream ends a SELFTEST of its bank at its first interval (R232). -/
def endSelftest (st : Stream) (s : State) : State :=
  match st.kind, asFin 8 st.source with
  | .reduction, some ch =>
    updRed ch (fun b =>
      if b.diag == some .selftest && b.next.isNone then { b with next := some (b.lanes, b.segRed, some st.first) } else b) s
  | _, _ => s

/-- STREAM_OPEN. -/
def streamOpen (c : Call) (s : State) : Reply :=
  match parseStream s c with
  | .error d => refuse stInvalid d
  | .ok (i, st) =>
    let s' := setStream i (some st) s
    admitted [0x01, 0x02, 0x03, 0x04, 0x05] 0 (fun _ => false) s s'
      (if (s.hif.streams[i]).isSome || s.tb.state == .armed || s.tb.state == .pending then refuse stBusy 0
       else if 2 ^ st.ringLog2 < 2 * largestRecord s st then refuse stInvalid 0x30
       else .ok (endSelftest st s') (le 8 (firstCovered s st.kind st.source st.lane)))

/-- STREAM_OPEN (R233): Command that opens a stream of a given kind with its buffer and host ring. -/
def execStreamOpen (o : Origin) (s : State) : Host.Outcome State Fault Refusal := whenLive s <|
  .next (runCmd o 0x0033 [] noDeps streamOpen s)

end Sys2Proof.Machine
end

