-- ==== Sys2Proof/Machine/Brim.lean ====
section
/-!
DEFINITION. Membership of the Brim ring (R379, R380, R385, R389 to R392, R402, R405): EPOCH, STATUS and DISCOVER messages, the
forming of the ring, stale peers, agreement of settings, and the margin register.
-/
namespace Sys2Proof.Machine

/-- A peer entry changed. -/
def updPeer (n : Fin 64) (f : Peer → Peer) (s : State) : State :=
  { s with brim := { s.brim with peers := upd s.brim.peers n f } }

/-- Some link of this member is UP, so that a flooded message leaves it. -/
def anyLinkUp (s : State) : Bool := (List.finRange 4).any fun p => linkUp s p

/-! ### EPOCH (R391) -/

/-- The epoch state that a sender announces is recorded in its peer entry (R391). -/
def epochMessage (rx : Rx) (s : State) : State :=
  flooded rx (fun s => checkAligned (updPeer (flitOrigin rx.flit) (fun p => { p with epoch := flitTb rx.flit % 4 }) s)) s

/-- EPOCH_MESSAGE (R391): An EPOCH flit is received and the sender's epoch state recorded. -/
def execEpochMessage (rx : Rx) (s : State) : Host.Outcome State Fault Refusal := whenLive s <|
  if WellFormed.instr (.epochMessage rx) then .next (epochMessage rx s) else .fault .illFormed

/-- EPOCH is sent at an epoch instant of this member, with T = V (R391). -/
def sendEpoch (v : BitVec 72) (s : State) : State :=
  if anyLinkUp s then flood 0x03 0 ((v.zeroExtend 96) <<< 24) 0 [] s else s

/-! ### STATUS (R388 to R390) -/

/-- FS_KHZ in force, as STATUS carries it (R389). -/
def fsKhzWord (s : State) : W32 := BitVec.ofNat 32 s.clk.fsKhzNow

/-- BODY of STATUS (R384). -/
def statusBody (s : State) : List Byte :=
  le 4 (fsKhzWord s).toNat ++ le 4 s.brim.lsysNs ++ le 9 (if s.tb.state == .set then s.tb.epochV.toNat else 0)
    ++ [BitVec.ofNat 8 (flag s.clk.refret 0 + flag s.brim.aligned 1)]

/-- STATUS is flooded (R385). -/
def execStatusSend (s : State) : Host.Outcome State Fault Refusal := whenLive s <|
  if anyLinkUp s then
    let s := checkAligned s
    let (t, s) := egressStamp s
    .next (flood 0x04 0 t 0 (statusBody s) s)
  else .next s

/-- The first setting of a STATUS that differs from this member's own (R389): 0 FS_KHZ, 1 L_SYS, 2 REFRET, 3 V. -/
def statusDiffers (f : List Byte) (s : State) : Option Nat :=
  if flitBody f 0x20 4 ≠ (fsKhzWord s).toNat then some 0
  else if flitBody f 0x24 4 ≠ s.brim.lsysNs then some 1
  else if bit (flitBody f 0x31 1) 0 ≠ s.clk.refret then some 2
  else if flitTb f % 4 = 2 ∧ s.tb.state = .set ∧ flitBody f 0x28 9 ≠ s.tb.epochV.toNat then some 3
  else none

/-- BRIM_CONFIG (R519). -/
def raiseConfig (pos field : Nat) (s : State) : State :=
  raiseNow 0xE5 sevWarning [BitVec.ofNat 8 pos, BitVec.ofNat 8 field] s

/-- A site of the list that is not dark and not this member is STALE, so unreachable (R402). -/
def siteLost (b : Brim) : Bool :=
  b.sites.zipIdx.any fun x => !x.1.dark && x.2 ≠ b.position && (match getN b.peers x.2 with | some p => p.stale | none => true)

/-- SPLIT ends when every member is reachable again (R402). -/
def settleSplit (s : State) : State :=
  if s.brim.ring == .split && !siteLost s.brim then settleRing (toRing .degraded 0 s) else s

/-- What a member takes from a STATUS (R388, R389, R402, R405). -/
def takeStatus (rx : Rx) (s : State) : State :=
  let f := rx.flit
  let o := flitOrigin f
  let theta := tsDiff (flitT f) rx.arrival + flitCorr f + (s.brim.links[rx.link]).delay
  let differs := statusDiffers f s
  let s := updPeer o (fun p => { p with
    offset := BitVec.ofInt 48 (unitsToFs s theta), hops := (flitHops f + 1) % 64, epoch := flitTb f % 4,
    coasting := bit (flitTb f) 2, stale := false, valid := true, fsKhz := BitVec.ofNat 32 (flitBody f 0x20 4),
    agrees := differs.isNone }) s
  let s := match differs with
    | some k =>
      if s.brim.cfgMismatch then s
      else raiseConfig o.val k (updBrim (fun b => { b with cfgMismatch := true }) s)
    | none => s
  checkAligned (settleSplit s)

/-- STATUS_MESSAGE (R389): A STATUS flit is received, compared with own settings and used for θ. -/
def execStatusMessage (rx : Rx) (s : State) : Host.Outcome State Fault Refusal := whenLive s <|
  if WellFormed.instr (.statusMessage rx) then .next (flooded rx (takeStatus rx) s) else .fault .illFormed

/-- No STATUS from a peer for 10 ms (R389, R402). -/
def peerStale (n : Fin 64) (s : State) : State :=
  let listed := match s.brim.sites[n.val]? with | some x => !x.dark | none => false
  if n.val = s.brim.position || (s.brim.peers[n]).stale || !((s.brim.peers[n]).valid || listed) then s
  else
    let s := updPeer n (fun p => { p with stale := true }) s
    let s := if s.brim.ring == .degraded && listed then toRing .split 0 s else s
    checkAligned s

/-- PEER_STALE (R389): No STATUS from a peer for 10 ms. -/
def execPeerStale (n : Fin 64) (s : State) : Host.Outcome State Fault Refusal := whenLive s <| .next (peerStale n s)

/-- Every peer agrees (R389). -/
def peersAgree (b : Brim) : Bool :=
  b.peers.toList.zipIdx.all fun x => x.2 = b.position || !x.1.valid || x.1.stale || x.1.agrees

/-- 10 ms have passed with every peer in agreement (R389). -/
def execCfgMismatchClear (s : State) : Host.Outcome State Fault Refusal := whenLive s <|
  .next (if peersAgree s.brim then updBrim (fun b => { b with cfgMismatch := false }) s else s)

/-! ### DISCOVER and the forming of the ring (R380, R385, R387, R402) -/

/-- Serial number of this module (R482). -/
def ownSerial : List Byte := (List.range 12).map Config.serialByte

/-- Link states as DISCOVER carries them (R384, R404). -/
def linkStates (b : Brim) : Nat :=
  (b.links.toList.zipIdx.map fun x =>
    (match x.1.state with | .down => 0 | .training => 1 | .up => 2) * 4 ^ x.2).sum

/-- DISCOVER is flooded (R385); the first after PERST# release has SEQ 0. -/
def execDiscoverSend (s : State) : Host.Outcome State Fault Refusal := whenLive s <|
  if anyLinkUp s then
    let (t, s) := egressStamp s
    let body := ownSerial ++ [BitVec.ofNat 8 s.brim.sites.length, BitVec.ofNat 8 (linkStates s.brim)]
    if s.brim.discovered then .next (flood 0x07 0 t 0 body s)
    else .next (floodSeq 0 0x07 0 t 0 body (updBrim (fun b => { b with discovered := true }) s))
  else .next s

/-- Serial in a DISCOVER (R384). -/
def discoverSerial (f : List Byte) : List Byte := Sys2Proof.Machine.slice f 0x20 12

/-- The serial known for a position. -/
def knownSerial (s : State) (o : Fin 64) : List Byte := (s.brim.peers[o]).serial

/-- What a member takes from a DISCOVER (R402): the far end of a link, too many sites, a serial that differs. -/
def takeDiscover (rx : Rx) (s : State) : State :=
  let f := rx.flit
  let o := flitOrigin f
  let s := if flitHops f = 0 then updLink rx.link (fun l => { l with farPos := o.val }) s else s
  if 64 < flitBody f 0x2C 1 then
    if s.brim.tooMany then s else toRing .forming 1 (updBrim (fun b => { b with tooMany := true }) s)
  else
    let same := match s.brim.sites[o.val]? with | some x => x.serial == discoverSerial f | none => false
    match s.brim.ring with
    | .formed | .degraded | .split => if same then s else toRing .forming 0 s
    | _ => s

/-- A DISCOVER is received (R386, R387, R402): where its position now belongs to another serial, the table of that position is
cleared first. -/
def discover (rx : Rx) (s : State) : State :=
  let o := flitOrigin rx.flit
  let serial := discoverSerial rx.flit
  if linkUp s rx.link && crcOk rx.flit then
    let s := if knownSerial s o == serial then s
      else updPeer o (fun p => { p with serial := serial })
        (if knownSerial s o == [] then s else updBrim (fun b => { b with dup := b.dup.set o none }) s)
    flooded rx (takeDiscover rx) s
  else s

/-- DISCOVER (R402): A DISCOVER flit is received and the site list updated. -/
def execDiscover (rx : Rx) (s : State) : Host.Outcome State Fault Refusal := whenLive s <|
  if WellFormed.instr (.discover rx) then .next (discover rx s) else .fault .illFormed

/-- A serial is lower than another, compared byte by byte (R380). -/
def serialLt : List Byte → List Byte → Bool
  | [], [] => false
  | [], _ :: _ => true
  | _ :: _, [] => false
  | a :: as, b :: bs => if a = b then serialLt as bs else decide (a.toNat < b.toNat)

/-- Index of the anchor: the member with the lowest serial (R380). -/
def anchorIndex (l : List (List Byte × Bool)) : Nat :=
  ((l.zipIdx.filter fun x => !x.1.2).foldl (fun (best : Option (List Byte × Nat)) x =>
    match best with
    | none => some (x.1.1, x.2)
    | some b => if serialLt x.1.1 b.1 then some (x.1.1, x.2) else best) none).elim 0 (·.2)

/-- The ring's positions (R380): from the anchor, rising by one per site going east. -/
def rotateSites (l : List (List Byte × Bool)) : List Site :=
  let k := anchorIndex l
  (l.drop k ++ l.take k).map fun x => { serial := x.1, dark := x.2 }

/-- Position of this member in a site list (R380). -/
def ownPosition (l : List Site) : Option Nat := l.findIdx? fun x => !x.dark && x.serial == ownSerial

/-- Site at a distance in a direction from a position. -/
def neighbour (n pos : Nat) (p : Fin 4) : Nat :=
  if 2 ≤ p.val then (pos + n - linkSpan p % n) % n else (pos + linkSpan p) % n

/-- L_SYS is checked against the retry rule as the ring forms (R392). -/
def checkLsys (s : State) : State :=
  let short := lsysTooShort s.brim s.brim.lsysNs
  let was := s.brim.lsysShort
  let s := updBrim (fun b => { b with lsysShort := short }) s
  if short && !was then raiseConfig s.brim.position 4 s else s

/-- The site list has been agreed on for 1 ms (R380, R392, R402): positions are assigned, peers start afresh, and the table of a
position that keeps its serial is kept (R387). `list` goes from some site on, eastwards. -/
def ringFormed (list : List (List Byte × Bool)) (s : State) : State :=
  if s.brim.ring ≠ .forming ∨ list.length < 2 then s
  else if 64 < list.length then
    if s.brim.tooMany then s else toRing .forming 1 (updBrim (fun b => { b with tooMany := true }) s)
  else
    let sites := rotateSites list
    match ownPosition sites with
    | none => s
    | some pos =>
      let serialOf := fun (i : Nat) => match sites[i]? with | some x => if x.dark then [] else x.serial | none => []
      let s := updBrim (fun b => { b with
        sites := sites, position := pos, tooMany := false,
        peers := Vector.ofFn fun i : Fin 64 => { Peer.reset with serial := serialOf i.val },
        dup := Vector.ofFn fun i : Fin 64 => if (b.peers[i]).serial == serialOf i.val then b.dup[i] else none,
        links := Vector.ofFn fun p : Fin 4 => { b.links[p] with farPos := neighbour sites.length pos p } }) s
      checkAligned (checkLsys (toRing (if ringWhole s.brim then .formed else .degraded) 0 s))

/-- RING_FORMED (R402): Site list agreed for 1 ms and positions are assigned. -/
def execRingFormed (list : List (List Byte × Bool)) (s : State) : Host.Outcome State Fault Refusal := whenLive s <|
  if WellFormed.instr (.ringFormed list) then .next (ringFormed list s) else .fault .illFormed

/-! ### The margin register (R405) -/

/-- A write of SYS_BRIM_MARGIN's high half with CLR set, or without (R405). -/
def clearMargin (value : W32) (s : State) : State :=
  if value.getLsbD 0 then updBrim (fun b => { b with marginMin := 0x7FFFFFFF }) s else s

/-- MARGIN_CLR (R405): Write of CLR in SYS_BRIM_MARGIN that resets MARGIN_MIN. -/
def execMarginClr (value : W32) (s : State) : Host.Outcome State Fault Refusal := whenReachable s <|
  .next (clearMargin value s)

end Sys2Proof.Machine
end

