-- ==== Sys2Proof/Machine/Cartridges.lean ====
section
/-!
DEFINITION. Cartridges (R50 to R62): the state machine of an input, the identity read, matings, dose and life, wear records, and
the loading of the cartridge set (R54, R106, R107).
-/
namespace Sys2Proof.Machine

/-- One cartridge input changed. -/
def updCart (n : Fin 8) (f : Cart → Cart) (s : State) : State := { s with carts := upd s.carts n f }

/-- One slice changed. -/
def updSlice (n : Fin 8) (f : Slice → Slice) (s : State) : State := { s with slices := upd s.slices n f }

/-! ### The factory area and the wear record (R53, R55, R56) -/

/-- MAGIC, LAYOUT and FACTORY_CRC are right (R53, R62). -/
def factoryOk (f : List Byte) : Bool :=
  slice f 0 4 == [0x59, 0x43, 0x52, 0x54] && fieldAt f 0x004 2 == 1 && crcOk (slice f 0 0x300)

/-- Fields of the factory area (R53). -/
def cartType (c : Cart) : Nat := fieldAt c.factory 0x006 2
def ratedMatings (c : Cart) : Nat := fieldAt c.factory 0x018 2
def doseFactor (c : Cart) : Rat := (fieldAt c.factory 0x01C 4 : Rat) / 65536
def doseBudget (c : Cart) : Nat := fieldAt c.factory 0x020 8

/-- FIR_COEF as 64 taps (R53). -/
def firCoef (f : List Byte) : List Int := (List.range 64).map fun i => signed 16 (fieldAt f (0x040 + 2 * i) 2)

/-- A copy of the wear record is valid (R55). -/
def wearOk (w : List Byte) : Bool := crcOk (slice w 0 64)

/-- SEQ of a copy (R55). -/
def wearSeq (w : List Byte) : Nat := fieldAt w 0 4

/-- The copy in use (R56): true for copy B; none where neither is valid. -/
def wearInUse (a b : List Byte) : Option Bool :=
  match wearOk a, wearOk b with
  | true, true => some (decide (wearSeq a < wearSeq b))
  | true, false => some false
  | false, true => some true
  | false, false => none

/-- The 3V3 supply at the land (R47, R62): off without the main rails and while PERST# is asserted, whatever the input's state. -/
def cart3V3 (n : Fin 8) (s : State) : Bool := (s.carts[n]).v33 && s.pwr.railsOn && !s.pwr.perst

/-- The wear record as the device writes it (R55). DOSE_ACC is the dose kept, rounded down to whole fJ: DESIGN CHOICE, since the spec
states no rounding (log 138). -/
def wearRecord (n : Fin 8) (c : Cart) (seq : Nat) : List Byte :=
  let body := le 4 seq ++ le 4 c.matings ++ le 8 c.dose.floor.toNat ++ [c.wear, BitVec.ofNat 8 n.val, 0, 0]
    ++ (List.range 12).map Config.serialByte ++ List.replicate 28 0
  body ++ le 4 (crc32c body).toNat

/-! ### Life (R58 to R61) -/

/-- Use against a limit (R59); the quotient by a limit of zero is open (log 84). -/
def lifePart (used : Rat) (limit : Nat) : Rat := if limit = 0 then Config.lifeByZero used else used / limit

/-- The life fraction (R59). -/
def lifeFraction (c : Cart) : Rat := max (lifePart c.matings (ratedMatings c)) (lifePart c.dose (doseBudget c))

/-- CART_CHANGE (R62, R519): 0 INSERTED, 1 REMOVED, for which life and MATINGS are zero. TYPE of a cartridge that has not been read is
open (log 49). The life fraction is rounded down to its unit of 0.001: DESIGN CHOICE, since R60 states no rounding (log 138). -/
def raiseCart (n : Fin 8) (removed : Bool) (s : State) : State :=
  let c := s.carts[n]
  let (k, s) := fresh s
  let type := if c.factory.isEmpty then (Config.freeWord k).toNat % 2 ^ 16 else cartType c
  let rest := le 2 type ++ (if removed then List.replicate 6 0
    else le 2 (stick 16 (1000 * lifeFraction c).floor.toNat) ++ le 4 c.matings)
  raiseNow 0xF3 sevNotice ([BitVec.ofNat 8 n.val, BitVec.ofNat 8 (flag removed 0)] ++ rest) s

/-- CART_FAULT (R62, R519): cause 0 OVERCURRENT, 1 NO_ANSWER, 2 BAD_FACTORY, 3 NO_WEAR_RECORD, 4 WEAR_WRITE. -/
def raiseCartFault (n : Fin 8) (cause : Nat) (s : State) : State :=
  raiseNow 0xF5 (if cause = 0 then sevError else sevWarning) [BitVec.ofNat 8 n.val, BitVec.ofNat 8 cause] s

/-- CART_WEAR (R60, R519). -/
def raiseWear (n : Fin 8) (level : Nat) (s : State) : State :=
  raiseNow 0xF4 sevWarning [BitVec.ofNat 8 n.val, BitVec.ofNat 8 level] s

/-- The first block of a channel that starts from now on. -/
def nextBlock (n : Fin 8) (s : State) : Nat := (40 * (s.slices[n]).words + 4095) / 4096

/-- Blocks from `b` on carry CARTRIDGE_WORN (R61, R62). -/
def wornFromBlock (n : Fin 8) (b : Nat) (s : State) : State :=
  updSlice n (fun x => { x with wornFrom := some (match x.wornFrom with | some a => min a b | none => b) }) s

/-- The life fraction reaches a level for the first time: the WEAR bit, CART_WEAR and a write trigger (R59, R60). -/
def reachLevel (n : Fin 8) (b level : Nat) (reached : Bool) (s : State) : State :=
  if reached && !(s.carts[n]).wear.getLsbD b then
    raiseWear n level (updCart n (fun c => { c with wear := c.wear ||| BitVec.ofNat 8 (2 ^ b), writeDue := true }) s)
  else s

/-- Life after matings or dose have grown (R59 to R61); a cartridge past life marks blocks from `b` on. -/
def lifeCheck (n : Fin 8) (b : Nat) (s : State) : State :=
  let f := lifeFraction s.carts[n]
  let s := reachLevel n 0 80 (decide (4 / 5 ≤ f)) s
  let s := reachLevel n 1 100 (decide (1 ≤ f)) s
  if 1 ≤ f ∨ (s.carts[n]).pastLife then wornFromBlock n b (updCart n (fun c => { c with pastLife := true }) s) else s

/-- Always-on cycles in 60 s (R59). -/
def minuteCycles : Nat := 1500000000

/-- The dose trigger of R59: grown by a thousandth of the budget since the last write, and 60 s passed since the last write. -/
def doseDue (now : Nat) (c : Cart) : Bool :=
  decide ((doseBudget c : Rat) / 1000 ≤ c.dose - c.doseWritten) && decide (c.doseWritten < c.dose)
    && (match c.lastWrite with | some t => decide (minuteCycles ≤ now - t) | none => true)

/-- The dose of a block's clipped samples is added (R58). Only an ACTIVE input counts: a FAULTED one, its cartridge read before or not,
adds no dose (DESIGN CHOICE, log 139). -/
def addDose (n : Fin 8) (clips b : Nat) (s : State) : State :=
  let c := s.carts[n]
  if c.state == .active && decide (0 < clips) && decide (0 < fsMilli s) then
    lifeCheck n (b + 1)
      (updCart n (fun c => { c with dose := c.dose + clips * doseFactor c * (1250000000000000 : Rat) / fsMilli s }) s)
  else s

/-! ### The cartridge set (R54, R106, R107) -/

/-- A set is loaded: it takes effect at the first block that starts after (R106). -/
def loadSet (n : Fin 8) (taps : List Int) (src : FirSource) (s : State) : State :=
  updSlice n (fun x => { x with firNext := some (taps, src, 4096 * nextBlock n s), firInactive := taps }) s

/-- The pass-through set (R62, R106). -/
def loadPassThrough (n : Fin 8) (s : State) : State :=
  loadSet n passThrough .passThrough (updCart n (fun c => { c with deriving_ := false }) s)

/-- The set of an active cartridge (R54): FIR_COEF at 80 GS/s exactly, else one to be derived from RESPONSE. -/
def loadCorrection (n : Fin 8) (s : State) : State :=
  if fsMilli s = 80000000000000 then
    loadSet n (firCoef (s.carts[n]).factory) .firCoef (updCart n (fun c => { c with deriving_ := false }) s)
  else updCart n (fun c => { c with deriving_ := true }) s

/-- RESPONSE and MAX_FREQ in MHz of the factory area (R53). -/
def response (f : List Byte) : List Byte := slice f 0x0C0 512
def maxFreqMhz (f : List Byte) : Nat := fieldAt f 0x02C 4

/-- The set derived for the present fs (R54, R107): the least-squares inverse of RESPONSE up to the lower of MAX_FREQ and 0.45 fs, in
Q1.14. The inverse's taps are an opaque function of what R107 names, and whether a tap is rounded up or down is the derivation's own
(DESIGN CHOICE, log 140). -/
def derivedSet (n : Fin 8) (up : List Bool) (s : State) : List Int :=
  let f := (s.carts[n]).factory
  let limit := min (maxFreqMhz f * 10 ^ 6) (fsMilli s * 45 / 10 ^ 5)
  (List.range 64).map fun k =>
    let x := (Config.inverseTap (response f) limit (fsMilli s) k * 16384).floor + (if up.getD k false then 1 else 0)
    max (-32768) (min 32767 x)

/-- CARTRIDGE_FIR_DERIVED (R107): the derivation is done and its set is loaded. -/
def execCartridgeFirDerived (n : Fin 8) (up : List Bool) (s : State) : Host.Outcome State Fault Refusal := whenLive s <|
  if WellFormed.instr (.cartridgeFirDerived n up) then
    if (s.carts[n]).deriving_ && (s.carts[n]).state == .active then
      .next (loadSet n (derivedSet n up s) .derived (updCart n (fun c => { c with deriving_ := false }) s))
    else .next s
  else .fault .illFormed

/-! ### The state machine (R57, R62) -/

/-- An input starts its identity read with a number of matings counted (R57, R62). -/
def startReading (n : Fin 8) (counted : Nat) (s : State) : State :=
  updCart n (fun _ => { Cart.reset with state := .reading, present := true, v33 := true, counted := counted }) s

/-- PRESENT low for 10 ms with the main rails up (R57, R62). -/
def execCartridgeInsert (n : Fin 8) (s : State) : Host.Outcome State Fault Refusal :=
  if s.pwr.railsOn && (s.carts[n]).state == .absent then .next (startReading n 1 s)
  else .next s

/-- A mating on standby power (R57): the sticky count has one byte and stays at its maximum. -/
def execStandbyMating (n : Fin 8) (s : State) : Host.Outcome State Fault Refusal :=
  if s.pwr.vstbyValid && !s.pwr.railsOn then
    .next { s with pwr := { s.pwr with standbyMatings := upd s.pwr.standbyMatings n fun b => if b = 255 then b else b + 1 },
                   carts := upd s.carts n fun c => { c with present := true } }
  else .next s

/-- An input becomes FAULTED with the flag and the set of R62. -/
def cartFaulted (n : Fin 8) (cause : Nat) (s : State) : State :=
  raiseCartFault n cause (wornFromBlock n (nextBlock n s) (loadPassThrough n
    (updCart n (fun c => { c with state := .faulted, counted := 0, writeDue := false }) s)))

/-- The identity read found a valid factory area (R62): `use` is the wear copy in use. Where neither copy is valid the new record is
written as after a fresh cartridge's: SEQ counts from 0 with copy A in use, so it goes to copy B with SEQ 1 (DESIGN CHOICE, log 141). -/
def cartActive (n : Fin 8) (use : Option Bool) (s : State) : State :=
  let c := s.carts[n]
  let w := match use with | some true => c.wearB | _ => c.wearA
  let s := match use with
    | some b => updCart n (fun c =>
        { c with state := .active, useB := b, seq := BitVec.ofNat 32 (wearSeq w), matings := fieldAt w 4 4 + c.counted,
                 dose := fieldAt w 8 8, doseWritten := fieldAt w 8 8, wear := slice w 16 1 |>.headD 0,
                 writeDue := decide (0 < c.counted), pastLife := bit (fieldAt w 16 1) 1, counted := 0 }) s
    | none => raiseCartFault n 3 (updCart n (fun c =>
        { c with state := .active, useB := false, seq := 0, matings := 0, dose := 0, doseWritten := 0, wear := 3,
                 writeDue := true, pastLife := true, counted := 0 }) s)
  raiseCart n false (lifeCheck n (nextBlock n s) (loadCorrection n s))

/-- CARTRIDGE_ID_READ (R53, R55, R62). -/
def cartridgeIdRead (n : Fin 8) (factory wearA wearB : List Byte) (s : State) : State :=
  if (s.carts[n]).state == .reading then
    if factoryOk factory then
      cartActive n (wearInUse wearA wearB)
        (updCart n (fun c => { c with factory := factory, wearA := wearA, wearB := wearB }) s)
    else cartFaulted n 2 s
  else s

/-- CARTRIDGE_ID_READ (R62): Cartridge identity read completes and the input becomes ACTIVE or FAULTED. -/
def execCartridgeIdRead (n : Fin 8) (factory wearA wearB : List Byte) (s : State) : Host.Outcome State Fault Refusal := whenLive s <|
  if WellFormed.instr (.cartridgeIdRead n factory wearA wearB) then .next (cartridgeIdRead n factory wearA wearB s)
  else .fault .illFormed

/-- CARTRIDGE_READ_TIMEOUT (R62): Cartridge does not answer within 20 ms and the input becomes FAULTED. -/
def execCartridgeReadTimeout (n : Fin 8) (s : State) : Host.Outcome State Fault Refusal := whenLive s <|
  if (s.carts[n]).state == .reading then .next (cartFaulted n 1 s) else .next s

/-- An input without a cartridge: 3V3 off, no worn flag (R61, R62). -/
def cartAbsent (n : Fin 8) (s : State) : State :=
  updSlice n (fun x => { x with wornFrom := none }) (updCart n (fun _ => Cart.reset) s)

/-- PRESENT high for 10 ms (R62). -/
def cartridgeRemove (n : Fin 8) (s : State) : State :=
  if !s.pwr.railsOn then updCart n (fun c => { c with present := false }) s
  else match (s.carts[n]).state with
    | .absent => s
    | .reading => cartAbsent n s
    | .active => cartAbsent n (loadPassThrough n (raiseCart n true s))
    | .faulted => cartAbsent n (raiseCart n true s)

/-- CARTRIDGE_REMOVE (R62): PRESENT high for 10 ms returns the input to ABSENT. -/
def execCartridgeRemove (n : Fin 8) (s : State) : Host.Outcome State Fault Refusal := .next (cartridgeRemove n s)

/-- 3V3 overcurrent (R62): from READING no set and no flag are named. -/
def cartridgeOvercurrent (n : Fin 8) (s : State) : State :=
  let off := fun (s : State) => updCart n (fun c => { c with v33 := false }) s
  match (s.carts[n]).state with
  | .reading => raiseCartFault n 0 (off (updCart n (fun c => { c with state := .faulted, counted := 0 }) s))
  | .active => cartFaulted n 0 (off s)
  | _ => s

/-- CARTRIDGE_OVERCURRENT (R62): Cartridge 3V3 overcurrent switches the supply off and faults the input. -/
def execCartridgeOvercurrent (n : Fin 8) (s : State) : Host.Outcome State Fault Refusal := whenLive s <|
  .next (cartridgeOvercurrent n s)

/-- The other copy of the wear record is written (R56, R59). -/
def writeWear (n : Fin 8) (s : State) : State :=
  updCart n (fun c =>
    let rec_ := wearRecord n c ((c.seq.toNat + 1) % 2 ^ 32)
    { c with seq := c.seq + 1, useB := !c.useB, wearA := if c.useB then rec_ else c.wearA,
             wearB := if c.useB then c.wearB else rec_, doseWritten := c.dose, lastWrite := some s.aoCycles,
             writeDue := false, writeFailed := 0 }) s

/-- WEAR_RECORD_WRITE (R59, R62): a write that fails twice is reported and waits for the next trigger. For the dose trigger the failed
write counts as the last one in time, so it occurs again after 60 s (DESIGN CHOICE, log 139). -/
def wearRecordWrite (n : Fin 8) (ok : Bool) (s : State) : State :=
  let c := s.carts[n]
  if c.state == .active && (c.writeDue || doseDue s.aoCycles c) then
    if ok then writeWear n s
    else if c.writeFailed = 0 then updCart n (fun c => { c with writeFailed := 1 }) s
    else raiseCartFault n 4
      (updCart n (fun c => { c with writeFailed := 0, writeDue := false, lastWrite := some s.aoCycles }) s)
  else s

/-- WEAR_RECORD_WRITE (R59): Device writes a wear record when a write trigger occurs. -/
def execWearRecordWrite (n : Fin 8) (ok : Bool) (s : State) : Host.Outcome State Fault Refusal := whenLive s <|
  .next (wearRecordWrite n ok s)

/-- The main rails are lost (R62): every input returns to ABSENT. -/
def cartsRailsDown (s : State) : State :=
  { s with carts := s.carts.map fun c => { Cart.reset with present := c.present },
           slices := s.slices.map fun x => { x with wornFrom := none } }

end Sys2Proof.Machine
end

