-- ==== Sys2Proof/Machine/Slices.lean ====
section
/-!
DEFINITION. Slices (R23, R25, R96 to R128): the slice word with all its consumers, the quality map, overrange episodes, the lane
map, rotation, lane checks and interpolated positions.
-/
namespace Sys2Proof.Machine

/-! ### Overrange (R120, R121) -/

/-- Lane clocks without a clipped sample after which an episode is over (R121). -/
def ovrGap : Nat := 2 ^ 21

/-- SLn_OVR (R121, R519): 0 START, 1 END. -/
def raiseOvr (n : Fin 8) (which count : Nat) (ts : TS96) (s : State) : State :=
  raise (srcId 0x21 (4 * n.val)) sevNotice ts ([BitVec.ofNat 8 which, 0, 0, 0] ++ le 4 count) s

/-- Words delivered without a clipped sample since the last one that held any (R121). -/
def cleanWords (x : Slice) : Nat := match x.ovrLast with | some l => x.words - 1 - l | none => ovrGap

/-- The episode is over (R121). -/
def endEpisode (n : Fin 8) (s : State) : State :=
  let x := s.slices[n]
  if x.ovrOn && decide (ovrGap ≤ cleanWords x) then
    raiseOvr n 1 x.ovrCount (tsNow s) (updSlice n (fun x => { x with ovrOn := false }) s)
  else s

/-- OVR_EPISODE_END (R121): 2^21 lc pass without a clipped sample and the episode ends. -/
def execOvrEpisodeEnd (n : Fin 8) (s : State) : Host.Outcome State Fault Refusal := whenLive s <|
  .next (endEpisode n s)

/-- Clipped samples of the word `w`, the first of them at sample `x` (R121). -/
def countOvr (n : Fin 8) (w x k : Nat) (s : State) : State :=
  let on := (s.slices[n]).ovrOn
  let s := updSlice n (fun y => { y with
    ovrLast := some w, ovrOn := true, ovrCount := stick 32 (if on then y.ovrCount + k else k) }) s
  if on then s else raiseOvr n 0 0 (tsOf s x) s

/-! ### Blocks and CHANNEL streams (R101, R102, R233, R365) -/

/-- A CHANNEL block without its VALID word (R363 to R365): 6,208 bytes packed, 8,256 in 16 bits. -/
def channelBody (n : Fin 8) (b : Nat) (wide : Bool) (s : State) : List Byte :=
  pad64 (le 2 0x0100 ++ [BitVec.ofNat 8 n.val, BitVec.ofNat 8 (flag wide 0), blockQual n b s, 0, 0, 0] ++ le 8 (4096 * b)
    ++ tsBytes (tsOf s (4096 * b)) ++ le 4 0 ++ inFormat wide (samplesOf n (4096 * b) (4096 * b + 4095) s))

/-- A complete block goes to the channel's streams (R233, R234). -/
def streamBlock (n : Fin 8) (b : Nat) (s : State) : State :=
  forStreams .channel n.val (fun i st s =>
    if st.first ≤ 4096 * b then
      pushUnit i { body := channelBody n b st.wide s, validAt := 0x1C, weight := 4096, ts := tsOf s (4096 * b), seg := none } s
    else s) s

/-- A block is complete (R58, R101, R120): its quality byte, its dose and its stream units. -/
def blockDone (n : Fin 8) (b : Nat) (s : State) : State :=
  let clips := (s.slices[n]).blockClips
  let q := qualByte n b (decide (0 < clips)) s
  let s := updSlice n (fun x => { x with qual := storeQual b q x.qual, ovrNow := decide (0 < clips), blockClips := 0 }) s
  streamBlock n b (addDose n clips b s)

/-- SLn_CORR (R106, R519). -/
def raiseCorr (n : Fin 8) (src : FirSource) (x : Nat) (s : State) : State :=
  raise (srcId 0x23 (4 * n.val)) sevInfo (tsOf s x)
    [match src with | .firCoef => 0 | .derived => 1 | .passThrough => 2 | .edited => Config.freeByte s.freeCtr] (fresh s).2

/-- A loaded cartridge set takes effect at its block start (R106). -/
def firSwap (n : Fin 8) (last : Nat) (s : State) : State :=
  match (s.slices[n]).firNext with
  | some (taps, src, at_) =>
    if at_ ≤ last then raiseCorr n src at_ (updSlice n (fun x => { x with firActive := taps, firNext := none, firInactive := x.firActive }) s) else s
  | none => s

/-! ### The correction pipeline from the cartridge FIR to the slice bus (R23, R24, R96, R103, R105, R106, R108, R115, R117, R120) -/

/-- One output of the cartridge FIR over a window (R96, R103, R106, R108): 64 taps in Q1.14, tap 31 on the sample at index `j`, later taps
on earlier samples. The result is rounded to the nearest code, a tie upward (DESIGN CHOICE, log 142). -/
def cartFir (taps win : List Int) (j : Nat) : Int :=
  (((taps.zipIdx.filter fun t => t.1 != 0).map fun t => t.1 * win.getD (j + 31 - t.2) 0).sum + 8192) / 16384

/-- The clamp of the output stage (R105). -/
def clampCode (x : Int) : Int := max (-2048) (min 2047 x)

/-- The output stage interpolates a position in an lc (R115, R117). -/
def repaired (x : Slice) (p w : Nat) : Bool :=
  x.repairs.any fun r => r.1 == p && decide (r.2.1 ≤ w) && (match r.2.2 with | some e => decide (w < e) | none => true)

/-- The cartridge set that acts on a sample (R106). -/
def setFor (x : Slice) (sample : Nat) : List Int :=
  match x.firNext with
  | some (taps, _, at_) => if at_ ≤ sample then taps else x.firActive
  | none => x.firActive

/-- The codes of the word `w` (R96, R105, R106, R115): what enters the cartridge FIR, filtered with the set in force for each sample,
clamped, and in a repaired position interpolated from the eight neighbours on each side. Values after those supplied count as zero
(log 142). -/
def outputWord (n : Fin 8) (w : Nat) (values : List Int) (s : State) : List Int :=
  let x := s.slices[n]
  let win := x.firPast ++ pad80 values
  let y := fun (j : Nat) => clampCode (cartFir (setFor x (40 * w + j - 40)) win j)
  (List.range 40).map fun i =>
    if repaired x i w then
      clampCode (Config.interpolated ((List.range 8).map (fun k => y (32 + i + k)) ++ (List.range 8).map (fun k => y (41 + i + k))))
    else y (40 + i)

/-- LANE_OVR (R24, R120): one bit per group of five samples that holds a clipped one. -/
def laneOvr (codes : List Int) : Nat :=
  ((List.range 8).map fun g => flag (((codes.drop (5 * g)).take 5).any clippedCode) g).sum

/-- The slice word on the slice bus (R24): SAMPLES, LANE_OVR, SUBST, PROOF, CSW, COAST and LC_SEQ. -/
def busWord (n : Fin 8) (w : Nat) (codes : List Int) (s : State) : BitVec 512 :=
  let a := 40 * w
  BitVec.ofNat 512 ((codes.foldr (fun c r => unsigned 12 c + 4096 * r) 0)
    + 2 ^ 480 * (laneOvr codes + flag (spanSubst n s a (a + 39)) 8 + flag (isProofing s a) 9 + flag (spanSwitch s a (a + 39)) 10
      + flag (spanCoast s a (a + 39)) 11 + 2 ^ 12 * (w % 16)))

/-- The word `w` into the slice's record of its output: samples, overrange, blocks (R100, R101, R120, R121). `values` is what entered the
cartridge FIR, `codes` what the output stage made of it. -/
def recordWord (n : Fin 8) (w : Nat) (values codes : List Int) (s : State) : State :=
  let x0 := 40 * w
  let s := firSwap n (x0 + 39) s
  let clips := (codes.zipIdx.filter fun c => clippedCode c.1).map fun c => x0 + c.2
  let s := if clips.isEmpty then s else endEpisode n s
  let bus := busWord n w codes s
  let s := updSlice n (fun x => { x with log := codes :: x.log, words := w + 1, firPast := values.take 40, bus := bus }) s
  let s := match clips with
    | [] => s
    | x :: _ => countOvr n w x clips.length s
  let b := x0 / 4096
  let inBlock := (clips.filter fun x => decide (x / 4096 = b)).length
  let s := updSlice n (fun x => { x with blockClips := x.blockClips + inBlock }) s
  if 4096 * (b + 1) ≤ x0 + 40 then
    updSlice n (fun x => { x with blockClips := clips.length - inBlock }) (blockDone n b s)
  else s

/-- Dither correlation tracks the lane-table entries of the lanes that serve a position (R103); others hold theirs. -/
def trackLanes (tracked : List (Fin 41 × LaneEntry)) (x : Slice) : Slice :=
  { x with laneTab := tracked.foldl (fun t e => if x.laneMap.toList.contains (some e.1.val) then t.set e.1 e.2 else t) x.laneTab }

/-! ### The slice word (R25) -/

/-- The slice word reaches the compute tile and every consumer takes its 40 samples (R25); with SL0's word an lc has passed for
the trigger processors and the stops (log 3). -/
def sliceWord (n : Fin 8) (x : SliceIn) (s : State) : State :=
  if !samplesExist s then s
  else
    let w := (s.slices[n]).words
    let x0 := 40 * w
    let s := if n = 0 then forAll 4 endStop s else s
    let codes := outputWord n w x.codes s
    let s := recordWord n w x.codes codes (updSlice n (trackLanes x.tracked) s)
    let s := if n = 0 then { s with mem := advanceHist s.proof.era (commitSample s + 1) s.mem } else s
    let s := chainWord n x0 (masksWord n x0 codes (feltWord n (feltParity ⟨n.val, by omega⟩ x.parity (redWord n x0 codes s))))
    if n = 0 then stopTick (triggerWord s) else s

/-- SLICE_WORD (R25): A slice word reaches the compute tile and every consumer processes its 40 samples. -/
def execSliceWord (n : Fin 8) (x : SliceIn) (s : State) : Host.Outcome State Fault Refusal := whenLive s <|
  if WellFormed.instr (.sliceWord n x) then .next (sliceWord n x s) else .fault .illFormed

/-! ### The lane map (R98, R99) -/

/-- The lc that is being sampled now (R96). -/
def takenLc (s : State) : Nat := takenSample s / 40

/-- SLn_LANE (R128, R519): actions 0 SUBSTITUTED, 1 RETIRED_SPARE, 2 INTERPOLATED. -/
def raiseLane (n : Fin 8) (lane pos cause action : Nat) (s : State) : State :=
  raiseNow (srcId 0x20 (4 * n.val)) sevWarning
    [BitVec.ofNat 8 lane, BitVec.ofNat 8 pos, BitVec.ofNat 8 cause, BitVec.ofNat 8 action] (istFail 0 s)

/-- Positions that are not interpolated, ascending (R110). -/
def freePositions (x : Slice) : List Nat := (List.range 40).filter fun p => !x.interp.getLsbD p

/-- The position of step k (R110). -/
def stepPosition (x : Slice) (k : Nat) : Nat :=
  let l := freePositions x
  l.getD (k % l.length) 0

/-- The out lane begins to shadow the position of the next step (R111). -/
def shadowNext (lc : Nat) (x : Slice) : Slice := { x with shadowPos := stepPosition x x.rotK, shadowSince := lc }

/-- With no out lane the highest-numbered standby lane becomes it at once (R99); rotation runs while there is an out lane. -/
def refillOut (lc : Nat) (run : Bool) (x : Slice) : Slice :=
  match x.outLane with
  | some _ => { x with rotRun := run }
  | none => match x.standby.max? with
    | some l => { shadowNext lc { x with outLane := some l, standby := x.standby.filter (· != l) } with rotRun := run }
    | none => { x with rotRun := false }

/-- A lane is retired for good (R118). -/
def retireLane (l : Nat) (x : Slice) : Slice := { x with retired := x.retired ||| BitVec.ofNat 41 (2 ^ l) }

/-- Samples of a position are interpolated from an lc up to another (R115), or for good (R117). -/
def repair (p a : Nat) (b : Option Nat) (x : Slice) : Slice := { x with repairs := (p, a, b) :: x.repairs }

/-- A position is interpolated for good (R118), its samples from lc `a` on: every block from the one that holds `sample` on carries
LANE_SUBSTITUTED (R117). -/
def interpolate (p a sample : Nat) (x : Slice) : Slice :=
  { repair p a none x with
           interp := x.interp ||| BitVec.ofNat 40 (2 ^ p), laneMap := updN x.laneMap p fun _ => none,
           interpFrom := some (min (sample / 4096) (x.interpFrom.getD (sample / 4096))) }

/-- The lane map rebuilt at the start of PF3 (R99): the new slice and the positions left without a lane. -/
def rebuildMap (x : Slice) : Slice × List Nat :=
  let lanes := (List.range 41).filter fun l => !x.retired.getLsbD l
  let pos := freePositions x
  let left := pos.drop lanes.length
  let x := left.foldl (fun x p => interpolate p 0 0 x) { x with repairs := [] }
  let x := { x with
    repairs := ((List.range 40).filter fun p => x.interp.getLsbD p).map fun p => (p, 0, none),
    laneMap := Vector.ofFn fun p : Fin 40 => match (pos.zip lanes).find? fun a => a.1 = p.val with
      | some a => some a.2
      | none => none,
    standby := lanes.drop pos.length, outLane := none, rotRun := false, mismatch := none, substs := [], rotK := 0 }
  ({ refillOut 0 false x with interpFrom := if x.interp = 0 then none else some 0 }, left)

/-- The lane map of one slice rebuilt, with SLn_LANE for every position left without a lane (R99). -/
def rebuildSlice (n : Fin 8) (s : State) : State :=
  let (x, left) := rebuildMap s.slices[n]
  left.foldl (fun s p => raiseLane n 0xFF p 0xFF 2 s) (updSlice n (fun _ => x) s)

/-! ### Checks and retirement (R113 to R119) -/

/-- Position that a lane serves. -/
def servedPos (x : Slice) (l : Nat) : Option Nat := (List.range 40).find? fun p => (getN x.laneMap p) == some (some l)

/-- The detection window between two lc, both included (R115). -/
def substWindow (a b : Nat) (x : Slice) : Slice := { x with substWin := (40 * a, 40 * b + 39) :: x.substWin }

/-- Out lane takes the place of a failed lane at U (R114, R116). -/
def substitute (p failed out u : Nat) (x : Slice) : Slice :=
  { retireLane failed x with
    laneMap := updN x.laneMap p (fun _ => some out), outLane := none, mismatch := none,
    substs := { pos := p, failed := failed, replacing := out, at_ := u } :: x.substs }

/-- Rotation runs outside proofing (R110, R126). -/
def rotating (s : State) : Bool := !s.proof.active

/-- An in-service lane fails at D = now (R114, R115): the out lane takes its position, or the position is interpolated where
there is none or `mayTake` says that it went elsewhere (R119). -/
def serviceFail (n : Fin 8) (lane p check : Nat) (mayTake : Bool) (s : State) : State :=
  let d := takenLc s
  let win := substWindow (d - 32) (d + 34)
  match (s.slices[n]).outLane, mayTake with
  | some o, true =>
    raiseLane n lane p check 0
      (updSlice n (fun x => win (repair p (d - 32) (some (d + 2)) (substitute p lane o (d + 2) x))) s)
  | _, _ =>
    raiseLane n lane p check 2 (updSlice n (fun x => win (interpolate p (d - 32) (40 * (d + 2)) (retireLane lane x))) s)

/-- A lane out of service fails (R116): it is retired, and no sample is flagged. -/
def spareFail (n : Fin 8) (lane check : Nat) (s : State) : State :=
  raiseLane n lane 0xFF check 1 (updSlice n (fun x =>
    let x := retireLane lane x
    { x with standby := x.standby.filter (· != lane), mismatch := if x.outLane = some lane then none else x.mismatch,
             outLane := if x.outLane = some lane then none else x.outLane }) s)

/-- The lane that replaced a failed lane fails at the same position within 65,536 lc of U (R117). -/
def positionFaulty (x : Slice) (lane p d : Nat) : Option Substitution :=
  x.substs.find? fun b => b.replacing == lane && b.pos == p && decide (d ≤ b.at_ + 65536)

/-- The position switch is judged faulty (R117). An out lane that there was becomes a standby lane (log 50). The failed samples before
the declaration and the detection window are those of R115 with U = D + 2 lc, as for any declared check (DEDUCED, log 124). -/
def positionFail (n : Fin 8) (lane p check first : Nat) (s : State) : State :=
  let d := takenLc s
  raiseLane n lane p check 2 (updSlice n (fun x =>
    let x := substWindow (d - 32) (d + 34) (interpolate p (d - 32) (40 * d) x)
    shadowNext d { x with
      retired := x.retired &&& ~~~(BitVec.ofNat 41 (2 ^ first)), substs := x.substs.filter (·.pos != p), mismatch := none,
      outLane := some first,
      standby := lane :: (match x.outLane with | some o => o :: x.standby | none => x.standby) }) s)

/-- One lane fails one of the first five checks (R114 to R117). -/
def laneFails (n : Fin 8) (lane check : Nat) (mayTake : Bool) (s : State) : State :=
  let x := s.slices[n]
  if x.retired.getLsbD lane then s
  else match servedPos x lane with
    | some p => match positionFaulty x lane p (takenLc s) with
      | some b => positionFail n lane p check b.failed s
      | none => serviceFail n lane p check mayTake s
    | none => spareFail n lane check s

/-- After lane events the out lane is refilled from the standby lanes (R99, R114), at lc `u`. -/
def settleOut (n : Fin 8) (u : Nat) (s : State) : State := updSlice n (refillOut u (rotating s)) s

/-- A check fails on what the checking hardware saw (R113). -/
def LaneCheck.fails (e : LaneEntry) : LaneCheck → Bool
  | .parity before last => before && last
  | .stuck codes => codes.length == 8 && codes.all (· == codes.headD 0)
  | .residue outside => outside.length == 8 && decide (4 ≤ outside.count true)
  | .ditherGain m => decide (e.gain.natAbs < 200 * (m - e.gain).natAbs)
  | .ditherOffset m => decide (128 < (m - e.offset).natAbs)

/-- Its number in the order of R113's table (R519). -/
def LaneCheck.code : LaneCheck → Nat
  | .parity _ _ => 0 | .stuck _ => 1 | .residue _ => 2 | .ditherGain _ => 3 | .ditherOffset _ => 4

/-- The failing check of a lane, if what was seen fails it (R113). -/
def checkOf (n : Fin 8) (c : Fin 41 × LaneCheck) (s : State) : Option (Nat × Nat) :=
  if LaneCheck.fails ((s.slices[n]).laneTab[c.1]) c.2 then some (c.1.val, LaneCheck.code c.2) else none

/-- LANE_CHECK_FAIL (R114 to R119), with a second lane declared in the same lc: out-of-service lanes are judged first, and of
two positions the lower-numbered one gets the out lane. -/
def laneCheckFail (n : Fin 8) (lane check : Nat) (second : Option (Nat × Nat)) (s : State) : State :=
  let settleOut := fun s => settleOut n (takenLc s + 2) s
  match second with
  | none => settleOut (laneFails n lane check true s)
  | some (l2, c2) =>
    match servedPos s.slices[n] lane, servedPos s.slices[n] l2 with
    | some p, some p2 =>
      let (a, b) := if p ≤ p2 then ((lane, check), (l2, c2)) else ((l2, c2), (lane, check))
      settleOut (laneFails n b.1 b.2 false (laneFails n a.1 a.2 true s))
    | none, _ => settleOut (laneFails n l2 c2 true (settleOut (laneFails n lane check true s)))
    | _, none => settleOut (laneFails n lane check true (settleOut (laneFails n l2 c2 true s)))

/-- LANE_CHECK_FAIL (R113, R114): A lane check is declared failed and the lane is retired and substituted. What was seen and fails no
check declares nothing (log 4). -/
def execLaneCheckFail (n : Fin 8) (lane : Fin 41) (check : LaneCheck) (second : Option (Fin 41 × LaneCheck)) (s : State) :
    Host.Outcome State Fault Refusal := whenLive s <|
  .next (match checkOf n (lane, check) s, second.bind (checkOf n · s) with
    | some a, b => laneCheckFail n a.1 a.2 b s
    | none, some b => laneCheckFail n b.1 b.2 none s
    | none, none => s)

/-! ### Rotation (R110 to R112, R116) -/

/-- A fitted lane-table entry lies in its range (R103, R113): a gain of Q2.22 in 24 bits, an offset within the code range. The ranges
of the other entries are taken as that of the gain (DESIGN CHOICE, log 143). -/
def inRange (e : LaneEntry) : Bool :=
  let q := fun (x : Int) => decide (-(2 ^ 23) ≤ x ∧ x < 2 ^ 23)
  q e.gain && e.stageGain.all q && q e.ditherGain && decide (-2048 * 64 ≤ e.offset ∧ e.offset ≤ 2047 * 64)

/-- The RMS difference over the last 2^20 lc exceeds 1.5 LSB (R113); the mean square is in LSB². -/
def shadowFails (meanSquare : Rat) : Bool := decide (9 / 4 < meanSquare)

/-- The out lane's table entry is fitted while it shadows (R111). -/
def fitOut (n : Fin 8) (lane : Nat) (e : LaneEntry) (s : State) : State :=
  updSlice n (fun x => { x with laneTab := updN x.laneTab lane fun _ => e }) s

/-- One step interval of the rotation grid in lc (R110). -/
def stepInterval : Nat := 50331648

/-- The lc of step k of the grid (R110): the first step falls one interval after the end of proofing (DEDUCED, log 144). -/
def stepLc (x : Slice) : Nat := x.rotBase + stepInterval * (x.rotK + 1)

/-- The step that a rotation makes (R112). -/
def makeStep (p out lc : Nat) (x : Slice) : Slice :=
  shadowNext lc { x with laneMap := updN x.laneMap p (fun _ => some out),
                         outLane := (getN x.laneMap p).getD none }

/-- A rotation step of the grid (R110, R113, R116): the mean square of the shadow comparison, and the entry that the fit gives the out
lane. -/
def rotationStep (n : Fin 8) (meanSquare : Rat) (fit : LaneEntry) (s : State) : State :=
  if s.proof.active || decide (takenLc s < stepLc s.slices[n]) then s
  else
    let x := s.slices[n]
    let lc := takenLc s
    let mismatch := shadowFails meanSquare
    let settleOut := fun (n : Fin 8) s => settleOut n lc s
    let q := stepPosition x x.rotK
    let s := updSlice n (fun x => { x with rotK := x.rotK + 1 }) s
    match x.outLane with
    | none => s
    | some o =>
      if x.shadowPos ≠ q ∨ lc < x.shadowSince + 2 ^ 20 then updSlice n (shadowNext lc) s
      else
        let s := fitOut n o fit s
        if !inRange fit then settleOut n (spareFail n o 6 s)
        else match x.mismatch with
          | some p =>
            if mismatch then settleOut n (spareFail n o 5 s)
            else
              let failed := ((getN x.laneMap p).getD none).getD 0
              settleOut n (raiseLane n failed p 5 0
                (updSlice n (fun x => substWindow (lc - 34) (lc + 32)
                  (repair p (lc - 34) (some lc) (substitute p failed o lc x))) s))
          | none =>
            if mismatch then updSlice n (fun x => shadowNext lc { x with mismatch := some q }) s
            else
              let s := updSlice n (makeStep q o lc) s
              if (s.slices[n]).rotK % 41 = 0 then istPart 0 n.val s else s

/-- ROTATION_STEP (R110): A rotation step of the grid falls and the out lane takes its position, if allowed. -/
def execRotationStep (n : Fin 8) (meanSquare : Rat) (fit : LaneEntry) (s : State) : Host.Outcome State Fault Refusal := whenLive s <|
  .next (rotationStep n meanSquare fit s)

/-- A tap as an update moves it: by no more than the equivalent of 5 fs of delay (R104); a tap that would move further holds (DESIGN
CHOICE, log 143). -/
def moveTap (old new : Int) : Int := if Config.tapDelayFs old new ≤ 5 then new else old

/-- The taps of an entry moved towards those that the estimator finds (R104). -/
def moveTaps (old new : List Int) : List Int := (List.range 16).map fun i => moveTap (old.getD i 0) (new.getD i 0)

/-- An update of the position table is due (R104): one every 2^24 lc, counted from the end of proofing (DEDUCED, log 144). -/
def blindDue (n : Fin 8) (s : State) : Bool :=
  let x := s.slices[n]
  !s.proof.active && decide (x.rotBase + 2 ^ 24 * (x.blindK + 1) ≤ takenLc s)

/-- BLIND_ESTIMATOR_UPDATE (R104): the table holds while the input has been quiet over the period. -/
def blindUpdate (n : Fin 8) (quiet : Bool) (taps : List (List Int)) (s : State) : State :=
  if !blindDue n s then s
  else updSlice n (fun x =>
    let x := { x with blindK := x.blindK + 1 }
    if quiet then x
    else { x with posTab := Vector.ofFn fun p : Fin 40 =>
      let l := taps.getD p.val []
      { skew := moveTaps (x.posTab[p]).skew (l.take 16), eq := moveTaps (x.posTab[p]).eq (l.drop 16) } }) s

/-- BLIND_ESTIMATOR_UPDATE (R104): the estimator's update of a slice's position table. -/
def execBlindEstimatorUpdate (n : Fin 8) (quiet : Bool) (taps : List (List Int)) (s : State) :
    Host.Outcome State Fault Refusal := whenLive s <|
  if WellFormed.instr (.blindEstimatorUpdate n quiet taps) then .next (blindUpdate n quiet taps s) else .fault .illFormed

end Sys2Proof.Machine
end

