-- ==== Sys2Proof/Machine/Era.lean ====
section
/-!
DEFINITION. What moves every block at once: APPLY (R66, R70, R504), entry into proofing, its steps and its end (R100, R122 to R124),
EPOCH_SET and the epoch commit (R134 to R137, R520), the timebase step (R94) and the edges of the TACs (R142 to R152).
-/
namespace Sys2Proof.Machine

/-! ### Moments that move sample numbers or TS96 (R218, R455, R461) -/

/-- Retro-captures in progress end with the last sample before `n` and are marked TRUNCATED (R218). -/
def endRetros (n : Nat) (s : State) : State :=
  mapSegs (fun g =>
    if g.flags.getLsbD 3 && !g.complete && g.retention == .retained && decide (n ≤ g.last) then
      { g with last := n - 1, closed := true, flags := g.flags ||| BitVec.ofNat 16 fTruncated }
    else g) s

/-- What an accepted APPLY and an epoch instant do to an update (R455, R461): u becomes the first lc boundary after the moment,
and the control-domain timer takes over a trial deadline. -/
def updateMoment (n : Nat) (s : State) : State :=
  { s with upd := { s.upd with
      updateAt := s.upd.updateAt.map fun _ => n, revertAt := s.upd.revertAt.map fun _ => n,
      deadlineTick := none, deadlineTimer := s.upd.deadlineTimer || s.upd.deadlineTick.isSome } }

/-! ### Entry into proofing (R100, R122, R133, R232, R259, R273) -/

/-- A slice starts the era: sample numbers restart at 0 (R100). Flags that last until their cause goes are kept. -/
def Slice.newEra (x : Slice) : Slice :=
  { x with
    rotRun := false, rotK := 0, rotBase := 0, blindK := 0, mismatch := none, substs := [], substWin := [],
    repairs := ((List.range 40).filter fun p => x.interp.getLsbD p).map fun p => (p, 0, none), firPast := List.replicate 40 0, bus := 0,
    interpFrom := if x.interp = 0 then none else some 0, wornFrom := x.wornFrom.map fun _ => 0,
    firNext := x.firNext.map fun f => (f.1, f.2.1, 0), ovrLast := none, ovrNow := false, blockClips := 0, words := 0,
    log := [], qual := [] }

/-- A trigger unit starts the era: its detectors are disarmed (R168), spans and references of the old timebase are dropped, and a
firing not yet known becomes known at once (log 57). -/
def Tu.newEra (x : Tu) : Tu :=
  { x with
    next := x.next.map fun c => (c.1, 0), switchAt := 0, detA := .off, detB := .off, patDet := Vector.replicate 8 .off,
    start := none, fallStart := none, levels := [(0, x.level)], armedAt := none, count := 0, inbox := [],
    queue := x.queue.map fun f => { f with due := 0 }, known := [] }

/-- A sequencer, which is not armed, starts the era. -/
def Seq.newEra (q : Seq) : Seq :=
  { q with
    armSample := none, fillStart := 0, readyAt := 0, openSeg := none, lastSeg := none, holdEnd := 0, lastT := none,
    queue := q.queue.map fun i => { i with due := 0 }, stopPending := none, stopAt := none, nextOpen := none, refs := [] }

/-- A felt starts the era (R273): cleared as by SET_FELT, its settings kept, accumulating from sample number 0. A bake cycle goes
on, and a bake sample not yet reached becomes sample number 0 (log 57). -/
def Felt.newEra (x : Felt) : Felt :=
  { Felt.reset with
    cfg := x.cfg, configGen := x.configGen + 1, clearing := x.clearing, running := !x.clearing && x.cfg.map != 0,
    activeB := x.activeB, bake := x.bake, bakeSeq := if x.bake == .idle then 0 else x.bakeSeq, bakeHdr := x.bakeHdr,
    baked := x.baked }

/-- A mask starts the era. -/
def Mask.newEra (x : Mask) : Mask :=
  { x with next := x.next.map fun c => (c.1, 0), switchAt := 0, lastViol := none, violNow := false, refFrom := [],
           violations := [], stop := none }

/-- A TAC starts the era (R151): until its quick run is accepted it uses the table saved at the last proofing end. -/
def Tac.newEra (x : Tac) : Tac :=
  { x with calRun := none, hits := 0, busy := none, levels := [(0, x.level)], oldTable := none, tableFrom := 0, table := x.saved, savedTable := true,
           calValid := false }

/-- Lane-clock times of the outputs and the ring, counted from the new era on. -/
def shiftLc (s : State) : State :=
  let now := lcNow s
  let back : Int := now * lcUnits
  let s := { s with trigouts := s.trigouts.map fun o =>
      { o with activeUntil := o.activeUntil.map (· - back), quietFrom := o.quietFrom.map (· - back),
               queue := o.queue.map fun x => { x with pos := x.pos - back, decided := x.decided - now } } }
  updBrim (fun b => { b with
    lastTrigger := none, lastStop := none, importAt := none, exportAt := none,
    links := b.links.map fun l => { l with kept := [], abandoned := [] } }) s

/-- Every SPECTRAL instance on a channel restarts with the sample numbers (R318). -/
def restartSpectral (s : State) : State :=
  forAll 16 (fun i s => match (s.insts[i]).cfg with
    | some (.spectral c) => if c.input ≤ 7 then spRestart i 0 s else s
    | _ => s) s

/-- Entry into proofing: sample numbers restart, and every block with them. -/
def newEra (s : State) : State :=
  let s := forAll 8 (fun n s => rebaseNco n (comeStale n s)) (shiftLc (forAll 4 endStop s))
  let s := { s with
    proof := { active := true, step := 1, fail := s.proof.fail, era := s.proof.era + 1, endSample := none, overrun := false },
    slices := s.slices.map Slice.newEra, tus := s.tus.map Tu.newEra, auxEdges := [], seqs := s.seqs.map Seq.newEra,
    felts := s.felts.map Felt.newEra, masks := s.masks.map Mask.newEra, tacs := s.tacs.map Tac.newEra,
    insts := s.insts.map fun x => { x with switchAt := 0 },
    reds := s.reds.map fun b => { b with
      diag := some .proofing, next := b.next.map (fun x => (x.1, x.2.1, none)), start := Vector.replicate 4 0,
      acc := Vector.replicate 4 [], waiting := [], recs := [] } }
  restartSpectral (forAll 8 chainProofing s)

/-- Segments of the era that are not complete become so with what they hold (R216, R230). -/
def endSegments (s : State) : State :=
  (s.mem.segs.reverse.filter fun g => !g.complete).foldl (fun s g =>
    match findSeg s g.seq with
    | some g => finishSegment g s
    | none => s) s

/-! ### APPLY (R66, R70, R86, R504) -/

/-- The clock as an APPLY would set it (R63 to R66). -/
def withClock (s : State) : State :=
  let fpd := fpdMilli s.clk.cond s.clk.refKhz.toNat
  let n := chooseN s.clk.fsKhz.toNat fpd
  refreshDas (refreshLatency { s with clk := { s.clk with
    condNow := s.clk.cond, refKhzNow := s.clk.refKhz.toNat, fsKhzNow := s.clk.fsKhz.toNat,
    ni := n.1, nf := n.2, fsActual := BitVec.ofNat 64 (achieved fpd n.1 n.2) } })

/-- The budget that the configuration in force would exceed at the new fs, and the sequencer for CAPTURE_REGION (R504). -/
def applyBudget (s' : State) : Option (Nat × Nat) :=
  [0x01, 0x02, 0x03, 0x04, 0x05, 0x06, 0x08, 0x09, 0x0A].findSome? fun k =>
    if k = 0x06 then (regionFault s' fun _ => true).map fun a => (k, a.val)
    else if budgetLimit (fsMilli s') k s' < budgetUsed (fsMilli s') k s' then some (k, 0) else none

/-- The state and the values allow an APPLY (R66, R70). -/
def applyAllowed (s : State) : Bool :=
  !(s.seqs.toList.any armed) && !streamOpenNow s && refAllowed s.clk.cond s.clk.refKhz.toNat
    && within 48000000 s.clk.fsKhz.toNat 82000000

/-- An APPLY is refused (R66). -/
def refuseApply (s : State) : State := { s with clk := { s.clk with applyRefused := true } }

/-- What an APPLY does to the clock tile (R66, R80, R87, R93). -/
def relock (s : State) : State :=
  let s := toBypass s
  let o := otherCore (activeCore s)
  let s := setCore o .bad (clearLocks s)
  { s with clk := { s.clk with
      refState := .start, applyBusy := true, applyRefused := false, bandFault := false, coreCoast := false,
      refCoast := false, tCoast := false, steers := 0, reband := none, stepDelta := none, relockAt := none, lossAt := none,
      selected := Vector.replicate 4 none, noBand := Vector.replicate 4 false, csw := [], coast := [], steps := [] } }

/-- The timebase is UNSET and its mapping reset (R133, R134, R162). -/
def resetTimebase (s : State) : State :=
  { s with tb := { s.tb with
      state := .unset, epochGen := s.tb.epochGen + 1, maps := [{ sn := 0, ts := 0 }], arming := none, wait := none,
      held := [], unsetFrom := 0, moments := [] } }

/-- The history ring is discarded: O moves to sample number 0 (R66, R208). -/
def discardHistory (s : State) : State :=
  raiseHist 2 { s with mem := { s.mem with histStart := 0, oldest := 0, cutAt := 0, wrapped := false } }

/-- The blocks that the new era cuts short end: their clipped samples add their dose (R58, R120; DEDUCED, log 139). -/
def cutBlocks (s : State) : State :=
  forAll 8 (fun n s => addDose n (s.slices[n]).blockClips (40 * (s.slices[n]).words / 4096) s) s

/-- An accepted APPLY (R66). -/
def acceptApply (s : State) : State :=
  let s := cutBlocks s
  let n := commitSample s
  let s := forAll 8 (fun ch s => flushRecords ch (redSwitch ch n id s)) (endRetros n s)
  let s := relock (setBypass (withClock (endSegments s)))
  checkAligned (updateMoment 0 (discardHistory (resetTimebase (newEra (rejectQueued s)))))

/-- APPLY as the device judges it, from the host or from a restore (R66, R70, R477, R504). -/
def applyNow (s : State) : State :=
  if !applyAllowed s then refuseApply s
  else match applyBudget (withClock s) with
    | some (k, it) =>
      refuseApply { s with admission := { budget := BitVec.ofNat 8 k, opcode := 0, item := BitVec.ofNat 8 it } }
    | none => acceptApply s

/-- A write of CLK_CTRL (R69): while RESTORING, an APPLY is refused (R477). -/
def writeClkCtrl (value : W32) (s : State) : State :=
  if value.getLsbD 0 then (if s.cfg.restoring then refuseApply s else applyNow s) else s

/-- APPLY (R66): Write of APPLY in CLK_CTRL that relocks every loop, enters proofing and resets the timebase, or is
refused. -/
def execApply (value : W32) (s : State) : Host.Outcome State Fault Refusal := whenReachable s <|
  .next (writeClkCtrl value s)

/-! ### Proofing (R74, R99, R109, R110, R122 to R124, R146, R151, R305) -/

/-- SLn_PROOF (R519): outcome 0 END, 1 LANE_RETIRED, 2 OVERRUN. -/
def raiseProof (n : Fin 8) (sev step outcome lane : Nat) (s : State) : State :=
  raiseNow (srcId 0x22 (4 * n.val)) sev [BitVec.ofNat 8 step, BitVec.ofNat 8 outcome, BitVec.ofNat 8 lane] s

/-- PF1 ends: bands are selected and verified (R73, R74). A SYN-S core without a band is unavailable, so the other one is the active core
where it has one. -/
def selectBands (pass : List (List Nat)) (s : State) : State :=
  let s := forAll 4 (fun c s => selectBand c (pass.getD c.val []) s) s
  let a := activeCore s
  if s.clk.noBand[asCore a] && !s.clk.noBand[asCore (otherCore a)] then setCore (otherCore a) .active (setCore a .bad s) else s

/-- PF2 can end (R74, R93, R122): a SYN-S core has a band, the reference is qualified or FREE, and all loops are locked. -/
def clocksDone (s : State) : Bool :=
  !(s.clk.noBand[0] && s.clk.noBand[1]) && allLocked s && s.clk.refState != .start

/-- Quick calibration starts on TAC0 to TAC6 (R122, R151). -/
def startQuick (s : State) : State :=
  if s.clk.noBand[3] then s
  else { s with tacs := Vector.ofFn fun i : Fin 8 =>
    if i.val ≤ 6 then { s.tacs[i] with calRun := some .quick, hits := 0 } else s.tacs[i] }

/-- A lane that PF3's fit fails is retired (R119, R122, R128), with the cause CAL_NO_CONVERGE (DEDUCED, log 58). -/
def fitFails (s : State) (x : Fin 8 × Fin 41) : State :=
  if (s.slices[x.1]).retired.getLsbD x.2.val then s
  else raiseProof x.1 sevNotice 3 1 x.2.val (laneFails x.1 x.2.val 6 true s)

/-- The lanes that fail PF3 together, judged as R119 has it for lanes of one lc: those out of service first, then those that serve a
position, the lower-numbered position first. -/
def fitsFail (failed : List (Fin 8 × Fin 41)) (s : State) : State :=
  let u := takenLc s + 2
  let at_ := fun (x : Fin 8 × Fin 41) => servedPos s.slices[x.1] x.2.val
  let served := (List.range 40).flatMap fun p => failed.filter fun x => at_ x == some p
  let s := (failed.filter fun x => at_ x == none).foldl (fun s x => settleOut x.1 u (fitFails s x)) s
  forAll 8 (fun n s => if served.any (·.1 == n) then settleOut n u s else s) (served.foldl fitFails s)

/-- PF3 ends: every lane-table entry is fitted, to values the spec does not give (log 12), and lanes that fail are retired as R114 and
R115 have it for a failure during proofing (R119, R128). -/
def lanesDone (retired : List (Fin 8 × Fin 41)) (s : State) : State :=
  fitsFail retired (forAll 8 (fun n s =>
    let (k, s) := fresh s
    updSlice n (fun x => { x with laneTab := Vector.ofFn fun l : Fin 41 => factoryLane (8 + k) l.val }) s) s)

/-- PF4 ends: every position-table entry and the reconstruction coefficients of R175 are fitted (log 12). -/
def positionsDone (s : State) : State :=
  forAll 8 (fun n s =>
    let (k, s) := fresh s
    updSlice n (fun x => { x with posTab := Vector.ofFn (fun p : Fin 40 => factoryPos (8 + k) p.val), reconFit := 8 + k }) s) s

/-- PF5 ends: the slices are aligned (log 12), and Kn is the land-to-converter delay of the non-volatile store with the internal path delay
that is measured now (R109, R146). -/
def slicesAligned (offsets : List W32) (delays : List (Nat × Int)) (s : State) : State :=
  let s := forAll 8 (fun n s =>
    let (k, s) := fresh s
    updSlice n (fun x => { x with fracDelay := Config.freeInt k }) s) s
  setDelays delays { s with tacs := Vector.ofFn fun i : Fin 8 => { s.tacs[i] with offset := Config.landDelay i.val + offsets.getD i.val 0 } }

/-- PF6 loads or derives the set of every active cartridge (R54, R107); an input without one has no set to load and keeps the
pass-through set of R62. -/
def loadCartridges (s : State) : State :=
  forAll 8 (fun n s => if (s.carts[n]).state == .active then loadCorrection n s else s) s

/-- A slice leaves proofing (R104, R110, R122): its tables are saved, the grids start, and rotation where there is an out lane. -/
def Slice.proofed (lc : Nat) (x : Slice) : Slice :=
  let x := { x with savedLane := x.laneTab, savedPos := x.posTab, savedFrac := x.fracDelay, rotBase := lc, rotK := 0, blindK := 0 }
  if x.outLane.isSome then shadowNext lc { x with rotRun := true } else x

/-- PF7 ends, and proofing with it: tables are saved, rotation starts, the reserves are designated (R110, R122, R151, R305). -/
def proofingEnds (s : State) : State :=
  let e := takenSample s
  let s := { s with
    proof := { s.proof with active := false, step := 0, fail := false, endSample := some e },
    tacs := s.tacs.map fun t => { t with saved := t.table },
    slices := s.slices.map (Slice.proofed (e / 40)) }
  designateReserves (forAll 8 (fun n s => raiseProof n sevNotice 7 0 0 s) s)

/-- A proofing step ends and the next begins (R122). -/
def proofingStepEnd (d : ProofData) (s : State) : State :=
  let goto := fun (k : Nat) (s : State) => { s with proof := { s.proof with step := k } }
  if !s.proof.active then s
  else match s.proof.step with
    | 1 => goto 2 (selectBands d.bandPass s)
    | 2 =>
      if clocksDone s then
        let s := goto 3 { s with clk := { s.clk with applyBusy := false } }
        startQuick (forAll 8 rebuildSlice s)
      else s
    | 3 => goto 4 (lanesDone d.retired s)
    | 4 => goto 5 (positionsDone s)
    | 5 => loadCartridges (goto 6 (slicesAligned d.tacOffsets d.delays s))
    | 6 => if s.carts.toList.any fun c => c.deriving_ && c.state == .active then s else goto 7 s
    | _ => proofingEnds s

/-- PROOFING_STEP_END (R122): A proofing step finishes its work and the next begins, or proofing ends. -/
def execProofingStepEnd (d : ProofData) (s : State) : Host.Outcome State Fault Refusal := whenLive s <|
  if WellFormed.instr (.proofingStepEnd d) then .next (proofingStepEnd d s) else .fault .illFormed

/-- PF2 has not ended within 2.5 s of entry (R124). -/
def execProofFail (s : State) : Host.Outcome State Fault Refusal := whenLive s <|
  if s.proof.active && s.proof.step == 2 && !s.proof.overrun then
    .next (forAll 8 (fun n s => raiseProof n sevError 2 2 0 s) { s with proof := { s.proof with fail := true, overrun := true } })
  else .next s

/-! ### EPOCH_SET and the epoch commit (R134 to R137, R520) -/

/-- Stamps that wait for an epoch commit reach the timers (R137, R158), each in the mapping that `map` gives for its sample, without
the FLAGS of `clear`. -/
def releaseStamps (map : Nat → Mapping) (clear : W32) (s : State) : State :=
  s.tb.held.foldl (fun s h =>
    timerStamp h.src (some h.falling)
      { ts := posTs (map (posSample h.pos)) h.pos, flags := h.flags &&& ~~~clear, steps := stepsAt s (posSample h.pos) } s)
    { s with tb := { s.tb with held := [] } }

/-- The timebase is not SET from now on: retro-captures in progress whose T is still to come carry EPOCH_UNSET (R220). -/
def unsetRetros (s : State) : State :=
  mapSegs (fun g =>
    if g.flags.getLsbD 3 && !g.complete && g.era == s.proof.era && decide (commitSample s ≤ g.kt) then
      { g with flags := g.flags ||| 0x0800#16 }
    else g) s

/-- EPOCH_SET (R136, R361, R362). An arming that it cancels leaves the stamps that waited for its epoch to the old timebase. -/
def epochSet (c : Call) (s : State) : Reply :=
  let mode := arg1 c 0x18
  let v := BitVec.ofNat 72 (argN c 0x20 9)
  let x := BitVec.ofNat 72 (argN c 0x30 9)
  if 1 < mode then refuse stInvalid 0x18
  else if 1 < arg1 c 0x19 then refuse stInvalid 0x19
  else if mode = 1 ∧ tsDiff (ticksTs x) (tsNow s) < (40 * 2 ^ 21 * tick : Nat) then refuse stInvalid 0x30
  else if s.seqs.toList.any armed || streamOpenNow s || s.clk.refState == .measuring || s.clk.refState == .stepPending
      || (mode = 0 && !(s.tacs[4]).calValid) then refuse stBusy 0
  else
    let s := releaseStamps (fun n => arrivalMap s n) 0#32 (if s.tb.state == .armed then notIdle 4 s else s)
    let s := if s.tb.state == .set then unsetRetros s else s
    .ok (checkAligned { s with tb := { s.tb with
      state := if mode = 0 then .armed else .pending, wait := none,
      unsetFrom := if s.tb.state == .set then commitSample s else s.tb.unsetFrom,
      arming := some { atTick := mode = 1, falling := arg1 c 0x19 = 1, v := v, x := x, since := commitSample s } } }) []

/-- EPOCH_SET (R136): Command that arms the epoch in SYNCIN or AT_TICK mode. -/
def execEpochSet (o : Origin) (s : State) : Host.Outcome State Fault Refusal := whenLive s <|
  .next (runCmd o 0x0024 [] noDeps epochSet s)

/-- SYNC_DELAY in units of 2^-24 Ts (R137). -/
def syncDelayUnits (s : State) : Int := fsToUnits s s.tb.syncDelay.toInt

/-- The SYNCIN edge of the armed polarity at an instant in 2^-24 sample periods from sample number 0 (R133, R137, R520): the epoch instant
lies SYNC_DELAY before it, and the timers see its stamp after the epoch commit. -/
def armedEdge (pos : Int) (falling : Bool) (flags : W32) (v : BitVec 72) (s : State) : State :=
  let instant := pos - syncDelayUnits s
  let n := posCeil instant
  let commit := max n (posCeil pos)
  let map : Mapping := { sn := n, ts := tsAdd (ticksTs v) ((n * tick : Nat) - instant), acts := commit }
  { s with tb := { s.tb with
      wait := some { map := map, commit := commit, atTick := false },
      held := s.tb.held ++ [{ src := 0x14, falling := falling, flags := flags, pos := pos }] } }

/-- The epoch commit (R137, R520). The detectors are disarmed as the trigger processors reach the commit sample (Triggers.lean), and the
stamps that waited for it carry no EPOCH_UNSET. -/
def commitEpoch (w : EpochWait) (v : BitVec 72) (s : State) : State :=
  let s := { s with tb := { s.tb with
    state := .set, epochGen := s.tb.epochGen + 1, maps := insertEpoch w.map s.tb.maps, arming := none, wait := none, epochV := v,
    moments := w.commit :: s.tb.moments } }
  let s := raise 0x40 sevNotice w.map.ts ([BitVec.ofNat 8 (flag w.atTick 0)] ++ le 7 0 ++ le 8 w.map.sn) s
  let s := raiseHist 1 { s with mem := cutHist w.map.sn s.mem }
  let s := endRetros w.commit s
  let s := forAll 8 timerEpoch s
  let s := releaseStamps (fun n => mappingOf s.tb.maps (max n w.map.sn)) 8#32 s
  let s := updateMoment (nextSample s) (rejectQueued s)
  checkAligned (sendEpoch v s)

/-- The commit sample reaches the compute tiles (R520). -/
def epochCommit (s : State) : State :=
  match knownEpoch s with
  | some (w, v) => if w.commit < commitSample s + 40 then commitEpoch w v s else s
  | none => s

/-- EPOCH_COMMIT (R520): Commit sample reaches the compute tiles and the new mapping takes effect. -/
def execEpochCommit (s : State) : Host.Outcome State Fault Refusal := whenLive s <| .next (epochCommit s)

/-! ### The timebase step (R94, R133, R162) -/

/-- The sample at the step instant is taken (R94). -/
def stepInstant (s : State) : State :=
  match s.clk.refState, s.clk.stepDelta, stepInstantOf s with
  | .stepPending, some d, some n =>
    if n ≤ takenSample s + 39 then
      let ts := tsAdd (tsOf s n) d
      let s := { s with
        tb := { s.tb with maps := { sn := n, ts := ts, acts := n, step := true } :: s.tb.maps, stepCount := s.tb.stepCount + 1,
                          moments := n :: s.tb.moments },
        clk := { s.clk with steps := (n, d) :: s.clk.steps } }
      let s := raise 0x41 sevWarning (tsIn (mapsFor s n) n) (le 8 (unsigned 64 d)) s
      checkAligned (reachLocked n s)
    else s
  | _, _, _ => s

/-- STEP_INSTANT (R94): Timebase steps by Δ at the step instant. -/
def execStepInstant (s : State) : Host.Outcome State Fault Refusal := whenLive s <| .next (stepInstant s)

/-! ### Edges of the TACs (R142 to R152) -/

/-- Source code of a TAC's input (R142, R360): AUX0 to AUX3, SYNCIN, the TRIGOUT loopbacks. -/
def tacSource (n : Fin 8) : Nat := if n.val ≤ 4 then 0x10 + n.val else 0x13 + n.val

/-- A timer needs edges of a polarity from a source (R143, R155). -/
def timerNeeds (tm : Timer) (src : Nat) (falling : Bool) : Bool :=
  tm.mode != .off && ((tm.startSrc == src && polTakes tm.startPol (some falling))
    || (tm.mode == .interval && tm.stopSrc == src && polTakes tm.stopPol (some falling)))

/-- Settings of a unit take edges of an AUX input, whose TAC then converts both polarities (R143, R167, R171). -/
def cfgNeeds (c : TuCfg) (aux : Nat) : Bool :=
  match c.type with
  | .pattern => match c.inputs[8 + aux]? with | some p => p.state != 0 | none => false
  | .edge | .pulseWidth | .timeout => c.source == 0x10 + aux
  | _ => false

/-- A trigger unit needs the edges of an AUX input: by its settings, or by those that wait for their switch sample (R174). -/
def unitNeeds (x : Tu) (aux : Nat) : Bool :=
  (x.configured && cfgNeeds x.cfg aux) || (x.next.any fun c => cfgNeeds c.1 aux)

/-- SYNCIN is armed for an edge of a polarity that has not come yet (R136). -/
def syncNeeds (n : Fin 8) (s : State) (falling : Bool) : Bool :=
  n == 4 && s.tb.wait.isNone && match s.tb.arming with
    | some a => !a.atTick && a.falling == falling
    | none => false

/-- A consumer needs edges of a polarity from a TAC (R143). -/
def tacNeeds (n : Fin 8) (s : State) (falling : Bool) : Bool :=
  s.timers.toList.any (fun tm => timerNeeds tm (tacSource n) falling)
    || (decide (n.val ≤ 3) && s.tus.toList.any fun x => unitNeeds x n.val) || syncNeeds n s falling

/-- An AUX edge goes to the trigger units with its stamp (R149). -/
def presentAux (n : Fin 8) (falling coarse dead : Bool) (pos : Int) (s : State) : State :=
  if n.val ≤ 3 then
    { s with auxEdges := s.auxEdges ++
      [{ input := n.val, falling := falling, t := edgeTs s pos, pos := pos, place := { PlaceFlags.none with coarse := coarse },
         dead := dead }] }
  else s

/-- An edge is lost (R148, R152, R160): counted, and an AUX input's comparator is read when the dead time ends (R171). -/
def loseEdge (n : Fin 8) (falling : Bool) (until_ : Option Int) (s : State) : State :=
  let s := timerLost (tacSource n) falling (countDead n s)
  match until_ with
  | some e =>
    presentAux n falling true true e
      { s with auxEdges := s.auxEdges.filter fun x => !(x.dead && x.input == n.val && x.pos == e) }
  | none => s

/-- An edge lies at or after the commit sample of an epoch that has not been committed yet (R520). -/
def afterCommit (pos : Int) (s : State) : Bool := (knownEpoch s).any fun w => decide (((w.1.commit * tick : Nat) : Int) ≤ pos)

/-- A stamped edge reaches what consumes it: the epoch, or the timers and trigger units (R137, R149, R155). -/
def deliverEdge (n : Fin 8) (falling coarse : Bool) (pos : Int) (x : Stamp) (s : State) : State :=
  let s := updTac n (fun t => { t with deadBefore := false }) s
  match syncNeeds n s falling, s.tb.arming with
  | true, some a => armedEdge pos falling x.flags a.v s
  | _, _ => presentAux n falling coarse false pos
      (if afterCommit pos s then
        { s with tb := { s.tb with held := s.tb.held ++ [{ src := tacSource n, falling := falling, flags := x.flags, pos := pos }] } }
      else timerStamp (tacSource n) (some falling) x s)

/-- An idle run stops at the first input edge, with its hits kept (R152). -/
def stopIdle (t : Tac) : Tac := if t.calRun == some .idle then { t with calRun := none, hits := t.hits + 1 } else t

/-- The end of the dead time of an input edge that holds the capacitor at an instant (R148). -/
def deadUntil (t : Tac) (pos : Int) : Option Int := t.busy.filter fun e => decide (pos < e)

/-- An edge at a TAC's input (R142 to R152). `fine` is the code that a conversion gives; `calEdge` says that a calibration edge of
the run under way holds the capacitor. -/
def tacEdge (n : Fin 8) (falling : Bool) (coarse fine : Nat) (calEdge : Bool) (s : State) : State :=
  let pos := edgePos n coarse fine false s
  let byDetector := edgePos n coarse fine true s
  let s := updTac n (fun t => { t with level := !falling, levels := (pos, !falling) :: t.levels }) s
  if n = 7 || !tacNeeds n s falling then s
  else if s.clk.noBand[3] then presentAux n falling true false byDetector (notIdle n s)
  else
    let t := s.tacs[n]
    if t.calRun == some .forced && calRunning n s then loseEdge n falling none (notIdle n s)
    else match deadUntil t pos with
      | some e => loseEdge n falling (some e) (notIdle n s)
      | none =>
        let byCal := calEdge && calRunning n s
        let s := updTac n stopIdle (notIdle n s)
        if byCal then deliverEdge n falling true byDetector (stampOf n coarse fine true s) s
        else
          deliverEdge n falling false pos (stampOf n coarse fine false s)
            (updTac n (fun t => { t with busy := some (pos + fsToUnits s 4000000) }) s)

/-- TAC_EDGE (R144): An accepted edge on an AUX, SYNCIN or TRIGOUT loopback input is converted and stamped. -/
def execTacEdge (n : Fin 8) (falling : Bool) (coarse : Nat) (fine : Fin 4096) (calEdge : Bool) (s : State) :
    Host.Outcome State Fault Refusal := whenLive s <| .next (tacEdge n falling coarse fine.val calEdge s)

end Sys2Proof.Machine
end

