-- ==== Sys2Proof/Machine/CfgStore.lean ====
section
/-!
DEFINITION. The settings store (R471 to R480, R491): the record that CFG_SAVE writes, the choice among copies, and a restore.
-/
namespace Sys2Proof.Machine

/-- The settings store changed. -/
def updCfg (f : Cfg → Cfg) (s : State) : State := { s with cfg := f s.cfg }

/-- The settings slot in use. -/
def slotIdx (b : Bool) : Fin 2 := if b then 1 else 0

/-- One copy of the slot in use changed. -/
def updCopy (b : Bool) (f : CfgCopy → CfgCopy) (s : State) : State :=
  updCfg (fun c => { c with slots := upd c.slots (slotIdx c.slot) fun v => upd v (slotIdx b) f }) s

/-- A copy of the slot in use. -/
def copyOf (c : Cfg) (b : Bool) : CfgCopy := (c.slots[slotIdx c.slot])[slotIdx b]

/-- The bytes of an item (R474): the payload is padded to 8 bytes. -/
def itemBytes (x : CfgItem) : List Byte :=
  le 2 x.kind.toNat ++ [BitVec.ofNat 8 x.index, 0] ++ le 4 x.payload.length ++ pad ((x.payload.length + 7) / 8 * 8) x.payload

/-- LEN of a copy (R473). -/
def copyLen (x : CfgCopy) : Nat := 64 + (x.items.map fun i => 8 + (i.payload.length + 7) / 8 * 8).sum + 4

/-- The bytes of a copy (R473): header, items and CHECK. -/
def copyBytes (x : CfgCopy) : List Byte :=
  let b := [0x53, 0x45, 0x54, 0x47] ++ le 2 1 ++ le 2 x.items.length ++ le 8 x.gen.toNat ++ le 4 (copyLen x) ++ le 4 x.ctrlVersion.toNat
    ++ pad 12 x.serial ++ le 12 x.savedAt.toNat ++ List.replicate 16 0 ++ x.items.flatMap itemBytes
  b ++ le 4 (crc32c b).toNat

/-- A copy is valid (R475): LEN is in range (R473), and SERIAL is the module's own. -/
def copyValid (x : CfgCopy) : Bool := x.valid && decide (copyLen x ≤ 524288) && x.serial == ownSerial

/-- The copy in use (R475, R476): the valid one with the higher GEN, false for A. -/
def copyInUse (c : Cfg) : Option Bool :=
  let a := copyOf c false
  let b := copyOf c true
  if copyValid a && (!copyValid b || decide (b.gen.toNat ≤ a.gen.toNat)) then some false
  else if copyValid b then some true else none

/-- The copy that a save writes (R475): the invalid one, or else the one with the lower GEN. -/
def copyToWrite (c : Cfg) : Bool :=
  if !copyValid (copyOf c false) then false
  else if !copyValid (copyOf c true) then true
  else decide ((copyOf c true).gen.toNat < (copyOf c false).gen.toNat)

/-! ### The record (R471, R474, R477) -/

/-- An entry of a register item (R474). -/
def regEntry (off : Nat) (value : Nat) : List Byte := le 2 off ++ le 2 0 ++ le 4 value

/-- BAR0 offsets of the saved registers (R511). -/
def offRefCfg : Nat := 0x2000
def offFsCfg : Nat := 0x2004
def offLockS : Nat := 0x2020
def offLockF : Nat := 0x2024
def offLockT : Nat := 0x2028
def offSyncDelay : Nat := 0x3034
def offTrigout : Nat := 0x3038

/-- CLK_REF_CFG as read (R68). -/
def refCfgWord (c : Clk) : W32 :=
  BitVec.ofNat 32 (c.cond.toNat + flag c.refret 2 + c.refKhz.toNat * 256)

/-- The two register items (R471, R474): COND, REF_KHZ and FS_KHZ as the last accepted APPLY put them in force (R66). -/
def registerItems (s : State) : List CfgItem :=
  let inForce := { s.clk with cond := s.clk.condNow, refKhz := BitVec.ofNat 19 s.clk.refKhzNow }
  [{ kind := 0x0100, index := 0, payload :=
      regEntry offRefCfg (refCfgWord inForce).toNat ++ regEntry offFsCfg s.clk.fsKhzNow ++ regEntry offLockS s.clk.lockS.toNat
        ++ regEntry offLockF s.clk.lockF.toNat ++ regEntry offLockT s.clk.lockT.toNat },
   { kind := 0x0100, index := 1, payload := regEntry offSyncDelay s.tb.syncDelay.toNat ++ regEntry offTrigout s.trigCfg.toNat }]

/-- Core code of a band-table item (R474): SYN-S-A and SYN-S-B share 0. -/
def bandCode (core : Nat) : Nat := core - 1

/-- The bytes of a band-table entry (R71, R512). -/
def bandBytes (e : BandEntry) : List Byte :=
  le 4 e.centreKhz.toNat ++ le 2 e.kvco.toNat ++ [e.capCode, BitVec.ofNat 8 (flag e.valid 0 + flag e.verified 1)] ++ le 8 0

/-- Band-table items: one for every entry edited since PERST# release (R471). The two SYN-S tables share their entries, which are
taken from SYN-S-A's. -/
def bandItems (s : State) : List CfgItem :=
  ([0, 2, 3] : List (Fin 4)).flatMap fun c => (List.finRange 32).filterMap fun i =>
    let e := (s.clk.bands[c])[i]
    if e.edited then some { kind := 0x0101, index := 32 * bandCode c.val + i.val,
                            payload := le 4 (bandCode c.val + 256 * i.val) ++ bandBytes e } else none

/-- Place of an item in the order of R477; within place 4 the channels follow one another (DEDUCED, log 59). -/
def restoreRank (it : CfgItem) : Nat × Nat :=
  match it.kind.toNat with
  | 0x0100 => (if it.index = 0 then 0 else 2, it.index)
  | 0x0101 => (1, it.index)
  | 0x0010 => (3, 0)
  | 0x0013 => (4, 2 * it.index)
  | 0x0014 => (4, 2 * it.index + 1)
  | 0x0017 => (if it.index < 8 then 5 else 8, it.index)
  | 0x0011 => (6, it.index)
  | 0x0012 => (7, it.index)
  | 0x0015 => (9, it.index)
  | 0x0016 => (10, it.index)
  | 0x0025 => (11, it.index)
  | _ => (12, it.index)

/-- An item comes no later than another (R477). -/
def rankLe (a b : CfgItem) : Bool :=
  decide ((restoreRank a).1 < (restoreRank b).1 ∨ ((restoreRank a).1 = (restoreRank b).1 ∧ (restoreRank a).2 ≤ (restoreRank b).2))

def insertItem (it : CfgItem) : List CfgItem → List CfgItem
  | [] => [it]
  | x :: xs => if rankLe it x then it :: x :: xs else x :: insertItem it xs

/-- Items in the order of R477. -/
def sortItems (l : List CfgItem) : List CfgItem := l.foldr insertItem []

/-- VERSION of the CTRL part in service (R445, R473). -/
def ctrlVersion (s : State) : W32 := ((s.upd.banks[(0 : Fin 6)])[slotIdx (s.upd.act.banks.getLsbD 0)]).version

/-- The settings in force as a record (R471, R473). A mask whose raster still runs is not yet a setting. -/
def settingsRecord (s : State) : CfgCopy :=
  { valid := true,
    gen := BitVec.ofNat 64 (max (copyOf s.cfg false).gen.toNat (copyOf s.cfg true).gen.toNat + 1),
    ctrlVersion := ctrlVersion s, serial := ownSerial, savedAt := tsNow s,
    items := sortItems (registerItems s ++ bandItems s ++ s.cfg.inForce.filter fun x => x.kind != 0x8016) }

/-! ### CFG_SAVE (R472, R475) -/

/-- CFG_SAVE: the copy that is not in use is written, and is invalid until the save commits. -/
def cfgSave (_ : Call) (s : State) : Reply :=
  if s.cfg.saving.isSome then refuse stBusy 0
  else
    let r := settingsRecord s
    .start (updCfg (fun c => { c with saving := some r, saveFails := 0 })
      (updCopy (copyToWrite s.cfg) (fun x => { x with valid := false }) s)) (.wait 0) []

/-- CFG_SAVE (R472): Command that copies the settings in force into the unused settings-record copy. -/
def execCfgSave (o : Origin) (s : State) : Host.Outcome State Fault Refusal := whenLive s <|
  .next (runCmd o 0x0040 [] noDeps cfgSave s)

/-- CFG_STORE (R519): 0 DEFAULTED, 2 WRITE_FAIL, with GEN. -/
def cfgStoreData (cause : Nat) (gen : W64) : List Byte := [BitVec.ofNat 8 cause] ++ le 7 0 ++ le 8 gen.toNat

/-- The MRAM write of a save ends (R472, R475, R476): the save commits, is tried again, or fails for the second time. -/
def cfgSaveDone (ok : Bool) (s : State) : State :=
  match s.cfg.saving with
  | none => s
  | some r =>
    if ok then
      let b := copyToWrite s.cfg
      let s := updCfg (fun c => { c with saving := none, copyB := b, gen := r.gen, defaulted := false }) (updCopy b (fun _ => r) s)
      finishWait 0x0040 0 stSuccess 0 (le 8 r.gen.toNat) s
    else if s.cfg.saveFails = 0 then updCfg (fun c => { c with saveFails := 1 }) s
    else
      let s := updCfg (fun c => { c with saving := none, saveFails := 0 }) s
      finishWait 0x0040 0 stInternal 0 [] (raiseNow 0xF0 sevWarning (cfgStoreData 2 s.cfg.gen) s)

/-- CFG_SAVE_DONE (R472): Settings copy commits in MRAM and CFG_SAVE completes. -/
def execCfgSaveDone (ok : Bool) (s : State) : Host.Outcome State Fault Refusal := whenLive s <|
  .next (cfgSaveDone ok s)

/-! ### Restoring (R477 to R479) -/

/-- CLK_REF_CFG written (R68). -/
def writeRefCfg (v : W32) (s : State) : State :=
  { s with clk := { s.clk with cond := v.extractLsb' 0 2, refret := v.getLsbD 2, refKhz := v.extractLsb' 8 19 } }

/-- A lock rule is one that R79 allows. -/
def lockOk (v : W32) : Bool := v.extractLsb' 0 8 != 0 && v.extractLsb' 8 8 != 0 && decide (16 ≤ (v.extractLsb' 16 16).toNat)

/-- A write of a lock rule: one with W, M or N out of range is ignored as a whole (R79). -/
def writeLock (f : W32 → Clk → Clk) (v : W32) (s : State) : State := if lockOk v then { s with clk := f v s.clk } else s

/-- A TRIGOUT source code (R201). -/
def trigCodeOk (x : BitVec 5) : Bool := decide (x.toNat ≤ 0x13) || x == 0x1F

/-- SYS_TRIGOUT_CFG written: with a source or a width out of range it is ignored as a whole (R201). -/
def writeTrigout (v : W32) (s : State) : State :=
  if trigCodeOk (v.extractLsb' 0 5) && trigCodeOk (v.extractLsb' 16 5) && decide (2 ≤ (v.extractLsb' 8 8).toNat)
      && decide (2 ≤ (v.extractLsb' 24 8).toNat) then { s with trigCfg := v &&& 0xFF3FFF3F }
  else s

/-- A write of a register that a settings record holds (R474, R477). -/
def restoreRegister (off : Nat) (v : W32) (s : State) : State :=
  if off = offRefCfg then writeRefCfg v s
  else if off = offFsCfg then { s with clk := { s.clk with fsKhz := v } }
  else if off = offLockS then writeLock (fun v c => { c with lockS := v }) v s
  else if off = offLockF then writeLock (fun v c => { c with lockF := v }) v s
  else if off = offLockT then writeLock (fun v c => { c with lockT := v }) v s
  else if off = offSyncDelay then { s with tb := { s.tb with syncDelay := v } }
  else if off = offTrigout then writeTrigout v s
  else s

/-- The entries of a register item. -/
def restoreRegisters (payload : List Byte) (s : State) : State :=
  (List.range (payload.length / 8)).foldl (fun s k =>
    restoreRegister (fieldAt payload (8 * k) 2) (BitVec.ofNat 32 (fieldAt payload (8 * k + 4) 4)) s) s

/-- A band-table entry set from its 16 bytes (R71): VERIFIED is the device's own. -/
def setBand (core : Fin 4) (i : Fin 32) (b : List Byte) (s : State) : State :=
  updBand core i (fun e =>
    { e with centreKhz := BitVec.ofNat 32 (fieldAt b 0 4), kvco := BitVec.ofNat 16 (fieldAt b 4 2),
             capCode := BitVec.ofNat 8 (fieldAt b 6 1), valid := bit (fieldAt b 7 1) 0, edited := true }) s

/-- A band-table item written back (R474, R477): core code 0 is both SYN-S cores. -/
def restoreBand (payload : List Byte) (s : State) : State :=
  let i : Fin 32 := Fin.ofNat 32 (fieldAt payload 1 1)
  let b := payload.drop 4
  match fieldAt payload 0 1 % 4 with
  | 0 => setBand 1 i b (setBand 0 i b s)
  | 1 => setBand 2 i b s
  | 2 => setBand 3 i b s
  | _ => s

/-- COND, REF_KHZ or FS_KHZ differs from the value in force (R477). -/
def clockDiffers (s : State) : Bool :=
  s.clk.cond != s.clk.condNow || s.clk.refKhz.toNat != s.clk.refKhzNow || s.clk.fsKhz.toNat != s.clk.fsKhzNow

/-- A restore begins (R477): register and band-table items are written, with APPLY where it is due, and the command items wait for
their turn. -/
def beginRestore (items : List CfgItem) (s : State) : State :=
  let s := updCfg (fun c => { c with restoring := true, itemsSkipped := 0, skipped := [] }) s
  let of := fun (kind : Nat) (index : Nat → Bool) => items.filter fun x => x.kind.toNat == kind && index x.index
  let s := (of 0x0100 (· == 0)).foldl (fun s x => restoreRegisters x.payload s) s
  let s := (of 0x0101 fun _ => true).foldl (fun s x => restoreBand x.payload s) s
  let s := if clockDiffers s then applyNow s else s
  let s := (of 0x0100 (· != 0)).foldl (fun s x => restoreRegisters x.payload s) s
  updCfg (fun c => { c with toRestore := sortItems (items.filter fun x => decide (x.kind.toNat < 0x0100)) }) s

/-- CFG_LOAD (R479): the copy in use is restored. -/
def cfgLoad (_ : Call) (s : State) : Reply :=
  if s.seqs.toList.any armed || streamOpenNow s then refuse stBusy 0
  else match copyInUse s.cfg with
    | none => refuse stNotFound 0
    | some b => .ok (beginRestore (copyOf s.cfg b).items s) []

/-- CFG_LOAD (R479): Command that restores the settings copy in use. -/
def execCfgLoad (o : Origin) (s : State) : Host.Outcome State Fault Refusal := whenLive s <|
  .next (runCmd o 0x0041 [] noDeps cfgLoad s)

/-- The last item has committed: RESTORING clears (R477). -/
def execBootRestoreDone (s : State) : Host.Outcome State Fault Refusal := whenLive s <|
  .next (if s.cfg.toRestore.isEmpty then updCfg (fun c => { c with restoring := false }) s else s)

/-- The copy in use becomes known (R476): with none valid, factory defaults are in force. -/
def readStore (s : State) : State :=
  match copyInUse s.cfg with
  | some b => updCfg (fun c => { c with copyB := b, gen := (copyOf c b).gen, defaulted := false }) s
  | none =>
    raiseBoot 0xF0 sevWarning (cfgStoreData 0 0) (updCfg (fun c => { c with copyB := false, gen := 0, defaulted := true }) s)

/-- What boot does with the settings (R476, R477). -/
def bootSettings (s : State) : State :=
  let s := readStore s
  match copyInUse s.cfg, s.cfg.bootRestore with
  | some b, true => beginRestore (copyOf s.cfg b).items s
  | _, _ => s

end Sys2Proof.Machine
end

