-- ==== Sys2Proof/Machine/Update.lean ====
section
/-!
DEFINITION. Firmware update (R442 to R470): staging and its check, forwarding along the chain, verification, the activation record,
the switches of both levels, confirmation and reversion, and the array scope.
-/
namespace Sys2Proof.Machine

/-- The update block changed. -/
def updUpd (f : Upd → Upd) (s : State) : State := { s with upd := f s.upd }

/-! ### The package (R442, R444, R445) -/

/-- Bytes of the header and manifest, SIGNATURE included (R444). -/
def headBytes : Nat := 0xC0 + 6 * 192

/-- 1 MB (R448; the worked case of R468 counts 17 MB as 17,825,792 bytes). -/
def mebi : Nat := 2 ^ 20

/-- The staging area (R443). -/
def stagingArea : Nat := 256 * mebi

/-- Size of a bank (R442). -/
def bankBytes : Nat → Nat
  | 0 => 16 * mebi | 1 => mebi | 2 => 4 * mebi | 3 => 32 * mebi | 4 => 64 * mebi | _ => 16 * mebi

/-- Manifest entry `i` (R445). -/
def entryOf (pkg : List Byte) (i : Nat) : List Byte := slice pkg (0xC0 + 192 * i) 192

/-- KIND of a part: 0 FULL, 1 DELTA, 2 SAME (R445). -/
def partKind (pkg : List Byte) (i : Nat) : Nat := fieldAt (entryOf pkg i) 0x01 1

/-- Parts of a package that are not SAME, bit p − 1 for part code p. -/
def partsNew (pkg : List Byte) : BitVec 6 :=
  BitVec.ofNat 6 (((List.range 6).map fun i => flag (partKind pkg i != 2) i).sum)

/-- Levels present (R442): [0] lower, [1] upper. -/
def levelsOf (parts : BitVec 6) : BitVec 2 :=
  BitVec.ofNat 2 (flag (parts &&& 0x18 != 0) 0 + flag (parts &&& 0x27 != 0) 1)

/-- PACKAGE_VERSION (R444). -/
def packageVersion (pkg : List Byte) : W32 := BitVec.ofNat 32 (fieldAt pkg 0x14 4)

/-- The signed block: the header up to 0x5F and the manifest (R444). -/
def signedBlock (pkg : List Byte) : List Byte := slice pkg 0 0x60 ++ slice pkg 0xC0 (6 * 192)

/-- The package digest (R444). -/
def packageDigest (pkg : List Byte) : List Byte := Config.sha384 (signedBlock pkg)

/-- A manifest slot. -/
def slotOf (s : State) (b : Bool) : List Byte := s.upd.manifests[slotIdx b]

/-- The bank of a part that a selection names. -/
def bankOf (s : State) (banks : BitVec 6) (p : Fin 6) : Bank := (s.upd.banks[p])[slotIdx (banks.getLsbD p.val)]

/-- One bank changed. -/
def updBank (p : Fin 6) (b : Bool) (f : Bank → Bank) (s : State) : State :=
  updUpd (fun u => { u with banks := upd u.banks p fun v => upd v (slotIdx b) f }) s

/-! ### State and events (R466, R469, R470) -/

/-- STATE code (R469). -/
def updCode : UpdState → Nat
  | .idle => 0 | .downloading => 1 | .staged => 2 | .verifying => 3 | .verified => 4 | .activating => 5 | .trial => 6

/-- DATA of UPD_STATE (R519). -/
def updStateData (part : Nat) (u : Upd) : List Byte :=
  [BitVec.ofNat 8 (updCode u.state), u.lastCause, BitVec.ofNat 8 part, BitVec.ofNat 8 (flag u.settingsDefaulted 0)]

/-- The state changes (R470). -/
def toState (x : UpdState) (s : State) : State :=
  if s.upd.state == x then s
  else
    let s := updUpd (fun u => { u with state := x }) s
    raiseNow 0xE8 sevNotice (updStateData 0 s.upd) s

/-- A check fails (R449, R453): LAST_CAUSE, the state and UPD_STATE with the part code. -/
def checkFails (x : UpdState) (cause part : Nat) (s : State) : State :=
  let s := updUpd (fun u => { u with state := x, lastCause := BitVec.ofNat 8 cause }) s
  raiseNow 0xE8 sevError (updStateData part s.upd) s

/-- UPD_CHAIN (R519): cause 0 START, 1 END, 2 REFUSED. -/
def raiseChain (west : Bool) (cause : Nat) (s : State) : State :=
  raiseNow 0xE9 (if cause = 2 then sevWarning else sevNotice)
    ([BitVec.ofNat 8 (flag west 0), BitVec.ofNat 8 cause] ++ List.replicate 6 0 ++ le 8 s.upd.staging.length) s

/-- Forwarding of one direction. -/
def fwdOf (u : Upd) (west : Bool) : Option (Nat × Nat) := if west then u.fwdWest else u.fwdEast

/-- Forwarding of one direction set. -/
def setFwd (west : Bool) (x : Option (Nat × Nat)) (s : State) : State :=
  updUpd (fun u => if west then { u with fwdWest := x } else { u with fwdEast := x }) s

/-- Chain forwarding is in progress in a direction (R469). -/
def fwdOn (u : Upd) (west : Bool) : Bool :=
  match fwdOf u west with
  | some (sent, _) => u.pkgLen != some sent
  | none => false

/-- Forwarding ends with the staging that it drew on; one in progress is reported (R470). -/
def endFwd (s : State) : State :=
  let go := fun (west : Bool) (s : State) => setFwd west none (if fwdOn s.upd west then raiseChain west 1 s else s)
  go true (go false s)

/-- UPD_SWITCH of the upper level (R456, R463). -/
def raiseUpper (back : Bool) (s : State) : State := raiseNow 0xEA sevNotice [0, BitVec.ofNat 8 (flag back 0)] s

/-- UPD_SWITCH of the lower level, at u (R457, R463). -/
def raiseLower (back : Bool) (u : Nat) (s : State) : State :=
  raise 0xEA sevNotice (tsOf s u) ([1, BitVec.ofNat 8 (flag back 0)] ++ List.replicate 6 0 ++ le 8 u) s

/-- DATA of UPD_TRIAL (R519): 0 TRIAL_BOOT, 1 TIMEOUT, 2 ABORT, 3 TRIAL_BOOTS, 4 BOOT_CHECK. -/
def trialData (cause : Nat) (u : Upd) : List Byte := [BitVec.ofNat 8 u.act.trialBoots, BitVec.ofNat 8 cause]

/-! ### Staging (R448 to R450) -/

/-- Staging discarded, with what was read from it. -/
def noStaging (u : Upd) : Upd := { u with staging := [], progress := 0, pkgLen := none, manifestOk := false }

/-- Inactive banks that an earlier UPD_VERIFY wrote become invalid (R466). -/
def dropWritten (s : State) : State :=
  let s := forAll 6 (fun p s =>
    if s.upd.writtenBanks.getLsbD p.val then updBank p (!s.upd.act.banks.getLsbD p.val) (fun b => { b with valid := false }) s
    else s) s
  updUpd (fun u => { u with writtenBanks := 0, passed := 0 }) s

/-- What R449 finds wrong with a header and manifest: a LAST_CAUSE code. -/
def headerWrong (pkg : List Byte) : Option Nat :=
  if slice pkg 0 4 ≠ [0x53, 0x54, 0x4C, 0x42] ∨ fieldAt pkg 0x04 2 ≠ 1 ∨ fieldAt pkg 0x06 2 ≠ 6 ∨ fieldAt pkg 0x10 4 ≠ 0x880 then some 6
  else if (List.range 6).any fun i => fieldAt (entryOf pkg i) 0 1 != i + 1 then some 6
  else if (List.range 6).any (fun i => decide (bankBytes i < fieldAt (entryOf pkg i) 0x18 8))
      || decide (stagingArea < fieldAt pkg 0x08 8) then some 5
  else if !Config.signatureOk (fieldAt pkg 0x18 1) (signedBlock pkg) (slice pkg 0x60 96) then some 1
  else none

/-- The last 1 MB boundary that STAGED_LEN has crossed (R448). -/
def lastRecorded (len : Nat) : Nat := len / mebi * mebi

/-- Bytes appended (R448): what lies below STAGED_LEN is ignored, and what lies beyond PACKAGE_LEN as well (log 63). -/
def appendBytes (off : Nat) (bytes : List Byte) (s : State) : State :=
  let len := s.upd.staging.length
  if len < off then s
  else updUpd (fun u =>
    let l := u.staging ++ bytes.drop (len - off)
    let l := l.take (match u.pkgLen with | some n => n | none => stagingArea)
    { u with staging := l, progress := lastRecorded l.length }) s

/-- The header and manifest are checked once they are staged (R449): whether they pass, and the state. -/
def checkHead (s : State) : State × Bool :=
  if s.upd.manifestOk || decide (s.upd.staging.length < headBytes) then (s, true)
  else match headerWrong s.upd.staging with
    | some cause => (checkFails .idle cause 0 (updUpd (fun u => { noStaging u with chain := none }) (endFwd s)), false)
    | none =>
      let n := fieldAt s.upd.staging 0x08 8
      (updUpd (fun u => { u with manifestOk := true, pkgLen := some n, staging := u.staging.take n }) s, true)

/-- STAGED once STAGED_LEN equals PACKAGE_LEN (R450, R466). -/
def checkWhole (s : State) : State :=
  if s.upd.state == .downloading && s.upd.pkgLen == some s.upd.staging.length then toState .staged s else s

/-- Bytes reach staging (R448, R449): whether the checks passed. Outside DOWNLOADING nothing is staged (log 63). -/
def stageBytes (off : Nat) (bytes : List Byte) (s : State) : State × Bool :=
  if s.upd.state == .downloading then
    let r := checkHead (appendBytes off bytes s)
    (checkWhole r.1, r.2)
  else (s, true)

/-- NEW accepted (R448, R466). -/
def startNew (s : State) : State :=
  toState .downloading (dropWritten (updUpd noStaging (endFwd s)))

/-- NEW is allowed in this state (R466). -/
def newAllowed (u : Upd) : Bool :=
  u.state == .idle || u.state == .downloading || u.state == .staged || u.state == .verified

/-! ### UPDATE messages (R451, R452) -/

/-- The links of a direction: NEAR, or SKIP when the NEAR neighbour is dark (R451), with the sites that it spans. -/
def chainLink (west : Bool) (s : State) : Fin 4 × Nat :=
  let n := s.brim.sites.length
  let near := if n = 0 then 0 else if west then (s.brim.position + n - 1) % n else (s.brim.position + 1) % n
  let dark := match s.brim.sites[near]? with | some x => x.dark | none => false
  if dark then (if west then 3 else 1, 2) else (if west then 2 else 0, 1)

/-- An UPDATE message sent in a direction (R452): `reach` is how many sites beyond this member the message is for. A message that
would pass beyond them is not sent. SEQ is not stated for it (log 38). -/
def sendUpdate (west : Bool) (op reach : Nat) (off : Nat) (payload : List Byte) (s : State) : State :=
  let l := chainLink west s
  if reach < l.2 then s
  else
    let (k, s) := fresh s
    let body := [BitVec.ofNat 8 op, BitVec.ofNat 8 payload.length, BitVec.ofNat 8 (reach + 1 - l.2), 0] ++ le 8 off ++ pad 16 payload
    let f := patch (message s 0x20 0 ((Config.freeWord k).truncate 32) 0 0 body) 0x1C [0]
    sendOn l.1 (withDir l.1 f) s

/-- Spans of the origin (R451). -/
def originSpan (west both : Bool) (s : State) : Nat :=
  let n := s.brim.sites.length - 1
  if both then (if west then (n + 1) / 2 else n - (n + 1) / 2) else n

/-- Forwarding starts in a direction with `reach` sites to go: NEW goes first (R451, R452). -/
def startFwd (west : Bool) (reach : Nat) (s : State) : State :=
  if reach = 0 then s
  else sendUpdate west 3 reach 0 [] (raiseChain west 0 (setFwd west (some (0, reach)) s))

/-- Directions that a chunk sets (R451). -/
def chunkFwd (east west : Bool) (s : State) : State :=
  let both := (east || s.upd.fwdEast.isSome) && (west || s.upd.fwdWest.isSome)
  let go := fun (w on : Bool) (s : State) =>
    match fwdOf s.upd w with
    | some x => setFwd w (some (x.1, originSpan w both s)) s
    | none => if on then startFwd w (originSpan w both s) s else s
  go true west (go false east s)

/-- Bytes that may be forwarded now (R449, R452): none past the manifest before the signature has passed, and on a member of the
chain none at all. -/
def fwdLimit (u : Upd) : Nat :=
  if u.manifestOk then u.staging.length else if u.chain.isSome then 0 else min u.staging.length headBytes

/-- One message of at most 16 bytes goes on (R451, R452); END is reported with the last byte. -/
def updateForward (west : Bool) (s : State) : State :=
  match fwdOf s.upd west with
  | none => s
  | some (sent, reach) =>
    let n := min 16 (fwdLimit s.upd - sent)
    if n = 0 then s
    else
      let s := sendUpdate west 1 reach sent (slice s.upd.staging sent n) (setFwd west (some (sent + n, reach)) s)
      if s.upd.pkgLen = some (sent + n) then raiseChain west 1 s else s

/-- UPDATE_FORWARD (R451): Member forwards staged package bytes along the chain. -/
def execUpdateForward (west : Bool) (s : State) : Host.Outcome State Fault Refusal := whenLive s <|
  .next (updateForward west s)

/-- RESUME toward the sender, against the direction of travel (R452). -/
def sendResume (west : Bool) (s : State) : State :=
  let l := chainLink (!west) s
  sendUpdate (!west) 2 l.2 s.upd.staging.length [] s

/-- UPDATE_RESUME_SEND (R452): a member whose staging is incomplete and whose last NEW came along the chain. -/
def execUpdateResumeSend (s : State) : Host.Outcome State Fault Refusal := whenLive s <|
  match s.upd.chain with
  | some west => .next (if s.upd.state == .downloading || s.upd.state == .idle then sendResume west s else s)
  | none => .next s

/-- NEW along the chain (R452): judged, and passed on with the span reduced by one. -/
def chainNew (west : Bool) (span : Nat) (s : State) : State :=
  let hostNew := s.upd.hostNew
  let s := updUpd (fun u => { u with hostNew := false }) s
  if hostNew || !newAllowed s.upd then raiseChain west 2 s
  else startFwd west (span - 1) (updUpd (fun u => { u with chain := some west }) (startNew s))

/-- DATA along the chain (R452). A member that lost the span of this package takes it from the message. -/
def chainData (west : Bool) (span off : Nat) (payload : List Byte) (s : State) : State :=
  if s.upd.chain.isNone then s
  else if s.upd.staging.length < off then sendResume west s
  else
    let s := if s.upd.state == .idle then toState .downloading s else s
    let s := if s.upd.state == .downloading && (fwdOf s.upd west).isNone && decide (2 ≤ span) then
        raiseChain west 0 (setFwd west (some (0, span - 1)) s)
      else s
    (stageBytes off payload s).1

/-- RESUME from the next member in the direction of the link it came in on (R452): DATA is sent again from its offset. With no span
left from the transfer it goes to that member alone (log 64). -/
def chainResume (west : Bool) (off : Nat) (s : State) : State :=
  match fwdOf s.upd west with
  | some (sent, reach) => setFwd west (some (min off sent, reach)) s
  | none => if s.upd.staging.isEmpty then s else setFwd west (some (off, (chainLink west s).2)) s

/-- An UPDATE flit is received (R384, R452). -/
def updateMessage (rx : Rx) (s : State) : State :=
  let f := rx.flit
  if linkUp s rx.link && crcOk f then
    let span := flitBody f 0x22 1
    let off := flitBody f 0x24 8
    match flitBody f 0x20 1 with
    | 1 => chainData (flitWest f) span off (slice f 0x2C (flitBody f 0x21 1)) s
    | 2 => chainResume (decide (2 ≤ rx.link.val)) off s
    | 3 => chainNew (flitWest f) span s
    | _ => s
  else s

/-- UPDATE_MESSAGE (R452): UPDATE NEW, DATA or RESUME flit received and handled. -/
def execUpdateMessage (rx : Rx) (s : State) : Host.Outcome State Fault Refusal := whenLive s <|
  if WellFormed.instr (.updateMessage rx) then .next (updateMessage rx s) else .fault .illFormed

/-! ### UPD_DOWNLOAD (R361, R448 to R451, R466) -/

/-- UPD_DOWNLOAD: a chunk of at most 16 MB, whose bytes reach staging when its transfer completes. -/
def updDownload (source : List Byte) (c : Call) (s : State) : Reply :=
  let off := argN c 0x18 8
  let flags := arg1 c 0x20
  let new := bit flags 0
  let len := paramLen c.desc
  if 7 < flags then refuse stInvalid 0x20
  else if 16 * mebi < len then refuse stInvalid 0x10
  else if !(if new then newAllowed s.upd else s.upd.state == .downloading) then refuse stState 0
  else if (if new then 0 else s.upd.staging.length) < off then refuse stInvalid 0x18
  else
    let s := if new then updUpd (fun u => { u with chain := none, hostNew := true }) (startNew s) else s
    .start (chunkFwd (bit flags 1) (bit flags 2) s) (.stage off (pad len source)) []

/-- UPD_DOWNLOAD (R450): Command that stages one chunk of a Stolbo package, optionally forwarding along the ring. -/
def execUpdDownload (o : Origin) (source : List Byte) (s : State) : Host.Outcome State Fault Refusal := whenLive s <|
  .next (runCmd o 0x0050 [] noDeps (updDownload source) s)

/-- The transfer of a chunk ends (R449, R450, R356): RESULT is the number of bytes staged in all. -/
def stageDone (n : Fin 64) (tag : W32) (off : Nat) (bytes : List Byte) (s : State) : State :=
  let r := stageBytes off bytes s
  if r.2 then finish n tag stSuccess 0 (le 8 r.1.upd.staging.length) r.1 else finish n tag stVerifyFailed 0 [] r.1

/-- TRANSFER_COMPLETE (R215, R350, R352, R450): the bytes are in place and the completion is posted. `ecc` is what the DRAM read of
the transfer found (R240). A transfer into host memory needs DMA. -/
def transferComplete (n : Fin 64) (tag : W32) (ecc : ScrubResult) (s : State) : State :=
  match s.hif.qps[n].fetched.find? fun f => f.tag == tag with
  | none => s
  | some f =>
    match f.xfer with
    | some (.toHost addr bytes) =>
      if dma s then finish n tag stSuccess 0 f.result (hostWrite addr bytes (scrubbed ecc s)) else s
    | some (.segment seq addr image release) =>
      if dma s then
        let s := scrubbed ecc s
        finish n tag stSuccess 0 f.result (endRead seq release (hostWrite addr (imageBytes seq image s) s))
      else s
    | some (.stage off bytes) => if dma s then stageDone n tag off bytes s else s
    | _ => s

/-- TRANSFER_COMPLETE (R350): A command's transfer into or out of host memory finishes and its completion is posted. -/
def execTransferComplete (n : Fin 64) (tag : W32) (ecc : ScrubResult) (s : State) : Host.Outcome State Fault Refusal := whenLive s <|
  .next (transferComplete n tag ecc s)

/-! ### UPD_VERIFY (R446, R447, R453) -/

/-- The records of a decrypted DELTA applied to a base image (R447); none where it fails. -/
def deltaOut (base : List Byte) : Nat → List Byte → Option (List Byte)
  | 0, _ => none
  | fuel + 1, d =>
    if d.length < 16 then none
    else
      let n := fieldAt d 0x04 4
      let src := fieldAt d 0x08 8
      match fieldAt d 0 1 with
      | 1 => if base.length < src + n then none else (deltaOut base fuel (d.drop 16)).map (slice base src n ++ ·)
      | 2 =>
        if d.length < 16 + n then none
        else (deltaOut base fuel (d.drop (16 + (n + 15) / 16 * 16))).map (slice d 16 n ++ ·)
      | 3 => some []
      | _ => none

/-- The stored data of a part opened (R446). -/
def openPart (pkg : List Byte) (i : Nat) : Option (List Byte) :=
  let e := entryOf pkg i
  Config.gcmOpen (fieldAt pkg 0x19 1) (slice e 0x20 12) (patch e 0x30 (List.replicate 16 0)) (slice e 0x30 16)
    (slice pkg (fieldAt e 0x08 8) (fieldAt e 0x10 8))

/-- The new image of a part (R453), or the LAST_CAUSE of its failure; none as image for SAME. -/
def partImage (pkg : List Byte) (i : Nat) (active : Bank) : Except Nat (Option (List Byte)) :=
  let e := entryOf pkg i
  let hashed := fun (img : List Byte) =>
    if Config.sha384 img = slice e 0x70 48 then Except.ok (some img) else .error 4
  match partKind pkg i with
  | 2 => if active.hash = slice e 0x70 48 then .ok none else .error 4
  | 0 => match openPart pkg i with
    | some img => hashed img
    | none => .error 2
  | 1 =>
    if active.hash ≠ slice e 0x40 48 then .error 3
    else match openPart pkg i with
      | none => .error 2
      | some d => match deltaOut active.image (d.length / 16 + 1) d with
        | none => .error 6
        | some img => if img.length ≠ fieldAt e 0x18 8 then .error 5 else hashed img
  | _ => .error 6

/-- UPD_VERIFY is accepted only in STAGED (R453, R466). -/
def updVerify (_ : Call) (s : State) : Reply :=
  if s.upd.state == .staged then .start (toState .verifying s) (.wait 0) [] else refuse stState 0

/-- UPD_VERIFY (R453): Command that decrypts, applies and hashes every part of the staged package into inactive banks.
-/
def execUpdVerify (o : Origin) (s : State) : Host.Outcome State Fault Refusal := whenLive s <|
  .next (runCmd o 0x0051 [] noDeps updVerify s)

/-- One part verified (R453): its image goes into the inactive bank, with its hash. -/
def verifyPart (p : Fin 6) (r : State × Option (Nat × Nat)) : State × Option (Nat × Nat) :=
  match r.2 with
  | some _ => r
  | none =>
    let s := r.1
    let pkg := s.upd.staging
    match partImage pkg p.val (bankOf s s.upd.act.banks p) with
    | .error cause => (s, some (cause, p.val + 1))
    | .ok x =>
      let s := updUpd (fun u => { u with passed := u.passed ||| BitVec.ofNat 6 (2 ^ p.val) }) s
      match x with
      | none => (s, none)
      | some img =>
        (updUpd (fun u => { u with writtenBanks := u.writtenBanks ||| BitVec.ofNat 6 (2 ^ p.val) })
          (updBank p (!s.upd.act.banks.getLsbD p.val) (fun _ =>
            { valid := true, image := img, hash := Config.sha384 img,
              version := BitVec.ofNat 32 (fieldAt (entryOf pkg p.val) 0x04 4), factory := false }) s), none)

/-- UPD_VERIFY_DONE (R453): every part passes and the manifest slot is written, or the written banks become invalid. -/
def updVerifyDone (s : State) : State :=
  if s.upd.state != .verifying then s
  else
    let r := (List.finRange 6).foldl (fun r p => verifyPart p r) (updUpd (fun u => { u with passed := 0, writtenBanks := 0 }) s, none)
    let passed := le 2 r.1.upd.passed.toNat
    match r.2 with
    | some (cause, part) => finishWait 0x0051 0 stVerifyFailed 0 passed (checkFails .staged cause part (dropWritten r.1))
    | none =>
      let s := updUpd (fun u => { u with
        manifests := u.manifests.set (slotIdx (!u.act.manifestSlot)) (u.staging.take headBytes) }) r.1
      finishWait 0x0051 0 stSuccess 0 passed (toState .verified s)

/-- UPD_VERIFY_DONE (R453): Verification of all parts finishes and the state becomes VERIFIED or STAGED. -/
def execUpdVerifyDone (s : State) : Host.Outcome State Fault Refusal := whenLive s <| .next (updVerifyDone s)

/-! ### The activation record (R455, R465, R467) -/

/-- The record written anew: GEN one higher (R467). -/
def writeRecord (f : Activation → Activation) (s : State) : State :=
  updUpd (fun u => { u with act := let a := f u.act; { a with gen := u.act.gen + 1 } }) s

/-- The 64 bytes of a copy of the activation record (R467): both copies hold them once a write is done. -/
def recordBytes (a : Activation) : List Byte :=
  let b := [0x41, 0x43, 0x54, 0x56] ++ le 4 a.gen.toNat
    ++ [(match a.state with | .confirmed => 0 | .trial => 1 | .reverted => 2), BitVec.ofNat 8 a.trialBoots, a.banks.zeroExtend 8,
        a.prevBanks.zeroExtend 8,
        BitVec.ofNat 8 (flag a.manifestSlot 0 + flag a.prevManifestSlot 1 + flag a.settingsSlot 2 + flag a.prevSettingsSlot 3),
        a.levels.zeroExtend 8, 0, 0] ++ tsBytes a.atTick ++ List.replicate 32 0
  b ++ le 4 (crc32c b).toNat

/-- The first sample of the first lc whose position-0 sample is at or after a tick (R455, R461). -/
def lcAt (s : State) (t : TS96) : Nat := (firstAt s t + 39) / 40 * 40

/-- 600 s in units of 2^-24 Ts (R461). -/
def trialTime (s : State) : Int := ((600 * fsMilli s / 1000 * tick : Nat) : Int)

/-- The new SVC image's range of IF_VERSION leaves out an enabled instance (R454). -/
def ifOut (pkg : List Byte) (s : State) : Bool :=
  let e := entryOf pkg 4
  s.insts.toList.any fun x => (chargedCfg x).isSome && !within (fieldAt e 0xA0 4) x.ifVersion.toNat (fieldAt e 0xA4 4)

/-- The package of the last verification, as the free manifest slot holds it (R453). -/
def verifiedPkg (s : State) : List Byte := slotOf s (!s.upd.act.manifestSlot)

/-- The SVC image that an activation would bring (R454). -/
def nextSvc (s : State) : Option (List Byte) :=
  if s.upd.writtenBanks.getLsbD 4 then some (bankOf s (s.upd.act.banks ^^^ 0x10) 4).image else none

/-- What R454 finds against an activation, in its order. -/
def activateFault (levels scope : Nat) (at_ : TS96) (s : State) : Option Reply :=
  let pkg := verifiedPkg s
  let ahead := tsDiff at_ (tsNow s)
  let lower := bit levels 0
  if s.upd.state != .verified then some (refuse stState 0)
  else if levels ≠ (levelsOf s.upd.writtenBanks).toNat then some (refuse stInvalid 0x18)
  else if lower && decide (ahead < (40 * 2 ^ 28 * tick : Nat) ∨ (40 * 2 ^ 34 * tick : Nat) < ahead) then some (refuse stInvalid 0x20)
  else if 1 < scope ∨ (scope = 1 ∧ ((s.brim.ring ≠ .formed ∧ s.brim.ring ≠ .degraded) ∨ s.tb.state ≠ .set)) then
    some (refuse stInvalid 0x19)
  else match nextSvc s with
    | none => none
    | some img =>
      let s' := withImage img s
      if ifOut pkg s then some (refuse stInvalid 0xFF)
      else match admission [0x01, 0x02, 0x03, 0x04, 0x05, 0x06, 0x08, 0x09, 0x0A] 0x100 (dasMoved s s') s s' with
        | some (k, it) => some (.refuse stCapacity k [] it)
        | none => if raisesArmed s s' then some (refuse stBusy 0) else none

/-- The upper level begins to switch (R456): commits pause until UPPER_SWITCH_DONE. -/
def startUpper (back : Bool) (s : State) : State :=
  let s := { s with hif := { s.hif with cmdPaused := true } }
  raiseUpper back (updUpd (fun u => { u with upperSwitching := true }) s)

/-- The record commits and the levels begin to switch (R455 to R457, R460, R461, R465). -/
def activate (levels : Nat) (at_ : TS96) (s : State) : State :=
  let new := s.upd.writtenBanks
  let ctrl := new.getLsbD 0
  let lower := bit levels 0
  let s := writeRecord (fun a => { a with
    state := .trial, trialBoots := 1, banks := a.banks ^^^ new, prevBanks := a.banks,
    manifestSlot := !a.manifestSlot, prevManifestSlot := a.manifestSlot,
    settingsSlot := if ctrl then !a.settingsSlot else a.settingsSlot, prevSettingsSlot := a.settingsSlot,
    levels := BitVec.ofNat 2 levels, atTick := at_ }) s
  let s := updUpd (fun u => { u with
    reverted := false, ctrlNew := ctrl, updateAt := if lower then some (lcAt s at_) else none, revertAt := none,
    deadlineTick := if lower then some (tsAdd at_ (trialTime s)) else none, deadlineTimer := !lower }) s
  let s := toState (if lower then .activating else .trial) s
  if bit levels 1 then startUpper false s else s

/-! ### Array scope (R459) -/

/-- BODY of MGMT (R459). -/
def mgmtBody (op levels status : Nat) (version : W32) (at_ : TS96) (target : Nat) (digest : List Byte) : List Byte :=
  [BitVec.ofNat 8 op, BitVec.ofNat 8 levels] ++ le 2 status ++ le 4 version.toNat ++ tsBytes at_ ++ [BitVec.ofNat 8 target]
    ++ digest.take 7

/-- A counter of UPD_ARRAY (R469), seven bits. -/
def arrayCount (x : Nat) : Nat := stick 7 (x + 1)

/-- UPD_ACTIVATE (R454, R455, R459). -/
def updActivate (c : Call) (s : State) : Reply :=
  let levels := arg1 c 0x18
  let at_ := argTs c 0x20
  match activateFault levels (arg1 c 0x19) at_ s with
  | some r => r
  | none =>
    let pkg := verifiedPkg s
    let s := activate levels at_ s
    let s := if arg1 c 0x19 = 1 then
        flood 0x10 0 0 0 (mgmtBody 1 levels 0 (packageVersion pkg) at_ 0 (packageDigest pkg))
          (updUpd (fun u => { u with accepted := 0, refused := 0 }) s)
      else s
    if bit levels 1 then .start s (.wait 0) [] else .ok s []

/-- UPD_ACTIVATE (R455): Command that commits the activation record and switches the upper level, scheduling the lower
level. -/
def execUpdActivate (o : Origin) (s : State) : Host.Outcome State Fault Refusal := whenLive s <|
  .next (runCmd o 0x0052 [] noDeps updActivate s)

/-- Status of a reply. -/
def replyStatus : Reply → Nat
  | .ok _ _ | .start _ _ _ => stSuccess
  | .refuse status _ _ _ | .refuseIn _ status _ _ => status

/-- ACTIVATE from another member (R459): judged as the own host's with SCOPE 1 would be, with the same digest (INVALID otherwise, log 65), and
answered with RESULT. A member that takes no commands does not judge it. -/
def mgmtActivate (f : List Byte) (s : State) : State :=
  if !committing s then s
  else
    let levels := flitBody f 0x21 1
    let at_ : TS96 := BitVec.ofNat 96 (flitBody f 0x28 12)
    let pkg := verifiedPkg s
    let answer := fun (status : Nat) (s : State) =>
      flood 0x10 0 0 0 (mgmtBody 2 levels status (packageVersion pkg) 0 (flitOrigin f).val (packageDigest pkg)) s
    match activateFault levels 1 at_ s with
    | some r => answer (replyStatus r) s
    | none =>
      if slice f 0x35 7 = (packageDigest pkg).take 7 then answer stSuccess (activate levels at_ s) else answer stInvalid s

/-- RESULT addressed to this member (R459, R469). -/
def mgmtResult (f : List Byte) (s : State) : State :=
  if flitBody f 0x34 1 ≠ s.brim.position then s
  else
    let status := flitBody f 0x22 2
    if status = stSuccess then updUpd (fun u => { u with accepted := arrayCount u.accepted }) s
    else raiseNow 0xEC sevWarning ([BitVec.ofNat 8 (flitOrigin f).val, 0] ++ le 2 status)
      (updUpd (fun u => { u with refused := arrayCount u.refused }) s)

/-- A MGMT flit is received (R386, R459). -/
def mgmtMessage (rx : Rx) (s : State) : State :=
  flooded rx (fun s =>
    match flitBody rx.flit 0x20 1 with
    | 1 => mgmtActivate rx.flit s
    | 2 => mgmtResult rx.flit s
    | _ => s) s

/-- MGMT_MESSAGE (R459): MGMT ACTIVATE or RESULT flit received and judged or counted. -/
def execMgmtMessage (rx : Rx) (s : State) : Host.Outcome State Fault Refusal := whenLive s <|
  if WellFormed.instr (.mgmtMessage rx) then .next (mgmtMessage rx s) else .fault .illFormed

/-! ### Switches (R456, R457, R463, R465) -/

/-- The first start of a new CTRL (R465): the other slot takes the converted settings, or factory defaults. -/
def ctrlStart (s : State) : State :=
  if !s.upd.ctrlNew then s
  else
    let a := s.upd.act
    let s := updUpd (fun u => { u with ctrlNew := false }) s
    if Config.canConvert (ctrlVersion s) then
      updCfg (fun c => { c with slot := a.settingsSlot,
                                slots := c.slots.set (slotIdx a.settingsSlot) c.slots[slotIdx a.prevSettingsSlot] }) s
    else
      let s := updCfg (fun c => { c with slot := a.settingsSlot,
                                         slots := c.slots.set (slotIdx a.settingsSlot) (Vector.replicate 2 CfgCopy.empty) }) s
      let s := updUpd (fun u => { u with settingsDefaulted := true }) s
      raiseBoot 0xE8 sevNotice (updStateData 0 s.upd) s

/-- The slot in use follows the record, with the copy that it holds. -/
def followSlot (s : State) : State :=
  let s := updCfg (fun c => { c with slot := s.upd.act.settingsSlot }) s
  match copyInUse s.cfg with
  | some b => updCfg (fun c => { c with copyB := b, gen := (copyOf c b).gen }) s
  | none => updCfg (fun c => { c with copyB := false, gen := 0 }) s

/-- The upper level has switched, or switched back (R456): settings are taken, commits resume and UPD_ACTIVATE completes. -/
def upperSwitchDone (s : State) : State :=
  if !s.upd.upperSwitching then s
  else
    let s := followSlot (ctrlStart (updUpd (fun u => { u with upperSwitching := false }) s))
    finishWait 0x0052 0 stSuccess 0 [] { s with hif := { s.hif with cmdPaused := false } }

/-- UPPER_SWITCH_DONE (R456): Upper-level switch completes and commits resume. -/
def execUpperSwitchDone (s : State) : Host.Outcome State Fault Refusal := whenLive s <| .next (upperSwitchDone s)

/-- The SVC image that the record selects is in service (R457): instances take over its latencies. -/
def takeSvc (s : State) : State :=
  let b := bankOf s s.upd.act.banks 4
  let s := updUpd (fun u => { u with svcImage := if b.factory then none else some b.image }) s
  refreshDas (refreshLatency s)

/-- UPDATE_SAMPLE (R457, R466). -/
def updateSample (s : State) : State :=
  match s.upd.updateAt with
  | some u =>
    if s.upd.state == .activating && decide (u < commitSample s + 40) then
      raiseLower false u (toState .trial (takeSvc (updUpd (fun x => { x with updateAt := none }) s)))
    else s
  | none => s

/-- UPDATE_SAMPLE (R457): Update sample u arrives and the lower level switches. -/
def execUpdateSample (s : State) : Host.Outcome State Fault Refusal := whenLive s <| .next (updateSample s)

/-- REVERT_SAMPLE (R463): the lower level switches back. -/
def revertSample (s : State) : State :=
  match s.upd.revertAt with
  | some u =>
    if u < commitSample s + 40 then raiseLower true u (takeSvc (updUpd (fun x => { x with revertAt := none }) s)) else s
  | none => s

/-- REVERT_SAMPLE (R463): Revert sample arrives and the lower level switches back. -/
def execRevertSample (s : State) : Host.Outcome State Fault Refusal := whenLive s <| .next (revertSample s)

/-! ### Confirmation and reversion (R462, R463) -/

/-- UPD_CONFIRM is accepted only in TRIAL (R462, R465). -/
def updConfirm (_ : Call) (s : State) : Reply :=
  if s.upd.state == .trial then
    let s := writeRecord (fun a => { a with state := .confirmed, trialBoots := 0 }) s
    let s := updUpd (fun u => { noStaging u with
      chain := none, settingsDefaulted := false, deadlineTick := none, deadlineTimer := false, writtenBanks := 0, passed := 0 }) (endFwd s)
    .ok (toState .idle s) []
  else refuse stState 0

/-- UPD_CONFIRM (R462): Command that confirms the trial set and makes the previous banks the fallback set. -/
def execUpdConfirm (o : Origin) (s : State) : Host.Outcome State Fault Refusal := whenLive s <|
  .next (runCmd o 0x0053 [] noDeps updConfirm s)

/-- The record goes back to the previous selection (R460, R463, R464). The slots and banks that it names are those of before; the
abandoned selection is no fallback (log 66). -/
def revertRecord (cause : Nat) (s : State) : State :=
  let left := s.upd.act.banks ^^^ s.upd.act.prevBanks
  let s := writeRecord (fun a => { a with
    state := .reverted, banks := a.prevBanks, manifestSlot := a.prevManifestSlot, settingsSlot := a.prevSettingsSlot }) s
  updUpd (fun u => { u with
    reverted := true, lastCause := BitVec.ofNat 8 cause, settingsDefaulted := false, ctrlNew := false, updateAt := none,
    deadlineTick := none, deadlineTimer := false, writtenBanks := left, passed := 0 }) s

/-- Reversion in place (R463): `lowerAt` is the revert sample where the lower level has switched. Cause 7 TIMEOUT or 9 ABORT. -/
def revertInPlace (cause : Nat) (lowerAt : Option Nat) (s : State) : State :=
  let levels := s.upd.act.levels
  let s := revertRecord cause s
  let s := raiseNow 0xEB sevWarning (trialData (if cause = 7 then 1 else 2) s.upd) s
  let s := updUpd (fun u => { u with revertAt := if levels.getLsbD 0 then lowerAt else none }) s
  let s := toState .staged s
  if levels.getLsbD 1 then startUpper true s else s

/-- The first lc boundary at least 2^28 lc after now (R463). -/
def farLc (s : State) : Nat := commitSample s + 40 * 2 ^ 28

/-- TRIAL_DEADLINE (R461, R463, R466): a tick deadline in its first lc, or the control-domain timer. -/
def trialDeadline (s : State) : State :=
  if s.upd.state != .trial then s
  else match s.upd.deadlineTick with
    | some t => if lcAt s t < commitSample s + 40 then revertInPlace 7 (some (lcAt s t)) s else s
    | none => if s.upd.deadlineTimer then revertInPlace 7 (some (farLc s)) s else s

/-- TRIAL_DEADLINE (R463): Trial deadline passes unconfirmed and reversion begins. -/
def execTrialDeadline (s : State) : Host.Outcome State Fault Refusal := whenLive s <| .next (trialDeadline s)

/-- UPD_ABORT (R463, R466). -/
def updAbort (_ : Call) (s : State) : Reply :=
  match s.upd.state with
  | .trial => .ok (revertInPlace 9 (some (farLc s)) s) []
  | .activating => .ok (revertInPlace 9 none s) []
  | .downloading | .staged | .verified =>
    .ok (toState .idle (dropWritten (updUpd (fun u => { noStaging u with chain := none }) (endFwd s)))) []
  | _ => refuse stState 0

/-- UPD_ABORT (R463): Command that abandons an update or reverts a trial in place. -/
def execUpdAbort (o : Origin) (s : State) : Host.Outcome State Fault Refusal := whenLive s <|
  .next (runCmd o 0x0054 [] noDeps updAbort s)

end Sys2Proof.Machine
end

