-- ==== Sys2Proof/Machine/Power.lean ====
section
/-!
DEFINITION. Supplies, rails, PERST# and boot (R44 to R48, R57, R62, R408 to R419, R425 to R429, R460, R464, R468, R476, R481, R483,
R488 to R490), the restarts of the control complex and the PMC, and the management port.
-/
namespace Sys2Proof.Machine

/-- The power block changed. -/
def updPwr (f : Power → Power) (s : State) : State := { s with pwr := f s.pwr }

/-- The boot block changed. -/
def updBoot (f : Boot → Boot) (s : State) : State := { s with boot := f s.boot }

/-! ### What a reset leaves (R46, R118, R206, R436, R468, R481) -/

/-- The power block without the PMC (R418): telemetry reads zero, switched hardware stays. -/
def Power.quiet (p : Power) : Power :=
  { p with rails := p.rails.map fun r => { r with voltage := 0, current := 0, power := 0 },
           vmainMv := 0, imain := 0, pin := 0, vstbyMv := 0, energy := 0 }

/-- A slice after a reset: stored retirements and interpolated positions stay, the tables are those saved at the last proofing end
(R118, R122, R485), and the flag of a cartridge past life stays with it (R61). -/
def Slice.kept (n : Nat) (x : Slice) : Slice :=
  { Slice.reset n with retired := x.retired, interp := x.interp, laneTab := x.savedLane, posTab := x.savedPos, fracDelay := x.savedFrac,
                       savedLane := x.savedLane, savedPos := x.savedPos, savedFrac := x.savedFrac,
                       interpFrom := if x.interp = 0 then none else some 0, wornFrom := x.wornFrom.map fun _ => 0 }

/-- Health after a reset: the life log, repairs and exclusions stay (R421, R431, R481). -/
def Health.kept (h : Health) : Health :=
  { Health.reset with
    sensors := h.sensors.map fun x => { Sensor.reset with excluded := x.excluded }, powerHours := h.powerHours, avgTj := h.avgTj,
    tjPeak := h.tjPeak, hotSeconds := h.hotSeconds, trips := h.trips, lifeWarnHours := h.lifeWarnHours, repairs := h.repairs }

/-- Banks that a verification under way had written are invalid (R468); how far it had come is open (log 67). -/
def dropPartial (s : State) : State :=
  if s.upd.state == .verifying then
    forAll 6 (fun p s =>
      if partKind s.upd.staging p.val = 2 then s
      else
        let (k, s) := fresh s
        if Config.freeBit k then updBank p (!s.upd.act.banks.getLsbD p.val) (fun b => { b with valid := false }) s else s) s
  else s

/-- Update state after a loss of power or PERST# (R448, R466, R468). -/
def Upd.kept (u : Upd) : Upd :=
  let whole := u.pkgLen == some u.staging.length
  let staging := if whole then u.staging else u.staging.take u.progress
  let staging := if staging.length < 1248 then [] else staging
  let u := if staging.isEmpty then noStaging u
    else { u with staging := staging, manifestOk := u.manifestOk && decide (headBytes ≤ staging.length) }
  { u with
    state := if u.act.state == .trial then .trial else if staging.isEmpty then .idle else if whole then .staged else .downloading,
    fwdEast := none, fwdWest := none, updateAt := none, revertAt := none, deadlineTick := none, deadlineTimer := false,
    upperSwitching := false, svcImage := none, accepted := 0, refused := 0, passed := 0 }

/-- The settings store after a reset: its copies stay, a save under way is lost (R475, R481). -/
def Cfg.kept (c : Cfg) : Cfg := { Cfg.reset with slots := c.slots, slot := c.slot, bootRestore := c.bootRestore }

/-- The access store after a reset: levels closed, nonces gone, failure counts kept (R481, R488). -/
def Acc.kept (a : Acc) : Acc :=
  { Acc.reset with salt := a.salt, pwHash := a.pwHash, level := a.level.map fun x => { Level.reset with fails := x.fails } }

/-- Everything outside the always-on domain and the test access ports is reset (R46); what the non-volatile store and host memory
hold stays. Proofing begins when PERST# is released (R122). -/
def deviceReset (s : State) : State :=
  let s := dropPartial s
  { State.reset with
    pending := s.pending, aoCycles := s.aoCycles, freeCtr := s.freeCtr, busRead := s.busRead, hostMem := s.hostMem,
    hif := { Hif.reset with sent := s.hif.sent }, pwr := s.pwr.quiet, health := s.health.kept, tap := s.tap,
    proof := { Proofing.reset with step := 0 }, slices := Vector.ofFn fun n : Fin 8 => (s.slices[n]).kept n.val, carts := s.carts,
    tacs := s.tacs.map fun t => { Tac.reset with table := t.saved, saved := t.saved, quietSince := s.aoCycles },
    eng := { Eng.reset with retired := s.eng.retired },
    brim := { Brim.reset with links := s.brim.links.map fun l => { BrimLink.reset with sent := l.sent } },
    upd := s.upd.kept, cfg := s.cfg.kept, acc := s.acc.kept }

/-! ### PERST# (R46, R48, R62, R425, R489) -/

/-- Levels that were open report their closing after the reset (R489). -/
def reportClosed (open_ : List (Fin 2)) (s : State) : State :=
  open_.foldl (fun s l =>
    raiseBoot 0xF1 sevNotice [BitVec.ofNat 8 l.val, 2, BitVec.ofNat 8 (s.acc.level[l]).fails] s) s

/-- PERST# is asserted (R46). Cartridge supplies are off while it is (R47, `cart3V3`). -/
def perstAssert (s : State) : State :=
  if s.pwr.perst then s
  else
    let open_ := (List.finRange 2).filter fun l => (s.acc.level[l]).isOpen
    let s := deviceReset s
    reportClosed open_ (updPwr (fun p => { p with perst := true, perstAt := s.aoCycles }) s)

/-- PERST_ASSERT (R46): PERST# asserted, holding all but the always-on domain and test ports in reset. -/
def execPerstAssert (s : State) : Host.Outcome State Fault Refusal := .next (perstAssert s)

/-! ### Boot (R409, R410, R460, R464, R466, R483) -/

/-- The identity check of the starter (R483). -/
def identityCheck (c : BootChecks) (s : State) : State :=
  match c.idn with
  | some die => raiseBoot 0xF2 sevError [die] (updBoot (fun b => { b with idnMismatch := true }) s)
  | none => s

/-- UPD_TRIAL at boot, a boot report (R470, R518). -/
def bootTrial (cause : Nat) (s : State) : State := raiseBoot 0xEB sevWarning (trialData cause s.upd) s

/-- The state that the record and staging give after a boot (R466): on TRIAL the deadline runs 600 s from READY (R461). -/
def bootUpd (s : State) : State :=
  updUpd (fun u => { u.kept with deadlineTimer := u.act.state == .trial }) s

/-- A trial boot (R460). -/
def trialBoot (s : State) : State :=
  if s.upd.act.state == .trial then
    if s.upd.act.trialBoots = 3 then bootTrial 3 (revertRecord 8 s)
    else bootTrial 0 (writeRecord (fun a => { a with trialBoots := a.trialBoots + 1 }) s)
  else s

/-- The selected set fails a check (R410, R464): the previous or the fallback set boots whole, or RESCUE is entered. A record that
shows REVERTED has no other set (log 66). -/
def bootFails (c : BootChecks) (s : State) : State :=
  let rescue := fun (s : State) => updBoot (fun b => { b with stage := .rescue }) s
  match s.upd.act.state with
  | .trial =>
    let s := bootTrial 4 (revertRecord 10 s)
    if c.fallbackOk then s else rescue s
  | .confirmed =>
    if c.fallbackOk then
      bootTrial 4 (updUpd (fun u => { u with lastCause := 10 })
        (writeRecord (fun a => { a with banks := a.prevBanks, manifestSlot := a.prevManifestSlot, settingsSlot := a.prevSettingsSlot }) s))
    else rescue s
  | .reverted => rescue s

/-- The starter's work (R409). -/
def starter (c : BootChecks) (s : State) : State :=
  let s := updBoot (fun b => { b with stage := .loader }) (identityCheck c (trialBoot s))
  bootUpd (if c.setOk then s else bootFails c s)

/-- PERST# is released (R409): the starter runs and the slices enter proofing (R122). The 100 ms of R425 are counted here. -/
def perstRelease (c : BootChecks) (s : State) : State :=
  if !s.pwr.perst then s
  else
    let long := decide (2500000 ≤ s.aoCycles - s.pwr.perstAt)
    let s := updPwr (fun p => { p with perst := false,
                                       trip := p.trip.map fun t => { t with restart := t.restart || (t.elapsed && long) } }) s
    if s.pwr.railsOn then
      starter c { s with proof := { s.proof with active := true, step := 1 } }
    else s

/-- PERST_RELEASE (R409): PERST# released, starting the starter, proofing and link training. -/
def execPerstRelease (checks : BootChecks) (s : State) : Host.Outcome State Fault Refusal := .next (perstRelease checks s)

/-- The control firmware fills the band tables with the starting values of the CALDEF in service (R72, R456). -/
def fillBands (s : State) : State :=
  let t := calTable s.upd
  { s with clk := { s.clk with bands := Vector.ofFn fun c : Fin 4 => Vector.ofFn fun i : Fin 32 =>
      let e := (s.clk.bands[c])[i]
      if e.edited then e
      else { e with centreKhz := Config.bandCentre t c.val i.val, kvco := Config.bandKvco t c.val i.val,
                    capCode := Config.bandCap t c.val i.val, valid := Config.bandValid t c.val i.val } } }

/-- LOADER_DONE (R409, R410, R464). From the state after reset the starter's work goes with it. -/
def loaderDone (c : BootChecks) (s : State) : State :=
  let pass := fun (s : State) =>
    if s.boot.stage == .rescue then s else takeSvc (fillBands (updBoot (fun b => { b with stage := .main }) s))
  match s.boot.stage with
  | .starter => pass (starter c s)
  | .loader => pass (bootUpd (if c.setOk then s else bootFails c s))
  | _ => s

/-- LOADER_DONE (R409): Loader finishes copying and checking the images from MRAM. -/
def execLoaderDone (checks : BootChecks) (s : State) : Host.Outcome State Fault Refusal := whenLive s <|
  .next (loaderDone checks s)

/-- The PMC firmware starts, and with it telemetry and the thermal policy (R409, R418). -/
def execPmcFirmwareStart (s : State) : Host.Outcome State Fault Refusal := whenLive s <|
  .next (if s.boot.stage == .main then updBoot (fun b => { b with pmcRunning := true }) s else s)

/-- Neither copy of the access store is valid (R490). The report names a level, which is open (log 68). -/
def storeLost (s : State) : State :=
  let s := updCfg (fun c => { c with bootRestore := true })
    { s with acc := { s.acc with salt := [], pwHash := none, level := s.acc.level.map fun x => { x with fails := 8 } } }
  let (k, s) := fresh s
  raiseBoot 0xF1 sevError [Config.freeByte k, 4, 8] s

/-- The main firmware starts (R409, R465, R476, R477, R490). -/
def mainFirmwareStart (storeOk : Bool) (s : State) : State :=
  if s.boot.stage == .main && !s.boot.mainRunning then
    let s := updBoot (fun b => { b with mainRunning := true }) s
    let s := if storeOk then s else storeLost s
    let s := updCfg (fun c => { c with slot := s.upd.act.settingsSlot }) s
    if s.upd.ctrlNew then followSlot (ctrlStart s) else bootSettings s
  else s

/-- MAIN_FIRMWARE_START (R476): Main firmware starts, reads the settings slot and begins the boot restore. -/
def execMainFirmwareStart (storeOk : Bool) (s : State) : Host.Outcome State Fault Refusal := whenLive s <|
  .next (mainFirmwareStart storeOk s)

/-- READY (R409, R410, R488). -/
def execReady (s : State) : Host.Outcome State Fault Refusal := whenLive s <|
  .next (if !s.boot.ready && (s.boot.mainRunning || s.boot.stage == .rescue) && !s.boot.ccFailed then
    restartDelays (updBoot (fun b => { b with ready := true, reached := true }) s)
  else s)

/-! ### Restarts (R411 to R413, R375, R486) -/

/-- Cause code (R519). -/
def restartCode : RestartCause → Nat
  | .lockstep => 0 | .sramEcc => 1 | .watchdog => 2

/-- CC_RESTART (R411, R412, R519), a boot report (R518). -/
def raiseRestart (c : RestartCause) (s : State) : State :=
  raiseBoot 0x00 (if s.boot.singleCore then sevError else sevWarning)
    ([BitVec.ofNat 8 (restartCode c), BitVec.ofNat 8 (flag s.boot.singleCore 0)] ++ le 2 s.boot.ccRestarts.toNat) s

/-- The complex is failed (R412, R428). -/
def ccFail (s : State) : State :=
  updPwr (fun p => { p with mgCause := p.mgCause ||| 4 }) (updBoot (fun b => { b with ccFailed := true, ready := false }) s)

/-- Always-on cycles in 60 s (R412). -/
def sixtySeconds : Nat := 1500000000

/-- A restart begins (R411): nonces lapse (R486), and the fifth restart within 60 s fails the complex (R412). -/
def beginRestart (c : RestartCause) (s : State) : State :=
  if s.boot.stage == .starter || s.boot.stage == .loader || s.boot.ccFailed || s.boot.restarting.isSome then s
  else
    let times := (s.aoCycles :: s.boot.restartTimes).filter fun t => decide (s.aoCycles - t ≤ sixtySeconds)
    let s := updBoot (fun b => { b with restarting := some c, lastRestart := some c, ccRestarts := b.ccRestarts + 1,
                                        restartTimes := times }) s
    let s := raiseRestart c { s with acc := { s.acc with level := s.acc.level.map fun x => { x with nonce := none } } }
    if 5 ≤ times.length then ccFail s else s

/-- LOCKSTEP_ERROR (R411); a single core is not checked against another (R412). -/
def execLockstepError (s : State) : Host.Outcome State Fault Refusal := whenLive s <|
  .next (if s.boot.singleCore then s else beginRestart .lockstep s)

/-- CC_SRAM_ECC (R411): Uncorrectable control SRAM error begins a restart. -/
def execCcSramEcc (s : State) : Host.Outcome State Fault Refusal := whenLive s <| .next (beginRestart .sramEcc s)

/-- WATCHDOG (R411): Control watchdog not served for 10 ms begins a restart. -/
def execWatchdog (s : State) : Host.Outcome State Fault Refusal := whenLive s <| .next (beginRestart .watchdog s)

/-- Consecutive self-test failures of a core. -/
def countFail (ok : Bool) (n : Nat) : Nat := if ok then 0 else n + 1

/-- A restart completes (R411, R412): a core that has failed twice in a row is fenced for good; with no core left the complex is
failed. -/
def ccRestart (ok0 ok1 : Bool) (s : State) : State :=
  match s.boot.restarting with
  | none => s
  | some c =>
    let s := updBoot (fun b => { b with
      restarting := none, coreFails := #v[countFail ok0 b.coreFails[0], countFail ok1 b.coreFails[1]] }) s
    if s.boot.singleCore then (if (if s.boot.fencedCore then ok0 else ok1) then s else ccFail s)
    else
      let bad0 := decide (2 ≤ s.boot.coreFails[0])
      let bad1 := decide (2 ≤ s.boot.coreFails[1])
      if bad0 || bad1 then
        let s := raiseRestart c (updBoot (fun b => { b with singleCore := true, fencedCore := !bad0 }) s)
        if bad0 && bad1 then ccFail s else s
      else s

/-- CC_RESTART (R411): Control-complex restart completes and commits resume. -/
def execCcRestart (ok0 ok1 : Bool) (s : State) : Host.Outcome State Fault Refusal := whenLive s <|
  .next (ccRestart ok0 ok1 s)

/-- PMC_RESTART (R413): counted and reported; regulators, throttle and telemetry hold. -/
def execPmcRestart (cause : Fin 3) (s : State) : Host.Outcome State Fault Refusal := whenLive s <|
  .next (if s.boot.pmcRunning then
    raiseNow 0x01 sevWarning [BitVec.ofNat 8 cause.val] (updBoot (fun b => { b with pmcRestarts := b.pmcRestarts + 1 }) s)
  else s)

/-! ### Rails (R44, R45, R57, R62, R414 to R417, R425) -/

/-- Power stages of a rail (R414): N + 1. -/
def railStages (r : Nat) : Nat :=
  if r = 12 ∨ r = 13 then 4 else if r = 10 ∨ r = 11 ∨ r = 14 ∨ r = 15 ∨ r = 16 ∨ r = 18 then 3 else 2

/-- The main rails are off (R415): every block they feed loses its state, the test access ports among them (R436), and every input
returns to ABSENT (R62). -/
def railsOff (s : State) : State :=
  if !s.pwr.railsOn then s
  else
    let s := deviceReset s
    updPwr (fun p => { p with railsOn := false, railGroup := 0 })
      (cartsRailsDown { s with tap := Tap.reset })

/-- The sequencer's conditions for the main rails (R44, R425, R428). -/
def railsAllowed (s : State) : Bool :=
  s.pwr.vstbyValid && s.pwr.vmainValid && !s.pwr.mainInhibit && match s.pwr.trip with
    | none => true
    | some t => t.elapsed && (t.restart || (s.pwr.perst && decide (2500000 ≤ s.aoCycles - s.pwr.perstAt)))

/-- MAIN_RAILS_ON (R44, R57, R62, R415, R416, R421): `present` says which inputs read PRESENT low. -/
def mainRailsOn (present : BitVec 8) (s : State) : State :=
  if s.pwr.railsOn || !railsAllowed s then s
  else
    let matings := s.pwr.standbyMatings
    let s := updPwr (fun p => { p with
      railsOn := true, railGroup := 0, trip := none, standbyMatings := Vector.replicate 8 0,
      rails := p.rails.map fun r => { r with shedStages := [], loopB := false } }) s
    let s := updHealth (fun h => { h with sensors := h.sensors.map fun x => { x with excluded := false, offMs := 0 } }) s
    { s with carts := Vector.ofFn fun n : Fin 8 =>
        if present.getLsbD n.val then
          { Cart.reset with state := .reading, present := true, v33 := true, counted := (matings[n]).toNat }
        else { Cart.reset with present := false } }

/-- MAIN_RAILS_ON (R415): Power-up sequencer starts the main rails once both start conditions hold. -/
def execMainRailsOn (present : BitVec 8) (s : State) : Host.Outcome State Fault Refusal := .next (mainRailsOn present s)

/-- RAIL_GROUP_READY (R415): ten groups in turn. -/
def execRailGroupReady (s : State) : Host.Outcome State Fault Refusal :=
  .next (if s.pwr.railsOn && decide (s.pwr.railGroup < 10) then updPwr (fun p => { p with railGroup := p.railGroup + 1 }) s else s)

/-- PHASE_SHED (R416). -/
def phaseShed (rail : Fin 22) (stage : Fin 4) (s : State) : State :=
  if s.pwr.railsOn && decide (stage.val < railStages rail.val) && !(s.pwr.rails[rail]).shedStages.contains stage.val then
    raiseNow 0x02 sevWarning [BitVec.ofNat 8 rail.val, BitVec.ofNat 8 stage.val]
      (updPwr (fun p => { p with rails := upd p.rails rail fun r => { r with shedStages := stage.val :: r.shedStages } }) s)
  else s

/-- PHASE_SHED (R416): A faulty power stage is shed within 10 µs. -/
def execPhaseShed (rail : Fin 22) (stage : Fin 4) (s : State) : Host.Outcome State Fault Refusal :=
  .next (phaseShed rail stage s)

/-- LOOP_B (R416). -/
def execLoopB (rail : Fin 22) (s : State) : Host.Outcome State Fault Refusal :=
  .next (if s.pwr.railsOn && !(s.pwr.rails[rail]).loopB then
    raiseNow 0x02 sevWarning [BitVec.ofNat 8 rail.val, 0xFF]
      (updPwr (fun p => { p with rails := upd p.rails rail fun r => { r with loopB := true } }) s)
  else s)

/-- A protection turns the main rails off (R417, R425): the cause bit, and the hold of the sequencer. -/
def tripOff (cause : BitVec 4) (s : State) : State :=
  updPwr (fun p => { p with mgCause := p.mgCause ||| cause, trip := some { cause := cause, elapsed := false, restart := false } }) (railsOff s)

/-- DATA of PWR_RAIL (R519): rail, voltage in mV, current in 10 mA. -/
def railFaultData (rail : Fin 22) (voltage current : BitVec 16) : List Byte :=
  [BitVec.ofNat 8 rail.val, 0] ++ le 2 voltage.toNat ++ le 2 current.toNat

/-- RAIL_FAULT (R417): PWR_RAIL reaches the ring if it can, before the rails fall. -/
def railFault (rail : Fin 22) (voltage current : BitVec 16) (s : State) : State :=
  if !s.pwr.railsOn then s
  else tripOff 2 (writeEvent 0x03
    (raiseNow 0x03 sevCritical (railFaultData rail voltage current) s))

/-- RAIL_FAULT (R417): A rail leaves ±10 % for 100 µs or is overloaded and all main rails turn off. -/
def execRailFault (rail : Fin 22) (voltage current : BitVec 16) (s : State) : Host.Outcome State Fault Refusal :=
  .next (railFault rail voltage current s)

/-- THERM_TRIP (R425, R437). -/
def execThermTrip (s : State) : Host.Outcome State Fault Refusal :=
  .next (if s.pwr.railsOn then tripOff 1 (updHealth (fun h => { h with trips := h.trips + 1 }) s) else s)

/-- Ten seconds have passed since the trip or the rail fault (R425). -/
def execTripHoldoffEnd (s : State) : Host.Outcome State Fault Refusal :=
  .next (updPwr (fun p => { p with trip := p.trip.map fun t => { t with elapsed := true } }) s)

/-! ### Supplies (R44, R45, R481) -/

/-- VSTBY_VALID (R44): Standby rail becomes valid and the always-on domain starts. -/
def execVstbyValid (s : State) : Host.Outcome State Fault Refusal :=
  .next (updPwr (fun p => { p with vstbyValid := true }) s)

/-- VSTBY is lost (R44, R45, R481): the sequencer has no supply, so the main rails are off as well (log 69), and sticky state, mating
counts and MAIN_INHIBIT are lost. -/
def execVstbyLoss (s : State) : Host.Outcome State Fault Refusal :=
  let s := railsOff s
  .next (updPwr (fun p => { p with
    vstbyValid := false, mgCause := 0, mainInhibit := false, trip := none, standbyMatings := Vector.replicate 8 0, mgVmain := 0,
    mgVstby := 0, mgPointer := 0, mgLatch := none }) s)

/-- VMAIN rises above 11.2 V (R44, R425). -/
def execVmainValid (s : State) : Host.Outcome State Fault Refusal :=
  .next (updPwr (fun p => { p with
    vmainValid := true, trip := p.trip.map fun t => { t with restart := t.restart || (t.elapsed && !p.vmainValid) } }) s)

/-- VMAIN stays below 10.8 V for 50 µs (R44, R428). -/
def execVmainLow (s : State) : Host.Outcome State Fault Refusal :=
  let fell := s.pwr.railsOn
  let s := railsOff s
  .next (updPwr (fun p => { p with vmainValid := false, mgCause := if fell then p.mgCause ||| 8 else p.mgCause }) s)

/-! ### Management port (R427 to R429) -/

/-- FAULT# (R47, R429): released while PERST# is asserted with the rails up. -/
def faultPin (s : State) : Bool :=
  s.pwr.vstbyValid && !(s.pwr.perst && s.pwr.railsOn)
    && ((s.pwr.trip.isSome && !s.pwr.railsOn) || s.boot.ccFailed || s.proof.fail)

/-- POWER (R428): 0 STANDBY, 1 STARTING, 2 ON, 3 OFF_FAULT. -/
def powerCode (s : State) : Nat :=
  if s.pwr.railsOn then (if s.pwr.railGroup = 10 then 2 else 1) else if s.pwr.trip.isSome then 3 else 0

/-- SYS_MG_STATE (R428). -/
def mgState (s : State) : Byte :=
  BitVec.ofNat 8 (powerCode s + flag s.pwr.perst 2 + flag s.boot.ready 3 + flag (faultPin s) 4 + flag s.pwr.mainInhibit 5)

/-- The management items (R428) by first offset. Tenths of a degree and of a watt are rounded down (log 70). -/
def mgItem (s : State) : Nat → List Byte
  | 0x00 => [0x59, 0x38, 0x38, 0x30]
  | 0x04 => (List.range 12).map Config.serialByte
  | 0x10 => le 4 Config.build.toNat
  | 0x14 => [mgState s]
  | 0x15 => [s.pwr.mgCause.zeroExtend 8]
  | 0x16 => [BitVec.ofNat 8 (flag s.pwr.mainInhibit 0)]
  | 0x18 => le 2 s.pwr.mgVmain.toNat
  | 0x1A => le 2 s.pwr.mgVstby.toNat
  | 0x1C => if s.boot.pmcRunning then le 2 (s.pwr.pin.toNat / 10) else [0xFF, 0xFF]
  | 0x1E => if s.boot.pmcRunning then le 2 (unsigned 16 (s.health.tmax.toInt / 10)) else [0x00, 0x80]
  | 0x20 => s.pwr.standbyMatings.toList
  | 0x28 => le 4 s.health.powerHours.toNat
  | _ => [0]

/-- First offset of the item that an offset lies in (R428). -/
def mgBase (a : Nat) : Nat :=
  if a < 0x04 then 0x00 else if a < 0x10 then 0x04 else if a < 0x14 then 0x10
  else if within 0x18 a 0x1F then a / 2 * 2 else if within 0x20 a 0x27 then 0x20 else if within 0x28 a 0x2B then 0x28 else a

/-- One byte read at the pointer, which moves on (R427): an item's first byte latches the item, and the bytes after it come from the
latch. `first` marks the first byte of a read. -/
def mgRead (first : Bool) (s : State) : State :=
  if !s.pwr.vstbyValid then s
  else
    let a := s.pwr.mgPointer.toNat
    let b := mgBase a
    let latch := if a = b then some (b, mgItem s b) else if first then none else s.pwr.mgLatch
    let item := match latch with
      | some (c, l) => if c = b then l else mgItem s b
      | none => mgItem s b
    let s := updPwr (fun p => { p with mgPointer := p.mgPointer + 1, mgLatch := latch }) s
    { s with busRead := (item.getD (a - b) 0).zeroExtend 64 }

/-- MG_READ (R427): Management-port read that latches an item and increments the pointer after each byte. -/
def execMgRead (first : Bool) (s : State) : Host.Outcome State Fault Refusal := .next (mgRead first s)

/-- MAIN_INHIBIT written (R428): the main rails go off, or may come up again. -/
def setInhibit (on : Bool) (s : State) : State :=
  let s := updPwr (fun p => { p with mainInhibit := on }) s
  if on then railsOff s else s

/-- MAIN_INHIBIT (R428): Management write of MAIN_INHIBIT that keeps or turns the main rails off. -/
def execMainInhibit (on : Bool) (s : State) : Host.Outcome State Fault Refusal :=
  .next (if s.pwr.vstbyValid then setInhibit on s else s)

/-- Fault bits cleared (R428): the same bits in SYS_MG_CAUSE and SYS_FAULT. -/
def clearCause (v : BitVec 4) (s : State) : State := updPwr (fun p => { p with mgCause := p.mgCause &&& ~~~v }) s

/-- SYS_MG_CAUSE written through the management port (R425, R428): once 10 s have passed since a trip, a 1 written to its cause bit lets the
rails restart. -/
def mgClear (value : Byte) (s : State) : State :=
  let v : BitVec 4 := value.truncate 4
  clearCause v (updPwr (fun p => { p with trip := p.trip.map fun t =>
    { t with restart := t.restart || (t.elapsed && v &&& t.cause != 0) } }) s)

/-- MG_CAUSE_CLEAR (R425): Management write clearing a SYS_MG_CAUSE bit, allowing a rail restart. -/
def execMgCauseClear (value : Byte) (s : State) : Host.Outcome State Fault Refusal :=
  .next (if s.pwr.vstbyValid then mgClear value s else s)

/-- One byte written at the pointer, which moves on (R427). -/
def mgPut (s : State) (b : Byte) : State :=
  let a := s.pwr.mgPointer.toNat
  let s := if a = 0x15 then mgClear b s else if a = 0x16 then setInhibit (b.getLsbD 0) s else s
  updPwr (fun p => { p with mgPointer := p.mgPointer + 1 }) s

/-- MG_WRITE (R427): the first byte is the pointer. -/
def mgWrite (bytes : List Byte) (s : State) : State :=
  match bytes with
  | [] => s
  | a :: rest =>
    if s.pwr.vstbyValid then rest.foldl mgPut (updPwr (fun p => { p with mgPointer := a, mgLatch := none }) s) else s

/-- MG_WRITE (R427): Other management-port write that sets the pointer and addressed items. -/
def execMgWrite (bytes : List Byte) (s : State) : Host.Outcome State Fault Refusal := .next (mgWrite bytes s)

end Sys2Proof.Machine
end

