-- ==== Sys2Proof/Machine/Health.lean ====
section
/-!
DEFINITION. Telemetry (R418, R419), the thermal policy (R420 to R426), the in-service test (R431, R432) and the life log (R437).
-/
namespace Sys2Proof.Machine

/-! ### Telemetry (R418, R419, R428) -/

/-- What the PMC measures (R418). -/
def pmcTelemetry (t : Telemetry) (p : Power) : Power :=
  { p with rails := Vector.ofFn fun i : Fin 22 =>
             let m := t.rails.getD i.val (0, 0, 0)
             { p.rails[i] with voltage := m.1, current := m.2.1, power := m.2.2 },
           vmainMv := t.vmain, imain := t.imain, pin := t.pin, vstbyMv := t.vstby,
           energy := BitVec.ofNat 64 (statAdd p.energy.toNat t.joules) }

/-- TELEMETRY_UPDATE: the always-on domain measures VMAIN and VSTBY by itself (R428), the rest waits for the PMC (R418). -/
def telemetryUpdate (t : Telemetry) (s : State) : State :=
  let s := if s.pwr.vstbyValid then updPwr (fun p => { p with mgVmain := t.mgVmain, mgVstby := t.mgVstby }) s else s
  if live s && s.boot.pmcRunning then updPwr (pmcTelemetry t) s else s

/-- TELEMETRY_UPDATE (R418): PMC updates rail and input telemetry registers every 1 ms. -/
def execTelemetryUpdate (t : Telemetry) (s : State) : Host.Outcome State Fault Refusal :=
  if WellFormed.instr (.telemetryUpdate t) then .next (telemetryUpdate t s) else .fault .illFormed

/-! ### Thermal policy (R420 to R424) -/

/-- POLICY code (R426). -/
def policyCode : Policy → Nat
  | .normal => 0 | .engine => 1 | .felt => 2

/-- THERM_STATE (R422, R441, R519): cause 0 WARN, 1 CHANGE. -/
def raiseTherm (sev cause : Nat) (s : State) : State :=
  let h := s.health
  raiseNow 0x04 sev ([BitVec.ofNat 8 (policyCode h.policy), BitVec.ofNat 8 h.engLevel, BitVec.ofNat 8 h.feltRate,
    BitVec.ofNat 8 h.hottest] ++ le 2 h.tmax.toNat ++ [BitVec.ofNat 8 cause]) s

/-- The die of a sensor (R420); each DS sensor stands alone, without a median partner (R421). -/
def sensorDie (n : Nat) : Nat := if n < 16 then n / 4 else if n < 20 then 4 else if n < 36 then 5 else if n < 52 then 6 else if n < 60 then 7 else n

/-- A reading outside −40 to +150 °C (R421). -/
def outOfRange (reading : BitVec 16) : Bool := decide (reading.toInt < -4000 ∨ 15000 < reading.toInt)

/-- A reading put into a sorted list. -/
def insertTemp (t : Int) : List Int → List Int
  | [] => [t]
  | a :: l => if t ≤ a then t :: a :: l else a :: insertTemp t l

/-- Median of the other sensors on a sensor's die (R421), an odd number of them on every logic die; `none` for a DS sensor. -/
def dieMedian (temps : List (BitVec 16)) (n : Fin 64) : Option Int :=
  let others := ((List.range 64).filter fun k => k ≠ n.val && sensorDie k == sensorDie n.val).map fun k => (temps.getD k 0).toInt
  (others.foldl (fun acc t => insertTemp t acc) [])[others.length / 2]?

/-- A reading more than 15 °C from the median of its die (R421). -/
def offMedian (temps : List (BitVec 16)) (n : Fin 64) : Bool :=
  match dieMedian temps n with
  | some m => decide (1500 < ((temps.getD n.val 0).toInt - m).natAbs)
  | none => false

/-- A sensor with a reading (R421): it counts how long it has been off its die's median. -/
def senseOne (temps : List (BitVec 16)) (n : Fin 64) (x : Sensor) : Sensor :=
  { x with temp := temps.getD n.val 0, offMs := if offMedian temps n then x.offMs + 1 else 0 }

/-- While a DS sensor reads above 85 °C its stack refreshes at twice the normal rate (R422). -/
def refreshDoubled (k : Fin 4) (s : State) : Bool := decide (8500 < (s.health.sensors[60 + k.val]).temp.toInt)

/-- The hottest sensor that takes part (R421, R422), so neither excluded nor out of range: the lowest number among equals. -/
def hottestOf (v : Vector Sensor 64) : Option (Fin 64) :=
  (List.finRange 64).foldl (fun best i =>
    if (v[i]).excluded || outOfRange (v[i]).temp then best
    else match best with
      | none => some i
      | some j => if (v[j]).temp.toInt < (v[i]).temp.toInt then some i else best) none

/-- SVC_THROTTLE (R315, R423, R519). -/
def raiseThrottle (end_ : Bool) (s : State) : State :=
  raiseNow 0xCB (if end_ then sevNotice else sevWarning) [BitVec.ofNat 8 (flag end_ 0)]
    { s with eng := { s.eng with throttled := !end_ }, insts := s.insts.map fun x => { x with mayDrop := x.mayDrop || !end_ } }

/-- A change of the throttle machine: the time since the last change restarts. -/
def thermTo (f : Health → Health) (s : State) : State := updHealth (fun h => { f h with msSinceChange := 0 }) s

/-- One millisecond of the machine of R423, on the Tmax just taken. -/
def thermStep (s : State) : State :=
  let h := s.health
  let hot := decide (9500 ≤ h.tmax.toInt)
  let ten := decide (10 ≤ h.msSinceChange)
  let calm := decide (1001 ≤ h.quietMs ∧ 100 ≤ h.msSinceChange)
  match h.policy with
  | .normal =>
    if hot then
      raiseTherm sevWarning 1 (raiseThrottle false (thermTo (fun h => { h with policy := .engine, engLevel := 7 }) s))
    else s
  | .engine =>
    if hot && ten then
      if 1 < h.engLevel then raiseTherm sevWarning 1 (thermTo (fun h => { h with engLevel := h.engLevel - 1 }) s)
      else raiseTherm sevWarning 1 (thermTo (fun h => { h with policy := .felt, feltRate := 1 }) s)
    else if calm && !hot then
      if h.engLevel = 7 then
        raiseTherm sevNotice 1 (raiseThrottle true (thermTo (fun h => { h with policy := .normal, engLevel := 8 }) s))
      else raiseTherm sevWarning 1 (thermTo (fun h => { h with engLevel := h.engLevel + 1 }) s)
    else s
  | .felt =>
    if hot && ten then (if h.feltRate < 3 then thermTo (fun h => { h with feltRate := h.feltRate + 1 }) s else s)
    else if calm && !hot then
      if h.feltRate = 1 then raiseTherm sevWarning 1 (thermTo (fun h => { h with policy := .engine, feltRate := 0 }) s)
      else thermTo (fun h => { h with feltRate := h.feltRate - 1 }) s
    else s

/-- WARN (R422): Tmax first reaches 90 °C after having been below 88 °C. -/
def thermWarn (s : State) : State :=
  let t := s.health.tmax.toInt
  if t < 8800 then updHealth (fun h => { h with warnArmed := true }) s
  else if 9000 ≤ t ∧ s.health.warnArmed then raiseTherm sevWarning 0 (updHealth (fun h => { h with warnArmed := false }) s)
  else s

/-- TMAX_EVALUATE (R420, R422, R423): every 1 ms, with the readings of the 64 sensors. -/
def tmaxEvaluate (temps : List (BitVec 16)) (s : State) : State :=
  if !s.boot.pmcRunning then s
  else
    let s := updHealth (fun h => { h with
      sensors := Vector.ofFn fun i : Fin 64 => senseOne temps i h.sensors[i] }) s
    match hottestOf s.health.sensors with
    | none => s
    | some i =>
      let t := (s.health.sensors[i]).temp
      let s := updHealth (fun h => { h with
        tmax := t, hottest := i.val, msSinceChange := h.msSinceChange + 1,
        quietMs := if t.toInt < 9200 then h.quietMs + 1 else 0 }) s
      thermStep (thermWarn s)

/-- TMAX_EVALUATE (R423): PMC evaluates Tmax every 1 ms and steps the thermal throttle machine. -/
def execTmaxEvaluate (temps : List (BitVec 16)) (s : State) : Host.Outcome State Fault Refusal := whenLive s <|
  if WellFormed.instr (.tmaxEvaluate temps) then .next (tmaxEvaluate temps s) else .fault .illFormed

/-- A sensor is to be excluded (R421): it reads out of range, or has been off the median of its die for 1 s, which 1,001 evaluations 1 ms
apart span. -/
def sensorBad (n : Fin 64) (reading : BitVec 16) (s : State) : Bool := outOfRange reading || decide (1001 ≤ (s.health.sensors[n]).offMs)

/-- THERM_SENSOR (R421): a sensor is excluded. -/
def thermSensor (n : Fin 64) (reading : BitVec 16) (s : State) : State :=
  if s.boot.pmcRunning && !(s.health.sensors[n]).excluded && sensorBad n reading s then
    raiseNow 0x05 sevWarning ([BitVec.ofNat 8 n.val, 0] ++ le 2 reading.toNat)
      (updHealth (fun h => { h with sensors := upd h.sensors n fun x => { x with temp := reading, excluded := true } }) s)
  else s

/-- THERM_SENSOR (R421): A sensor is excluded for range or for 1 s of disagreement. -/
def execThermSensor (n : Fin 64) (reading : BitVec 16) (s : State) : Host.Outcome State Fault Refusal := whenLive s <|
  .next (thermSensor n reading s)

/-! ### In-service test (R431, R432) -/

/-- SCRUB_REPAIR (R431, R519): a DRAM row, or a data lane of a stack, is remapped. -/
def scrubRepair (stack : Fin 4) (lane : Bool) (index : Nat) (s : State) : State :=
  raiseNow 0xF9 sevWarning ([BitVec.ofNat 8 stack.val, BitVec.ofNat 8 (flag lane 0), 0, 0] ++ le 4 index)
    (istFail 2 (updHealth (fun h => { h with repairs := (stack.val, lane, index) :: h.repairs }) s))

/-- SCRUB_REPAIR (R431): A DRAM row or data lane is remapped to a spare. -/
def execScrubRepair (stack : Fin 4) (lane : Bool) (index : Nat) (s : State) : Host.Outcome State Fault Refusal := whenLive s <|
  .next (scrubRepair stack lane index s)

/-- IST_SERDES (R431, R519): the margins of a lane in % and in 0.001 UI. -/
def istSerdes (lane : Fin 32) (vertical horizontal : Nat) (s : State) : State :=
  let s := istPart 5 lane.val s
  if vertical < 20 ∨ horizontal < 150 then
    raiseNow 0xFA sevWarning ([BitVec.ofNat 8 lane.val, BitVec.ofNat 8 (stick 8 vertical)] ++ le 2 (stick 16 horizontal)) (istFail 5 s)
  else s

/-- IST_SERDES (R431): Margin check of a SerDes lane every 10 s. -/
def execIstSerdes (lane : Fin 32) (vertical horizontal : Nat) (s : State) : Host.Outcome State Fault Refusal := whenLive s <|
  if WellFormed.instr (.istSerdes lane vertical horizontal) then .next (istSerdes lane vertical horizontal s) else .fault .illFormed

/-- IST_SYNS (R431, R519): the worst phase difference of the last 60 s in fs. -/
def istSyns (fs : Nat) (s : State) : State :=
  let s := istPart 6 0 s
  if 200 < fs then raiseNow 0xFB sevWarning (le 4 (stick 32 fs)) (istFail 6 s) else s

/-- IST_SYNS (R431): SYN-S comparator summary every 60 s. -/
def execIstSyns (fs : Nat) (s : State) : Host.Outcome State Fault Refusal := whenLive s <| .next (istSyns fs s)

/-- MRAM_SCRUB (R431, R519): one read; uncorrectable data is reported. Which read ends a pass over the store is open (log 61). -/
def mramScrub (bad : Option Nat) (s : State) : State :=
  let s := match bad with
    | some a => raiseNow 0xFC sevError (le 8 a) (istFail 7 s)
    | none => s
  let (k, s) := fresh s
  if Config.freeBit k then istPart 7 0 s else s

/-- MRAM_SCRUB (R431): MRAM read scrub corrects data in place. -/
def execMramScrub (bad : Option Nat) (s : State) : Host.Outcome State Fault Refusal := whenLive s <|
  .next (mramScrub bad s)

/-- IST_STARVED (R432). -/
def istStarved (item : Fin 8) (s : State) : State :=
  if s.health.istStarved.getLsbD item.val then s
  else raiseNow 0xFD sevNotice [BitVec.ofNat 8 item.val]
    (updHealth (fun h => { h with istStarved := h.istStarved ||| BitVec.ofNat 8 (2 ^ item.val) }) s)

/-- IST_STARVED (R432): An in-service test item has not completed within four periods. -/
def execIstStarved (item : Fin 8) (s : State) : Host.Outcome State Fault Refusal := whenLive s <|
  .next (istStarved item s)

/-! ### Life log (R437) -/

/-- LIFE_WARN is due (R437): with 1,000 hours or more, at the first write that finds the average above 85 °C and at each further
1,000 hours. -/
def lifeDue (hours : W32) (avgTj : BitVec 16) (h : Health) : Bool :=
  decide (8500 < avgTj.toNat ∧ 1000 ≤ hours.toNat)
    && (h.lifeWarnHours == 0 || decide (h.lifeWarnHours + 1000 ≤ hours.toNat))

/-- The higher of two signed readings. -/
def higher (a b : BitVec 16) : BitVec 16 := if a.toInt ≤ b.toInt then b else a

/-- LIFE_LOG_WRITE (R437, R519): the hours, the hot seconds and the highest Tmax ever never fall. -/
def lifeLogWrite (hours : W32) (avgTj tjPeak : BitVec 16) (hotSeconds : W32) (s : State) : State :=
  let hours := BitVec.ofNat 32 (max s.health.powerHours.toNat hours.toNat)
  let due := lifeDue hours avgTj s.health
  let above := decide (8500 < avgTj.toNat)
  let s := updHealth (fun h => { h with
    powerHours := hours, avgTj := avgTj, tjPeak := higher h.tjPeak tjPeak,
    hotSeconds := BitVec.ofNat 32 (max h.hotSeconds.toNat hotSeconds.toNat),
    lifeWarnHours := if due then hours.toNat else if above then h.lifeWarnHours else 0 }) s
  if due then raiseNow 0x06 sevWarning (le 2 avgTj.toNat ++ [0, 0] ++ le 4 hours.toNat) s else s

/-- LIFE_LOG_WRITE (R437): Life log is written to MRAM every 10 minutes. -/
def execLifeLogWrite (hours : W32) (avgTj tjPeak : BitVec 16) (hotSeconds : W32) (s : State) :
    Host.Outcome State Fault Refusal := whenLive s <| .next (lifeLogWrite hours avgTj tjPeak hotSeconds s)

end Sys2Proof.Machine
end

