-- ==== Sys2Proof/Machine/Registers.lean ====
section
/-!
DEFINITION. BAR0 (R11, R341, R342, R511 to R514): what every register reads as, the half latch, and what every write does; and
writes of the diagnostic window (R343, R485).
-/
namespace Sys2Proof.Machine

/-- The number of an array register at an offset: `count` registers from `base` on, `stride` bytes apart (R511). -/
def arr (base stride count off : Nat) : Option Nat :=
  if base ≤ off ∧ off < base + stride * count ∧ (off - base) % stride = 0 then some ((off - base) / stride) else none

/-- A word from its value. -/
def w32 (x : Nat) : W32 := BitVec.ofNat 32 x

/-- A 64-bit word from its value. -/
def w64 (x : Nat) : W64 := BitVec.ofNat 64 x

/-! ### Fields of 32-bit registers -/

/-- HIF_CAP (R344). -/
def hifCap : W32 := w32 (64 + 64 * 2 ^ 8 + 16 * 2 ^ 16 + 20 * 2 ^ 21)

/-- HIF_STATUS (R344). -/
def hifStatus (s : State) : W32 :=
  let h := s.hif
  w32 (flag s.boot.ready 0 + flag h.torn 1 + flag h.badAccess 2 + flag h.cmdPaused 3 + flag h.urgentSeen 4 + flag h.hostMemErr 5
    + flag h.ev.overflow 6 + flag (linkDegraded s) 7 + s.boot.ccRestarts.toNat * 2 ^ 16)

/-- HIF_LINK (R344). -/
def hifLinkReg (s : State) : W32 := w32 (s.hif.linkGen + s.hif.linkWidth * 2 ^ 3 + linkBudget s * 2 ^ 16)

/-- HIF_EVQ_CFG (R367). -/
def evqCfg (s : State) : W32 := w32 (s.hif.ev.log2 + flag s.hif.ev.enable 16)

/-- State code of a queue pair (R345). -/
def qpCode : QpState → Nat
  | .disabled => 0 | .running => 1 | .draining => 2 | .error => 3

/-- QP_CFG (R345). -/
def qpCfgReg (q : QPair) : W32 :=
  w32 (q.sqLog2 + q.cqLog2 * 2 ^ 8 + q.vector.toNat * 2 ^ 16 + flag q.irqEn 24 + flag q.enable 28)

/-- A 32-bit word of a queue-pair entry (R345). -/
def qpWord (q : QPair) (off : Nat) : Option W32 :=
  match off with
  | 0x10 => some (qpCfgReg q)
  | 0x14 => some (w32 (qpCode q.state + q.sqHead * 2 ^ 16))
  | 0x18 => some (q.errCause.zeroExtend 32)
  | 0x1C => some 0
  | _ => none

/-- Four map bytes of the event sources (R514). -/
def evtMapWord (s : State) (base : Nat) : W32 :=
  w32 (unle ((List.range 4).map fun i => match getN s.hif.ev.src (base + i) with | some e => e.map | none => 0))

/-- A word of an MSI-X table entry (R511). -/
def msixWord (v : MsixVec) (k : Nat) : W32 :=
  match k with
  | 0 => v.addr.truncate 32
  | 1 => (v.addr >>> 32).truncate 32
  | 2 => v.data
  | _ => v.ctrl

/-- CLK_STATUS (R80). -/
def clkStatus (s : State) : W32 :=
  let c := s.clk
  let ref := match c.refState with
    | .start => 0 | .locking => 1 | .locked => 2 | .coasting => 3 | .free => 4 | .measuring => 5 | .slewing => 6 | .stepPending => 7
  w32 (flag c.lock[0] 0 + flag c.lock[1] 1 + (activeCore s).val * 4 + flag (standbyReady s) 3 + flag c.lock[2] 4
    + flag c.fBypass 5 + flag c.lock[3] 6 + flag c.tCoast 7 + ref * 2 ^ 8 + flag c.applyBusy 11 + flag c.applyRefused 12
    + flag c.bandFault 13 + flag c.phaseAmbig 14)

/-- A word of a band-table entry (R71, R512). -/
def bandWord (e : BandEntry) (k : Nat) : W32 := w32 (fieldAt (bandBytes e) (4 * k) 4)

/-- RestartCause code of SYS_BOOT (R513). -/
def lastRestartCode : Option RestartCause → Nat
  | none => 0 | some .lockstep => 1 | some .sramEcc => 2 | some .watchdog => 3

/-- SYS_BOOT (R513). -/
def sysBoot (s : State) : W32 :=
  let b := s.boot
  let stage := match b.stage with | .starter => 0 | .loader => 1 | .main => 2 | .rescue => 3
  w32 (stage + lastRestartCode b.lastRestart * 4 + flag b.singleCore 4 + flag b.fencedCore 5 + flag b.ccFailed 6
    + b.pmcRestarts.toNat * 2 ^ 8)

/-- SYS_TB_STATE (R162). -/
def tbState (s : State) : W32 :=
  w32 (epochCode s.tb.state + s.tb.stepCount.toNat * 2 ^ 8 + s.tb.epochGen.toNat * 2 ^ 16)

/-- The newest mapping, which REF_SN and REF_TS report (R163). -/
def newestMap (s : State) : Mapping := (s.tb.maps.head?).getD { sn := 0, ts := 0 }

/-- SYS_TRIGOUT_STATUS (R201). -/
def trigoutStatus (s : State) : W32 :=
  w32 (flag (s.trigouts[0]).merged 0 + flag (s.trigouts[1]).merged 1 + flag (s.trigouts[0]).late 2 + flag (s.trigouts[1]).late 3)

/-- SYS_HIST_STATE (R243). -/
def histState (s : State) : W32 := w32 (s.mem.histChannels.toNat + s.mem.histGb * 2 ^ 8 + flag s.mem.wrapped 16)

/-- SYS_ENG_STATE (R333). -/
def engState (s : State) : W32 :=
  w32 (256 - s.eng.retired.eraseDups.length + ((s.insts.toList.map fun x => x.engines.length).sum) * 2 ^ 9 + reserveFree s.eng * 2 ^ 18
    + flag s.eng.throttled 22 + flag s.eng.selftest.isSome 23 + flag s.eng.eccOvf 24)

/-- SYS_THERM_STATE (R426). -/
def thermState (s : State) : W32 :=
  let h := s.health
  w32 (policyCode h.policy + h.engLevel * 4 + h.feltRate * 2 ^ 6 + h.hottest * 2 ^ 8 + h.tmax.toNat * 2 ^ 16)

/-- SYS_IST_STATUS (R432). -/
def istStatus (s : State) : W32 :=
  w32 (s.health.istStarved.toNat + s.health.istFailed.toNat * 2 ^ 8 + s.health.istCycles.toNat * 2 ^ 16)

/-- SYS_SLICE_STATEn (R126): OUT_LANE reads 63 until rotation has started. -/
def sliceState (s : State) (x : Slice) : W32 :=
  let out := if x.rotRun then x.outLane.getD 63 else 63
  let interp := ((List.range 40).filter fun p => x.interp.getLsbD p).length
  w32 (flag s.proof.active 0 + s.proof.step * 2 + flag s.proof.fail 4 + flag x.rotRun 5 + out * 2 ^ 6 + x.shadowPos * 2 ^ 12
    + interp * 2 ^ 18 + flag x.ovrNow 24)

/-- SYS_TAC_STATUSn (R149, R164). -/
def tacStatus (s : State) (n : Nat) : Option W32 := if h : n < 8 then
  let t := s.tacs[n]
  some (w32 (flag t.calValid 0 + flag (calRunning ⟨n, h⟩ s) 1 + flag t.stale 2 + flag (t.fault || s.clk.noBand[3]) 3 + flag t.deadOvf 4
    + t.calTemp.toNat * 2 ^ 8))
  else none

/-- SYS_DDC_STATEn (R269). -/
def ddcState (d : Ddc) : W32 :=
  let c := d.cfg
  w32 (c.preset + flag c.nco 3 + flag c.continuous 4 + c.place * 2 ^ 5 + flag (decide (0 < d.toMark)) 7 + flag d.clipSeen 8
    + flag d.clipOvf 9 + d.configGen.toNat * 2 ^ 16)

/-- SYS_FELT_STATEn (R300). -/
def feltState (f : Felt) : W32 :=
  w32 (f.cfg.map + flag f.activeB 2 + flag (f.bake != .idle) 3 + flag (decide (0 < f.agePending)) 4 + flag f.sat 5 + flag f.lost 6
    + flag f.cfg.running 7 + f.configGen.toNat * 2 ^ 16)

/-- SYS_MASK_STATEn (R301). -/
def maskState (m : Mask) : W32 :=
  let c := m.cfg
  w32 (flag c.enable 0 + c.map * 2 + c.source * 2 ^ 3 + flag m.violNow 7 + c.actions.toNat * 2 ^ 8 + c.capAs.toNat * 2 ^ 12
    + c.stopAs.toNat * 2 ^ 16 + flag m.testedOvf 20 + flag m.violOvf 21)

/-- SYS_SVC_STATEn (R334). -/
def svcState (x : Inst) : W32 :=
  let code := match x.state with | .off => 0 | .running => 1 | .failed => 2
  w32 (code + x.engines.length * 4 + flag x.migrated 11 + flag x.skipOvf 12 + x.configGen.toNat * 2 ^ 16)

/-- SYS_THERMn (R426). -/
def thermReg (x : Sensor) : W32 := w32 (x.temp.toNat + flag x.excluded 16)

/-- SYS_BRIM_STATE (R404): LIVE reads 0 before any ring has been formed. -/
def brimState (s : State) : W32 :=
  let b := s.brim
  let live := if b.sites.isEmpty then 0 else liveCount b
  w32 (ringCode b.ring + b.position * 2 ^ 3 + b.sites.length * 2 ^ 9 + live * 2 ^ 16 + flag b.aligned 23 + flag b.lsysShort 24
    + flag b.cfgMismatch 25 + flag b.tooMany 26)

/-- SYS_BRIM_LINKp (R404): DELAY in ps, a fraction dropped (log 70). -/
def brimLink (s : State) (l : BrimLink) : W32 :=
  let code := match l.state with | .down => 0 | .training => 1 | .up => 2
  w32 (code + l.farPos % 64 * 4 + (unitsToFs s l.delay / 1000).toNat % 2 ^ 24 * 2 ^ 8)

/-- UPD_STATUS (R469). -/
def updStatus (s : State) : W32 :=
  let u := s.upd
  let pkg := if u.manifestOk then u.staging else slotOf s u.act.manifestSlot
  w32 (updCode u.state + u.act.trialBoots * 2 ^ 3 + flag u.settingsDefaulted 5 + flag u.reverted 6 + flag (fwdOn u false || fwdOn u true) 7
    + u.lastCause.toNat * 2 ^ 8 + (partsNew pkg).toNat * 2 ^ 16 + u.act.levels.toNat * 2 ^ 22)

/-- CFG_STATUS (R491). -/
def cfgStatus (s : State) : W32 :=
  let c := s.cfg
  w32 (flag c.defaulted 0 + flag c.restoring 1 + flag c.saving.isSome 2 + flag c.slot 3 + flag c.copyB 4 + c.itemsSkipped * 2 ^ 8)

/-- ACC_STATUS (R491). -/
def accStatus (s : State) : W32 :=
  let a := s.acc
  w32 (flag (a.level[0]).isOpen 0 + flag (a.level[1]).isOpen 1 + flag a.pwHash.isSome 2 + flag (a.level[0]).nonce.isSome 3
    + flag (a.level[1]).nonce.isSome 4 + flag a.calEdited 5 + (a.level[0]).fails * 2 ^ 8 + (a.level[1]).fails * 2 ^ 16)

/-! ### The map (R511) -/

/-- 32-bit registers with one offset. -/
def scalar32 (s : State) : Nat → Option W32
  | 0x0000 => some (w32 (unle ((List.range 4).map fun i => Config.serialByte i)))
  | 0x0004 => some (w32 (unle ((List.range 4).map fun i => Config.serialByte (4 + i))))
  | 0x0008 => some (w32 (unle ((List.range 4).map fun i => Config.serialByte (8 + i))))
  | 0x000C => some Config.build
  | 0x0010 => some Config.pciId
  | 0x0014 => some (w32 (Config.hwRev.toNat + Config.options.toNat * 2 ^ 8 + flag s.boot.idnMismatch 16))
  | 0x0100 => some 0x00010000
  | 0x0104 => some hifCap
  | 0x0108 => some (w32 (flag s.hif.cmdEn 0))
  | 0x010C => some (hifStatus s)
  | 0x0110 => some (hifLinkReg s)
  | 0x0120 => some (evqCfg s)
  | 0x0124 => some s.hif.ev.prod
  | 0x2000 => some (refCfgWord s.clk)
  | 0x2004 => some s.clk.fsKhz
  | 0x200C => some (clkStatus s)
  | 0x2020 => some s.clk.lockS
  | 0x2024 => some s.clk.lockF
  | 0x2028 => some s.clk.lockT
  | 0x3000 => some (s.pwr.mgCause.zeroExtend 32)
  | 0x3004 => some (sysBoot s)
  | 0x3008 => some (tbState s)
  | 0x3020 => some ((newestMap s).ts.extractLsb' 64 32)
  | 0x3030 => some s.tb.nowHi
  | 0x3034 => some s.tb.syncDelay
  | 0x3038 => some s.trigCfg
  | 0x303C => some (trigoutStatus s)
  | 0x3040 => some (histState s)
  | 0x3060 => some (w32 (flag s.mem.uncorrSeen 0 + flag s.mem.corrOvf 1 + flag s.mem.uncorrOvf 2))
  | 0x3078 => some (engState s)
  | 0x30A8 => some (w32 (s.admission.budget.toNat + s.admission.opcode.toNat * 2 ^ 8 + s.admission.item.toNat * 2 ^ 24))
  | 0x30C0 => some (thermState s)
  | 0x30C4 => some (istStatus s)
  | 0x4200 => some (brimState s)
  | 0x4250 => some (s.brim.ovf.zeroExtend 32)
  | 0x5000 => some (updStatus s)
  | 0x5004 => some (w32 (s.upd.accepted + s.upd.refused * 2 ^ 8))
  | 0x5100 => some (cfgStatus s)
  | 0x5104 => some (w32 (flag s.cfg.bootRestore 0))
  | 0x5110 => some (accStatus s)
  | _ => none

/-- An entry of a vector by an optional number. -/
def entryN {α : Type} {n : Nat} (v : Vector α n) (i : Option Nat) : Option α := i.bind fun k => getN v k

/-- 32-bit registers that come in arrays. -/
def array32 (s : State) (off : Nat) : Option W32 :=
  if off < 0x2000 then
    ((entryN s.hif.vecs (arr 0x0200 4 64 off)).map fun v => v.minGap.zeroExtend 32)
    <|> ((arr 0x0300 4 64 off).map fun i => evtMapWord s (4 * i))
    <|> (if within 0x0800 off 0x0FFF then (getN s.hif.qps ((off - 0x0800) / 32)).bind fun q => qpWord q (off % 32) else none)
  else if off < 0x3000 then
    if within 0x2200 off 0x29FF && off % 4 == 0 then
      let k := (off - 0x2200) / 4
      (getN s.clk.bands (k / 128)).bind fun t => (getN t (k / 4 % 32)).map fun e => bandWord e (k % 4)
    else none
  else if off < 0x4000 then
    ((entryN s.slices (arr 0x3200 4 8 off)).map (sliceState s))
    <|> ((arr 0x3300 4 8 off).bind (tacStatus s))
    <|> ((entryN s.tacs (arr 0x3320 4 8 off)).map fun t => t.offset)
    <|> ((entryN s.ddcs (arr 0x3500 4 8 off)).map ddcState)
    <|> ((entryN s.felts (arr 0x3600 4 16 off)).map feltState)
    <|> ((entryN s.insts (arr 0x3700 4 16 off)).map svcState)
    <|> ((entryN s.masks (arr 0x3A00 4 64 off)).map maskState)
  else
    ((entryN s.health.sensors (arr 0x4100 4 64 off)).map thermReg)
    <|> ((entryN s.brim.links (arr 0x4204 4 4 off)).map (brimLink s))
    <|> (if within 0xE000 off 0xE3FF && off % 4 == 0 then
          (getN s.hif.vecs ((off - 0xE000) / 16)).map fun v => msixWord v (off / 4 % 4)
        else none)

/-- A 32-bit register; what no row lists reads zero (R511). -/
def reg32 (s : State) (off : Nat) : W32 := ((scalar32 s off) <|> (array32 s off)).getD 0

/-! ### 64-bit registers -/

/-- IDN_DIE_POSn (R484). -/
def diePos (n : Nat) : W64 :=
  w64 ((Config.dieWafer n).toNat + (Config.dieX n).toNat * 2 ^ 8 + (Config.dieY n).toNat * 2 ^ 16 + (Config.dieRev n).toNat * 2 ^ 24
    + (if n = 0 then 0x8801 else if n = 1 then 0x8802 else if n ≤ 5 then 0x8803 else 0x8804) * 2 ^ 32)

/-- The PBA (R511). -/
def pba (s : State) : W64 := w64 (((List.finRange 64).map fun v => flag (s.hif.vecs[v]).pending v.val).sum)

/-- SYS_RAILn (R419): zero until the PMC runs (R418). -/
def railReg (s : State) (n : Nat) (r : Rail) : W64 :=
  if s.boot.pmcRunning then
    w64 (r.voltage.toNat + r.current.toNat * 2 ^ 16 + r.power.toNat * 2 ^ 32 + (railStages n - r.shedStages.length) * 2 ^ 48
      + flag (!r.shedStages.isEmpty) 52 + flag r.loopB 53)
  else 0

/-- SYS_PWR_IN (R419). -/
def pwrIn (s : State) : W64 :=
  w64 (s.pwr.vmainMv.toNat + s.pwr.imain.toNat * 2 ^ 16 + s.pwr.pin.toNat * 2 ^ 32 + s.pwr.vstbyMv.toNat * 2 ^ 48)

/-- SYS_ENG_RETIREDm (R333). -/
def engRetired (s : State) (m : Nat) : W64 :=
  w64 (((List.range 64).map fun k => flag (s.eng.retired.contains (64 * m + k)) k).sum)

/-- SYS_AS_STATEn (R202). -/
def asState (s : State) (a : Nat) (q : Seq) : W64 :=
  let st := match q.state with | .idle => 0 | .fill => 1 | .ready => 2 | .post => 3 | .holdoff => 4
  let md := match q.cfg.mode with | .single => 0 | .normal => 1 | .auto => 2 | .continuous => 3
  let retro := s.mem.segs.any fun g => g.sequencer == a && g.flags.getLsbD 3 && !g.complete
  w64 (st + md * 2 ^ 3 + flag q.configured 5 + q.cfg.channels.toNat * 2 ^ 6 + flag q.stopPending.isSome 14 + flag retro 15
    + q.das % 2 ^ 32 * 2 ^ 32)

/-- SYS_DDC_TIMEn (R269). -/
def ddcTime (d : Ddc) : W64 := w64 (chainA2 d.cfg % 2 ^ 24 + chainE d.cfg % 2 ^ 16 * 2 ^ 32 + chainS d.cfg % 2 ^ 8 * 2 ^ 48)

/-- SYS_SVC_TIMEn (R334). -/
def svcTime (x : Inst) : W64 :=
  if x.state == .off && x.next.isNone then 0 else w64 (x.outputLat % 2 ^ 32 + x.eventLat % 2 ^ 32 * 2 ^ 32)

/-- SYS_BRIM_PEERn (R405): the own position reads zero with VALID. -/
def peerReg (s : State) (n : Nat) (p : Peer) : W64 :=
  if n = s.brim.position ∧ !s.brim.sites.isEmpty then w64 (2 ^ 58)
  else w64 (p.offset.toNat + p.hops % 64 * 2 ^ 48 + p.epoch % 4 * 2 ^ 54 + flag p.coasting 56 + flag p.stale 57 + flag p.valid 58)

/-- The bank of a part in service (R469): the lower level runs its old bank until u, and the new one until the revert sample. -/
def banksInService (u : Upd) : BitVec 6 :=
  if u.state == .activating then (u.act.banks &&& 0x27) ||| (u.act.prevBanks &&& 0x18)
  else if u.revertAt.isSome then u.act.banks ^^^ (u.writtenBanks &&& 0x18)
  else u.act.banks

/-- UPD_PARTn (R469). -/
def partReg (s : State) (p : Fin 6) : W64 :=
  let on := (banksInService s.upd).getLsbD p.val
  w64 (((s.upd.banks[p])[slotIdx on]).version.toNat + flag on 32 + flag ((s.upd.banks[p])[slotIdx (!on)]).valid 33)

/-- TS96 of position 0 of the latest lc delivered to the compute tiles (R163); of sample number 0 where none has been. -/
def tsDelivered (s : State) : TS96 := tsOf s (40 * (lcNow s - 1))

/-- 64-bit registers with one offset. -/
def scalar64 (s : State) : Nat → Option W64
  | 0x0118 => some s.hif.ev.base
  | 0x2010 => some s.clk.fsActual
  | 0x2018 => some s.clk.refJump
  | 0x3010 => some (w64 (newestMap s).sn)
  | 0x3018 => some ((newestMap s).ts.truncate 64)
  | 0x3028 => some ((tsDelivered s).truncate 64)
  | 0x3048 => some (w64 (histO s.mem))
  | 0x3050 => some (w64 (pinnedNow s % 2 ^ 32))
  | 0x3058 => some (w64 s.mem.next)
  | 0x3068 => some (w64 s.mem.corr)
  | 0x3070 => some (w64 s.mem.uncorr)
  | 0x3080 => some (w64 s.eng.ecc)
  | 0x30B0 => some (pwrIn s)
  | 0x30B8 => some s.pwr.energy
  | 0x30C8 => some (w64 (s.health.powerHours.toNat + s.health.avgTj.toNat * 2 ^ 32 + s.health.tjPeak.toNat * 2 ^ 48))
  | 0x30D0 => some (w64 (s.health.hotSeconds.toNat + s.health.trips.toNat * 2 ^ 32))
  | 0x4218 => some (s.brim.marginMin.zeroExtend 64)
  | 0x5008 => some (w64 s.upd.staging.length)
  | 0x5010 => some (w64 ((packageVersion (slotOf s s.upd.act.manifestSlot)).toNat
      + (if s.upd.manifestOk then (packageVersion s.upd.staging).toNat else 0) * 2 ^ 32))
  | 0x5108 => some s.cfg.gen
  | 0x5118 => some (w64 (delayLeft s s.acc.level[0] % 2 ^ 32 + delayLeft s s.acc.level[1] % 2 ^ 32 * 2 ^ 32))
  | 0xF000 => some (pba s)
  | _ => none

/-- 64-bit registers that come in arrays. -/
def array64 (s : State) (off : Nat) : Option W64 :=
  if off < 0x2000 then
    ((arr 0x0040 8 8 off).map Config.dieLot)
    <|> ((arr 0x0080 8 8 off).map diePos)
    <|> ((entryN s.hif.qps (arr 0x0800 32 64 off)).map fun q => q.sqBase)
    <|> ((entryN s.hif.qps (arr 0x0808 32 64 off)).map fun q => q.cqBase)
    <|> ((entryN s.hif.ev.src (arr 0x1000 8 256 off)).map fun e => w64 e.pending)
  else if off < 0x4000 then
    ((arr 0x3088 8 4 off).map (engRetired s))
    <|> ((arr 0x3108 8 10 off).map fun k => admitReg (k + 1) s)
    <|> ((entryN s.slices (arr 0x3240 8 8 off)).map fun x => x.retired.zeroExtend 64)
    <|> ((entryN s.slices (arr 0x3280 8 8 off)).map fun x => x.interp.zeroExtend 64)
    <|> ((entryN s.tacs (arr 0x3340 8 8 off)).map fun t => w64 t.deadCount)
    <|> ((arr 0x3400 8 4 off).bind fun a => (getN s.seqs a).map (asState s a))
    <|> ((entryN s.seqs (arr 0x3420 8 4 off)).map fun q => w64 q.segments)
    <|> ((entryN s.ddcs (arr 0x3540 8 8 off)).map ddcTime)
    <|> ((entryN s.ddcs (arr 0x3580 8 8 off)).map fun d => w64 d.clips)
    <|> ((entryN s.insts (arr 0x3740 8 16 off)).map svcTime)
    <|> ((entryN s.insts (arr 0x37C0 8 16 off)).map fun x => w64 x.skips)
    <|> ((entryN s.masks (arr 0x3C00 8 64 off)).map fun m => w64 m.tested)
    <|> ((entryN s.masks (arr 0x3E00 8 64 off)).map fun m => w64 m.viol)
  else
    ((arr 0x4000 8 22 off).bind fun n => (getN s.pwr.rails n).map (railReg s n))
    <|> ((entryN s.brim.counters (arr 0x4220 8 6 off)).map w64)
    <|> ((arr 0x4400 8 64 off).bind fun n => (getN s.brim.peers n).map (peerReg s n))
    <|> ((arr 0x5018 8 6 off).bind fun p => if h : p < 6 then some (partReg s ⟨p, h⟩) else none)

/-- The 64-bit register whose low half lies at an offset. -/
def reg64 (s : State) (off : Nat) : Option W64 := (scalar64 s off) <|> (array64 s off)

/-- The 64-bit register whose high half lies at an offset. -/
def highOf (s : State) (off : Nat) : Option W64 := if 4 ≤ off then reg64 s (off - 4) else none

/-! ### Reads (R163, R341, R342) -/

/-- SYS_TS_NOW_LO, which keeps a latch of its own (R163, R342). -/
def offNowLo : Nat := 0x3028

/-- A value that a read returns. -/
def bus (x : W64) (s : State) : State := { s with busRead := x }

/-- The half latch set. -/
def setLatch (x : HalfLatch) (s : State) : State := { s with hif := { s.hif with latch := x } }

/-- A read of SYS_TS_NOW_LO or of its low half latches NOW_HI (R163). -/
def readNow (wide : Bool) (s : State) : State :=
  let t := tsDelivered s
  let s := { s with tb := { s.tb with nowHi := t.extractLsb' 64 32 } }
  bus (if wide then t.truncate 64 else (t.truncate 32 : W32).zeroExtend 64) s

/-- TS_NOW_READ (R163): Read of SYS_TS_NOW_LO that latches NOW_HI. -/
def execTsNowRead (wide : Bool) (s : State) : Host.Outcome State Fault Refusal := whenReachable s <| .next (readNow wide s)

/-- A 4-byte read of a high half (R342): the latched value, or the live one with TORN. -/
def readHigh (off : Nat) (x : W64) (s : State) : State :=
  let live := (x >>> 32).truncate 32
  if off - 4 = offNowLo then bus ((live : W32).zeroExtend 64) s
  else match s.hif.latch with
    | .read o h => if o = off - 4 then bus (h.zeroExtend 64) (setLatch .empty s)
      else bus ((live : W32).zeroExtend 64) { s with hif := { s.hif with torn := true } }
    | _ => bus ((live : W32).zeroExtend 64) { s with hif := { s.hif with torn := true } }

/-- A 4-byte read of BAR0 (R341, R342). -/
def readWord (off : Nat) (s : State) : State :=
  if off % 4 ≠ 0 then bus 0 { s with hif := { s.hif with badAccess := true } }
  else if off = offNowLo then readNow false s
  else match reg64 s off with
    | some x => bus ((x.truncate 32 : W32).zeroExtend 64) (setLatch (.read off ((x >>> 32).truncate 32)) s)
    | none => match highOf s off with
      | some x => readHigh off x s
      | none => bus ((reg32 s off).zeroExtend 64) s

/-- LOW_HALF_READ (R342): Read of the low half of a 64-bit register that loads the half latch. -/
def execLowHalfRead (off : Nat) (s : State) : Host.Outcome State Fault Refusal := whenReachable s <| .next (readWord off s)

/-- HIGH_HALF_READ (R342): Read of a high half that returns the latched value or sets TORN. -/
def execHighHalfRead (off : Nat) (s : State) : Host.Outcome State Fault Refusal := whenReachable s <|
  .next (readWord off s)

/-! ### Writes (R11, R341, R342, R345, R367, R370, R428, R491, R511, R512) -/

/-- The sticky bits of HIF_STATUS (R344). -/
def clearHifStatus (v : W32) (s : State) : State :=
  { s with hif := { s.hif with
      torn := s.hif.torn && !v.getLsbD 1, badAccess := s.hif.badAccess && !v.getLsbD 2,
      urgentSeen := s.hif.urgentSeen && !v.getLsbD 4, hostMemErr := s.hif.hostMemErr && !v.getLsbD 5 } }

/-- SYS_TRIGOUT_STATUS (R201). -/
def clearTrigout (v : W32) (s : State) : State :=
  { s with trigouts := Vector.ofFn fun o : Fin 2 =>
      let x := s.trigouts[o]
      { x with merged := x.merged && !v.getLsbD o.val, late := x.late && !v.getLsbD (2 + o.val) } }

/-- SYS_ECC_STATUS (R243). -/
def clearEcc (v : W32) (s : State) : State :=
  { s with mem := { s.mem with
      uncorrSeen := s.mem.uncorrSeen && !v.getLsbD 0, corrOvf := s.mem.corrOvf && !v.getLsbD 1,
      uncorrOvf := s.mem.uncorrOvf && !v.getLsbD 2 } }

/-- A write of a 32-bit register with one offset; a register that cannot be written, or that no row lists, stays (R11, R511). -/
def put32 (off : Nat) (v : W32) (s : State) : State :=
  match off with
  | 0x0108 => { s with hif := { s.hif with cmdEn := v.getLsbD 0 } }
  | 0x010C => clearHifStatus v s
  | 0x0120 => writeEvqCfg v s
  | 0x0180 => urgentStop v s
  | 0x2008 => writeClkCtrl v s
  | 0x3000 => clearCause (v.truncate 4) s
  | 0x303C => clearTrigout v s
  | 0x3060 => clearEcc v s
  | 0x3078 => { s with eng := { s.eng with eccOvf := s.eng.eccOvf && !v.getLsbD 24 } }
  | 0x30C4 => updHealth (fun h => { h with istFailed := h.istFailed &&& ~~~(v.extractLsb' 8 8) }) s
  | 0x4250 => updBrim (fun b => { b with ovf := b.ovf &&& ~~~(v.truncate 6) }) s
  | 0x5104 => updCfg (fun c => { c with bootRestore := v.getLsbD 0 }) s
  | 0x5110 => { s with acc := { s.acc with calEdited := s.acc.calEdited && !v.getLsbD 5 } }
  | _ => restoreRegister off v s

/-- A vector's entry changed. -/
def updVec (n : Nat) (f : MsixVec → MsixVec) (s : State) : State :=
  { s with hif := { s.hif with vecs := updN s.hif.vecs n f } }

/-- A word of an MSI-X table entry written (R511). -/
def putMsix (k : Nat) (v : W32) (x : MsixVec) : MsixVec :=
  match k with
  | 0 => { x with addr := (x.addr &&& 0xFFFFFFFF00000000) ||| v.zeroExtend 64 }
  | 1 => { x with addr := (x.addr &&& 0xFFFFFFFF) ||| (v.zeroExtend 64 <<< 32) }
  | 2 => { x with data := v }
  | _ => { x with ctrl := v &&& 1 }

/-- A word of a band-table entry written (R71, R471, R512): VERIFIED is ignored. -/
def putBand (k : Nat) (v : W32) (e : BandEntry) : BandEntry :=
  match k with
  | 0 => { e with centreKhz := v, edited := true }
  | 1 => { e with kvco := v.extractLsb' 0 16, capCode := v.extractLsb' 16 8, valid := v.getLsbD 24, edited := true }
  | _ => e

/-- A word of the band tables written (R512): the two SYN-S tables are written together. -/
def writeBand (off : Nat) (v : W32) (s : State) : State :=
  let w := (off - 0x2200) / 4
  let i : Fin 32 := Fin.ofNat 32 (w / 4 % 32)
  match w / 128 with
  | 0 | 1 => updBand 1 i (putBand (w % 4) v) (updBand 0 i (putBand (w % 4) v) s)
  | 2 => updBand 2 i (putBand (w % 4) v) s
  | _ => updBand 3 i (putBand (w % 4) v) s

/-- One mask's sticky bits cleared (R301). -/
def clearMask (v : W32) (m : Mask) : Mask :=
  { m with testedOvf := m.testedOvf && !v.getLsbD 20, violOvf := m.violOvf && !v.getLsbD 21 }

/-- A write of a 32-bit register that comes in an array. -/
def putArray (off : Nat) (v : W32) (s : State) : Option State :=
  if off < 0x2000 then
    ((arr 0x0200 4 64 off).map fun n => updVec n (fun x => { x with minGap := v.truncate 16 }) s)
    <|> ((arr 0x0300 4 64 off).map fun i => writeEvtMap (4 * i) (le 4 v.toNat) s)
    <|> ((arr 0x0810 32 64 off).bind fun n => if h : n < 64 then some (writeQpCfg ⟨n, h⟩ v s) else none)
  else if off < 0x3000 then
    if within 0x2200 off 0x29FF then some (writeBand off v s) else none
  else if off < 0x4000 then
    ((arr 0x3300 4 8 off).bind fun n => if h : n < 8 then some (writeTacStatus ⟨n, h⟩ v s) else none)
    <|> ((arr 0x3500 4 8 off).map fun n => { s with ddcs := updN s.ddcs n fun d =>
          { d with clipSeen := d.clipSeen && !v.getLsbD 8, clipOvf := d.clipOvf && !v.getLsbD 9 } })
    <|> ((arr 0x3600 4 16 off).map fun n => { s with felts := updN s.felts n fun f => { f with lost := f.lost && !v.getLsbD 6 } })
    <|> ((arr 0x3700 4 16 off).map fun n => { s with insts := updN s.insts n fun x =>
          { x with migrated := x.migrated && !v.getLsbD 11, skipOvf := x.skipOvf && !v.getLsbD 12 } })
    <|> ((arr 0x3A00 4 64 off).map fun n => { s with masks := updN s.masks n (clearMask v) })
  else if within 0xE000 off 0xE3FF then some (updVec ((off - 0xE000) / 16) (putMsix (off / 4 % 4) v) s)
  else none

/-- What a write of a whole 64-bit register does (R345, R367, R405). -/
def put64 (off : Nat) (v : W64) (s : State) : State :=
  let free := fun (q : QPair) => !q.enable && q.state != .draining
  if off = 0x0118 then (if s.hif.ev.enable then s else { s with hif := { s.hif with ev := { s.hif.ev with base := v } } })
  else if off = 0x4218 then clearMargin ((v >>> 32).truncate 32) s
  else match arr 0x0800 32 64 off, arr 0x0808 32 64 off with
    | some n, _ => { s with hif := { s.hif with qps := updN s.hif.qps n fun q => if free q then { q with sqBase := v } else q } }
    | none, some n => { s with hif := { s.hif with qps := updN s.hif.qps n fun q => if free q then { q with cqBase := v } else q } }
    | none, none => s

/-- 64-bit registers that can be written (R345, R367). -/
def writable64 (off : Nat) : Bool := off == 0x0118 || (arr 0x0800 32 64 off).isSome || (arr 0x0808 32 64 off).isSome

/-- A high half written (R342): with the held low half, or with the current one. -/
def writeHigh (base : Nat) (v : W32) (s : State) : State :=
  let high : W64 := v.zeroExtend 64 <<< 32
  let live : W64 := ((reg64 s base).getD 0) &&& 0xFFFFFFFF
  match s.hif.latch with
  | .write o low => if o = base then put64 base (high ||| low.zeroExtend 64) (setLatch .empty s) else put64 base (high ||| live) s
  | _ => put64 base (high ||| live) s

/-- A 4-byte write of BAR0 (R341, R342). -/
def writeWord (off : Nat) (v : W32) (s : State) : State :=
  if writable64 off then setLatch (.write off v) s
  else if 4 ≤ off ∧ writable64 (off - 4) then writeHigh (off - 4) v s
  else if off = 0x421C then put64 0x4218 (v.zeroExtend 64 <<< 32) s
  else (putArray off v s).getD (put32 off v s)

/-- A write of BAR0 (R341): 4 or 8 bytes, naturally aligned; 8 bytes on a pair of 32-bit registers act as two writes. -/
def writeReg (off : Nat) (wide : Bool) (v : W64) (s : State) : State :=
  if off % (if wide then 8 else 4) ≠ 0 then { s with hif := { s.hif with badAccess := true } }
  else if !wide then writeWord off (v.truncate 32) s
  else if writable64 off || off == 0x4218 then put64 off v s
  else writeWord (off + 4) ((v >>> 32).truncate 32) (writeWord off (v.truncate 32) s)

/-- REGISTER_WRITE (R11). -/
def execRegisterWrite (off : Nat) (wide : Bool) (value : W64) (s : State) : Host.Outcome State Fault Refusal := whenReachable s <|
  .next (writeReg off wide value s)

/-- EVT_MAP_WRITE (R514). -/
def execEvtMapWrite (off : Nat) (wide : Bool) (value : W64) (s : State) : Host.Outcome State Fault Refusal := whenReachable s <|
  .next (if within 0x0300 off 0x03FF then writeReg off wide value s else s)

/-- BAND_TABLE_WRITE (R512). -/
def execBandTableWrite (off : Nat) (wide : Bool) (value : W64) (s : State) : Host.Outcome State Fault Refusal := whenReachable s <|
  .next (if within 0x2200 off 0x29FF then writeReg off wide value s else s)

/-! ### The diagnostic window (R343, R485) -/

/-- A table entry of a lane written: the fields of R103, where the window places them (log 72). -/
def putLane (entry field : Nat) (v : Int) (x : Slice) : Slice :=
  { x with laneTab := updN x.laneTab entry fun e => match field with
      | 0 => { e with offset := v }
      | 1 => { e with gain := v }
      | 2 | 3 | 4 | 5 => { e with stageGain := e.stageGain.set (field - 2) v }
      | 6 => { e with ditherGain := v }
      | _ => e }

/-- An entry of the position table written (log 72); field 32 is the fractional delay that all positions share. -/
def putPosition (entry field : Nat) (v : Int) (x : Slice) : Slice :=
  if field = 32 then { x with fracDelay := v }
  else { x with posTab := updN x.posTab entry fun e =>
    if field < 16 then { e with skew := e.skew.set field v } else { e with eq := e.eq.set (field - 16) v } }

/-- A tap of the inactive cartridge set written (R485): it takes effect once tap 63 is. -/
def putTap (n : Fin 8) (tap : Nat) (v : Int) (s : State) : State :=
  let s := updSlice n (fun x => { x with firInactive := x.firInactive.set tap v }) s
  if tap = 63 then loadSet n (s.slices[n]).firInactive .edited s else s

/-- An entry of a TAC table in use written (R150, R485). -/
def putTacEntry (n : Fin 8) (k : Nat) (v : W32) (s : State) : State :=
  updTac n (fun t =>
    let now := match t.table with | some l => l | none => (List.range 4096).map nominalMid
    { t with oldTable := t.table, table := some (now.set k v.toNat), tableFrom := takenSample s / 40 }) s

/-- An allowed edit (R485). -/
def edited (s : State) : State := { s with acc := { s.acc with calEdited := true } }

/-- A 4-byte write of the diagnostic window (R343, R485). -/
def diagWord (off : Nat) (v : W32) (s : State) : State :=
  let vendor := (s.acc.level[1]).isOpen
  let bad := { s with hif := { s.hif with badAccess := true } }
  if !ownerRight s.acc then s
  else if off < 0x100000 then
    let n : Fin 8 := Fin.ofNat 8 (off / 0x20000)
    let p := Config.diagPlace (off % 0x20000)
    match p.1 with
    | 1 => if vendor then edited (updSlice n (putLane p.2.1 p.2.2 v.toInt) s) else bad
    | 2 => if vendor then edited (updSlice n (putPosition p.2.1 p.2.2 v.toInt) s) else bad
    | 3 => edited (putTap n p.2.1 v.toInt s)
    | _ => bad
  else if off < 0x120000 then
    if vendor then edited (putTacEntry (Fin.ofNat 8 ((off - 0x100000) / 0x4000)) (off % 0x4000 / 4) v s) else bad
  else bad

/-- A word of a slice's region (R127, R343): lane map, lane table, position table or cartridge set. -/
def sliceDiag (x : Slice) (p : Nat × Nat × Nat) : W32 :=
  let int := fun (v : Int) => BitVec.ofInt 32 v
  match p.1 with
  | 0 => match getN x.laneMap p.2.1 with
    | some (some l) => BitVec.ofNat 32 l
    | _ => Config.noLaneWord
  | 1 => match getN x.laneTab p.2.1 with
    | some e => int (match p.2.2 with
      | 0 => e.offset
      | 1 => e.gain
      | 6 => e.ditherGain
      | k => e.stageGain.getD (k - 2) 0)
    | none => 0
  | 2 => if p.2.2 = 32 then int x.fracDelay
    else match getN x.posTab p.2.1 with
      | some e => int (if p.2.2 < 16 then e.skew.getD p.2.2 0 else e.eq.getD (p.2.2 - 16) 0)
      | none => 0
  | _ => int (x.firActive.getD p.2.1 0)

/-- A word of a synthesiser output (R76, R343): divider, coarse delay, fine delay, enable. -/
def outDiag (o : SynOut) (field : Nat) : W32 :=
  match field with
  | 0 => BitVec.ofNat 32 o.divider
  | 1 => BitVec.ofNat 32 o.coarse
  | 2 => BitVec.ofInt 32 o.fine
  | _ => w32 (flag o.enable 0)

/-- A word of what the non-volatile store holds (R118, R343): retired lanes and interpolated positions of a slice, retired engines. -/
def storeDiag (s : State) (p : Nat × Nat) : W32 :=
  let half := fun (v : W64) => if p.2 % 2 = 0 then v.truncate 32 else (v >>> 32).truncate 32
  match p.1 with
  | 0 => half ((s.slices[Fin.ofNat 8 (p.2 / 2)]).retired.zeroExtend 64)
  | 1 => half ((s.slices[Fin.ofNat 8 (p.2 / 2)]).interp.zeroExtend 64)
  | _ => w32 (((List.range 32).map fun k => flag (s.eng.retired.contains (32 * p.2 + k)) k).sum)

/-- What a 4-byte read of the diagnostic window returns (R343, R485): zero while it is closed. No row of the table reads the window; where
a word lies in its region is open (log 72). -/
def diagRead (off : Nat) (s : State) : W32 :=
  if !ownerRight s.acc then 0
  else if off < 0x100000 then sliceDiag s.slices[Fin.ofNat 8 (off / 0x20000)] (Config.diagPlace (off % 0x20000))
  else if off < 0x120000 then
    let k := off % 0x4000 / 4
    BitVec.ofNat 32 (match (s.tacs[Fin.ofNat 8 ((off - 0x100000) / 0x4000)]).table with
      | some l => l.getD k 0
      | none => nominalMid k)
  else if off < 0x130000 then
    let p := Config.diagOutput (off - 0x120000)
    outDiag ((s.clk.outs[p.1])[p.2.1]) p.2.2
  else if off < 0x140000 then storeDiag s (Config.diagStore (off - 0x130000))
  else 0

/-- DIAGNOSTIC_WINDOW_WRITE (R485): eight bytes are two words, low address first. -/
def diagWrite (off : Nat) (wide : Bool) (v : W64) (s : State) : State :=
  let s := diagWord off (v.truncate 32) s
  if wide then diagWord (off + 4) ((v >>> 32).truncate 32) s else s

/-- DIAGNOSTIC_WINDOW_WRITE (R485): Write to the BAR4 diagnostic window that edits a lane, position, cartridge or TAC
table, or sets BAD_ACCESS. -/
def execDiagnosticWindowWrite (off : Nat) (wide : Bool) (value : W64) (s : State) : Host.Outcome State Fault Refusal := whenReachable s <|
  .next (diagWrite off wide value s)

end Sys2Proof.Machine
end

