-- ==== Sys2Proof/Machine/TestPort.lean ====
section
/-!
DEFINITION. The test access port (R435, R436): the controller of IEEE 1149.1 (PRESUMED, log 71), the instruction registers of the
eight logic dies, and their data registers.
-/
namespace Sys2Proof.Machine

/-- Controller state after a TCK edge (IEEE 1149.1; PRESUMED, log 71). Five edges with TMS high lead to the reset state. -/
def tapNext (tms : Bool) : TapState → TapState
  | .testLogicReset => if tms then .testLogicReset else .runTestIdle
  | .runTestIdle => if tms then .selectDr else .runTestIdle
  | .selectDr => if tms then .selectIr else .captureDr
  | .captureDr => if tms then .exit1Dr else .shiftDr
  | .shiftDr => if tms then .exit1Dr else .shiftDr
  | .exit1Dr => if tms then .updateDr else .pauseDr
  | .pauseDr => if tms then .exit2Dr else .pauseDr
  | .exit2Dr => if tms then .updateDr else .shiftDr
  | .updateDr => if tms then .selectDr else .runTestIdle
  | .selectIr => if tms then .testLogicReset else .captureIr
  | .captureIr => if tms then .exit1Ir else .shiftIr
  | .shiftIr => if tms then .exit1Ir else .shiftIr
  | .exit1Ir => if tms then .updateIr else .pauseIr
  | .pauseIr => if tms then .exit2Ir else .pauseIr
  | .exit2Ir => if tms then .updateIr else .shiftIr
  | .updateIr => if tms then .selectDr else .runTestIdle

/-- Die type of a die in chain order (R435). -/
def dieType (d : Nat) : Nat := if d = 0 then 0x8801 else if d = 1 then 0x8802 else if d ≤ 5 then 0x8803 else 0x8804

/-- IDCODE of a die (R435). -/
def idcode (d : Nat) : W32 :=
  BitVec.ofNat 32 (1 + Config.jedec.toNat * 2 + dieType d * 2 ^ 12 + (Config.dieRev d).toNat * 2 ^ 28)

/-- The instruction that acts (R435, R436): the test instructions act only while PERST# is asserted, and other codes are BYPASS. -/
def actingIr (perst : Bool) (ir : Byte) : Byte :=
  if ir = 0x01 ∨ ir = 0x02 then ir
  else if perst && (ir == 0x00 || ir == 0x03 || ir == 0x04 || ir == 0x05 || ir == 0x06) then ir
  else 0xFF

/-- The instruction puts the boundary-scan register between TDI and TDO. -/
def usesCells (ir : Byte) : Bool := ir == 0x00 || ir == 0x02 || ir == 0x05 || ir == 0x06

/-- Bits of a number, the most significant first, so that the least significant is shifted out first. -/
def bitsOf (n x : Nat) : List Bool := (List.range n).map fun i => x.testBit (n - 1 - i)

/-- The number that shifted bits spell. -/
def ofBits (l : List Bool) : Nat := l.foldl (fun n b => 2 * n + (if b then 1 else 0)) 0

/-- What a die captures into its data register (R435): IDCODE, the pins of its cells, which come from outside, or the zero of
BYPASS. -/
def captureDr (perst : Bool) (d : Nat) (ir : Byte) (k : Nat) : List Bool :=
  let i := actingIr perst ir
  if i = 0x01 then bitsOf 32 (idcode d).toNat
  else if usesCells i then (List.range (Config.scanLength d)).map fun j => Config.pinLevel k d j
  else [false]

/-- One bit moves through the eight stages, from TDI to TDO (R435). -/
def shiftChain (tdi : Bool) : List (List Bool) → List (List Bool) × Bool
  | [] => ([], tdi)
  | st :: rest =>
    let out := (st.getLast?).getD tdi
    let r := shiftChain out rest
    ((tdi :: st).dropLast :: r.1, r.2)

/-- The test access port reset (R436). -/
def tapReset (t : Tap) : Tap := { t with state := .testLogicReset, ir := Vector.replicate 8 0x01 }

/-- The work of the state in which a TCK edge finds the controller. -/
def tapWork (perst tdi : Bool) (k : Nat) (t : Tap) : Tap :=
  match t.state with
  | .captureIr => { t with shift := Vector.replicate 8 (bitsOf 8 0x01) }
  | .captureDr => { t with shift := Vector.ofFn fun d : Fin 8 => captureDr perst d.val t.ir[d] k }
  | .shiftIr | .shiftDr =>
    let r := shiftChain tdi t.shift.toList
    { t with shift := Vector.ofFn fun d : Fin 8 => r.1.getD d.val [], tdo := r.2 }
  | .updateIr => { t with ir := t.shift.map fun l => BitVec.ofNat 8 (ofBits l) }
  | .updateDr =>
    { t with cells := Vector.ofFn fun d : Fin 8 => if usesCells (actingIr perst t.ir[d]) then t.shift[d] else t.cells[d] }
  | _ => t

/-- TCK_EDGE (R435, R436): the port has power while the main rails are up (R47). -/
def tckEdge (tms tdi : Bool) (s : State) : State :=
  if s.pwr.railsOn then
    let (k, s) := fresh s
    let t := tapWork s.pwr.perst tdi k s.tap
    let t := { t with state := tapNext tms t.state }
    { s with tap := if t.state = .testLogicReset then tapReset t else t }
  else s

/-- TCK_EDGE (R435): A TCK edge advances the test access port, loading instructions or resetting it after five cycles
with TMS high. -/
def execTckEdge (tms tdi : Bool) (s : State) : Host.Outcome State Fault Refusal := .next (tckEdge tms tdi s)

/-- TRST_ASSERT (R436). -/
def execTrstAssert (s : State) : Host.Outcome State Fault Refusal := .next { s with tap := tapReset s.tap }

end Sys2Proof.Machine
end

