-- ==== Sys2Proof/Machine/Dispatch.lean ====
section
/-!
DEFINITION. Which meaning each command has: one arm per constructor of Instr.
-/
namespace Sys2Proof.Machine

/-- The effect of a command on everything but the queue. -/
def exec (i : Instr) (s : State) : Host.Outcome State Fault Refusal :=
  match i with
  | .nop o => Sys2Proof.Machine.execNop o s
  | .tagStatus o => Sys2Proof.Machine.execTagStatus o s
  | .setMemory o => Sys2Proof.Machine.execSetMemory o s
  | .setTu o block => Sys2Proof.Machine.execSetTu o block s
  | .setAs o block => Sys2Proof.Machine.execSetAs o block s
  | .setRed o block => Sys2Proof.Machine.execSetRed o block s
  | .setDdc o block fir => Sys2Proof.Machine.execSetDdc o block fir s
  | .setFelt o block => Sys2Proof.Machine.execSetFelt o block s
  | .setMask o block => Sys2Proof.Machine.execSetMask o block s
  | .setService o block => Sys2Proof.Machine.execSetService o block s
  | .setBrim o block => Sys2Proof.Machine.execSetBrim o block s
  | .arm o => Sys2Proof.Machine.execArm o s
  | .stop o => Sys2Proof.Machine.execStop o s
  | .force o => Sys2Proof.Machine.execForce o s
  | .retroCapture o => Sys2Proof.Machine.execRetroCapture o s
  | .epochSet o => Sys2Proof.Machine.execEpochSet o s
  | .timerSet o => Sys2Proof.Machine.execTimerSet o s
  | .timerRead o => Sys2Proof.Machine.execTimerRead o s
  | .bake o => Sys2Proof.Machine.execBake o s
  | .readSegments o => Sys2Proof.Machine.execReadSegments o s
  | .readIndex o => Sys2Proof.Machine.execReadIndex o s
  | .streamOpen o => Sys2Proof.Machine.execStreamOpen o s
  | .streamClose o => Sys2Proof.Machine.execStreamClose o s
  | .cfgSave o => Sys2Proof.Machine.execCfgSave o s
  | .cfgLoad o => Sys2Proof.Machine.execCfgLoad o s
  | .updDownload o source => Sys2Proof.Machine.execUpdDownload o source s
  | .updVerify o => Sys2Proof.Machine.execUpdVerify o s
  | .updActivate o => Sys2Proof.Machine.execUpdActivate o s
  | .updConfirm o => Sys2Proof.Machine.execUpdConfirm o s
  | .updAbort o => Sys2Proof.Machine.execUpdAbort o s
  | .accChallenge o => Sys2Proof.Machine.execAccChallenge o s
  | .accRespond o => Sys2Proof.Machine.execAccRespond o s
  | .accPassword o block => Sys2Proof.Machine.execAccPassword o block s
  | .accSetPassword o block => Sys2Proof.Machine.execAccSetPassword o block s
  | .accClose o => Sys2Proof.Machine.execAccClose o s
  | .apply value => Sys2Proof.Machine.execApply value s
  | .urgentStop value => Sys2Proof.Machine.execUrgentStop value s
  | .sqTail n bytes value => Sys2Proof.Machine.execSqTail n bytes value s
  | .cqHead n bytes value => Sys2Proof.Machine.execCqHead n bytes value s
  | .evqHead bytes value => Sys2Proof.Machine.execEvqHead bytes value s
  | .consumed q w => Sys2Proof.Machine.execConsumed q w s
  | .qpEnable n cfg => Sys2Proof.Machine.execQpEnable n cfg s
  | .qpDisable n cfg => Sys2Proof.Machine.execQpDisable n cfg s
  | .qpDrained n => Sys2Proof.Machine.execQpDrained n s
  | .evqEnable cfg => Sys2Proof.Machine.execEvqEnable cfg s
  | .deadClr n value => Sys2Proof.Machine.execDeadClr n value s
  | .marginClr value => Sys2Proof.Machine.execMarginClr value s
  | .bandTableWrite off wide value => Sys2Proof.Machine.execBandTableWrite off wide value s
  | .evtMapWrite off wide value => Sys2Proof.Machine.execEvtMapWrite off wide value s
  | .registerWrite off wide value => Sys2Proof.Machine.execRegisterWrite off wide value s
  | .lowHalfRead off => Sys2Proof.Machine.execLowHalfRead off s
  | .highHalfRead off => Sys2Proof.Machine.execHighHalfRead off s
  | .tsNowRead wide => Sys2Proof.Machine.execTsNowRead wide s
  | .badAccess write => Sys2Proof.Machine.execBadAccess write s
  | .descriptorFetch n desc => Sys2Proof.Machine.execDescriptorFetch n desc s
  | .transferComplete n tag ecc => Sys2Proof.Machine.execTransferComplete n tag ecc s
  | .hostMem n tag cause => Sys2Proof.Machine.execHostMem n tag cause s
  | .hostReadRetry n => Sys2Proof.Machine.execHostReadRetry n s
  | .msixSend v => Sys2Proof.Machine.execMsixSend v s
  | .streamIrqTimeout q => Sys2Proof.Machine.execStreamIrqTimeout q s
  | .eventRecordWrite source => Sys2Proof.Machine.execEventRecordWrite source s
  | .streamTransfer q ecc => Sys2Proof.Machine.execStreamTransfer q ecc s
  | .streamEnd q => Sys2Proof.Machine.execStreamEnd q s
  | .perstAssert => Sys2Proof.Machine.execPerstAssert s
  | .perstRelease checks => Sys2Proof.Machine.execPerstRelease checks s
  | .loaderDone checks => Sys2Proof.Machine.execLoaderDone checks s
  | .pmcFirmwareStart => Sys2Proof.Machine.execPmcFirmwareStart s
  | .mainFirmwareStart storeOk => Sys2Proof.Machine.execMainFirmwareStart storeOk s
  | .ready => Sys2Proof.Machine.execReady s
  | .bootRestoreDone => Sys2Proof.Machine.execBootRestoreDone s
  | .vstbyValid => Sys2Proof.Machine.execVstbyValid s
  | .vstbyLoss => Sys2Proof.Machine.execVstbyLoss s
  | .vmainValid => Sys2Proof.Machine.execVmainValid s
  | .vmainLow => Sys2Proof.Machine.execVmainLow s
  | .mainRailsOn present => Sys2Proof.Machine.execMainRailsOn present s
  | .railGroupReady => Sys2Proof.Machine.execRailGroupReady s
  | .phaseShed rail stage => Sys2Proof.Machine.execPhaseShed rail stage s
  | .loopB rail => Sys2Proof.Machine.execLoopB rail s
  | .railFault rail voltage current => Sys2Proof.Machine.execRailFault rail voltage current s
  | .telemetryUpdate t => Sys2Proof.Machine.execTelemetryUpdate t s
  | .tmaxEvaluate temps => Sys2Proof.Machine.execTmaxEvaluate temps s
  | .thermSensor n reading => Sys2Proof.Machine.execThermSensor n reading s
  | .thermTrip => Sys2Proof.Machine.execThermTrip s
  | .tripHoldoffEnd => Sys2Proof.Machine.execTripHoldoffEnd s
  | .mainInhibit on => Sys2Proof.Machine.execMainInhibit on s
  | .mgCauseClear value => Sys2Proof.Machine.execMgCauseClear value s
  | .mgWrite bytes => Sys2Proof.Machine.execMgWrite bytes s
  | .hotReset => Sys2Proof.Machine.execHotReset s
  | .flr => Sys2Proof.Machine.execFlr s
  | .busMasterDisable => Sys2Proof.Machine.execBusMasterDisable s
  | .busMasterEnable => Sys2Proof.Machine.execBusMasterEnable s
  | .linkRecovery => Sys2Proof.Machine.execLinkRecovery s
  | .hifLink gen width => Sys2Proof.Machine.execHifLink gen width s
  | .lockstepError => Sys2Proof.Machine.execLockstepError s
  | .ccSramEcc => Sys2Proof.Machine.execCcSramEcc s
  | .watchdog => Sys2Proof.Machine.execWatchdog s
  | .ccRestart ok0 ok1 => Sys2Proof.Machine.execCcRestart ok0 ok1 s
  | .pmcRestart cause => Sys2Proof.Machine.execPmcRestart cause s
  | .lockDeclared run => Sys2Proof.Machine.execLockDeclared run s
  | .unlockDeclared run both => Sys2Proof.Machine.execUnlockDeclared run both s
  | .standbyDrift => Sys2Proof.Machine.execStandbyDrift s
  | .standbyReady => Sys2Proof.Machine.execStandbyReady s
  | .reband core pass => Sys2Proof.Machine.execReband core pass s
  | .synfReturn => Sys2Proof.Machine.execSynfReturn s
  | .refLoss seen => Sys2Proof.Machine.execRefLoss seen s
  | .coastSteer => Sys2Proof.Machine.execCoastSteer s
  | .refQualify => Sys2Proof.Machine.execRefQualify s
  | .refStartTimeout => Sys2Proof.Machine.execRefStartTimeout s
  | .refReturn delta => Sys2Proof.Machine.execRefReturn delta s
  | .stepInstant => Sys2Proof.Machine.execStepInstant s
  | .proofingStepEnd d => Sys2Proof.Machine.execProofingStepEnd d s
  | .proofFail => Sys2Proof.Machine.execProofFail s
  | .sliceWord n x => Sys2Proof.Machine.execSliceWord n x s
  | .rotationStep n meanSquare fit => Sys2Proof.Machine.execRotationStep n meanSquare fit s
  | .laneCheckFail n lane check second => Sys2Proof.Machine.execLaneCheckFail n lane check second s
  | .blindEstimatorUpdate n quiet taps => Sys2Proof.Machine.execBlindEstimatorUpdate n quiet taps s
  | .ovrEpisodeEnd n => Sys2Proof.Machine.execOvrEpisodeEnd n s
  | .cartridgeFirDerived n up => Sys2Proof.Machine.execCartridgeFirDerived n up s
  | .cartridgeInsert n => Sys2Proof.Machine.execCartridgeInsert n s
  | .standbyMating n => Sys2Proof.Machine.execStandbyMating n s
  | .cartridgeIdRead n factory wearA wearB => Sys2Proof.Machine.execCartridgeIdRead n factory wearA wearB s
  | .cartridgeReadTimeout n => Sys2Proof.Machine.execCartridgeReadTimeout n s
  | .cartridgeRemove n => Sys2Proof.Machine.execCartridgeRemove n s
  | .cartridgeOvercurrent n => Sys2Proof.Machine.execCartridgeOvercurrent n s
  | .wearRecordWrite n ok => Sys2Proof.Machine.execWearRecordWrite n ok s
  | .tacEdge n falling coarse fine calEdge => Sys2Proof.Machine.execTacEdge n falling coarse fine calEdge s
  | .intervalWinExpiry t => Sys2Proof.Machine.execIntervalWinExpiry t s
  | .tacIdleCalStart n temp => Sys2Proof.Machine.execTacIdleCalStart n temp s
  | .tacCalRunEnd n hist temp => Sys2Proof.Machine.execTacCalRunEnd n hist temp s
  | .epochCommit => Sys2Proof.Machine.execEpochCommit s
  | .armStart a => Sys2Proof.Machine.execArmStart a s
  | .triggerUnitFire u => Sys2Proof.Machine.execTriggerUnitFire u s
  | .sequencerDecision a => Sys2Proof.Machine.execSequencerDecision a s
  | .prefillDone a => Sys2Proof.Machine.execPrefillDone a s
  | .autoTimeout a => Sys2Proof.Machine.execAutoTimeout a s
  | .segmentEnd a => Sys2Proof.Machine.execSegmentEnd a s
  | .holdoffEnd a => Sys2Proof.Machine.execHoldoffEnd a s
  | .segmentComplete seq => Sys2Proof.Machine.execSegmentComplete seq s
  | .trigoutPulse o => Sys2Proof.Machine.execTrigoutPulse o s
  | .maskStop m => Sys2Proof.Machine.execMaskStop m s
  | .violEpisodeEnd m => Sys2Proof.Machine.execViolEpisodeEnd m s
  | .maskRasterDone m => Sys2Proof.Machine.execMaskRasterDone m s
  | .maskLimitError m column => Sys2Proof.Machine.execMaskLimitError m column s
  | .maskLimitReload m => Sys2Proof.Machine.execMaskLimitReload m s
  | .feltClearDone f => Sys2Proof.Machine.execFeltClearDone f s
  | .feltSpill f => Sys2Proof.Machine.execFeltSpill f s
  | .agingInstant f => Sys2Proof.Machine.execAgingInstant f s
  | .agingSweepDone f => Sys2Proof.Machine.execAgingSweepDone f s
  | .bakeFlushDone f => Sys2Proof.Machine.execBakeFlushDone f s
  | .bakeCopyDone f => Sys2Proof.Machine.execBakeCopyDone f s
  | .bakeCycleEnd f => Sys2Proof.Machine.execBakeCycleEnd f s
  | .bankRecovery n => Sys2Proof.Machine.execBankRecovery n s
  | .diagnosticSpanEnd n => Sys2Proof.Machine.execDiagnosticSpanEnd n s
  | .bankSelftestStart n => Sys2Proof.Machine.execBankSelftestStart n s
  | .chainRecovery n => Sys2Proof.Machine.execChainRecovery n s
  | .serviceSwitch j => Sys2Proof.Machine.execServiceSwitch j s
  | .spectrumDeliver j hop r => Sys2Proof.Machine.execSpectrumDeliver j hop r s
  | .engineFail e => Sys2Proof.Machine.execEngineFail e s
  | .engMigrate e => Sys2Proof.Machine.execEngMigrate e s
  | .reserveRotation pair => Sys2Proof.Machine.execReserveRotation pair s
  | .selftestDone pair failed => Sys2Proof.Machine.execSelftestDone pair failed s
  | .measureRecord j => Sys2Proof.Machine.execMeasureRecord j s
  | .averageAdd j => Sys2Proof.Machine.execAverageAdd j s
  | .scrub r => Sys2Proof.Machine.execScrub r s
  | .scrubRepair stack lane index => Sys2Proof.Machine.execScrubRepair stack lane index s
  | .istSerdes lane vertical horizontal => Sys2Proof.Machine.execIstSerdes lane vertical horizontal s
  | .istSyns fs => Sys2Proof.Machine.execIstSyns fs s
  | .mramScrub bad => Sys2Proof.Machine.execMramScrub bad s
  | .istStarved item => Sys2Proof.Machine.execIstStarved item s
  | .lifeLogWrite hours avgTj tjPeak hotSeconds => Sys2Proof.Machine.execLifeLogWrite hours avgTj tjPeak hotSeconds s
  | .brimLinkUp p => Sys2Proof.Machine.execBrimLinkUp p s
  | .brimLinkDown p abandoned => Sys2Proof.Machine.execBrimLinkDown p abandoned s
  | .flitRetransmit p index => Sys2Proof.Machine.execFlitRetransmit p index s
  | .flitAbandon p => Sys2Proof.Machine.execFlitAbandon p s
  | .triggerMessage rx => Sys2Proof.Machine.execTriggerMessage rx s
  | .triggerPresent => Sys2Proof.Machine.execTriggerPresent s
  | .stopMessage rx => Sys2Proof.Machine.execStopMessage rx s
  | .epochMessage rx => Sys2Proof.Machine.execEpochMessage rx s
  | .statusMessage rx => Sys2Proof.Machine.execStatusMessage rx s
  | .statusSend => Sys2Proof.Machine.execStatusSend s
  | .delayReq rx => Sys2Proof.Machine.execDelayReq rx s
  | .delayResp rx => Sys2Proof.Machine.execDelayResp rx s
  | .delayReqSend p => Sys2Proof.Machine.execDelayReqSend p s
  | .discover rx => Sys2Proof.Machine.execDiscover rx s
  | .discoverSend => Sys2Proof.Machine.execDiscoverSend s
  | .ringFormed sites => Sys2Proof.Machine.execRingFormed sites s
  | .peerStale n => Sys2Proof.Machine.execPeerStale n s
  | .mgmtMessage rx => Sys2Proof.Machine.execMgmtMessage rx s
  | .updateMessage rx => Sys2Proof.Machine.execUpdateMessage rx s
  | .updateForward west => Sys2Proof.Machine.execUpdateForward west s
  | .updateResumeSend => Sys2Proof.Machine.execUpdateResumeSend s
  | .updVerifyDone => Sys2Proof.Machine.execUpdVerifyDone s
  | .upperSwitchDone => Sys2Proof.Machine.execUpperSwitchDone s
  | .updateSample => Sys2Proof.Machine.execUpdateSample s
  | .trialDeadline => Sys2Proof.Machine.execTrialDeadline s
  | .revertSample => Sys2Proof.Machine.execRevertSample s
  | .cfgSaveDone ok => Sys2Proof.Machine.execCfgSaveDone ok s
  | .nonceExpiry level => Sys2Proof.Machine.execNonceExpiry level s
  | .authDelayEnd level => Sys2Proof.Machine.execAuthDelayEnd level s
  | .diagnosticWindowWrite off wide value => Sys2Proof.Machine.execDiagnosticWindowWrite off wide value s
  | .linkL0 => Sys2Proof.Machine.execLinkL0 s
  | .brimLinkTraining p => Sys2Proof.Machine.execBrimLinkTraining p s
  | .cfgMismatchClear => Sys2Proof.Machine.execCfgMismatchClear s
  | .staleCal n temp => Sys2Proof.Machine.execStaleCal n temp s
  | .frequencyGateEmpty t => Sys2Proof.Machine.execFrequencyGateEmpty t s
  | .trigoutPulseEnd o => Sys2Proof.Machine.execTrigoutPulseEnd o s
  | .tckEdge tms tdi => Sys2Proof.Machine.execTckEdge tms tdi s
  | .trstAssert => Sys2Proof.Machine.execTrstAssert s
  | .mgRead first => Sys2Proof.Machine.execMgRead first s

end Sys2Proof.Machine
end

