-- ==== Sys2Proof/Safety.lean ====
section
/-!
DEFINITION. What claims call a safe run: the canonical form of host memory, states whose every step goes on, and the
conditions in which a command commits.
-/
namespace Sys2Proof.Safety

open Sys2Proof.Machine

/-- The model's invariant of R371 and log 6: host memory is in canonical form. -/
def Inv (s : State) : Prop := Memory.wf s.hostMem = true

/-- The next step neither faults nor is refused. -/
def GoesOn (s : State) : Prop := ∃ t, step s = .next t

/-- A state that steps reach from another. -/
inductive Reaches : State → State → Prop where
  | refl (s : State) : Reaches s s
  | tail {s t u : State} (h : Reaches s t) (k : step t = .next u) : Reaches s u

/-- A safe run: every state that steps reach goes on. -/
def Safe (s : State) : Prop := ∀ t, Reaches s t → GoesOn t

/-- Rows of the always-on domain, the supplies and the test access port, which act while the other blocks are held in reset
(R30, R46, R57, R414 to R417, R425 to R428, R435). -/
def alwaysOn : Instr → Bool
  | .perstAssert | .perstRelease _ | .vstbyValid | .vstbyLoss | .vmainValid | .vmainLow | .mainRailsOn _ | .railGroupReady
  | .phaseShed _ _ | .loopB _ | .railFault _ _ _ | .telemetryUpdate _ | .thermTrip | .tripHoldoffEnd | .mainInhibit _
  | .mgCauseClear _ | .mgWrite _ | .mgRead _ | .standbyMating _ | .cartridgeInsert _ | .cartridgeRemove _ | .tckEdge _ _
  | .trstAssert => true
  | _ => false

/-- Rows that an access of the host makes, through configuration space or a BAR (R46, R339, R341, R343, R346). -/
def hostAccess : Instr → Bool
  | .busMasterEnable | .busMasterDisable | .flr | .qpEnable _ _ | .qpDisable _ _ | .sqTail _ _ _ | .cqHead _ _ _ | .evqEnable _
  | .evqHead _ _ | .badAccess _ | .apply _ | .urgentStop _ | .marginClr _ | .deadClr _ _ | .tsNowRead _ | .lowHalfRead _
  | .highHalfRead _ | .registerWrite _ _ _ | .evtMapWrite _ _ _ | .bandTableWrite _ _ _ | .diagnosticWindowWrite _ _ _
  | .consumed _ _ => true
  | _ => false

/-- The descriptor `g` of queue pair `n`, with opcode `op`, commits now (R350, R351): the blocks run, the control complex commits
commands (R375, R376, R409, R412), the boot stage is not RESCUE (R410), no restore runs (R477), the queue pair is RUNNING, and
`g` is its oldest uncommitted descriptor, with its FENCE satisfied. -/
structure Commits (n : Fin 64) (op : Nat) (g : Fetched) (s : State) : Prop where
  runs : live s = true
  goes : committing s = true
  main : (s.boot.stage == .rescue) = false
  rest : s.cfg.restoring = false
  pair : s.hif.qps[n].state = .running
  first : nextCommit s.hif.qps[n] = some g
  code : g.opcode.toNat = op

/-- The origin of a queue command and its opcode (R356). -/
def queueOp : Instr → Option (Origin × Nat)
  | .nop o => some (o, 0x0001)
  | .tagStatus o => some (o, 0x0002)
  | .setMemory o => some (o, 0x0010)
  | .setTu o _ => some (o, 0x0011)
  | .setAs o _ => some (o, 0x0012)
  | .setRed o _ => some (o, 0x0013)
  | .setDdc o _ _ => some (o, 0x0014)
  | .setFelt o _ => some (o, 0x0015)
  | .setMask o _ => some (o, 0x0016)
  | .setService o _ => some (o, 0x0017)
  | .setBrim o _ => some (o, 0x0018)
  | .arm o => some (o, 0x0020)
  | .stop o => some (o, 0x0021)
  | .force o => some (o, 0x0022)
  | .retroCapture o => some (o, 0x0023)
  | .epochSet o => some (o, 0x0024)
  | .timerSet o => some (o, 0x0025)
  | .timerRead o => some (o, 0x0026)
  | .bake o => some (o, 0x0030)
  | .readSegments o => some (o, 0x0031)
  | .readIndex o => some (o, 0x0032)
  | .streamOpen o => some (o, 0x0033)
  | .streamClose o => some (o, 0x0034)
  | .cfgSave o => some (o, 0x0040)
  | .cfgLoad o => some (o, 0x0041)
  | .updDownload o _ => some (o, 0x0050)
  | .updVerify o => some (o, 0x0051)
  | .updActivate o => some (o, 0x0052)
  | .updConfirm o => some (o, 0x0053)
  | .updAbort o => some (o, 0x0054)
  | .accChallenge o => some (o, 0x0060)
  | .accRespond o => some (o, 0x0061)
  | .accPassword o _ => some (o, 0x0062)
  | .accSetPassword o _ => some (o, 0x0063)
  | .accClose o => some (o, 0x0064)
  | _ => none

/-- The call of a command that a queue pair's descriptor spells, with the bytes at its PARAM_ADDR. -/
def callOf (g : Fetched) (block : List Byte) : Call := { desc := g.desc, block := block, restore := false }

/-- A queue command has committed with SUCCESS (R350 to R353): `s'` is the state its effect leaves, in which the setting joins those
in force where it is one (R471), and its completion carries `result`. -/
def succeeds (n : Fin 64) (g : Fetched) (op : Nat) (block result : List Byte) (s' : State) : State :=
  finish n g.tag stSuccess 0 result (noteSetting op g.desc block s')

/-- A queue command has committed and its completion waits for the transfer `x` (R350): its descriptor stays fetched, committed, with
the RESULT it will report. -/
def starts (n : Fin 64) (g : Fetched) (op : Nat) (block : List Byte) (x : Xfer) (result : List Byte) (s' : State) : State :=
  updQp n (fun q => setTag g.tag (fun e => { e with state := .committed })
    { q with fetched := q.fetched.map fun h =>
        if h.tag == g.tag then { h with committed := true, xfer := some x, result := result } else h })
    (noteSetting op g.desc block s')

/-- A queue command has been refused (R353): nothing but its completion, with a status other than SUCCESS. -/
def refuses (n : Fin 64) (g : Fetched) (status detail : Nat) (s : State) : State := finish n g.tag status detail [] s

/-- A state that differs from another at most in its event sources and free-value counter. -/
def Quiet (s t : State) : Prop :=
  t = { s with freeCtr := t.freeCtr, hif := { s.hif with ev := { s.hif.ev with src := t.hif.ev.src } } }

/-! ### What the spec requires of the default filters, whose coefficients it does not give (R246, R251; log 47) -/

/-- The response of a chain's filters to a single sample of one LSB (R245), NCO and Sifter off. -/
def chainResponse (c : DdcCfg) (t : Int) : Rat :=
  (weighted 96 (firTap c) fun k => cascade c.preset (fun t => if t = 0 then (1, 0) else (0, 0)) (t - k * (presetD c.preset / 2 : Nat))).1

/-- Noise gain of a preset in units of 0.01 dB (R246). -/
def noiseGain (p : Nat) : Int := [-678, -1280, -1882, -2484, -3086, -3688].getD p 0

/-- The constants of the default chains are those of a device that meets R251 and the noise gain of R246: with frequencies in units of the
output rate, the passband up to 0.4 stays within 0.01 dB, CIC droop included; the FIR attenuates by 90 dB from 0.6 on; and everything that
folds into the band up to 0.4 is 90 dB down. A claim about the quality of an output takes this as its premise. -/
def DefaultFilters : Prop :=
  ∀ c : DdcCfg, c.user = false → c.preset ≤ 5 →
    let d := presetD c.preset
    let power := fun ν : ℝ =>
      (∑ t ∈ Finset.range (60 * d), (chainResponse c t : ℝ) * Real.cos (2 * Real.pi * ν * t / d)) ^ 2
        + (∑ t ∈ Finset.range (60 * d), (chainResponse c t : ℝ) * Real.sin (2 * Real.pi * ν * t / d)) ^ 2
    let firPower := fun ν : ℝ =>
      (∑ k ∈ Finset.range 96, (firTap c k : ℝ) * Real.cos (Real.pi * ν * k)) ^ 2
        + (∑ k ∈ Finset.range 96, (firTap c k : ℝ) * Real.sin (Real.pi * ν * k)) ^ 2
    (∀ ν : ℝ, |ν| ≤ 2 / 5 → (10 : ℝ) ^ (-(1 / 1000) : ℝ) ≤ power ν ∧ power ν ≤ (10 : ℝ) ^ (1 / 1000 : ℝ)) ∧
    (∀ ν : ℝ, 3 / 5 ≤ ν → ν ≤ 1 → firPower ν ≤ (10 : ℝ) ^ (-9 : ℝ)) ∧
    (∀ ν : ℝ, 3 / 5 ≤ ν → ν ≤ d / 2 → (∃ k : ℤ, |ν - k| ≤ 2 / 5) → power ν ≤ (10 : ℝ) ^ (-9 : ℝ)) ∧
    (10 : ℝ) ^ (((noiseGain c.preset : ℝ) / 100 - 1 / 200) / 10) ≤ ∑ t ∈ Finset.range (60 * d), (chainResponse c t : ℝ) ^ 2 ∧
    ∑ t ∈ Finset.range (60 * d), (chainResponse c t : ℝ) ^ 2 ≤ (10 : ℝ) ^ (((noiseGain c.preset : ℝ) / 100 + 1 / 200) / 10)

end Sys2Proof.Safety
end

