-- ==== Sys2Proof/Certificates/Slice0/Obligations.lean ====
section
/-!
DEFINITION. The statements for the provers, family by family of the commands.
-/
open Sys2Proof Sys2Proof.Machine

/-! ### The step and its outcomes -/

/-- The queue is first in, first out: a step runs the command at its front on the state with the queue's rest. -/
def Obligations.StepRunsTheFrontCommand : Prop :=
  ∀ (c : Instr) (cs : List Instr) (s : State),
    step { s with pending := c :: cs } = exec c { s with pending := cs }

/-- With nothing queued the block idles for one cycle of 40 ns of the always-on clock (R30, R46); that an empty queue stands for
such a cycle is the model's choice (log 2). -/
def Obligations.EmptyQueueIdlesOneCycle : Prop :=
  ∀ s : State, s.pending = [] →
    step s = .next { s with aoCycles := s.aoCycles + 1 }

/-- Every well-formed command completes with a next state, in every state; a command whose operands the hardware cannot receive
stops with the named fault and nothing else. No command is refused. -/
def Obligations.WellFormedCommandsComplete : Prop :=
  ∀ (c : Instr) (s : State),
    (WellFormed.instr c = true → ∃ t, exec c s = .next t) ∧
    (∀ f, exec c s = .fault f → f = .illFormed ∧ WellFormed.instr c = false) ∧
    (∀ r, exec c s ≠ .refused r)

/-- A block held in reset, or without power, takes no command (R46): outside the always-on domain, the supplies and the test port,
a command that arrives then changes nothing. Until READY configuration requests get Retry Status and no BAR is reached (R46, R513): an
access of the host then changes nothing either. -/
def Obligations.HeldBlocksTakeNoCommand : Prop :=
  ∀ (c : Instr) (s : State),
    (live s = false → Safety.alwaysOn c = false → exec c s = .next s) ∧
    (s.boot.reached = false → Safety.hostAccess c = true → exec c s = .next s)

/-- Host memory, as the model keeps it, stays in canonical form (log 6): every step from every state keeps it. -/
def Obligations.EveryStepKeepsHostMemoryCanonical : Prop :=
  ∀ s t : State, Safety.Inv s → step s = .next t → Safety.Inv t

/-- Host memory is in canonical form at reset, and nothing is queued. -/
def Obligations.ResetMeetsTheInvariant : Prop :=
  Safety.Inv State.reset ∧ State.reset.pending = [] ∧ live State.reset = true

/-- A byte string written to host memory reads back byte by byte, every other address reads as before, and the canonical form
stays. Addresses count modulo 2^64, so the string is no longer than the address space. -/
def Obligations.HostWritesReadBack : Prop :=
  ∀ (m : List Host.Cell) (addr : Nat) (bytes : List Byte), Memory.wf m = true → bytes.length ≤ 2 ^ 64 →
    Memory.wf (Memory.writeAll m addr bytes) = true ∧
    (∀ i (h : i < bytes.length), Memory.read (Memory.writeAll m addr bytes) ((addr + i) % 2 ^ 64) = bytes[i]) ∧
    (∀ a, (∀ i, i < bytes.length → a ≠ (addr + i) % 2 ^ 64) → Memory.read (Memory.writeAll m addr bytes) a = Memory.read m a)

/-! ### Host interface (chapter 11) -/

/-- SQ_TAIL (R346): a 4-byte write moves the tail of a RUNNING queue pair; a value of 2^SQ_LOG2 or more puts it into ERROR with
ERR_CAUSE 0x02 and raises HIF_QP_ERR; another size, or another state, changes nothing.

CQ_HEAD (R346, R348): a 4-byte write to a RUNNING queue pair releases the completions up to the index written, counted from the
last index released; a value that would release entries not yet written, and a value outside the queue (log 25), are
ignored.

EVQ_HEAD (R346, R369): a 4-byte write of an index inside the ring releases `d` records; with the ring out of overflow nothing
else changes, and in overflow with DMA possible the ring leaves overflow once 512 records are free. A doorbell of another size, or
for more records than have been written, changes nothing.

CONSUMED (R346): an 8-byte write commits at once; a low half is held and the high half commits both; a count between the
present one and the tail is taken, one that would release bytes not yet written is ignored, and another access changes nothing. -/
def Obligations.DoorbellWrites : Prop :=
  (∀ (n : Fin 64) (bytes : Nat) (v : W64) (s : State), reachable s = true →
     (bytes = 4 → s.hif.qps[n].state = .running → v.toNat % 2 ^ 16 < 2 ^ s.hif.qps[n].sqLog2 →
       exec (.sqTail n bytes v) s = .next (updQp n (fun q => { q with sqTail := v.toNat % 2 ^ 16 }) s)) ∧
     (bytes = 4 → s.hif.qps[n].state = .running → 2 ^ s.hif.qps[n].sqLog2 ≤ v.toNat % 2 ^ 16 →
       ∃ t, exec (.sqTail n bytes v) s = .next t ∧ t.hif.qps[n].state = .error ∧ t.hif.qps[n].errCause = 0x02 ∧
         Safety.Quiet (updQp n (fun q => { q with state := .error, errCause := 0x02 }) s) t) ∧
     (bytes ≠ 4 ∨ s.hif.qps[n].state ≠ .running → exec (.sqTail n bytes v) s = .next s)) ∧
  (∀ (n : Fin 64) (v : W64) (s : State) (d : Nat), reachable s = true → s.hif.qps[n].state = .running →
     let q := s.hif.qps[n]
     q.unreleased ≤ 2 ^ q.cqLog2 → q.cqTail < 2 ^ q.cqLog2 →
     (d ≤ q.unreleased → d < 2 ^ q.cqLog2 → v.toNat % 2 ^ 16 = (q.cqTail + 2 ^ q.cqLog2 - q.unreleased + d) % 2 ^ q.cqLog2 →
       exec (.cqHead n 4 v) s = .next (updQp n (fun q => { q with unreleased := q.unreleased - d }) s)) ∧
     (q.unreleased < d → d < 2 ^ q.cqLog2 → v.toNat % 2 ^ 16 = (q.cqTail + 2 ^ q.cqLog2 - q.unreleased + d) % 2 ^ q.cqLog2 →
       exec (.cqHead n 4 v) s = .next s) ∧
     (2 ^ q.cqLog2 ≤ v.toNat % 2 ^ 16 → exec (.cqHead n 4 v) s = .next s)) ∧
  (∀ (bytes : Nat) (v : W64) (s : State) (d : Nat), reachable s = true → s.hif.ev.enable = true → s.hif.ev.log2 ≤ 20 →
     v.toNat % 2 ^ 20 = (s.hif.ev.released.toNat + d) % 2 ^ s.hif.ev.log2 → d < 2 ^ s.hif.ev.log2 →
     let t : State := { s with hif := { s.hif with ev := { s.hif.ev with released := s.hif.ev.released + BitVec.ofNat 32 d } } }
     (bytes = 4 → d ≤ (s.hif.ev.prod - s.hif.ev.released).toNat → s.hif.ev.overflow = false →
       exec (.evqHead bytes v) s = .next t) ∧
     (bytes = 4 → d ≤ (s.hif.ev.prod - s.hif.ev.released).toNat → s.hif.ev.overflow = true → dma s = true →
       512 ≤ evFree t.hif.ev → (∀ src : Fin 256, (s.hif.ev.src[src]).pending = 0) →
       ∃ u, exec (.evqHead bytes v) s = .next u ∧ u.hif.ev.overflow = false ∧
         u = { t with hif := { t.hif with ev := { t.hif.ev with overflow := false } } }) ∧
     (bytes ≠ 4 ∨ (s.hif.ev.prod - s.hif.ev.released).toNat < d → exec (.evqHead bytes v) s = .next s)) ∧
  (∀ (i : Fin 64) (st : Stream) (s : State), reachable s = true → s.hif.streams[i] = some st →
     (∀ v : W64, (v - st.consumed).toNat ≤ (st.tail - st.consumed).toNat →
       exec (.consumed i (.whole v)) s = .next (setStream i (some { st with consumed := v }) s)) ∧
     (∀ v : W64, (st.tail - st.consumed).toNat < (v - st.consumed).toNat → exec (.consumed i (.whole v)) s = .next s) ∧
     (∀ low : W32, exec (.consumed i (.low low)) s = .next (setStream i (some { st with held := some low }) s)) ∧
     (∀ low high : W32, st.held = some low → ((high ++ low : W64) - st.consumed).toNat ≤ (st.tail - st.consumed).toNat →
       exec (.consumed i (.high high)) s = .next (setStream i (some { st with consumed := high ++ low, held := none }) s)) ∧
     exec (.consumed i .other) s = .next s)

/-- The life of a queue pair (R345, R347). QP_ENABLE of a DISABLED pair with sizes in range takes the fields, sets SQ head, SQ tail
and CQ tail to 0 and the phase to 1, and runs it. QP_DISABLE of a RUNNING or ERROR pair with nothing fetched moves it to DRAINING.
QP_DRAINED with every completion posted makes it DISABLED and clears its tag history. ENABLE written 1 while DRAINING is ignored,
and so is a word with a size outside 4 to 16.

QP_DISABLE aborts what has not committed (R347): with one fetched descriptor left, which is uncommitted, the pair drains and that
descriptor completes with ABORTED. -/
def Obligations.QueuePairLife : Prop :=
  (∀ (n : Fin 64) (s : State), live s = true → s.hif.qps[n].state = .draining → s.hif.qps[n].fetched = [] → s.hif.qps[n].waiting = [] →
     exec (.qpDrained n) s = .next (updQp n (fun q => { q with state := .disabled, history := [] }) s)) ∧
  (∀ (n : Fin 64) (cfg : W32) (s : State), reachable s = true →
     (s.hif.qps[n].state = .disabled → qpCfgOk cfg = true →
       ∃ t, exec (.qpEnable n cfg) s = .next t ∧ t.hif.qps[n].state = .running ∧ t.hif.qps[n].enable = true ∧
         t.hif.qps[n].sqHead = 0 ∧ t.hif.qps[n].sqTail = 0 ∧ t.hif.qps[n].cqTail = 0 ∧ t.hif.qps[n].phase = true ∧
         t.hif.qps[n].sqLog2 = cfg.toNat % 32 ∧ t.hif.qps[n].cqLog2 = cfg.toNat / 256 % 32 ∧
         t.hif.qps[n].vector = cfg.extractLsb' 16 6 ∧ t.hif.qps[n].irqEn = cfg.getLsbD 24 ∧
         t = updQp n (fun _ => t.hif.qps[n]) s) ∧
     (s.hif.qps[n].state = .running ∨ s.hif.qps[n].state = .error → qpCfgOk cfg = true → s.hif.qps[n].fetched = [] →
       exec (.qpDisable n cfg) s = .next (updQp n (fun q => { q with enable := false, state := .draining }) s)) ∧
     (s.hif.qps[n].state = .draining → exec (.qpEnable n cfg) s = .next s ∧ exec (.qpDisable n cfg) s = .next s) ∧
     (qpCfgOk cfg = false → exec (.qpEnable n cfg) s = .next s ∧ exec (.qpDisable n cfg) s = .next s)) ∧
  (∀ (n : Fin 64) (cfg : W32) (f : Fetched) (s : State), reachable s = true → qpCfgOk cfg = true →
     s.hif.qps[n].state = .running → s.hif.qps[n].fetched = [f] → f.committed = false →
     ∃ t, exec (.qpDisable n cfg) s = .next t ∧ t.hif.qps[n].state = .draining ∧ t.hif.qps[n].enable = false ∧
       t.hif.qps[n].fetched = [] ∧
       t = finish n f.tag stAborted 0 [] (updQp n (fun q => { q with enable := false, state := .draining }) s))

/-- DESCRIPTOR_FETCH (R349, R350, R351, R355): the queue pair that the round-robin chooses takes the 64 bytes at its SQ head, which
moves on modulo the queue's size. A known opcode with a tag not in the history joins the fetched descriptors, uncommitted, and its
tag the history with ATTEMPT 1; a tag that is queued or committed only counts one more attempt.

An opcode that R356 does not list completes with UNSUPPORTED (R353), and a tag that is DONE has its stored completion posted
again and is not executed again (R355). -/
def Obligations.DescriptorsAreFetched : Prop :=
  (∀ (n : Fin 64) (desc : List Byte) (s : State), live s = true → desc.length = 64 → s.hif.cmdEn = true → dma s = true →
     fetchChoice s = some n →
     let tag : W32 := BitVec.ofNat 32 (fieldAt desc 4 4)
     (knownOpcode (fieldAt desc 0 2) = true → tagOf s.hif.qps[n] tag = none →
       ∃ t, exec (.descriptorFetch n desc) s = .next t ∧ t.hif.lastQp = n.val ∧ t.hif.qps[n].passed = 0 ∧
         t.hif.qps[n].sqHead = (s.hif.qps[n].sqHead + 1) % 2 ^ s.hif.qps[n].sqLog2 ∧
         t.hif.qps[n].fetched = s.hif.qps[n].fetched ++
           [{ desc := desc, tag := tag, opcode := BitVec.ofNat 16 (fieldAt desc 0 2), fence := (fieldAt desc 2 2).testBit 0,
              committed := false, xfer := none, result := [] }] ∧
         tagOf t.hif.qps[n] tag = some { tag := tag, state := .queued, attempt := 1, comp := none, written := none } ∧
         (∀ m : Fin 64, m ≠ n → t.hif.qps[m] = { s.hif.qps[m] with passed := t.hif.qps[m].passed }) ∧
         t = { s with hif := { s.hif with qps := t.hif.qps, lastQp := n.val, retries := t.hif.retries } }) ∧
     (∀ e, tagOf s.hif.qps[n] tag = some e → e.state ≠ .done →
       ∃ t, exec (.descriptorFetch n desc) s = .next t ∧ t.hif.qps[n].fetched = s.hif.qps[n].fetched ∧
         tagOf t.hif.qps[n] tag = some { e with attempt := min 255 (e.attempt + 1) } ∧
         t = { s with hif := { s.hif with qps := t.hif.qps, lastQp := n.val, retries := t.hif.retries } })) ∧
  (∀ (n : Fin 64) (desc : List Byte) (s : State), live s = true → desc.length = 64 → s.hif.cmdEn = true → dma s = true →
     fetchChoice s = some n →
     let tag : W32 := BitVec.ofNat 32 (fieldAt desc 4 4)
     (∀ e c, tagOf s.hif.qps[n] tag = some e → e.state = .done → e.comp = some c → c.tag = tag →
       ∃ t, exec (.descriptorFetch n desc) s = .next t ∧ t.hif.qps[n].fetched = s.hif.qps[n].fetched ∧
         t.hif.qps[n].unreleased = s.hif.qps[n].unreleased + 1) ∧
     (knownOpcode (fieldAt desc 0 2) = false → tagOf s.hif.qps[n] tag = none → (∀ f ∈ s.hif.qps[n].fetched, f.tag ≠ tag) →
       ∃ t e c, exec (.descriptorFetch n desc) s = .next t ∧ t.hif.qps[n].fetched = s.hif.qps[n].fetched ∧
         tagOf t.hif.qps[n] tag = some e ∧ e.state = .done ∧ e.comp = some c ∧ c.status = stUnsupported ∧
         t.hif.qps[n].unreleased = s.hif.qps[n].unreleased + 1))

/-- What posting a completion does (R339, R348, R352, R355). With DMA possible its 32 bytes stand at the CQ tail in host memory with
the phase in force, the tail moves on and the phase toggles at the wrap; without DMA the completion waits on the device. Either way
the command's descriptor leaves the queue pair, and nothing but host memory, the queue pair and pending vectors changes. -/
def Obligations.CompletionIsPosted : Prop :=
  ∀ (n : Fin 64) (f : Fetched) (status detail : Nat) (result : List Byte) (s : State),
    (s.hif.qps[n].fetched.find? fun g => g.tag == f.tag) = some f →
    let q := s.hif.qps[n]
    let t := finish n f.tag status detail result s
    let c : Comp := { tag := f.tag, status := status, detail := BitVec.ofNat 8 detail, opcode := f.opcode, result := pad 16 result }
    t.hif.qps[n].fetched = q.fetched.filter (fun g => g.tag != f.tag) ∧
    t = { s with hostMem := t.hostMem, hif := { s.hif with qps := t.hif.qps, vecs := t.hif.vecs } } ∧
    (∀ m : Fin 64, m ≠ n → t.hif.qps[m] = s.hif.qps[m]) ∧
    (dma s = false → t.hostMem = s.hostMem ∧ t.hif.vecs = s.hif.vecs ∧ t.hif.qps[n].waiting = q.waiting ++ [c] ∧
      t.hif.qps[n].cqTail = q.cqTail) ∧
    (dma s = true → t.hif.qps[n].cqTail = (if q.cqTail + 1 < 2 ^ q.cqLog2 then q.cqTail + 1 else 0) ∧
      t.hif.qps[n].phase = (if q.cqTail + 1 < 2 ^ q.cqLog2 then q.phase else !q.phase) ∧
      t.hif.qps[n].unreleased = q.unreleased + 1 ∧
      (∃ attempt, t.hostMem = Memory.writeAll s.hostMem ((q.cqBase.toNat / 4096) * 4096 + 32 * q.cqTail)
        (compBytes c attempt q.sqHead q.phase) ∧ (∀ e, tagOf q f.tag = some e → attempt = e.attempt)) ∧
      (q.irqEn = true → (t.hif.vecs[q.vector.toNat]).pending = true) ∧
      (q.irqEn = false → t.hif.vecs = s.hif.vecs))

/-- Reads of host memory that fail (R338). HOST_READ_RETRY counts one of the two retries of a queue pair. After both of them HOST_MEM sets
HOST_MEM_ERR in every case, and before that it changes nothing: for a descriptor fetch the RUNNING queue pair goes to ERROR with ERR_CAUSE 0x01; for a parameter block or source buffer the
command completes with HOST_MEM.

Accesses of another shape than R341 allows: a read returns zero, a write is ignored, and BAD_ACCESS is set. -/
def Obligations.HostErrorsAndBadAccesses : Prop :=
  (∀ (n : Fin 64) (cause : Fin 4) (s : State), live s = true →
     exec (.hostReadRetry n) s = .next { s with hif := { s.hif with
       retries := (n.val, min 2 (retriesOf n s + 1)) :: s.hif.retries.filter (fun r => r.1 != n.val) } } ∧
     (∀ tag, retriesOf n s ≠ 2 → exec (.hostMem n tag cause) s = .next s) ∧
     (retriesOf n s = 2 → s.hif.qps[n].state = .running →
       ∃ t, exec (.hostMem n none cause) s = .next t ∧ t.hif.hostMemErr = true ∧ t.hif.qps[n].state = .error ∧
         t.hif.qps[n].errCause = 0x01 ∧ (∀ m : Fin 64, m ≠ n → t.hif.qps[m] = s.hif.qps[m]) ∧ t.hostMem = s.hostMem) ∧
     (∀ f, retriesOf n s = 2 → (s.hif.qps[n].fetched.find? fun g => g.tag == f.tag) = some f → dma s = false →
       ∃ t, exec (.hostMem n (some f.tag) cause) s = .next t ∧ t.hif.hostMemErr = true ∧
         t.hif.qps[n].fetched = s.hif.qps[n].fetched.filter (fun g => g.tag != f.tag) ∧
         t.hif.qps[n].waiting = s.hif.qps[n].waiting ++
           [{ tag := f.tag, status := stHostMem, detail := 0, opcode := f.opcode, result := pad 16 [] }])) ∧
  (∀ (s : State), reachable s = true →
     exec (.badAccess false) s = .next { s with hif := { s.hif with badAccess := true }, busRead := 0 } ∧
     exec (.badAccess true) s = .next { s with hif := { s.hif with badAccess := true } } ∧
     (∀ off v, off % 4 ≠ 0 → exec (.registerWrite off false v) s = .next { s with hif := { s.hif with badAccess := true } }) ∧
     (∀ off v, off % 8 ≠ 0 → exec (.registerWrite off true v) s = .next { s with hif := { s.hif with badAccess := true } }) ∧
     (∀ off, off % 4 ≠ 0 → exec (.lowHalfRead off) s = .next { s with hif := { s.hif with badAccess := true }, busRead := 0 }))

/-- The producer of the event ring (R367, R514): ENABLE starts it at index 0 with LOG2 taken; while ENABLE is set, a word with ENABLE
set changes nothing; a word with LOG2 outside 10 to 20 is ignored as a whole; a map byte written while the ring is disabled takes
the source's vector, IRQ and ENABLE.

A waiting event is written (R368 to R370): outside overflow, with more than 256 records free and no count pending, its 32 bytes stand
at the producer's place in host memory with SEQ the low eight bits of PROD before the record and FLAGS the phase alone, PROD counts on, the source
holds nothing more, and its vector is pending if IRQ is set.

What raising an event does (R369, R514). An enabled source with nothing waiting, outside overflow, keeps the event with its map's
vector and IRQ. An event that finds one waiting, or the ring in overflow, is coalesced: PENDING counts on, the last TS96 is the
event's, and the first is kept. A disabled source's event is dropped uncounted. Nothing but the source changes. -/
def Obligations.EventRing : Prop :=
  (∀ (cfg : W32) (s : State), reachable s = true →
     (s.hif.ev.enable = false → cfg.getLsbD 16 = true → 10 ≤ cfg.toNat % 32 → cfg.toNat % 32 ≤ 20 →
       (∀ src : Fin 256, (s.hif.ev.src[src]).held = false) →
       exec (.evqEnable cfg) s = .next { s with hif := { s.hif with ev := { s.hif.ev with
         log2 := cfg.toNat % 32, enable := true, prod := 0, released := 0, overflow := false } } }) ∧
     (s.hif.ev.enable = true → cfg.getLsbD 16 = true → exec (.evqEnable cfg) s = .next s) ∧
     (s.hif.ev.enable = true → cfg.getLsbD 16 = false → 10 ≤ cfg.toNat % 32 → cfg.toNat % 32 ≤ 20 →
       ∃ t, exec (.evqEnable cfg) s = .next t ∧ t.hif.ev.enable = false ∧
         (∀ src : Fin 256, (s.hif.ev.src[src]).held = false → (t.hif.ev.src[src]).waiting = none) ∧
         (∀ src : Fin 256, (s.hif.ev.src[src]).held = true → t.hif.ev.src[src] = s.hif.ev.src[src])) ∧
     (cfg.toNat % 32 < 10 ∨ 20 < cfg.toNat % 32 → exec (.evqEnable cfg) s = .next s) ∧
     (∀ (i : Fin 64) (v : W64), s.hif.ev.enable = false →
       ∃ t, exec (.evtMapWrite (0x0300 + 4 * i.val) false v) s = .next t ∧
         (∀ k : Fin 4, (t.hif.ev.src[4 * i.val + k.val]).map = v.extractLsb' (8 * k.val) 8) ∧
         (∀ src : Fin 256, src.val / 4 ≠ i.val → t.hif.ev.src[src] = s.hif.ev.src[src]))) ∧
  (∀ (src : Fin 256) (ev : Event) (s : State), live s = true → s.hif.ev.enable = true → dma s = true →
     s.hif.ev.overflow = false → (s.hif.ev.src[src]).waiting = some ev → (s.hif.ev.src[src]).held = false →
     (s.hif.ev.src[src]).pending = 0 → (s.hif.ev.prod - s.hif.ev.released).toNat + 256 < 2 ^ s.hif.ev.log2 →
     ∃ t, exec (.eventRecordWrite src) s = .next t ∧ t.hif.ev.prod = s.hif.ev.prod + 1 ∧ t.hif.ev.overflow = false ∧
       t.hif.ev.src[src] = { s.hif.ev.src[src] with waiting := none } ∧
       (∀ o : Fin 256, o ≠ src → t.hif.ev.src[o] = s.hif.ev.src[o]) ∧
       (∃ flags : Byte, flags.toNat = (if s.hif.ev.prod.toNat.testBit s.hif.ev.log2 then 0 else 1) ∧
         t.hostMem = Memory.writeAll s.hostMem
           ((s.hif.ev.base.toNat / 4096) * 4096 + 32 * (s.hif.ev.prod.toNat % 2 ^ s.hif.ev.log2))
           ([ev.source, ev.severity, flags, BitVec.ofNat 8 s.hif.ev.prod.toNat] ++ tsBytes ev.ts ++ pad 16 ev.data)) ∧
       (ev.irq = true → (t.hif.vecs[ev.vector.toNat]).pending = true) ∧ (ev.irq = false → t.hif.vecs = s.hif.vecs) ∧
       t = { s with hostMem := t.hostMem, hif := { s.hif with ev := t.hif.ev, vecs := t.hif.vecs } }) ∧
  (∀ (src : Fin 256) (sev : Nat) (ts : TS96) (data : List Byte) (s : State), s.hif.ev.enable = true →
     let e := s.hif.ev.src[src]
     let t := raise src sev ts data s
     t = updSource src (fun _ => t.hif.ev.src[src]) s ∧
     (e.map.getLsbD 7 = false → t = s) ∧
     (e.map.getLsbD 7 = true → e.waiting = none → s.hif.ev.overflow = false →
       (t.hif.ev.src[src]).waiting = some
         { source := BitVec.ofNat 8 src.val, severity := BitVec.ofNat 8 sev, ts := ts, data := pad 16 data,
           vector := e.map.extractLsb' 0 6, irq := e.map.getLsbD 6 } ∧
       t.hif.ev.src[src] = { e with waiting := (t.hif.ev.src[src]).waiting }) ∧
     (e.map.getLsbD 7 = true → e.waiting.isSome = true ∨ s.hif.ev.overflow = true → e.pending < 2 ^ 64 - 1 →
       (t.hif.ev.src[src]).pending = e.pending + 1 ∧ (t.hif.ev.src[src]).lastTs = ts ∧ (t.hif.ev.src[src]).waiting = e.waiting ∧
       (0 < e.pending → (t.hif.ev.src[src]).firstTs = e.firstTs) ∧ (e.pending = 0 → (t.hif.ev.src[src]).firstTs = ts)))

/-- Interrupt messages (R370). A pending vector that no mask holds back, whose MIN_GAP has passed, is sent: its address and data go out and
the pending state clears. A masked one stays pending. A stream's vector becomes pending once IRQ_USEC has passed since its first
unsignalled record, counted in cycles of 40 ns. -/
def Obligations.InterruptsAreSent : Prop :=
  ∀ (v : Fin 64) (s : State), live s = true →
    ((s.hif.vecs[v]).pending = true → s.hif.msixEnable = true → s.hif.msixMask = false → (s.hif.vecs[v]).ctrl.getLsbD 0 = false →
      dma s = true →
      (∀ t, (s.hif.vecs[v]).lastSent = some t → (s.hif.vecs[v]).minGap.toNat * 100 ≤ (s.aoCycles - t) * 40) →
      exec (.msixSend v) s = .next { s with hif := { s.hif with
          vecs := upd s.hif.vecs v (fun x => { x with pending := false, lastSent := some s.aoCycles }),
          sent := ((s.hif.vecs[v]).addr, (s.hif.vecs[v]).data) :: s.hif.sent } }) ∧
    ((s.hif.vecs[v]).pending = false ∨ s.hif.msixEnable = false ∨ s.hif.msixMask = true ∨ (s.hif.vecs[v]).ctrl.getLsbD 0 = true →
      exec (.msixSend v) s = .next s) ∧
    (∀ (i : Fin 64) (st : Stream) (t : Nat), s.hif.streams[i] = some st → st.irq = true → st.firstUnsignalledAt = some t →
      st.irqUsec * 1000 ≤ (s.aoCycles - t) * 40 →
      exec (.streamIrqTimeout i) s = .next (pendVector (vecIndex st.vector)
        (setStream i (some { st with unsignalled := 0, firstUnsignalledAt := none }) s)))

/-- The link (R337, R339). With no completion waiting, L0 is only noted; Recovery stops DMA; clearing Bus Master Enable stops DMA and setting it
again lets it go on (that MSI-X Enable is set with it is the model's choice, log 19); a first training, or one at the speed and width
in force, raises nothing, and another raises HIF_LINK.

Completions that waited for DMA are written when it is possible again (R339): after L0 with Bus Master Enable set, none waits. -/
def Obligations.LinkAndWaitingCompletions : Prop :=
  (∀ (s : State), live s = true → (∀ n : Fin 64, s.hif.qps[n].waiting = []) →
     exec .linkL0 s = .next { s with hif := { s.hif with linkUp := true, linkRecovery := false } } ∧
     (∃ t, exec .linkRecovery s = .next t ∧ dma t = false ∧ t = { s with hif := { s.hif with linkRecovery := true } }) ∧
     (reachable s = true →
       (∃ t, exec .busMasterDisable s = .next t ∧ dma t = false ∧ t = { s with hif := { s.hif with busMaster := false } }) ∧
       exec .busMasterEnable s = .next { s with hif := { s.hif with busMaster := true, msixEnable := true } }) ∧
     (∀ gen width, 1 ≤ gen → gen ≤ 7 → width = 8 ∨ width = 16 →
       (s.hif.linkGen = 0 ∨ (s.hif.linkGen = gen ∧ s.hif.linkWidth = width) →
         exec (.hifLink gen width) s = .next { s with hif := { s.hif with
           linkUp := true, linkRecovery := false, linkGen := gen, linkWidth := width } }) ∧
       (∃ t, exec (.hifLink gen width) s = .next t ∧ t.hif.linkGen = gen ∧ t.hif.linkWidth = width ∧
         Safety.Quiet { s with hif := { s.hif with linkUp := true, linkRecovery := false, linkGen := gen, linkWidth := width } } t))) ∧
  (∀ (s : State), live s = true → s.hif.busMaster = true →
     ∃ t, exec .linkL0 s = .next t ∧ (∀ n : Fin 64, t.hif.qps[n].waiting = []))

/-- Hot Reset, Link Disable, DL_Down and FLR reset the host interface only (R339): every queue pair is DISABLED with an empty tag history,
every stream is closed without END, MSI-X and Bus Master Enable are off and the ring is disabled; host memory, sequencers, felts, masks,
services, timers, clocks, slices and segments stay, but for the segments that an abandoned read held. -/
def Obligations.HostResetsTouchTheInterfaceOnly : Prop :=
  ∀ (s : State), live s = true →
    ∀ c : Instr, c = .hotReset ∨ (c = .flr ∧ reachable s = true) →
    ∃ t, exec c s = .next t ∧
      (∀ n : Fin 64, t.hif.qps[n] = QPair.reset) ∧ (∀ i : Fin 64, t.hif.streams[i] = none) ∧
      t.hif.msixEnable = false ∧ t.hif.busMaster = false ∧ t.hif.cmdEn = false ∧ t.hif.ev.enable = false ∧
      (∀ l : Fin 2, (t.acc.level[l]).isOpen = false) ∧
      t = { s with hif := t.hif, acc := t.acc, mem := { s.mem with segs := t.mem.segs } } ∧
      t.mem.segs.length = s.mem.segs.length

/-! ### Registers (chapters 11 and 17) -/

/-- The half latch (R342). A low-half read of a 64-bit register returns the live low half and latches the high half under its offset; a high-half
read of the tagged register returns the latched value and empties the latch; with the latch empty, tagged otherwise, or holding a
write, it returns the live high half, sets TORN and leaves a held write in place. A 32-bit register is read as it stands.

Two-half writes of a 64-bit RW register (R342), for HIF_EVQ_BASE while its ring is disabled: the low half is held in the latch, the high half then commits
both, and a high half with no low half held commits with the current low half.

TS_NOW_READ (R163, R342): a read of SYS_TS_NOW_LO, whole or its low half, returns the present TS96's low bits, latches NOW_HI with its
high bits, and leaves the half latch alone. -/
def Obligations.HalfLatch : Prop :=
  (∀ (off : Nat) (x : W64) (s : State), reachable s = true → off % 8 = 0 → off ≠ offNowLo → reg64 s off = some x →
     exec (.lowHalfRead off) s =
       .next { s with hif := { s.hif with latch := .read off (x.extractLsb' 32 32) }, busRead := (x.extractLsb' 0 32).zeroExtend 64 } ∧
     (reg64 s (off + 4) = none →
       (∀ h, s.hif.latch = .read off h → exec (.highHalfRead (off + 4)) s =
         .next { s with hif := { s.hif with latch := .empty }, busRead := h.zeroExtend 64 }) ∧
       ((∀ h, s.hif.latch ≠ .read off h) → exec (.highHalfRead (off + 4)) s =
         .next { s with hif := { s.hif with torn := true }, busRead := (x.extractLsb' 32 32).zeroExtend 64 }))) ∧
  (∀ (low high : W64) (s : State), reachable s = true → s.hif.ev.enable = false →
     exec (.registerWrite 0x0118 false low) s = .next { s with hif := { s.hif with latch := .write 0x0118 (low.truncate 32) } } ∧
     (∀ held : W32, s.hif.latch = .write 0x0118 held →
       ∃ t, exec (.registerWrite 0x011C false high) s = .next t ∧ t.hif.latch = .empty ∧
         t.hif.ev.base = (high.truncate 32 : W32) ++ held) ∧
     ((∀ held, s.hif.latch ≠ .write 0x0118 held) →
       ∃ t, exec (.registerWrite 0x011C false high) s = .next t ∧ t.hif.latch = s.hif.latch ∧
         t.hif.ev.base = (high.truncate 32 : W32) ++ (s.hif.ev.base.truncate 32 : W32))) ∧
  (∀ (wide : Bool) (s : State), reachable s = true →
     exec (.tsNowRead wide) s = .next { s with
       tb := { s.tb with nowHi := (tsDelivered s).extractLsb' 64 32 },
       busRead := if wide then (tsDelivered s).extractLsb' 0 64 else ((tsDelivered s).extractLsb' 0 32).zeroExtend 64 } ∧
     (wide = false → exec (.lowHalfRead offNowLo) s = exec (.tsNowRead false) s))

/-- Writes of registers (R11, R69, R71, R201, R237, R341, R344, R428, R491, R512). Each named write has its effect and no other; W1C bits clear where a 1 is
written and stay elsewhere; an offset of a read-only register, or of none, is ignored. -/
def Obligations.RegisterWrites : Prop :=
  ∀ (v : W64) (s : State), reachable s = true →
    let w : W32 := v.truncate 32
    exec (.registerWrite 0x0108 false v) s = .next { s with hif := { s.hif with cmdEn := v.getLsbD 0 } } ∧
    exec (.registerWrite 0x010C false v) s = .next { s with hif := { s.hif with
      torn := s.hif.torn && !v.getLsbD 1, badAccess := s.hif.badAccess && !v.getLsbD 2,
      urgentSeen := s.hif.urgentSeen && !v.getLsbD 4, hostMemErr := s.hif.hostMemErr && !v.getLsbD 5 } } ∧
    exec (.registerWrite 0x2004 false v) s = .next { s with clk := { s.clk with fsKhz := w } } ∧
    exec (.registerWrite 0x3034 false v) s = .next { s with tb := { s.tb with syncDelay := w } } ∧
    exec (.registerWrite 0x3000 false v) s = .next { s with pwr := { s.pwr with mgCause := s.pwr.mgCause &&& ~~~(w.truncate 4) } } ∧
    exec (.registerWrite 0x5104 false v) s = .next { s with cfg := { s.cfg with bootRestore := v.getLsbD 0 } } ∧
    (∀ off, off = 0x0000 ∨ off = 0x0100 ∨ off = 0x0110 ∨ off = 0x200C ∨ off = 0x3004 ∨ off = 0x3008 ∨ off = 0x5000 →
      exec (.registerWrite off false v) s = .next s) ∧
    (s.hif.ev.enable = false → exec (.registerWrite 0x0118 true v) s = .next { s with hif := { s.hif with ev := { s.hif.ev with base := v } } }) ∧
    (s.hif.ev.enable = true → exec (.registerWrite 0x0118 true v) s = .next s)

/-- A band-table entry written as two words (R71, R512): CENTRE_KHZ, then KVCO, CAP_CODE and VALID; VERIFIED is the device's own. Offsets of the
SYN-S table write the entries of both cores. Outside the band tables the write is ignored.

Counters that a write clears (R164, R405): DEAD_CLR sets a TAC's DEAD_COUNT to 0, and its DEAD_OVF only where bit 4 is written 1; CLR in
SYS_BRIM_MARGIN sets MARGIN_MIN to its largest value.

The diagnostic window (R343, R485). Without OWNER or VENDOR rights a write changes nothing. With VENDOR a TAC table entry takes the value and CAL_EDITED is
set; with OWNER alone such a write sets BAD_ACCESS, as does one beyond the tables. -/
def Obligations.NamedWrites : Prop :=
  (∀ (i : Fin 32) (v : W64) (s : State), reachable s = true →
     (∃ t, exec (.bandTableWrite (0x2600 + 16 * i.val) false v) s = .next t ∧
       ((t.clk.bands[2])[i]).centreKhz = v.truncate 32 ∧ (∀ j : Fin 32, j ≠ i → (t.clk.bands[2])[j] = (s.clk.bands[2])[j]) ∧
       t = { s with clk := { s.clk with bands := s.clk.bands.set 2 t.clk.bands[2] } }) ∧
     (∃ t, exec (.bandTableWrite (0x2604 + 16 * i.val) false v) s = .next t ∧
       (t.clk.bands[2])[i] = { (s.clk.bands[2])[i] with
         kvco := v.extractLsb' 0 16, capCode := v.extractLsb' 16 8, valid := v.getLsbD 24, edited := true }) ∧
     (∃ t, exec (.bandTableWrite (0x2200 + 16 * i.val) false v) s = .next t ∧
       ((t.clk.bands[0])[i]).centreKhz = v.truncate 32 ∧ ((t.clk.bands[1])[i]).centreKhz = v.truncate 32) ∧
     (∀ off, off < 0x2200 ∨ 0x29FF < off → exec (.bandTableWrite off false v) s = .next s)) ∧
  (∀ (n : Fin 8) (v : W32) (s : State), reachable s = true →
     exec (.deadClr n v) s = .next (updTac n (fun t => { t with deadOvf := t.deadOvf && !v.getLsbD 4, deadCount := 0 }) s) ∧
     (v.getLsbD 0 = true → exec (.marginClr v) s = .next { s with brim := { s.brim with marginMin := 0x7FFFFFFF } }) ∧
     (v.getLsbD 0 = false → exec (.marginClr v) s = .next s)) ∧
  (∀ (n : Fin 8) (k : Nat) (v : W64) (s : State), reachable s = true → k < 4096 →
     (ownerRight s.acc = false → ∀ off, exec (.diagnosticWindowWrite off false v) s = .next s) ∧
     ((s.acc.level[1]).isOpen = true →
       ∃ t, exec (.diagnosticWindowWrite (0x100000 + 0x4000 * n.val + 4 * k) false v) s = .next t ∧ t.acc.calEdited = true ∧
         (∃ l, (t.tacs[n]).table = some l ∧ (k < l.length → l[k]? = some (v.toNat % 2 ^ 32)) ∧
           ((s.tacs[n]).table = none → l.length = 4096)) ∧
         (∀ m : Fin 8, m ≠ n → t.tacs[m] = s.tacs[m]) ∧ t.slices = s.slices) ∧
     ((s.acc.level[1]).isOpen = false → ownerRight s.acc = true →
       exec (.diagnosticWindowWrite (0x100000 + 0x4000 * n.val + 4 * k) false v) s =
         .next { s with hif := { s.hif with badAccess := true } }) ∧
     (ownerRight s.acc = true → ∀ off, 0x120000 ≤ off →
       exec (.diagnosticWindowWrite off false v) s = .next { s with hif := { s.hif with badAccess := true } }))

/-! ### Reference, synthesisers and clock faults (chapter 3) -/

/-- A run of phase samples that meets the unlock rule of its loop (R78) declares it unlocked while the loops are closed (R82, R83, R87, R88).
The active SYN-S core with a locked standby gives way to it and becomes BAD; without one its samples are COASTING; a standby core becomes
BAD; both cores together are a reference loss and no core switches; SYN-F moves every domain to the bypass clock; SYN-T lets its TACs
coast. A shorter run, or one inside the window, changes nothing.

A run that meets the lock rule declares lock (R78, R93): LOCK of its core is set. In LOCKING, where it is the last loop that has a band to
lock, the reference state becomes LOCKED and no sample is COASTING because of the reference any more. Only the clock tile, ALIGNED and events
change. -/
def Obligations.LockLostAndRegained : Prop :=
  (∀ (run : PhaseRun) (s : State), live s = true → s.clk.refState = .locked → unlockMet run s = true →
     (run.core = 0 → s.clk.core[0] = .active → s.clk.core[1] = .standby → s.clk.lock[1] = true →
       ∃ t, exec (.unlockDeclared run false) s = .next t ∧ t.clk.core[0] = .bad ∧ t.clk.core[1] = .active ∧ t.clk.lock[0] = false ∧
         t.clk.refState = .locked) ∧
     (run.core = 0 → s.clk.core[0] = .active → s.clk.core[1] = .bad →
       ∃ t, exec (.unlockDeclared run false) s = .next t ∧ t.clk.core = s.clk.core ∧ t.clk.coreCoast = true ∧ t.clk.lock[0] = false) ∧
     (run.core = 1 → s.clk.core[0] = .active → s.clk.core[1] = .standby →
       ∃ t, exec (.unlockDeclared run false) s = .next t ∧ t.clk.core[0] = .active ∧ t.clk.core[1] = .bad ∧ t.clk.lock[1] = false) ∧
     (run.core = 0 ∨ run.core = 1 →
       ∃ t, exec (.unlockDeclared run true) s = .next t ∧ t.clk.core = s.clk.core ∧ t.clk.refState = .coasting) ∧
     (run.core = 2 → ∀ both : Bool, ∃ t, exec (.unlockDeclared run both) s = .next t ∧ t.clk.lock[2] = false ∧ t.clk.fBypass = true) ∧
     (run.core = 3 → ∀ both : Bool, ∃ t, exec (.unlockDeclared run both) s = .next t ∧ t.clk.lock[3] = false ∧ t.clk.tCoast = true)) ∧
  (∀ (run : PhaseRun) (both : Bool) (s : State), live s = true →
     (unlockMet run s = false → exec (.unlockDeclared run both) s = .next s) ∧
     (lockMet run s = false → exec (.lockDeclared run) s = .next s)) ∧
  (∀ (run : PhaseRun) (s : State), live s = true → (s.clk.noBand[run.core]) = false → s.clk.reband = none →
     s.clk.refState ≠ .coasting → s.clk.refState ≠ .measuring → lockMet run s = true →
     ∃ t, exec (.lockDeclared run) s = .next t ∧ (t.clk.lock[run.core]) = true ∧
       Safety.Quiet { s with clk := t.clk, brim := { s.brim with aligned := t.brim.aligned } } t ∧
       (s.clk.refState = .locking → (∀ c : Fin 4, c ≠ run.core → (s.clk.lock[c]) = true ∨ (s.clk.noBand[c]) = true) →
         t.clk.refState = .locked ∧ t.clk.refCoast = false) ∧
       (run.core = 3 → t.clk.tCoast = false))

/-- The standby core (R82) and the return from the bypass clock (R87): drift makes a standby BAD, a BAD core that is locked and has a band
becomes STANDBY, and with SYN-F locked its domains leave the bypass clock. Only that field of the clock tile and events change; with
nothing to do, nothing changes.

REBAND (R73 to R75). A locked SYN-F moves to the bypass clock and takes the entry that R73 selects, verified. A locked SYN-S core has the
other core rebanded first, which loses its lock; once that core is locked again and stands by, the planned switch to it is made and the
core that was active is rebanded. Where the other core finds no band the reband ends there (the model's choice, log 145). SYN-T, and a core
that is not locked, stay. -/
def Obligations.StandbyBypassReband : Prop :=
  (∀ (s : State), live s = true → s.clk.core[0] = .active →
     (s.clk.core[1] = .standby → ∃ t, exec .standbyDrift s = .next t ∧
       Safety.Quiet { s with clk := { s.clk with core := s.clk.core.set 1 .bad } } t) ∧
     (s.clk.core[1] ≠ .standby → exec .standbyDrift s = .next s) ∧
     (s.clk.core[1] = .bad → s.clk.lock[1] = true → s.clk.noBand[1] = false → s.clk.reband = none → ∃ t, exec .standbyReady s = .next t ∧
       Safety.Quiet { s with clk := { s.clk with core := s.clk.core.set 1 .standby } } t) ∧
     (s.clk.core[1] ≠ .bad → exec .standbyReady s = .next s) ∧
     (s.clk.fBypass = true → s.clk.lock[2] = true → ∃ t, exec .synfReturn s = .next t ∧
       Safety.Quiet { s with clk := { s.clk with fBypass := false } } t) ∧
     (s.clk.fBypass = false → exec .synfReturn s = .next s)) ∧
  (∀ (pass : List Nat) (i : Fin 32) (s : State), live s = true →
     (s.clk.lock[2] = true → bandChoice (targetTwice 2 s) s.clk.bands[2] [] = some i → i.val ∈ pass →
       ∃ t, exec (.reband 2 pass) s = .next t ∧ t.clk.fBypass = true ∧ t.clk.lock[2] = false ∧ t.clk.selected[2] = some i.val ∧
         ((t.clk.bands[2])[i]).verified = true ∧ t.clk.noBand[2] = false) ∧
     (s.clk.lock[0] = true → s.clk.core[0] = .active →
       (bandChoice (targetTwice 1 s) s.clk.bands[1] [] = some i → i.val ∈ pass →
         ∃ t, exec (.reband 0 pass) s = .next t ∧ t.clk.core = s.clk.core ∧ t.clk.lock[0] = true ∧ t.clk.lock[1] = false ∧
           t.clk.selected[1] = some i.val ∧ t.clk.reband = some pass) ∧
       (bandChoice (targetTwice 1 s) s.clk.bands[1] [] = none →
         ∃ t, exec (.reband 0 pass) s = .next t ∧ t.clk.core[0] = .active ∧ t.clk.core[1] = .bad ∧ t.clk.noBand[1] = true ∧
           t.clk.lock[0] = true)) ∧
     (∀ run : PhaseRun, run.core = 1 → lockMet run s = true → s.clk.refState = .locked → s.clk.noBand[1] = false →
       s.clk.core[0] = .active → s.clk.core[1] = .standby → s.clk.reband = some pass →
       ∃ t, exec (.lockDeclared run) s = .next t ∧ t.clk.core[0] = .bad ∧ t.clk.core[1] = .active ∧ t.clk.lock[1] = true ∧
         t.clk.lock[0] = false ∧ t.clk.reband = none) ∧
     exec (.reband 3 pass) s = .next s ∧
     (∀ core : Fin 4, (s.clk.lock[core]) = false → exec (.reband core pass) s = .next s))

/-- Band selection (R73): the entry chosen is VALID, within 0.35 V × KVCO of the target and not excluded, and no other such entry is nearer, or
as near with a lower index. The distance is kept doubled and in mHz. -/
def Obligations.BandSelectionIsNearest : Prop :=
  ∀ (target2 : Nat) (table : Vector BandEntry 32) (excluded : List Nat),
    (∀ i, bandChoice target2 table excluded = some i →
      (table[i]).valid = true ∧ bandDistance target2 table[i] ≤ 700 * (table[i]).kvco.toNat * 10 ^ 6 ∧ i.val ∉ excluded ∧
      ∀ j : Fin 32, bandQualifies target2 table[j] = true → j.val ∉ excluded →
        bandDistance target2 table[i] < bandDistance target2 table[j] ∨
        (bandDistance target2 table[i] = bandDistance target2 table[j] ∧ i ≤ j)) ∧
    (bandChoice target2 table excluded = none → ∀ j : Fin 32, bandQualifies target2 table[j] = true → j.val ∈ excluded)

/-- The reference state machine (R89 to R93). Loss from LOCKED is COASTING, and from LOCKING is FREE; a reference that qualifies leads from START
and FREE to LOCKING, and from COASTING to MEASURING; 10 ms in START lead to FREE. What the monitor saw that is no loss by R89 changes nothing. A
comparison of R90 is counted where a loop holds its tuning word, and changes nothing else (log 98).

A measured phase difference Δ in its range (R92, R93): CLK_REF_JUMP takes it; within W the loops lock to it, beyond W they step where REFRET
is STEP and slew where it is SLEW.

The step instant (R94, R133, R162): the sample there carries the old mapping's TS96 plus Δ, a new mapping starts with it, STEP_COUNT counts on and
the reference is LOCKED. -/
def Obligations.ReferenceAndTimebaseSteps : Prop :=
  (∀ (s : State), live s = true →
     (∀ seen cause, lossCause seen s = some cause →
       (s.clk.refState = .locked → ∃ t, exec (.refLoss seen) s = .next t ∧ t.clk.refState = .coasting ∧
         t.clk.refCoast = true ∧ (∀ c : Fin 4, (t.clk.lock[c]) = false) ∧ t.clk.lossAt = some (takenSample s)) ∧
       (s.clk.refState = .locking → ∃ t, exec (.refLoss seen) s = .next t ∧ t.clk.refState = .free)) ∧
     (∀ seen, lossCause seen s = none → exec (.refLoss seen) s = .next s) ∧
     (s.clk.refState = .start → ∃ t, exec .refQualify s = .next t ∧ t.clk.refState = .locking ∧ t.hif = s.hif) ∧
     (s.clk.refState = .free → ∃ t, exec .refQualify s = .next t ∧ t.clk.refState = .locking) ∧
     (s.clk.refState = .coasting → ∃ t, exec .refQualify s = .next t ∧ t.clk.refState = .measuring ∧ t.clk.refretNow = s.clk.refret) ∧
     (s.clk.refState = .start → ∃ t, exec .refStartTimeout s = .next t ∧ t.clk.refState = .free ∧ t.clk.refCoast = true) ∧
     (s.clk.refState ≠ .start → exec .refStartTimeout s = .next s) ∧
     ((∀ c : Fin 4, (s.clk.held[c]) = false) → exec .coastSteer s = .next s) ∧
     (∀ c : Fin 4, (s.clk.held[c]) = true →
       exec .coastSteer s = .next { s with clk := { s.clk with steers := s.clk.steers + 1 } })) ∧
  (∀ (d : Int) (s : State), live s = true → s.clk.refState = .measuring → deltaInRange s d = true →
     ∃ t, exec (.refReturn d) s = .next t ∧ t.clk.refJump = BitVec.ofInt 64 d ∧ (∀ c : Fin 4, (t.clk.lock[c]) = false) ∧
       (deltaInW s d = true → t.clk.refState = .locking) ∧
       (deltaInW s d = false → s.clk.refretNow = true → t.clk.refState = .stepPending ∧ t.clk.stepDelta = some d) ∧
       (deltaInW s d = false → s.clk.refretNow = false → t.clk.refState = .slewing)) ∧
  (∀ (d : Int) (n : Nat) (s : State), live s = true → s.clk.refState = .stepPending → s.clk.stepDelta = some d → stepInstantOf s = some n →
     n ≤ takenSample s + 39 →
     ∃ t, exec .stepInstant s = .next t ∧ t.clk.refState = .locked ∧ t.tb.stepCount = s.tb.stepCount + 1 ∧
       t.tb.maps = { sn := n, ts := tsAdd (tsOf s n) d, acts := n, step := true } :: s.tb.maps ∧ t.clk.steps = (n, d) :: s.clk.steps ∧
       t.slices = s.slices ∧ t.mem = s.mem ∧ t.seqs = s.seqs ∧ t.tacs = s.tacs)

/-- APPLY (R66, R70, R80, R93, R122, R133, R162). An accepted one takes the settings into force, puts every SYN-F domain on the bypass clock, unlocks
every loop with the reference in START, enters proofing at PF1 in a new era whose sample numbers start at 0, and resets the timebase with
EPOCH_GEN one higher. With a sequencer armed, a stream open or a value out of range it is refused: APPLY_REFUSED is set and nothing else changes. A
write without the bit changes nothing. -/
def Obligations.ApplyRelocksOrIsRefused : Prop :=
  ∀ (v : W32) (s : State), reachable s = true → s.cfg.restoring = false →
    (v.getLsbD 0 = true → applyAllowed s = true → applyBudget (withClock s) = none →
      ∃ t, exec (.apply v) s = .next t ∧ t.clk.refState = .start ∧ t.clk.applyBusy = true ∧ t.clk.applyRefused = false ∧
        t.clk.fBypass = true ∧ (∀ c : Fin 4, (t.clk.lock[c]) = false) ∧ t.clk.fsKhzNow = s.clk.fsKhz.toNat ∧
        t.clk.condNow = s.clk.cond ∧ t.proof.active = true ∧ t.proof.step = 1 ∧ t.proof.era = s.proof.era + 1 ∧
        t.tb.state = .unset ∧ t.tb.maps = [{ sn := 0, ts := 0 }] ∧ t.tb.epochGen = s.tb.epochGen + 1 ∧ lcNow t = 0) ∧
    (v.getLsbD 0 = true → applyAllowed s = false →
      exec (.apply v) s = .next { s with clk := { s.clk with applyRefused := true } }) ∧
    (v.getLsbD 0 = false → exec (.apply v) s = .next s)

/-! ### Queue commands (chapters 11 and 12) -/

/-- When a queue command can commit (R350, R351, R410, R477). Where the queue pair's oldest uncommitted descriptor does not hold this opcode, or the control
complex commits none, or the queue pair does not run, nothing happens. In RESCUE an opcode other than those of R410 completes with UNSUPPORTED, and while a
restore runs an opcode of R477's list completes with BUSY. -/
def Obligations.QueueCommandGate : Prop :=
  ∀ (c : Instr) (n : Fin 64) (op : Nat) (s : State), Safety.queueOp c = some (.host n, op) → WellFormed.instr c = true →
    (live s = false ∨ committing s = false ∨ s.hif.qps[n].state ≠ .running ∨ nextCommit s.hif.qps[n] = none → exec c s = .next s) ∧
    (∀ g, nextCommit s.hif.qps[n] = some g → g.opcode.toNat ≠ op → exec c s = .next s) ∧
    (∀ g, live s = true → committing s = true → s.hif.qps[n].state = .running → nextCommit s.hif.qps[n] = some g → g.opcode.toNat = op →
      (s.boot.stage = .rescue → rescueOpcode op = false → exec c s = .next (Safety.refuses n g stUnsupported 0 s)) ∧
      (s.boot.stage ≠ .rescue → s.cfg.restoring = true → busyInRestore op = true → exec c s = .next (Safety.refuses n g stBusy 0 s)))

/-- NOP does nothing and completes (R356). TAG_STATUS reports the state of a tag, 0 where the history does not hold it, and writes a DONE tag's stored
completion to its destination (R355, R356, R361). -/
def Obligations.NopAndTagStatus : Prop :=
  (∀ (n : Fin 64) (g : Fetched) (s : State), Safety.Commits n 0x0001 g s →
    exec (.nop (.host n)) s = .next (finish n g.tag stSuccess 0 [] s)) ∧
  (∀ (n : Fin 64) (g : Fetched) (m : Fin 64) (s : State), Safety.Commits n 0x0002 g s →
    let c := Safety.callOf g []
    let tag : W32 := BitVec.ofNat 32 (argN c 0x1C 4)
    arg1 c 0x18 = m.val → destFault c 32 = none →
    (tagOf s.hif.qps[m] tag = none → exec (.tagStatus (.host n)) s = .next (finish n g.tag stSuccess 0 [0] s)) ∧
    (∀ e, tagOf s.hif.qps[m] tag = some e → e.state = .queued →
      exec (.tagStatus (.host n)) s = .next (finish n g.tag stSuccess 0 [1] s)) ∧
    (∀ e, tagOf s.hif.qps[m] tag = some e → e.state = .committed →
      exec (.tagStatus (.host n)) s = .next (finish n g.tag stSuccess 0 [2] s)) ∧
    (∀ e, tagOf s.hif.qps[m] tag = some e → e.state = .done → dma s = true →
      exec (.tagStatus (.host n)) s = .next (finish n g.tag stSuccess 0 [3] (hostWrite (paramAddr g.desc) (storedComp e) s)))) ∧
  (∀ (n : Fin 64) (g : Fetched) (s : State), Safety.Commits n 0x0002 g s → 64 ≤ arg1 (Safety.callOf g []) 0x18 →
    exec (.tagStatus (.host n)) s = .next (Safety.refuses n g stInvalid 0x18 s))

/-- The SET_ commands of trigger units, sequencers and reduction banks (R174, R183, R226, R232, R494). With a right header, fields in range and every budget kept, SET_TU and SET_RED
take effect from the first sample of the lc after the commit, which RESULT reports, and SET_AS at once, reporting D_AS; where a budget would be exceeded the
command is refused with CAPACITY and its code, and a sequencer that is armed refuses SET_AS with BUSY.

The SET_ commands of memory, chains, services and the ring, and TIMER_SET (R155, R206, R257, R313, R392). Accepted ones leave the state that the rules give them: SET_MEMORY lays the
regions out anew, nothing retained; SET_DDC takes effect from its switch sample and counts CONFIG_GEN where it changes the settings; SET_SERVICE gives an instance its settings and engines; SET_BRIM
sets L_SYS, the exports and the stop mask; TIMER_SET configures a timer, its record numbers running on. -/
def Obligations.SettingCommands : Prop :=
  ((∀ (n : Fin 64) (g : Fetched) (block : List Byte) (u : Fin 16) (cfg : TuCfg) (s : State), Safety.Commits n 0x0011 g s →
     headerFault 0x0011 29 (Safety.callOf g block) = none → item block = u.val → parseTu u.val block = .ok cfg →
     let s' := withTu u cfg (nextSample s) s
     (s'.tus[u]).next = some (cfg, nextSample s) ∧ (∀ v : Fin 16, v ≠ u → s'.tus[v] = s.tus[v]) ∧
     (admission [0x06] u.val (dasMoved s s') s s' = none → armedReaches s u.val = false → raisesArmed s s' = false →
       (s.masks.toList.any (maskNames u.val) = false ∨ refTuAllowed cfg = true) →
       exec (.setTu (.host n) block) s = .next (Safety.succeeds n g 0x0011 block (le 8 (nextSample s)) s')) ∧
     (admission [0x06] u.val (dasMoved s s') s s' = none → armedReaches s u.val = true →
       exec (.setTu (.host n) block) s = .next (Safety.refuses n g stBusy 0 s))) ∧
   (∀ (n : Fin 64) (g : Fetched) (block : List Byte) (a : Fin 4) (cfg : SeqCfg) (s : State), Safety.Commits n 0x0012 g s →
     headerFault 0x0012 16 (Safety.callOf g block) = none → item block = a.val → parseAs block = .ok cfg →
     let s' := updAs a (fun q => { q with cfg := cfg, configured := true, das := dAs s cfg }) s
     (admission [0x01, 0x02, 0x06] a.val (· = a) s s' = none →
       (armed s.seqs[a] = false → channelTaken s a cfg.channels = false → measuredAway s a cfg.channels = false →
         exec (.setAs (.host n) block) s = .next (Safety.succeeds n g 0x0012 block (le 4 (dAs s cfg)) s')) ∧
       (armed s.seqs[a] = true → exec (.setAs (.host n) block) s = .next (Safety.refuses n g stBusy 0 s))) ∧
     (∀ k it, admission [0x01, 0x02, 0x06] a.val (· = a) s s' = some (k, it) → exec (.setAs (.host n) block) s =
       .next (finish n g.tag stCapacity k []
         { s with admission := { budget := BitVec.ofNat 8 k, opcode := 0x0012, item := BitVec.ofNat 8 it } }))) ∧
   (∀ (n : Fin 64) (g : Fetched) (block : List Byte) (ch : Fin 8) (cfg : Vector RedLane 4 × BitVec 4) (s : State),
     Safety.Commits n 0x0013 g s → headerFault 0x0013 17 (Safety.callOf g block) = none → item block = ch.val →
     parseRed block = .ok cfg → cfg.2 &&& ~~~(redSettled s.reds[ch]).2 = 0 →
     ((s.reds[ch]).diag = none ∨ (s.reds[ch]).diag = some .selftest → exec (.setRed (.host n) block) s =
       .next (Safety.succeeds n g 0x0013 block (le 8 (nextSample s))
         (updRed ch (fun b => { b with next := some (cfg.1, cfg.2, some (nextSample s)) }) s))) ∧
     ((s.reds[ch]).diag = some .proofing → exec (.setRed (.host n) block) s =
       .next (Safety.succeeds n g 0x0013 block (List.replicate 8 0xFF)
         (updRed ch (fun b => { b with next := some (cfg.1, cfg.2, none) }) s))))) ∧
  ((∀ (n : Fin 64) (g : Fetched) (a : MemArgs) (s : State), Safety.Commits n 0x0010 g s → parseMemory (Safety.callOf g []) = .ok a →
     admission [0x01, 0x02, 0x05, 0x06] 0x100 (fun _ => true) s (layMemory a s) = none → s.seqs.toList.any armed = false →
     (∀ k, k < 4 → retroBusy s k = 0) → streamOpenNow s = false → readingSegments s = false →
     exec (.setMemory (.host n)) s = .next (Safety.succeeds n g 0x0010 [] [] (raiseHist 0 (layMemory a s))) ∧
     retained (layMemory a s).mem = [] ∧ histO (layMemory a s).mem = (nextSample s + 4095) / 4096 * 4096) ∧
   (∀ (n : Fin 64) (g : Fetched) (block fir : List Byte) (ch : Fin 8) (cfg : DdcCfg) (s : State), Safety.Commits n 0x0014 g s →
     WellFormed.instr (.setDdc (.host n) block fir) = true →
     let b := pad 216 block ++ fir
     headerFault 0x0014 23 (Safety.callOf g b) = none → item b = ch.val → parseDdc (calTable s.upd) (chainCfg s.ddcs[ch]) (slice b 216 384) b = .ok cfg →
     let s' := refreshDas (refreshLatency (updDdc ch (fun d => { d with next := some (cfg, nextSample s) }) s))
     admission ((if ddcStreamed s ch.val then [0x01, 0x02, 0x03, 0x04] else []) ++ [0x06]) ch.val (dasMoved s s') s s' = none →
     raisesArmed s s' = false →
     exec (.setDdc (.host n) block fir) s = .next (Safety.succeeds n g 0x0014 b
       (le 8 (nextSample s) ++ le 2 ((s.ddcs[ch]).configGen + (if cfg = (s.ddcs[ch]).cfg then 0 else 1)).toNat) s') ∧
     (∀ k : Fin 8, k ≠ ch → s'.ddcs[k] = s.ddcs[k])) ∧
   (∀ (n : Fin 64) (g : Fetched) (block : List Byte) (i : Fin 16) (s : State), Safety.Commits n 0x0017 g s →
     serviceHeader block = true → fieldAt block 2 1 = i.val → s.upd.state ≠ .activating → serviceBusy s i = false →
     let s1 : State := { s with freeCtr := s.freeCtr + 1 }
     let codes := [0x01, 0x02, 0x05, 0x06, 0x08, 0x09, 0x0A]
     let given := fun (cfg : Option SvcCfg) (engines : List Nat) =>
       updEng (fun e => { e with moving := e.moving.filter fun m => m.2.2 != i.val })
         (withService i cfg (BitVec.ofNat 32 (fieldAt block 4 4)) engines s1)
     (∀ cfg engines, fieldAt block 3 1 = 1 → parseService s i.val block = .ok cfg →
       engines = ((freeEngines s1 i).foldl (fun acc e => insertEngine s.freeCtr e acc) []).take (instEngines s1 (fsMilli s1) i.val cfg) →
       admission codes i.val (dasMoved s1 (given (some cfg) engines)) s1 (given (some cfg) engines) = none →
       raisesArmed s1 (given (some cfg) engines) = false →
       exec (.setService (.host n) block) s =
         .next (Safety.succeeds n g 0x0017 block (serviceResult s1 i.val (some cfg)) (given (some cfg) engines)) ∧
       (∀ e ∈ engines, e ∈ freeEngines s1 i) ∧ ((given (some cfg) engines).insts[i]).next = some cfg ∧
       (∀ j : Fin 16, j ≠ i → (given (some cfg) engines).insts[j] = s.insts[j])) ∧
     (fieldAt block 3 1 = 0 → admission codes i.val (dasMoved s1 (given none [])) s1 (given none []) = none →
       raisesArmed s1 (given none []) = false →
       ∃ t, exec (.setService (.host n) block) s = .next (Safety.succeeds n g 0x0017 block [] t) ∧
         (t.insts[i]).state = .off ∧ (t.insts[i]).engines = [] ∧ (t.insts[i]).cfg = none)) ∧
   (∀ (n : Fin 64) (g : Fetched) (block : List Byte) (x : Nat × Vector Nat 16 × BitVec 4) (s : State), Safety.Commits n 0x0018 g s →
     headerFault 0x0018 18 (Safety.callOf g block) = none → parseBrim block = .ok x → lsysTooShort s.brim x.1 = false →
     let s' := refreshDas (updBrim (fun b => { b with
       lsysNs := x.1, exports := x.2.1, stopMask := x.2.2, lsysShort := b.lsysShort && lsysTooShort b x.1 }) s)
     admission [0x06] (item block) (dasMoved s s') s s' = none →
     (∀ k, k < 16 → ∀ u, getN x.2.1 k = some u → u < 16 → brimUnit s u = false) → (x.1 = s.brim.lsysNs ∨ brimArmed s = false) →
     raisesArmed s s' = false → exec (.setBrim (.host n) block) s = .next (Safety.succeeds n g 0x0018 block [] s')) ∧
   (∀ (n : Fin 64) (g : Fetched) (t : Fin 8) (tm : Timer) (s : State), Safety.Commits n 0x0025 g s →
     let c := Safety.callOf g []
     arg1 c 0x18 = t.val → parseTimer c = .ok tm → forcedBusy s (arg1 c 0x1F) = false →
     let s' := updTimer t (fun x => { tm with seq := x.seq, latest := x.latest }) s
     admission (if (openStreams s).any (fun st => st.kind == .timer && st.source == t.val) then [0x01, 0x02, 0x03, 0x04] else []) 0
       (fun _ => false) s s' = none →
     exec (.timerSet (.host n)) s = .next (Safety.succeeds n g 0x0025 [] [] (startForced (arg1 c 0x1F) s'))) ∧
   (∀ (n : Fin 64) (g : Fetched) (s : State), Safety.Commits n 0x0025 g s →
     let c := Safety.callOf g []
     arg1 c 0x18 = 0xFF → forcedBusy s (arg1 c 0x1F) = false →
     exec (.timerSet (.host n)) s = .next (Safety.succeeds n g 0x0025 [] [] (startForced (arg1 c 0x1F) s))))

/-! ### Timebase, TACs and timers (chapter 5) -/

/-- EPOCH_SET, the epoch commit and TIMER_READ (R134, R136, R137, R155, R162, R520). EPOCH_SET arms the epoch in its mode and is refused with INVALID where X comes too early; stamps that waited for an
arming which it cancels go to the timers. At the commit sample, in AT_TICK mode the first sample since then whose TS96 is at or after X, the
mapping becomes V's from the epoch's sample on, EPOCH_GEN counts on and the timebase is SET. TIMER_READ copies a timer's latest record, but for the phase of its
VALID, which is open (log 32). -/
def Obligations.EpochAndTimerRead : Prop :=
  (∀ (n : Fin 64) (g : Fetched) (s : State), Safety.Commits n 0x0024 g s →
    let c := Safety.callOf g []
    let arming : Arming := { atTick := arg1 c 0x18 = 1, falling := arg1 c 0x19 = 1, v := BitVec.ofNat 72 (argN c 0x20 9), x := BitVec.ofNat 72 (argN c 0x30 9) }
    arg1 c 0x18 ≤ 1 → arg1 c 0x19 ≤ 1 →
    (s.seqs.toList.any armed = false → streamOpenNow s = false → s.clk.refState ≠ .measuring → s.clk.refState ≠ .stepPending →
      (arg1 c 0x18 = 0 ∧ (s.tacs[(4 : Fin 8)]).calValid = true ∨
        arg1 c 0x18 = 1 ∧ (40 * 2 ^ 21 * tick : Nat) ≤ tsDiff (ticksTs arming.x) (tsNow s)) →
      ∃ t, exec (.epochSet (.host n)) s = .next (Safety.succeeds n g 0x0024 [] [] t) ∧
        t.tb = { s.tb with state := if arg1 c 0x18 = 0 then .armed else .pending, wait := none, held := [],
                           unsetFrom := if s.tb.state = .set then commitSample s else s.tb.unsetFrom,
                           arming := some { arming with since := commitSample s } } ∧
        t.slices = s.slices ∧ t.seqs = s.seqs ∧ t.tus = s.tus ∧ t.masks = s.masks ∧ t.felts = s.felts ∧
        (s.tb.held = [] → s.tb.state ≠ .armed → s.tb.state ≠ .set →
          Safety.Quiet { s with tb := t.tb, brim := { s.brim with aligned := t.brim.aligned } } t)) ∧
    (arg1 c 0x18 = 1 → tsDiff (ticksTs arming.x) (tsNow s) < (40 * 2 ^ 21 * tick : Nat) →
      exec (.epochSet (.host n)) s = .next (Safety.refuses n g stInvalid 0x30 s))) ∧
  (∀ s : State, live s = true →
    (s.tb.arming = none → exec .epochCommit s = .next s) ∧
    (∀ a n, s.tb.arming = some a → a.atTick = true → n = firstFrom s a.since (ticksTs a.x) → n < commitSample s + 40 →
      ∃ t, exec .epochCommit s = .next t ∧ t.tb.state = .set ∧ t.tb.epochGen = s.tb.epochGen + 1 ∧ t.tb.arming = none ∧
        t.tb.maps = insertEpoch { sn := n, ts := ticksTs a.v, acts := n } s.tb.maps ∧
        ((∀ m ∈ s.tb.maps, m.sn ≤ n) → t.tb.maps = { sn := n, ts := ticksTs a.v, acts := n } :: s.tb.maps) ∧
        tsOf t n = ticksTs a.v ∧ t.tb.epochV = a.v ∧ t.slices = s.slices) ∧
    (∀ a, s.tb.arming = some a → a.atTick = true → commitSample s + 40 ≤ firstFrom s a.since (ticksTs a.x) →
      exec .epochCommit s = .next s) ∧
    (∀ a w, s.tb.arming = some a → a.atTick = false → s.tb.wait = some w → w.commit < commitSample s + 40 →
      ∃ t, exec .epochCommit s = .next t ∧ t.tb.state = .set ∧ t.tb.epochGen = s.tb.epochGen + 1 ∧ t.tb.arming = none ∧
        t.tb.maps = insertEpoch w.map s.tb.maps ∧ t.tb.epochV = a.v ∧ t.slices = s.slices)) ∧
  (∀ (n : Fin 64) (g : Fetched) (k : Fin 8) (s : State), Safety.Commits n 0x0026 g s →
    arg1 (Safety.callOf g []) 0x18 = k.val → destFault (Safety.callOf g []) 64 = none →
    ((s.timers[k]).latest = none → exec (.timerRead (.host n)) s = .next (finish n g.tag stSuccess 0 [] s)) ∧
    (∀ r, (s.timers[k]).latest = some r → ∃ bytes, exec (.timerRead (.host n)) s =
        .next (Safety.starts n g 0x0026 [] (.toHost (paramAddr g.desc) bytes) (le 4 r.seq.toNat ++ [1]) { s with freeCtr := s.freeCtr + 1 }) ∧
      bytes.length = 64 ∧ bytes.take 44 = (timerBytes k.val r).take 44))

/-- An edge at a TAC's input (R143, R145, R148, R155, R160, R164). One that nothing needs only moves the input's level. A needed one outside any dead time is converted: its stamp reaches
every STAMP timer of its source and polarity as a record, and the trigger units where it is an AUX input, and the TAC is busy for 4 ns.
One inside the dead time of an input edge counts in DEAD_COUNT and reaches no consumer as a stamp. The edge of SYNCIN that an arming waits
for gives the epoch's mapping (R137, R520), and the timers see its stamp after the commit. -/
def Obligations.TacEdges : Prop :=
  ∀ (n : Fin 8) (falling : Bool) (coarse : Nat) (fine : Fin 4096) (s : State), live s = true →
    let pos := edgePos n coarse fine.val false s
    let exact := stampOf n coarse fine.val false s
    (n = 7 ∨ tacNeeds n s falling = false → ∀ cal, exec (.tacEdge n falling coarse fine cal) s =
      .next (updTac n (fun t => { t with level := !falling, levels := (pos, !falling) :: t.levels }) s)) ∧
    (n ≠ 7 → tacNeeds n s falling = true → s.clk.noBand[3] = false → (s.tacs[n]).calRun = none → syncNeeds n s falling = false →
      (∀ e, (s.tacs[n]).busy = some e → e ≤ pos) → afterCommit pos s = false →
      ∃ t, exec (.tacEdge n falling coarse fine false) s = .next t ∧ (t.tacs[n]).level = !falling ∧
        (t.tacs[n]).busy = some (pos + fsToUnits s 4000000) ∧ (t.tacs[n]).deadCount = (s.tacs[n]).deadCount ∧
        (∀ m : Fin 8, m ≠ n → t.tacs[m] = s.tacs[m]) ∧
        (∀ k : Fin 8, (s.timers[k]).mode = .stamp → (s.timers[k]).startSrc = tacSource n → polTakes (s.timers[k]).startPol (some falling) = true →
          ∃ r, (t.timers[k]).latest = some r ∧ r.type = 1 ∧ r.tA = exact.ts ∧ r.flags = exact.flags ∧ r.seq = (s.timers[k]).seq ∧
            (t.timers[k]).seq = (s.timers[k]).seq + 1) ∧
        (n.val ≤ 3 → ∃ e : AuxEdge, t.auxEdges = s.auxEdges ++ [e] ∧ e.input = n.val ∧ e.falling = falling ∧ e.t = exact.ts ∧
          e.pos = pos ∧ e.dead = false) ∧
        (3 < n.val → t.auxEdges = s.auxEdges)) ∧
    (∀ e, n ≠ 7 → tacNeeds n s falling = true → s.clk.noBand[3] = false → (s.tacs[n]).calRun = none →
      (s.tacs[n]).busy = some e → pos < e →
      ∃ t, exec (.tacEdge n falling coarse fine false) s = .next t ∧ (t.tacs[n]).deadCount = min (2 ^ 64 - 1) ((s.tacs[n]).deadCount + 1) ∧
        (t.tacs[n]).busy = (s.tacs[n]).busy ∧ (∀ k : Fin 8, (t.timers[k]).latest = (s.timers[k]).latest)) ∧
    (∀ a, n = 4 → s.tb.arming = some a → syncNeeds n s falling = true → s.clk.noBand[3] = false → (s.tacs[n]).calRun = none →
      (∀ e, (s.tacs[n]).busy = some e → e ≤ pos) →
      ∃ t, exec (.tacEdge n falling coarse fine false) s = .next t ∧ (∀ k : Fin 8, t.timers[k] = s.timers[k]) ∧ t.auxEdges = s.auxEdges ∧
        t.tb = (armedEdge pos falling exact.flags a.v s).tb)

/-- Calibration runs and the timers' own clocks (R150 to R154, R157, R159). An idle run starts where none runs and the input has been idle as long
as R151 asks; a run with 2^24 hits is accepted or rejected, the third rejection in a row setting FAULT; a TAC more than 2 °C
from CAL_TEMP is STALE; a start that has waited longer than WIN is dropped, or decided against the nearest stop; a gate without an edge gives an EMPTY record. -/
def Obligations.CalibrationAndGates : Prop :=
  (∀ (n : Fin 8) (temp : BitVec 16) (s : State), live s = true →
    ((s.tacs[n]).calRun = none → idleEnough n temp s = true → s.clk.noBand[3] = false →
      ∃ t, exec (.tacIdleCalStart n temp) s = .next t ∧ (t.tacs[n]).calRun = some .idle ∧ (t.tacs[n]).temp = temp ∧
        (t.tacs[n]).quietSince = s.aoCycles ∧ t = updTac n (fun _ => t.tacs[n]) s) ∧
    (idleEnough n temp s = false → exec (.tacIdleCalStart n temp) s = .next s) ∧
    (∀ k, (s.tacs[n]).calRun = some k → exec (.tacIdleCalStart n temp) s = .next s) ∧
    (∀ hist k, WellFormed.histogram hist = true → (s.tacs[n]).calRun = some k → calSuspended n s = false →
      (tableAccepted hist = true → ∃ t, exec (.tacCalRunEnd n hist temp) s = .next t ∧ (t.tacs[n]).calValid = true ∧
        (t.tacs[n]).calRun = none ∧ (t.tacs[n]).stale = false ∧ (t.tacs[n]).fault = false ∧ (t.tacs[n]).calTemp = temp ∧
        (t.tacs[n]).table = some (midTable hist.sum 0 hist) ∧ (t.tacs[n]).oldTable = (s.tacs[n]).table ∧ (t.tacs[n]).rejects = 0 ∧
        (∀ m : Fin 8, m ≠ n → t.tacs[m] = s.tacs[m])) ∧
      (tableAccepted hist = false → ∃ t, exec (.tacCalRunEnd n hist temp) s = .next t ∧ (t.tacs[n]).calRun = none ∧
        (t.tacs[n]).table = (s.tacs[n]).table ∧ (t.tacs[n]).rejects = (s.tacs[n]).rejects + 1 ∧
        ((s.tacs[n]).rejects = 2 → (t.tacs[n]).fault = true ∧ (t.tacs[n]).stale = true) ∧
        ((s.tacs[n]).rejects ≠ 2 → (t.tacs[n]).fault = (s.tacs[n]).fault))) ∧
    (200 < (temp.toInt - (s.tacs[n]).calTemp.toInt).natAbs → ∃ t, exec (.staleCal n temp) s = .next t ∧ (t.tacs[n]).stale = true ∧
      (t.tacs[n]).temp = temp ∧ Safety.Quiet (updTac n (fun _ => t.tacs[n]) s) t) ∧
    ((temp.toInt - (s.tacs[n]).calTemp.toInt).natAbs ≤ 200 → exec (.staleCal n temp) s =
      .next (updTac n (fun t => { t with temp := temp, stale := t.savedTable || t.fault }) s))) ∧
  (∀ (k : Fin 8) (s : State), live s = true →
    let x := s.timers[k]
    (∀ a, x.mode = .interval → x.waiting = [a] → winUnits x < tsDiff (tsNow s) a.ts →
      (x.nearest = false ∨ nearestStop x a = none → exec (.intervalWinExpiry k) s =
        .next (updTimer k (fun y => { y with waiting := [], unpaired := min (2 ^ 64 - 1) (y.unpaired + 1) }) s)) ∧
      (∀ b, x.nearest = true → nearestStop x a = some b → s.clk.noBand[3] = false → ∃ t r, exec (.intervalWinExpiry k) s = .next t ∧ (t.timers[k]).waiting = [] ∧
        (t.timers[k]).latest = some r ∧ r.type = 2 ∧ r.tA = a.ts ∧ r.value = b.ts - a.ts ∧ r.seq = x.seq)) ∧
    (x.mode ≠ .interval → exec (.intervalWinExpiry k) s = .next s) ∧
    (∀ g, x.mode = .frequency → x.gate = some g → g.count = 0 → s.clk.noBand[3] = false →
      (nsToTicks s x.gateNs : Int) * tick ≤ tsDiff (tsNow s) g.opening.ts → ∃ t r, exec (.frequencyGateEmpty k) s = .next t ∧
      (t.timers[k]).gate = none ∧ (t.timers[k]).latest = some r ∧ r.type = 3 ∧ r.count = 0 ∧ r.tA = g.opening.ts ∧
      r.flags.getLsbD 10 = true ∧ r.seq = x.seq ∧ (∀ j : Fin 8, j ≠ k → t.timers[j] = s.timers[j])) ∧
    (∀ g, x.mode = .frequency → x.gate = some g →
      0 < g.count ∨ tsDiff (tsNow s) g.opening.ts < (nsToTicks s x.gateNs : Int) * tick → exec (.frequencyGateEmpty k) s = .next s))

/-! ### Acquisition (chapter 6) -/

/-- ARM, STOP and HIF_URGENT_STOP (R186, R187, R196 to R198, R296, R377). ARM arms every sequencer it names at the commit sample, with SEGMENTS 0; with
START_AT the sequencer is in FILL, or POST in CONTINUOUS, from its ARM on and its arm sample is the first sample at or after that instant. An
IMMEDIATE STOP, and URGENT_STOP on all four, take an armed sequencer to IDLE at the commit sample and close its open segment, with the cause for
the event of that lc; AFTER_SEGMENT only notes the stop while a segment is open. A sequencer that is not named stays as it is, and so does one
that is not armed, but for the cause of a stop of the same lc.

FORCE and RETRO_CAPTURE (R194, R195, R217). FORCE puts an instant at the force sample, the commit sample, into the queue of every sequencer it
names, and its completion waits until each has classified it; with none named it completes. RETRO_CAPTURE cuts a ring-resident segment under
the next sequence number with T's trigger sample, and is refused with RANGE where T lies before O. -/
def Obligations.AcquisitionCommands : Prop :=
  ((∀ (n : Fin 64) (g : Fetched) (s : State), Safety.Commits n 0x0020 g s →
     let c := Safety.callOf g []
     (∀ a ∈ maskAs (arg1 c 0x18), (s.seqs[a]).configured = true ∧ armed s.seqs[a] = false) → s.tb.state ≠ .armed → s.tb.state ≠ .pending →
     (bit (arg1 c 0x19) 0 = false → ∃ t, exec (.arm (.host n)) s = .next (Safety.succeeds n g 0x0020 [] (le 8 (commitSample s)) t) ∧
       (∀ a ∈ maskAs (arg1 c 0x18), (t.seqs[a]).armSample = some (commitSample s) ∧ (t.seqs[a]).fillStart ≥ commitSample s ∧
         ((s.seqs[a]).cfg.mode = .continuous → (t.seqs[a]).state = .post) ∧
         ((s.seqs[a]).cfg.mode ≠ .continuous → (t.seqs[a]).state = .fill ∧ (t.seqs[a]).segments = 0 ∧ (t.seqs[a]).openSeg = none ∧
           (t.seqs[a]).cutSinceArm = 0)) ∧
       (∀ a : Fin 4, a ∉ maskAs (arg1 c 0x18) → t.seqs[a] = s.seqs[a])) ∧
     (bit (arg1 c 0x19) 0 = true → (65536 * 40 * tick : Nat) ≤ tsDiff (argTs c 0x20) (tsNow s) →
       ∃ t, exec (.arm (.host n)) s = .next (Safety.succeeds n g 0x0020 [] (le 8 (firstAt s (argTs c 0x20))) t) ∧
       (∀ a ∈ maskAs (arg1 c 0x18), (t.seqs[a]).startAt = some (argTs c 0x20) ∧
         (t.seqs[a]).armSample = some (firstAt s (argTs c 0x20)) ∧ (t.seqs[a]).fillStart = firstAt s (argTs c 0x20) ∧
         (t.seqs[a]).state = (if (s.seqs[a]).cfg.mode = .continuous then .post else .fill) ∧ (t.seqs[a]).segments = 0 ∧
         (t.seqs[a]).cutSinceArm = 0 ∧ (t.seqs[a]).openSeg = none) ∧
       (∀ a : Fin 4, a ∉ maskAs (arg1 c 0x18) → t.seqs[a] = s.seqs[a]))) ∧
   (∀ (n : Fin 64) (g : Fetched) (s : State), Safety.Commits n 0x0021 g s →
     let c := Safety.callOf g []
     arg1 c 0x19 ≤ 1 → arg1 c 0x1A ≤ 1 →
     ∃ t, exec (.stop (.host n)) s = .next (Safety.succeeds n g 0x0021 [] (le 8 (commitSample s)) t) ∧
       (∀ a ∈ maskAs (arg1 c 0x18), armed s.seqs[a] = true →
         arg1 c 0x19 = 0 ∨ (s.seqs[a]).state ≠ .post ∨ (s.seqs[a]).startAt ≠ none →
         (t.seqs[a]).state = .idle ∧ (t.seqs[a]).startAt = none ∧ (t.seqs[a]).stopAt = some (commitSample s) ∧ (t.seqs[a]).openSeg = none ∧
         ((s.seqs[a]).stopEvent = none → (t.seqs[a]).stopEvent = some (2, 0))) ∧
       (∀ a ∈ maskAs (arg1 c 0x18), arg1 c 0x19 = 1 → (s.seqs[a]).state = .post → (s.seqs[a]).startAt = none →
         t.seqs[a] = { s.seqs[a] with stopPending := some 2 }) ∧
       (∀ a : Fin 4, a ∉ maskAs (arg1 c 0x18) → t.seqs[a] = s.seqs[a]) ∧
       (∀ a : Fin 4, armed s.seqs[a] = false → t.seqs[a] = { s.seqs[a] with stopEvent := (t.seqs[a]).stopEvent } ∧
         ((s.seqs[a]).stopEvent = none → t.seqs[a] = s.seqs[a])) ∧
       (arg1 c 0x1A = 0 → t = { s with hostMem := t.hostMem, seqs := t.seqs, mem := { s.mem with segs := t.mem.segs },
                                        hif := { s.hif with qps := t.hif.qps, vecs := t.hif.vecs, ev := t.hif.ev } })) ∧
   (∀ (v : W32) (s : State), reachable s = true →
     (v.getLsbD 0 = true → ∃ t, exec (.urgentStop v) s = .next t ∧ t.hif.urgentSeen = true ∧
       (∀ a : Fin 4, armed s.seqs[a] = true →
         (t.seqs[a]).state = .idle ∧ (t.seqs[a]).stopAt = some (commitSample s) ∧ (t.seqs[a]).openSeg = none ∧
         ((s.seqs[a]).stopEvent = none → (t.seqs[a]).stopEvent = some (3, 0))) ∧
       (∀ a : Fin 4, armed s.seqs[a] = false → t.seqs[a] = { s.seqs[a] with stopEvent := (t.seqs[a]).stopEvent } ∧
         ((s.seqs[a]).stopEvent = none → t.seqs[a] = s.seqs[a])) ∧
       (∀ (a : Fin 4) k sg, armed s.seqs[a] = true → (s.seqs[a]).openSeg = some k → findSeg s k = some sg → commitSample s ≤ sg.last →
         findSeg t k = some (truncate (commitSample s) sg))) ∧
     (v.getLsbD 0 = false → exec (.urgentStop v) s = .next s))) ∧
  ((∀ (n : Fin 64) (g : Fetched) (s : State), Safety.Commits n 0x0022 g s →
     let m := arg1 (Safety.callOf g []) 0x18 % 16
     (m = 0 → exec (.force (.host n)) s = .next (Safety.succeeds n g 0x0022 [] (le 8 (commitSample s)) s)) ∧
     (m ≠ 0 → ∃ t, exec (.force (.host n)) s = .next (Safety.starts n g 0x0022 [] (.wait m) (pad 16 (le 8 (commitSample s))) t) ∧
       t = { s with seqs := t.seqs } ∧ (∀ a : Fin 4, a ∉ maskAs m → t.seqs[a] = s.seqs[a]) ∧
       (∀ a ∈ maskAs m, ∃ i : Instant, t.seqs[a] = { s.seqs[a] with queue := (s.seqs[a]).queue ++ [i] } ∧ i.kind = .force ∧
         i.kt = commitSample s ∧ i.t = tsOf s (commitSample s)))) ∧
   (∀ (n : Fin 64) (g : Fetched) (a : Fin 4) (kt : Nat) (s : State), Safety.Commits n 0x0023 g s →
     let c := Safety.callOf g []
     let q := s.seqs[a]
     arg1 c 0x18 = a.val → q.configured = true → histOn s.mem = true → q.cfg.channels &&& s.mem.histChannels = q.cfg.channels →
     tsDiff (argTs c 0x20) (tsNow s) ≤ (2 ^ 40 * tick : Nat) → retroBusy s a.val < 4 →
     triggerSampleIn s.tb.maps none (argTs c 0x20) = some kt →
     (kt < histO s.mem → exec (.retroCapture (.host n)) s = .next (Safety.refuses n g stRange 0 s)) ∧
     (histO s.mem + q.cfg.p ≤ kt → slotBlocked s.mem s.mem.next = none →
       cutFits a (cutAt q (argTs c 0x20) kt q.cfg.p fRetro true) s s.mem = true →
       ∃ t sg, exec (.retroCapture (.host n)) s =
           .next (Safety.succeeds n g 0x0023 [] (le 8 s.mem.next ++ le 5 q.cfg.p ++ [0]) t) ∧
         t.mem = { s.mem with segs := sg :: s.mem.segs, next := s.mem.next + 1 } ∧
         t.seqs[a] = { q with gapCount := 0 } ∧ (∀ b : Fin 4, b ≠ a → t.seqs[b] = s.seqs[b]) ∧
         Safety.Quiet { s with seqs := t.seqs, mem := t.mem } t ∧ sg.gapCount = q.gapCount ∧
         sg.seq = s.mem.next ∧ sg.sequencer = a.val ∧ sg.t = argTs c 0x20 ∧ sg.kt = kt ∧ sg.first = kt - q.cfg.p ∧
         sg.last = kt + (q.cfg.l - q.cfg.p) - 1 ∧ sg.channels = q.cfg.channels ∧ sg.ring = true ∧ sg.retention = .retained ∧
         sg.complete = false)))

/-- A sequencer moves with time (R186, R187, R190, R193). The arm sample of START_AT restarts the fill there; P samples later READY is entered; a
holdoff that has ended leads to FILL; the end of a segment (with a stop waiting, once its instants are decided) leads to IDLE where COUNT is
reached or a stop waits, else to HOLDOFF or FILL; in
AUTO mode a READY that has lasted AUTO_TIMEOUT cuts a segment at the expiry sample. -/
def Obligations.SequencersMoveWithTime : Prop :=
  ∀ (a : Fin 4) (s : State), live s = true →
    let q := s.seqs[a]
    (∀ t0, q.startAt = some t0 → firstAt s t0 ≤ commitSample s → ∃ t, exec (.armStart a) s = .next t ∧
      (t.seqs[a]).armSample = some (firstAt s t0) ∧ (t.seqs[a]).startAt = none ∧
      (q.cfg.mode = .continuous → (t.seqs[a]).state = .post) ∧
      (q.cfg.mode ≠ .continuous → (t.seqs[a]).state = .fill ∧ (t.seqs[a]).fillStart = firstAt s t0 ∧ t = updAs a (fun _ => t.seqs[a]) s)) ∧
    (q.state = .fill → stateAt q s (commitSample s) = .ready → exec (.prefillDone a) s =
      .next (updAs a (fun q => { q with state := .ready, readyAt := readySample q }) s)) ∧
    (q.state ≠ .fill → exec (.prefillDone a) s = .next s) ∧
    (q.state = .holdoff → inHoldoff q (commitSample s) = false →
      exec (.holdoffEnd a) s = .next (updAs a (fun q => { q with state := .fill }) s)) ∧
    (q.state = .holdoff → inHoldoff q (commitSample s) = true → exec (.holdoffEnd a) s = .next s) ∧
    (∀ k g, q.openSeg = some k → findSeg s k = some g → mayLeave q g.last s = true →
      ((∃ w, q.stopPending = some w) ∨ countReached q = true → ∃ t, exec (.segmentEnd a) s = .next t ∧ (t.seqs[a]).state = .idle ∧
        (t.seqs[a]).openSeg = none ∧ (t.seqs[a]).lastSeg = some k ∧ (∀ b : Fin 4, b ≠ a → t.seqs[b] = s.seqs[b]) ∧ t.mem = s.mem) ∧
      (q.stopPending = none → countReached q = false → q.cfg.mode ≠ .continuous → ∃ t, exec (.segmentEnd a) s = .next t ∧
        t.seqs[a] = { q with
          openSeg := none, lastSeg := some k,
          state := if q.cfg.holdTime = 0 ∧ q.cfg.holdCount = 0 then .fill else .holdoff } ∧
        (∀ b : Fin 4, b ≠ a → t.seqs[b] = s.seqs[b]) ∧ t.mem = s.mem)) ∧
    (∀ e, e = readySample q + nsToTicks s q.cfg.autoNs →
      q.cfg.mode = .auto → q.state ≠ .idle → q.openSeg = none → q.readyAt ≤ e → stateAt q s e = .ready → dueAt s (tsOf s e) q.das ≤ lcNow s →
      (∀ i ∈ q.queue, e < i.kt) → slotBlocked s.mem s.mem.next = none → cutFits a (cutAt q (tsOf s e) e q.cfg.p fAuto false) s s.mem = true →
      ∃ t sg, exec (.autoTimeout a) s = .next t ∧ t.mem.segs = sg :: s.mem.segs ∧ t.mem.next = s.mem.next + 1 ∧ sg.seq = s.mem.next ∧
        sg.kt = e ∧ sg.t = tsOf s e ∧ sg.first = e - q.cfg.p ∧ sg.last = e + (q.cfg.l - q.cfg.p) - 1 ∧ sg.flags.getLsbD 0 = true ∧
        (t.seqs[a]).state = .post ∧ (t.seqs[a]).openSeg = some s.mem.next)

/-- A trigger unit's firing becomes known (R178, R181): it leaves the unit's queue, joins those known, and stands in the queue of every configured sequencer once
for each term on the unit. A sequencer then decides it (R187, R189, R190): READY cuts a segment around the trigger sample, FILL without ACCEPT
counts PREFILL_WAIT, POST logs it, HOLDOFF counts it, and nothing else is cut.

TRIGOUT (R199, R200): the edge of the oldest trigger goes out at its instant, which the present lc contains or which has passed, and the pulse
lasts WIDTH lc; an edge that would begin before the output has been off for 2 lc is merged. The pulse's end returns the output to its idle
level. -/
def Obligations.DecisionsAndTrigouts : Prop :=
  ((∀ (u : Fin 16) (f : Firing) (s : State), live s = true → ripeFiring s s.tus[u] = some f →
     ∃ t, exec (.triggerUnitFire u) s = .next t ∧
       (t.tus[u]).known = f.t :: (s.tus[u]).known ∧ t.mem = s.mem ∧
       ((∀ c : Fin 16, (s.brim.exports[c]) ≠ u.val) → (∀ v : Fin 16, v ≠ u → t.tus[v] = s.tus[v]) ∧
         t.tus[u] = { s.tus[u] with queue := (s.tus[u]).queue.erase f, known := f.t :: (s.tus[u]).known }) ∧
       (∀ a : Fin 4, ∃ l : List Instant, t.seqs[a] = { s.seqs[a] with queue := (s.seqs[a]).queue ++ l } ∧
         ((s.seqs[a]).configured = false → l = []) ∧
         ((s.seqs[a]).configured = true → l.map (·.kind) = (termsOf s.seqs[a] u.val).map .trigger) ∧
         (∀ i ∈ l, i.t = f.t ∧ i.kt = posSample f.pos ∧ i.place = f.place))) ∧
   (∀ (a : Fin 4) (i : Instant) (k : Nat) (s : State), live s = true →
     let q := s.seqs[a]
     q.queue = [i] → i.kind = .trigger k → i.late = false → i.due ≤ lcNow s → instantHolds s q i = true → afterStopInstant q i.kt = false → expiryFirst q (some i.kt) s = false →
     (stateAt q s i.kt = .ready → slotBlocked s.mem s.mem.next = none →
       cutFits a (cutAt q i.t i.kt q.cfg.p (placeFlagBits i.place) false) s s.mem = true →
       ∃ t sg, exec (.sequencerDecision a) s = .next t ∧ t.mem.segs = sg :: s.mem.segs ∧ t.mem.next = s.mem.next + 1 ∧
         sg.seq = s.mem.next ∧ sg.sequencer = a.val ∧ sg.t = i.t ∧ sg.kt = i.kt ∧ sg.first = i.kt - q.cfg.p ∧
         sg.last = i.kt + (q.cfg.l - q.cfg.p) - 1 ∧ sg.channels = q.cfg.channels ∧ sg.retention = .retained ∧ sg.complete = false ∧
         (t.seqs[a]).state = .post ∧ (t.seqs[a]).openSeg = some s.mem.next ∧ (t.seqs[a]).cutSinceArm = q.cutSinceArm + 1 ∧
         (t.seqs[a]).queue = [] ∧ (∀ b : Fin 4, b ≠ a → t.seqs[b] = s.seqs[b])) ∧
     (stateAt q s i.kt = .fill → q.cfg.accept = false → exec (.sequencerDecision a) s =
       .next (updAs a (fun q => { q with queue := [], counts := { q.counts with prefillWait := q.counts.prefillWait + 1 } }) s)) ∧
     (stateAt q s i.kt = .holdoff → ∃ t, exec (.sequencerDecision a) s = .next t ∧ t = updAs a (fun _ => t.seqs[a]) s ∧
       (t.seqs[a]).queue = [] ∧ (t.seqs[a]).counts.holdoffSuppressed = q.counts.holdoffSuppressed + 1 ∧ (t.seqs[a]).state = q.state) ∧
     (stateAt q s i.kt = .post → ∃ t, exec (.sequencerDecision a) s = .next t ∧ (t.seqs[a]).queue = [] ∧
       t.mem.segs.length = s.mem.segs.length ∧ t.mem.next = s.mem.next ∧
       t = { s with seqs := t.seqs, mem := { s.mem with segs := t.mem.segs } }) ∧
     (stateAt q s i.kt = .idle → exec (.sequencerDecision a) s = .next (updAs a (fun q => { q with queue := [] }) s)))) ∧
  (∀ (o : Fin 2) (s : State), live s = true →
    (∀ (e : OutTrigger) (rest : List OutTrigger), (s.trigouts[o]).queue = e :: rest →
     (landNow s + lcUnits ≤ (trigEdge e).1 → exec (.trigoutPulse o) s = .next s) ∧
     ((trigEdge e).1 < landNow s + lcUnits → outBusy s.trigouts[o] (trigEdge e).1 = false →
       ∃ t, exec (.trigoutPulse o) s = .next t ∧ t.trigouts[o] = { s.trigouts[o] with
           queue := rest, activeUntil := some ((trigEdge e).1 + trigWidth s o * lcUnits), level := !(trigPol s o),
           late := (s.trigouts[o]).late || (trigEdge e).2 } ∧
         Safety.Quiet (notIdle (loopTac o) (updOut o (fun _ => t.trigouts[o]) s)) t) ∧
     ((trigEdge e).1 < landNow s + lcUnits → outBusy s.trigouts[o] (trigEdge e).1 = true →
       ∃ t, exec (.trigoutPulse o) s = .next t ∧ t.trigouts[o] = { s.trigouts[o] with
           queue := rest, merged := true, mergedCount := (s.trigouts[o]).mergedCount + 1 } ∧
         Safety.Quiet (updOut o (fun _ => t.trigouts[o]) s) t)) ∧
     (∀ u, (s.trigouts[o]).activeUntil = some u →
       (u < landNow s + lcUnits → exec (.trigoutPulseEnd o) s = .next (notIdle (loopTac o)
         (updOut o (fun x => { x with activeUntil := none, quietFrom := some u, level := trigPol s o }) s))) ∧
       (landNow s + lcUnits ≤ u → exec (.trigoutPulseEnd o) s = .next s)) ∧
     ((s.trigouts[o]).activeUntil = none → exec (.trigoutPulseEnd o) s = .next s))

/-! ### Felts (chapter 9) -/

/-- SET_FELT and BAKE (R273, R285, R286, R361). SET_FELT stops the felt, clears its buffers, counters, counts, SAT and LOST, takes the settings and
counts CONFIG_GEN; its completion waits for the end of the clear. BAKE fixes the bake sample, the first sample of the lc after its commit, and counts
BAKE_SEQ; its completion waits for the copy. Both are refused with BUSY while a bake cycle runs. -/
def Obligations.SetFeltAndBakeCommit : Prop :=
  (∀ (n : Fin 64) (g : Fetched) (block : List Byte) (f : Fin 16) (cfg : FeltCfg) (s : State), Safety.Commits n 0x0015 g s →
    headerFault 0x0015 15 (Safety.callOf g block) = none → item block = f.val → parseFelt f.val block = .ok cfg →
    ((s.felts[f]).bake = .idle → ∃ t, exec (.setFelt (.host n) block) s = .next (Safety.starts n g 0x0015 block (.wait f.val) [] t) ∧
      (t.felts[f]).cfg = cfg ∧ (t.felts[f]).configGen = (s.felts[f]).configGen + 1 ∧ (t.felts[f]).clearing = true ∧
      (t.felts[f]).running = false ∧ (t.felts[f]).sat = false ∧ (t.felts[f]).lost = false ∧ (t.felts[f]).bufA = [] ∧
      (t.felts[f]).bufB = [] ∧ (t.felts[f]).count = [] ∧ (t.felts[f]).spills = [] ∧ (t.felts[f]).span.hits = 0 ∧
      (t.felts[f]).span.outside = 0 ∧ (t.felts[f]).span.rowClamp = 0 ∧ t = updFelt f (fun _ => t.felts[f]) s) ∧
    ((s.felts[f]).bake ≠ .idle → exec (.setFelt (.host n) block) s = .next (Safety.refuses n g stBusy 0 s))) ∧
  (∀ (n : Fin 64) (g : Fetched) (f : Fin 16) (s : State), Safety.Commits n 0x0030 g s → arg1 (Safety.callOf g []) 0x18 = f.val →
    destFault (Safety.callOf g []) 8388736 = none → (s.felts[f]).cfg.map ≠ 0 →
    ((s.felts[f]).bake = .idle → (s.felts[f]).clearing = false →
      exec (.bake (.host n)) s = .next (Safety.starts n g 0x0030 [] (.bake f.val (paramAddr g.desc))
        (le 4 ((s.felts[f]).bakeSeq + 1).toNat ++ le 4 0 ++ le 8 (nextSample s))
        (updFelt f (fun x => { x with bake := .waiting, bakeSample := nextSample s, bakeSeq := x.bakeSeq + 1 }) s))) ∧
    ((s.felts[f]).bake ≠ .idle ∨ (s.felts[f]).clearing = true →
      exec (.bake (.host n)) s = .next (Safety.refuses n g stBusy 0 s)))

/-- What runs in a felt besides its samples (R273, R279, R282, R283, R285, R286). The end of a clear starts accumulation at the next sample. A spill adds its
weight to its bin, which sticks at 2^32 − 1. An aging instant acts on the counters at once and its sweep on the buffer; postponed ones act
together; a spectral felt postpones one that comes while flush or merge runs. Residues
are flushed 32,768 lc after the generation switch, the bake record is written and its completion posted, and the cycle ends with
the baked buffer clear. -/
def Obligations.FeltSteps : Prop :=
  ∀ (f : Fin 16) (s : State), live s = true →
    let x := s.felts[f]
    (x.clearing = true → ∃ t, exec (.feltClearDone f) s = .next t ∧
      t.felts = upd s.felts f (fun y =>
        { y with clearing := false, running := y.cfg.map != 0, switchAt := nextSample s, span := { y.span with first := nextSample s } }) ∧
      t = { s with hostMem := t.hostMem, hif := t.hif, felts := t.felts }) ∧
    (x.clearing = false → exec (.feltClearDone f) s = .next s) ∧
    (∀ p, nextSpill x = some p → 0 < p.weight → ∃ t, exec (.feltSpill f) s = .next t ∧
      (t.felts[f]).spills = x.spills.erase p ∧
      binOf (bufOf t.felts[f] p.toB) p.bin = min (2 ^ 32 - 1) (binOf (bufOf x p.toB) p.bin + p.weight) ∧
      bufOf t.felts[f] (!p.toB) = bufOf x (!p.toB) ∧
      (t.felts[f]).sat = (x.sat || binOf (bufOf t.felts[f] p.toB) p.bin == 2 ^ 32 - 1) ∧
      Safety.Quiet (updFelt f (fun _ => t.felts[f]) s) t) ∧
    (∀ a n, x.running = true → nextAging x s = some a → a ≤ feltStage f s → postpones x = false →
      n = (if x.ageDue.isSome then x.agePending else 1) →
      ∃ t, exec (.agingInstant f) s = .next t ∧ (t.felts[f]).sweep = some (x.activeB, n) ∧
      (t.felts[f]).agesTaken = x.agesTaken + n ∧ (t.felts[f]).ageDue = none ∧
      (8 ≤ f.val → (t.felts[f]).count = ageBins (x.cfg.age == 2) false n x.count ∧ (t.felts[f]).span.ageLast = some a ∧
        (t.felts[f]).span.ageCount = x.span.ageCount + n ∧ t = updFelt f (fun _ => t.felts[f]) s)) ∧
    (∀ a, 8 ≤ f.val → x.running = true → nextAging x s = some a → a ≤ feltStage f s → postpones x = true →
      exec (.agingInstant f) s = .next (updFelt f postpone s)) ∧
    (∀ b k, x.sweep = some (b, k) → ∃ t, exec (.agingSweepDone f) s = .next t ∧ (t.felts[f]).sweep = none ∧
      bufOf t.felts[f] b = ageBins (x.cfg.age == 2) true k (bufOf x b) ∧ bufOf t.felts[f] (!b) = bufOf x (!b) ∧
      t = updFelt f (fun _ => t.felts[f]) s) ∧
    (x.bake = .flushing → x.switchLc + 32768 ≤ lcNow s → ∃ t, exec (.bakeFlushDone f) s = .next t ∧
      (t.felts[f]).bake = .copying ∧ (t.felts[f]).oldCount = [] ∧ Safety.Quiet (updFelt f (fun _ => t.felts[f]) s) t) ∧
    (x.bake = .flushing → lcNow s < x.switchLc + 32768 → exec (.bakeFlushDone f) s = .next s) ∧
    (∀ (ecc : ScrubResult) (n : Fin 64) (g : Fetched) (addr : Nat) (s' : State), s' = scrubbed ecc s →
      bakeFinal f s' = true → dma s = true → findBake f.val s = some (n, g, addr) →
      exec (.bakeCopyDone { unit := f, ecc := ecc }) s = .next (finish n g.tag stSuccess 0 g.result
        (hostWrite addr (bakeRecord f s') (updFelt f (fun y => { y with bake := .clearing }) s')))) ∧
    (x.bake = .clearing → ∃ t, exec (.bakeCycleEnd f) s = .next t ∧ (t.felts[f]).bake = .idle ∧
      bufOf t.felts[f] (!x.activeB) = [] ∧ (x.cfg.running = false → bufOf t.felts[f] x.activeB = bufOf x x.activeB) ∧
      Safety.Quiet (updFelt f (fun _ => t.felts[f]) s) t) ∧
    (x.bake ≠ .clearing → exec (.bakeCycleEnd f) s = .next s)

/-! ### Masks (chapter 9) -/

/-- SET_MASK and its raster (R288 to R290, R332, R504). A mask that its comparator takes, and whose REF_TU is allowed, is handed to the raster and its command waits;
one that the comparator does not take is refused with CAPACITY and enters SYS_ADMIT_LAST. A raster without a column met twice loads the
limits, in force from the switch sample on; otherwise the settings are forgotten. A raster on a reserve engine waits while the engines are
throttled (R315).

What a mask's violations and errors lead to (R294, R298, R299). A stop commits once its lc has come: it ends, and an armed sequencer that it
named as it started goes to IDLE at the stop sample; one that another stop took at that sample may keep v all the same (R296). An episode ends when 2^21 lc have passed without a violating value. A column whose limits are damaged is not tested
until every mask of its comparator has been reloaded.

SET_MASK (`setMask`, R288, R290), `maskRasterDone` (R290), `maskStop` (R294), `violEpisodeEnd` (R298), `maskLimitError` and `maskLimitReload` (R299)
each complete: under the hypotheses, which are on state and operands alone, exec answers the next state that has their own effect. -/
def Obligations.Masks : Prop :=
  ((∀ (n : Fin 64) (g : Fetched) (block : List Byte) (m : Fin 64) (cfg : MaskCfg) (s : State), Safety.Commits n 0x0016 g s →
     headerFault 0x0016 17 (Safety.callOf g block) = none → item block = m.val → parseMask block = .ok cfg →
     (comparatorFits s m cfg = true → maskRefOk s cfg = true → exec (.setMask (.host n) block) s =
       .next (Safety.starts n g 0x0016 block (.wait m.val) [] (updMask m (fun x => { x with raster := some cfg }) s))) ∧
     (comparatorFits s m cfg = false → ∃ t, exec (.setMask (.host n) block) s = .next t ∧ t.masks = s.masks ∧
       t = finish n g.tag stCapacity 0x07 []
         { s with admission := { budget := 0x07, opcode := 0x0016, item := BitVec.ofNat 8 m.val } })) ∧
   (∀ (m : Fin 64) (cfg : MaskCfg) (s : State), live s = true → (s.masks[m]).raster = some cfg → rasterPaused s = false →
     (badColumn cfg = none → ∃ t, exec (.maskRasterDone m) s = .next t ∧
       t.masks = upd s.masks m (fun x => { x with raster := none, next := some (cfg, nextSample s) }) ∧
       t = { s with hostMem := t.hostMem, hif := t.hif, masks := t.masks, cfg := { s.cfg with inForce := t.cfg.inForce } }) ∧
     (∀ r k, badColumn cfg = some (r, k) → ∃ t, exec (.maskRasterDone m) s = .next t ∧
       t.masks = upd s.masks m (fun x => { x with raster := none }) ∧
       t = { s with hostMem := t.hostMem, hif := t.hif, masks := t.masks, cfg := { s.cfg with inForce := t.cfg.inForce } })) ∧
   (∀ (m : Fin 64) (s : State), live s = true → (s.masks[m]).raster = none ∨ rasterPaused s = true → exec (.maskRasterDone m) s = .next s)) ∧
  (∀ (m : Fin 64) (s : State), live s = true →
     let x := s.masks[m]
     (∀ v c as, x.stop = some (v, c, as) → c ≤ lcNow s → ∃ t, exec (.maskStop m) s = .next t ∧ (t.masks[m]).stop = none ∧
       (∀ a ∈ maskAs as.toNat, armed s.seqs[a] = true →
         (t.seqs[a]).state = .idle ∧ (t.seqs[a]).stopAt = some (40 * c) ∧ (t.seqs[a]).openSeg = none) ∧
       (∀ a : Fin 4, a ∉ maskAs as.toNat ∨ (armed s.seqs[a] = false ∧ (s.seqs[a]).stopAt ≠ some (40 * c)) → t.seqs[a] = s.seqs[a])) ∧
     (∀ v c as, x.stop = some (v, c, as) → lcNow s < c → exec (.maskStop m) s = .next s) ∧
     (x.stop = none → exec (.maskStop m) s = .next s) ∧
     (∀ l, x.lastViol = some l → x.violNow = true → l + 2 ^ 21 ≤ lcNow s → ∃ t, exec (.violEpisodeEnd m) s = .next t ∧
       Safety.Quiet (updMask m (fun x => { x with violNow := false }) s) t) ∧
     (∀ l, x.lastViol = some l → lcNow s < l + 2 ^ 21 → exec (.violEpisodeEnd m) s = .next s) ∧
     (∀ column, x.cfg.enable = true → column < x.cfg.ncol →
       exec (.maskLimitError m column) s = .next (updMask m (fun x => { x with reloading := column :: x.reloading }) s) ∧
       maskTested { x with reloading := column :: x.reloading } column = false) ∧
     (x.reloading ≠ [] → ∃ t, exec (.maskLimitReload m) s = .next t ∧
       (∀ k : Fin 64, (s.masks[k]).cfg.source = x.cfg.source → t.masks[k] = { s.masks[k] with reloading := [] }) ∧
       (∀ k : Fin 64, (s.masks[k]).cfg.source ≠ x.cfg.source → t.masks[k] = s.masks[k]) ∧
       Safety.Quiet { s with masks := t.masks } t) ∧
     (x.reloading = [] → exec (.maskLimitReload m) s = .next s))

/-! ### Segments and streams (chapters 7 and 11) -/

/-- READ_SEGMENTS, READ_INDEX and the end of a transfer (R215, R216, R350, R356). READ_SEGMENTS of a complete, retained segment holds it as a reader while its image is
transferred; NOT_FOUND and BUSY answer for a segment that is not retained or not complete. READ_INDEX transfers the entries up to the first segment that is
not complete. When the transfer ends, its bytes are in host memory, the segment is let go, and the completion is posted. A segment whose last
sample is stored, whose intervals have ended and whose quality is known becomes complete with its samples and side data.

READ_SEGMENTS (`readSegments`, R215), READ_INDEX (`readIndex`, R216), `transferComplete` (R350) and `segmentComplete` (R216) each complete: under the
hypotheses, which are on state and operands alone, exec answers the next state that has their own effect. -/
def Obligations.ReadsAndTransfers : Prop :=
  (∀ (n : Fin 64) (g : Fetched) (sg : Segment) (s : State), Safety.Commits n 0x0031 g s →
    let c := Safety.callOf g []
    let seq := argN c 0x18 8
    let first := argN c 0x20 5
    let total := sg.last + 1 - sg.first
    let count := if argN c 0x25 5 = 0 then total - first else argN c 0x25 5
    let chs : Byte := if arg1 c 0x2A = 0 then sg.channels else BitVec.ofNat 8 (arg1 c 0x2A)
    let len := imageLen sg count chs (arg1 c 0x2B == 1) (bit (arg1 c 0x2C) 0)
    (findSeg s seq = none → exec (.readSegments (.host n)) s = .next (Safety.refuses n g stNotFound 0 s)) ∧
    (findSeg s seq = some sg → sg.retention ≠ .retained → exec (.readSegments (.host n)) s = .next (Safety.refuses n g stNotFound 0 s)) ∧
    (findSeg s seq = some sg → sg.retention = .retained → sg.complete = false →
      exec (.readSegments (.host n)) s = .next (Safety.refuses n g stBusy 0 s)) ∧
    (findSeg s seq = some sg → sg.retention = .retained → sg.complete = true → first + count ≤ total → first < total →
      chs &&& sg.channels = chs → arg1 c 0x2B ≤ 1 → destFault c len = none →
      exec (.readSegments (.host n)) s = .next (Safety.starts n g 0x0031 []
        (.segment seq (paramAddr g.desc) { first := first, count := count, channels := chs, wide := arg1 c 0x2B == 1,
                                           side := bit (arg1 c 0x2C) 0 } (bit (arg1 c 0x2C) 1))
        (le 8 len) (updSeg seq (fun x => { x with readers := x.readers + 1 }) s)))) ∧
  (∀ (n : Fin 64) (g : Fetched) (s : State), Safety.Commits n 0x0032 g s →
    let c := Safety.callOf g []
    1 ≤ argN c 0x20 4 → argN c 0x20 4 ≤ 65536 → destFault c (64 * argN c 0x20 4) = none →
    ∃ bytes k, exec (.readIndex (.host n)) s = .next (Safety.starts n g 0x0032 [] (.toHost (paramAddr g.desc) bytes)
        (le 4 (bytes.length / 64)) { s with freeCtr := k }) ∧
      (s.mem.next ≤ argN c 0x18 8 → bytes = []) ∧
      (∀ sg, argN c 0x20 4 = 1 → argN c 0x18 8 < s.mem.next → findSeg s (argN c 0x18 8) = some sg → sg.complete = true →
        sg.lost = false → slotReused s (argN c 0x18 8) = false → bytes = entryBytes sg)) ∧
  (∀ (n : Fin 64) (f : Fetched) (ecc : ScrubResult) (s : State), live s = true →
    (s.hif.qps[n].fetched.find? fun g => g.tag == f.tag) = some f →
    (∀ addr bytes, f.xfer = some (.toHost addr bytes) → dma s = true → exec (.transferComplete n f.tag ecc) s =
      .next (finish n f.tag stSuccess 0 f.result (hostWrite addr bytes (scrubbed ecc s)))) ∧
    (∀ seq addr image rel s', f.xfer = some (.segment seq addr image rel) → dma s = true → s' = scrubbed ecc s →
      exec (.transferComplete n f.tag ecc) s =
        .next (finish n f.tag stSuccess 0 f.result (endRead seq rel (hostWrite addr (imageBytes seq image s') s')))) ∧
    (∀ off bytes, f.xfer = some (.stage off bytes) → dma s = true →
      exec (.transferComplete n f.tag ecc) s = .next (stageDone n f.tag off bytes s)) ∧
    (dma s = false → exec (.transferComplete n f.tag ecc) s = .next s)) ∧
  (∀ (sg : Segment) (s : State), live s = true → findSeg s sg.seq = some sg →
    (sg.complete = false → lastStored sg s = true → redsEnded sg s = true → qualKnown sg s = true → ∃ t g', exec (.segmentComplete sg.seq) s = .next t ∧
      findSeg t sg.seq = some g' ∧ g'.complete = true ∧ g'.data = segSamples sg s ∧ g'.side = sideData sg s ∧ g'.t = sg.t ∧
      g'.first = sg.first ∧ g'.last = sg.last ∧ t.slices = s.slices ∧ t.seqs = s.seqs) ∧
    (sg.complete = true ∨ lastStored sg s = false ∨ redsEnded sg s = false ∨ qualKnown sg s = false →
      exec (.segmentComplete sg.seq) s = .next s))

/-- A stream from STREAM_OPEN to its END (R233, R234, R361, R363, R366). It opens with an empty buffer and its tail at 0; a unit moves to the ring with the
phase in force, and the tail word follows; STREAM_CLOSE lets it drain, or drops what waits; END is written when nothing waits, and the stream's number is free again.

STREAM_OPEN (`streamOpen`, R361), STREAM_CLOSE (`streamClose`, R361, R366), `streamTransfer` (R363) and `streamEnd` (R366) each complete: under the
hypotheses, which are on state and operands alone, exec answers the next state that has their own effect. -/
def Obligations.StreamLife : Prop :=
  (∀ (n : Fin 64) (g : Fetched) (i : Fin 64) (st : Stream) (s : State), Safety.Commits n 0x0033 g s →
    parseStream s (Safety.callOf g []) = .ok (i, st) →
    st.buf = [] ∧ st.tail = 0 ∧ st.consumed = 0 ∧ st.closing = none ∧ st.gap = none ∧
    (admission [0x01, 0x02, 0x03, 0x04, 0x05] 0 (fun _ => false) s (setStream i (some st) s) = none →
      (s.hif.streams[i] = none → s.tb.state ≠ .armed → s.tb.state ≠ .pending → 2 * largestRecord s st ≤ 2 ^ st.ringLog2 →
        ∃ t, exec (.streamOpen (.host n)) s = .next (Safety.succeeds n g 0x0033 []
            (le 8 (firstCovered s st.kind st.source st.lane)) t) ∧
          t.hif.streams[i] = some st ∧ t = { setStream i (some st) s with reds := t.reds }) ∧
      (s.hif.streams[i] ≠ none → exec (.streamOpen (.host n)) s = .next (Safety.refuses n g stBusy 0 s)))) ∧
  (∀ (n : Fin 64) (g : Fetched) (i : Fin 64) (s : State), Safety.Commits n 0x0034 g s →
    let c := Safety.callOf g []
    arg1 c 0x18 = i.val →
    (s.hif.streams[i] = none → exec (.streamClose (.host n)) s = .next (Safety.refuses n g stNotFound 0 s)) ∧
    (∀ st, s.hif.streams[i] = some st → st.closing = none →
      ∃ t st', exec (.streamClose (.host n)) s = .next (Safety.succeeds n g 0x0034 [] [] t) ∧ t.hif.streams[i] = some st' ∧
        st'.closing = some (if bit (arg1 c 0x19) 0 then 1 else 0) ∧ st'.tail = st.tail ∧
        (bit (arg1 c 0x19) 0 = true → st.gap = none → st'.buf = []) ∧
        (∀ j : Fin 64, j ≠ i → t.hif.streams[j] = s.hif.streams[j]))) ∧
  (∀ (i : Fin 64) (st : Stream) (s : State), live s = true → s.hif.streams[i] = some st →
    (∀ u rest ecc, st.buf = u :: rest → u.seg = none → dma s = true → u.body.length ≤ toRingEnd st → ringRoom st u.body.length = true →
      ∃ t st', exec (.streamTransfer i ecc) s = .next t ∧ t.hif.streams[i] = some st' ∧ st'.buf = rest ∧
        st'.tail = st.tail + BitVec.ofNat 64 u.body.length ∧ st'.consumed = st.consumed ∧
        t.hostMem = Memory.writeAll (Memory.writeAll s.hostMem (st.ringAddr + st.tail.toNat % 2 ^ st.ringLog2)
          (validBody st u.body u.validAt)) st.tailAddr (le 8 st'.tail.toNat) ∧
        (∀ j : Fin 64, j ≠ i → t.hif.streams[j] = s.hif.streams[j])) ∧
    (∀ u rest seq sg body k fin, st.buf = u :: rest → u.seg = some seq → findSeg s seq = some sg → nextPart st sg u.weight = (body, k, fin) →
      dma s = true → body.length ≤ toRingEnd st → ringRoom st body.length = true →
      ∃ t st', exec (.streamTransfer i .clean) s = .next t ∧ t.hif.streams[i] = some st' ∧
        st'.buf = (if fin then rest else { u with weight := u.weight + k } :: rest) ∧ st'.tail = st.tail + BitVec.ofNat 64 body.length) ∧
    (st.buf = [] ∨ dma s = false → exec (.streamTransfer i .clean) s = .next s) ∧
    (∀ w, st.closing = some w → st.buf = [] → st.gap = none → st.group = [] → dma s = true → 64 ≤ toRingEnd st → ringRoom st 64 = true →
      ∃ t, exec (.streamEnd i) s = .next t ∧ t.hif.streams[i] = none ∧ (∀ j : Fin 64, j ≠ i → t.hif.streams[j] = s.hif.streams[j]) ∧
        t.seqs = s.seqs ∧ t.mem = s.mem) ∧
    (st.closing = none ∨ st.buf ≠ [] ∨ dma s = false → exec (.streamEnd i) s = .next s))

/-! ### Settings, access and update (chapters 14 and 15) -/

/-- The settings store (R471 to R479). CFG_SAVE starts to write the settings in force into the copy that is not in use, which is invalid until the save commits; a failed
write is tried once more and then leaves every copy as it is. CFG_LOAD restores the copy in use, and answers NOT_FOUND where none is valid and BUSY while a sequencer
is armed. RESTORING clears when no item waits, and a command item runs only in its turn.

CFG_SAVE (`cfgSave`, R472), `cfgSaveDone` (R472), CFG_LOAD (`cfgLoad`, R479) and `bootRestoreDone` (R477) each complete: under the
hypotheses, which are on state and operands alone, exec answers the next state that has their own effect. -/
def Obligations.SettingsStore : Prop :=
  (∀ (n : Fin 64) (g : Fetched) (s : State), Safety.Commits n 0x0040 g s →
    (s.cfg.saving = none → ∃ t, exec (.cfgSave (.host n)) s = .next (Safety.starts n g 0x0040 [] (.wait 0) [] t) ∧
      t.cfg.saving = some (settingsRecord s) ∧ t = { s with cfg := t.cfg } ∧ (copyOf t.cfg (copyToWrite s.cfg)).valid = false ∧
      copyOf t.cfg (!copyToWrite s.cfg) = copyOf s.cfg (!copyToWrite s.cfg)) ∧
    (∀ r, s.cfg.saving = some r → exec (.cfgSave (.host n)) s = .next (Safety.refuses n g stBusy 0 s))) ∧
  (∀ (r : CfgCopy) (s : State), live s = true → s.cfg.saving = some r →
    (∃ t, exec (.cfgSaveDone true) s = .next t ∧ t.cfg.saving = none ∧ t.cfg.gen = r.gen ∧ t.cfg.copyB = copyToWrite s.cfg ∧
      t.cfg.defaulted = false ∧ copyOf t.cfg (copyToWrite s.cfg) = r ∧ t = { s with hostMem := t.hostMem, hif := t.hif, cfg := t.cfg }) ∧
    (s.cfg.saveFails = 0 → exec (.cfgSaveDone false) s = .next (updCfg (fun c => { c with saveFails := 1 }) s)) ∧
    (s.cfg.saveFails ≠ 0 → ∃ t, exec (.cfgSaveDone false) s = .next t ∧ t.cfg = { s.cfg with saving := none, saveFails := 0 } ∧
      t = { s with hostMem := t.hostMem, hif := t.hif, cfg := t.cfg })) ∧
  (∀ (n : Fin 64) (g : Fetched) (s : State), Safety.Commits n 0x0041 g s →
    (s.seqs.toList.any armed = true → exec (.cfgLoad (.host n)) s = .next (Safety.refuses n g stBusy 0 s)) ∧
    (s.seqs.toList.any armed = false → streamOpenNow s = false →
      (copyInUse s.cfg = none → exec (.cfgLoad (.host n)) s = .next (Safety.refuses n g stNotFound 0 s)) ∧
      (∀ b, copyInUse s.cfg = some b → ∃ t, exec (.cfgLoad (.host n)) s = .next (Safety.succeeds n g 0x0041 [] [] t) ∧
        t.cfg = { s.cfg with
          restoring := true, itemsSkipped := 0, skipped := [],
          toRestore := sortItems ((copyOf s.cfg b).items.filter fun x => decide (x.kind.toNat < 0x0100)) }))) ∧
  (∀ (c : Instr) (op : Nat) (s : State), live s = true →
    (s.cfg.toRestore = [] → exec .bootRestoreDone s = .next (updCfg (fun c => { c with restoring := false }) s)) ∧
    (s.cfg.toRestore ≠ [] → exec .bootRestoreDone s = .next s) ∧
    (Safety.queueOp c = some (.restore, op) → WellFormed.instr c = true → restoreItem op s = none → exec c s = .next s))

/-- Access levels (R485 to R489). A challenge gives a new nonce, which one response uses up; a right response or password opens its level and clears its failures, a wrong one counts and, from the eighth
on, starts a delay, during which attempts answer AUTH_DELAY. A new password takes OWNER rights. Closing, a nonce's lapse and a delay's end change that alone.

ACC_CHALLENGE (`accChallenge`), ACC_RESPOND (`accRespond`), ACC_PASSWORD (`accPassword`), ACC_SET_PASSWORD (`accSetPassword`), ACC_CLOSE (`accClose`),
`nonceExpiry` (R486) and `authDelayEnd` (R488) each complete: under the hypotheses, which are on state and operands alone, exec answers the next
state that has their own effect. -/
def Obligations.AccessLevels : Prop :=
  (∀ (n : Fin 64) (g : Fetched) (l : Fin 2) (s : State), arg1 (Safety.callOf g []) 0x18 = l.val →
    let x := s.acc.level[l]
    (Safety.Commits n 0x0060 g s → x.delay = none → ∃ nonce, nonce.length = 16 ∧ exec (.accChallenge (.host n)) s =
      .next (Safety.succeeds n g 0x0060 [] nonce (updLevel l (fun y => { y with nonce := some nonce }) { s with freeCtr := s.freeCtr + 1 }))) ∧
    (Safety.Commits n 0x0060 g s → ∀ e, x.delay = some e → exec (.accChallenge (.host n)) s =
      .next (finish n g.tag stAuthDelay 0 (le 4 (delayLeft s x)) s)) ∧
    (Safety.Commits n 0x0061 g s → x.delay = none →
      (x.nonce = none → exec (.accRespond (.host n)) s = .next (Safety.refuses n g stState 0 s)) ∧
      (∀ nonce, x.nonce = some nonce → slice g.desc 0x20 32 = expectedResponse l nonce →
        ∃ t, exec (.accRespond (.host n)) s = .next (Safety.succeeds n g 0x0061 [] [] t) ∧
          t.acc.level[l] = { x with nonce := none, fails := 0, isOpen := true } ∧
          Safety.Quiet (updLevel l (fun _ => t.acc.level[l]) s) t) ∧
      (∀ nonce, x.nonce = some nonce → slice g.desc 0x20 32 ≠ expectedResponse l nonce →
        ∃ t, exec (.accRespond (.host n)) s = .next (finish n g.tag stAuthFailed 0 [] t) ∧
          t.acc.level[l] = { x with nonce := none, fails := min 255 (x.fails + 1), delay := (t.acc.level[l]).delay } ∧
          ((t.acc.level[l]).delay = if 8 ≤ min 255 (x.fails + 1) then
            some (s.aoCycles + 25000 * (1000 * min 65536 (2 ^ (min 255 (x.fails + 1) - 8)))) else none) ∧
          Safety.Quiet (updLevel l (fun _ => t.acc.level[l]) s) t)) ∧
    (Safety.Commits n 0x0064 g s → x.isOpen = true → ∃ t, exec (.accClose (.host n)) s = .next (Safety.succeeds n g 0x0064 [] [] t) ∧
      Safety.Quiet (updLevel l (fun y => { y with isOpen := false }) s) t) ∧
    (Safety.Commits n 0x0064 g s → x.isOpen = false → exec (.accClose (.host n)) s = .next (Safety.succeeds n g 0x0064 [] [] s))) ∧
  (∀ (n : Fin 64) (g : Fetched) (block pw : List Byte) (s : State), parsePassword block = .ok pw → item block = 0 →
    (Safety.Commits n 0x0062 g s → headerFault 0x0062 9 (Safety.callOf g block) = none → (s.acc.level[(0 : Fin 2)]).delay = none →
      (s.acc.pwHash = none → exec (.accPassword (.host n) block) s = .next (Safety.refuses n g stState 0 s)) ∧
      (s.acc.pwHash = some (Config.passwordHash s.acc.salt pw) → ∃ t, exec (.accPassword (.host n) block) s =
          .next (Safety.succeeds n g 0x0062 block [] t) ∧ (t.acc.level[(0 : Fin 2)]).isOpen = true ∧ (t.acc.level[(0 : Fin 2)]).fails = 0) ∧
      (∀ h, s.acc.pwHash = some h → h ≠ Config.passwordHash s.acc.salt pw → ∃ t, exec (.accPassword (.host n) block) s =
          .next (finish n g.tag stAuthFailed 0 [] t) ∧ (t.acc.level[(0 : Fin 2)]).isOpen = (s.acc.level[(0 : Fin 2)]).isOpen ∧
          (t.acc.level[(0 : Fin 2)]).fails = min 255 ((s.acc.level[(0 : Fin 2)]).fails + 1))) ∧
    (Safety.Commits n 0x0063 g s → headerFault 0x0063 9 (Safety.callOf g block) = none →
      (ownerRight s.acc = false → exec (.accSetPassword (.host n) block) s = .next (Safety.refuses n g stDenied 0 s)) ∧
      (ownerRight s.acc = true → ∃ salt, exec (.accSetPassword (.host n) block) s = .next (Safety.succeeds n g 0x0063 block []
        { s with freeCtr := s.freeCtr + 1, acc := { s.acc with salt := salt, pwHash := some (Config.passwordHash salt pw) } })))) ∧
  (∀ (l : Fin 2) (s : State), live s = true →
    exec (.nonceExpiry l) s = .next (updLevel l (fun x => { x with nonce := none }) s) ∧
    exec (.authDelayEnd l) s = .next (updLevel l (fun x => { x with delay := none }) s))

/-- The update commands (R448, R450, R453 to R456, R462, R463, R466). UPD_DOWNLOAD with NEW starts staging anew and its chunk is staged when its transfer ends; UPD_VERIFY works on a
staged package; UPD_ACTIVATE writes a TRIAL record whose banks are those verified and begins to switch; UPD_CONFIRM confirms the trial; UPD_ABORT drops staging, or reverts a trial. Each is refused with STATE elsewhere.

UPD_DOWNLOAD (`updDownload`), UPD_VERIFY (`updVerify`), UPD_ACTIVATE (`updActivate`), UPD_CONFIRM (`updConfirm`) and UPD_ABORT (`updAbort`) each
complete: under the hypotheses, which are on state and operands alone, exec answers the next state that has their own effect. -/
def Obligations.UpdateCommands : Prop :=
  (∀ (n : Fin 64) (g : Fetched) (source : List Byte) (s : State), Safety.Commits n 0x0050 g s →
    let c := Safety.callOf g []
    paramLen g.desc ≤ 16 * 2 ^ 20 →
    (arg1 c 0x20 = 1 → newAllowed s.upd = true → argN c 0x18 8 = 0 → ∃ t, exec (.updDownload (.host n) source) s =
        .next (Safety.starts n g 0x0050 [] (.stage 0 (pad (paramLen g.desc) source)) [] t) ∧
      t.upd.state = .downloading ∧ t.upd.staging = [] ∧ t.upd.pkgLen = none ∧ t.upd.hostNew = true ∧ t.upd.chain = none ∧
      t.upd.act = s.upd.act) ∧
    (arg1 c 0x20 = 1 → newAllowed s.upd = false → exec (.updDownload (.host n) source) s = .next (Safety.refuses n g stState 0 s)) ∧
    (arg1 c 0x20 = 0 → s.upd.state = .downloading → argN c 0x18 8 ≤ s.upd.staging.length → s.upd.fwdEast = none → s.upd.fwdWest = none →
      exec (.updDownload (.host n) source) s =
        .next (Safety.starts n g 0x0050 [] (.stage (argN c 0x18 8) (pad (paramLen g.desc) source)) [] s))) ∧
  (∀ (n : Fin 64) (f : Fetched) (ecc : ScrubResult) (bytes : List Byte) (m : Nat) (s : State), live s = true → dma s = true →
    (s.hif.qps[n].fetched.find? fun g => g.tag == f.tag) = some f → f.xfer = some (.stage s.upd.staging.length bytes) →
    s.upd.state = .downloading → s.upd.manifestOk = true → s.upd.pkgLen = some m → s.upd.staging.length + bytes.length < m →
    ∃ t, exec (.transferComplete n f.tag ecc) s = .next (finish n f.tag stSuccess 0 (le 8 (s.upd.staging.length + bytes.length)) t) ∧
      t.upd.staging = s.upd.staging ++ bytes ∧ t.upd.state = .downloading ∧ t = { s with upd := t.upd }) ∧
  (∀ (n : Fin 64) (g : Fetched) (s : State), Safety.Commits n 0x0051 g s →
    (s.upd.state = .staged → ∃ t, exec (.updVerify (.host n)) s = .next (Safety.starts n g 0x0051 [] (.wait 0) [] t) ∧
      Safety.Quiet { s with upd := { s.upd with state := .verifying } } t) ∧
    (s.upd.state ≠ .staged → exec (.updVerify (.host n)) s = .next (Safety.refuses n g stState 0 s))) ∧
  (∀ (n : Fin 64) (g : Fetched) (s : State), Safety.Commits n 0x0052 g s →
    let c := Safety.callOf g []
    (s.upd.state ≠ .verified → exec (.updActivate (.host n)) s = .next (Safety.refuses n g stState 0 s)) ∧
    (activateFault (arg1 c 0x18) (arg1 c 0x19) (argTs c 0x20) s = none → ∃ t,
      exec (.updActivate (.host n)) s = .next (if bit (arg1 c 0x18) 1 then Safety.starts n g 0x0052 [] (.wait 0) [] t
        else Safety.succeeds n g 0x0052 [] [] t) ∧
      t.upd.act.state = .trial ∧ t.upd.act.trialBoots = 1 ∧ t.upd.act.gen = s.upd.act.gen + 1 ∧
      t.upd.act.banks = s.upd.act.banks ^^^ s.upd.writtenBanks ∧ t.upd.act.prevBanks = s.upd.act.banks ∧
      t.upd.state = (if bit (arg1 c 0x18) 0 then .activating else .trial) ∧
      (bit (arg1 c 0x18) 1 = true → t.hif.cmdPaused = true ∧ t.upd.upperSwitching = true))) ∧
  (∀ (n : Fin 64) (g : Fetched) (s : State), Safety.Commits n 0x0053 g s →
    (s.upd.state = .trial → ∃ t, exec (.updConfirm (.host n)) s = .next (Safety.succeeds n g 0x0053 [] [] t) ∧ t.upd.state = .idle ∧
      t.upd.act = { s.upd.act with state := .confirmed, trialBoots := 0, gen := s.upd.act.gen + 1 } ∧ t.upd.staging = [] ∧
      t.upd.deadlineTick = none ∧ t.upd.deadlineTimer = false ∧ t.upd.banks = s.upd.banks) ∧
    (s.upd.state ≠ .trial → exec (.updConfirm (.host n)) s = .next (Safety.refuses n g stState 0 s))) ∧
  (∀ (n : Fin 64) (g : Fetched) (s : State), Safety.Commits n 0x0054 g s →
    (s.upd.state = .trial ∨ s.upd.state = .activating → ∃ t, exec (.updAbort (.host n)) s = .next (Safety.succeeds n g 0x0054 [] [] t) ∧
      t.upd.act.state = .reverted ∧ t.upd.act.banks = s.upd.act.prevBanks ∧ t.upd.reverted = true ∧ t.upd.lastCause = 9 ∧ t.upd.state = .staged) ∧
    (s.upd.state = .downloading ∨ s.upd.state = .staged ∨ s.upd.state = .verified → ∃ t,
      exec (.updAbort (.host n)) s = .next (Safety.succeeds n g 0x0054 [] [] t) ∧ t.upd.state = .idle ∧ t.upd.staging = [] ∧
      t.upd.act = s.upd.act) ∧
    (s.upd.state = .idle ∨ s.upd.state = .verifying → exec (.updAbort (.host n)) s = .next (Safety.refuses n g stState 0 s)))

/-- How an update goes on (R453, R456, R457, R461, R463). Verification ends in VERIFIED where every part passes, in STAGED where one fails; the upper switch ends and commits resume; at the update sample the
lower level switches and the trial begins; an unconfirmed trial reverts at its deadline; at the revert sample the lower level has switched back.

`updVerifyDone` (R453), `upperSwitchDone` (R456), `updateSample` (R457), `trialDeadline` (R461, R463) and `revertSample` (R463) each complete: under the
hypotheses, which are on state and operands alone, exec answers the next state that has their own effect. -/
def Obligations.UpdateSteps : Prop :=
  ∀ s : State, live s = true →
    (s.upd.state = .verifying → (∀ p : Fin 6, ∃ x, partImage s.upd.staging p.val (bankOf s s.upd.act.banks p) = .ok x) →
      ∃ t, exec .updVerifyDone s = .next t ∧ t.upd.state = .verified ∧ t.upd.passed = 0x3F ∧ t.upd.act = s.upd.act ∧
        slotOf t (!s.upd.act.manifestSlot) = s.upd.staging.take 1344) ∧
    (∀ (p : Fin 6) cause, s.upd.state = .verifying → (∀ q : Fin 6, q < p → ∃ x, partImage s.upd.staging q.val (bankOf s s.upd.act.banks q) = .ok x) →
      partImage s.upd.staging p.val (bankOf s s.upd.act.banks p) = .error cause →
      ∃ t, exec .updVerifyDone s = .next t ∧ t.upd.state = .staged ∧ t.upd.lastCause = BitVec.ofNat 8 cause ∧ t.upd.writtenBanks = 0) ∧
    (s.upd.state ≠ .verifying → exec .updVerifyDone s = .next s) ∧
    (s.upd.upperSwitching = true → ∃ t, exec .upperSwitchDone s = .next t ∧ t.upd.upperSwitching = false ∧ t.hif.cmdPaused = false ∧
      t.cfg.slot = s.upd.act.settingsSlot) ∧
    (s.upd.upperSwitching = false → exec .upperSwitchDone s = .next s) ∧
    (∀ u, s.upd.updateAt = some u → s.upd.state = .activating → u < commitSample s + 40 → ∃ t, exec .updateSample s = .next t ∧
      t.upd.state = .trial ∧ t.upd.updateAt = none ∧ t.upd.act = s.upd.act) ∧
    (s.upd.updateAt = none → exec .updateSample s = .next s) ∧
    (s.upd.state = .trial → s.upd.deadlineTick = none → s.upd.deadlineTimer = true → ∃ t, exec .trialDeadline s = .next t ∧
      t.upd.state = .staged ∧ t.upd.act.state = .reverted ∧ t.upd.act.banks = s.upd.act.prevBanks ∧ t.upd.lastCause = 7 ∧
      t.upd.act.gen = s.upd.act.gen + 1) ∧
    (∀ d, s.upd.state = .trial → s.upd.deadlineTick = some d → lcAt s d < commitSample s + 40 → ∃ t, exec .trialDeadline s = .next t ∧
      t.upd.state = .staged ∧ t.upd.act.state = .reverted ∧ t.upd.lastCause = 7) ∧
    (s.upd.state ≠ .trial → exec .trialDeadline s = .next s) ∧
    (∀ u, s.upd.revertAt = some u → u < commitSample s + 40 → ∃ t, exec .revertSample s = .next t ∧ t.upd.revertAt = none ∧
      t.upd.act = s.upd.act) ∧
    (s.upd.revertAt = none → exec .revertSample s = .next s)

/-- Update along the ring (R384, R451, R452, R459). An UPDATE flit on a link that is UP, with a good CRC, starts staging where it is NEW and the state allows it, and appends its bytes where it is DATA at the present end of staging; on another link, or with
another CRC, it changes nothing. Forwarding sends at most 16 bytes more; RESUME goes out on the link toward the sender; a RESULT for this member is counted.

`updateMessage` (R451), `updateForward` (R451), `updateResumeSend` (R452) and `mgmtMessage` (R459) each complete: under the hypotheses, which are on
state and operands alone, exec answers the next state that has their own effect. -/
def Obligations.UpdateChain : Prop :=
  (∀ (rx : Rx) (s : State), live s = true → WellFormed.instr (.updateMessage rx) = true →
    let f := rx.flit
    (linkUp s rx.link = false ∨ crcOk f = false → exec (.updateMessage rx) s = .next s) ∧
    (linkUp s rx.link = true → crcOk f = true → flitBody f 0x20 1 = 3 →
      (s.upd.hostNew = false → newAllowed s.upd = true → ∃ t, exec (.updateMessage rx) s = .next t ∧ t.upd.state = .downloading ∧
        t.upd.staging = [] ∧ t.upd.chain = some (flitWest f) ∧ t.upd.act = s.upd.act) ∧
      (newAllowed s.upd = false → ∃ t, exec (.updateMessage rx) s = .next t ∧
        Safety.Quiet { s with upd := { s.upd with hostNew := false } } t)) ∧
    (∀ w m, linkUp s rx.link = true → crcOk f = true → flitBody f 0x20 1 = 1 → s.upd.chain = some w → s.upd.state = .downloading →
      s.upd.manifestOk = true → s.upd.pkgLen = some m → flitBody f 0x24 8 = s.upd.staging.length →
      s.upd.staging.length + flitBody f 0x21 1 < m → ∃ t, exec (.updateMessage rx) s = .next t ∧
        t.upd.staging = s.upd.staging ++ slice f 0x2C (flitBody f 0x21 1) ∧ t.upd.state = .downloading)) ∧
  (∀ (west : Bool) (s : State), live s = true →
    (∀ sent reach, fwdOf s.upd west = some (sent, reach) → sent < fwdLimit s.upd → ∃ t, exec (.updateForward west) s = .next t ∧
      fwdOf t.upd west = some (sent + min 16 (fwdLimit s.upd - sent), reach) ∧ fwdOf t.upd (!west) = fwdOf s.upd (!west) ∧
      t.upd.staging = s.upd.staging) ∧
    (fwdOf s.upd west = none → exec (.updateForward west) s = .next s) ∧
    (s.upd.chain = some west → s.upd.state = .downloading → linkUp s (chainLink (!west) s).1 = true →
      ∃ t f, exec .updateResumeSend s = .next t ∧ t.upd = s.upd ∧
        (t.brim.links[(chainLink (!west) s).1]).sent = f :: (s.brim.links[(chainLink (!west) s).1]).sent) ∧
    (s.upd.chain = none → exec .updateResumeSend s = .next s)) ∧
  (∀ (rx : Rx) (s : State), live s = true → WellFormed.instr (.mgmtMessage rx) = true →
    let f := rx.flit
    (∀ d, linkUp s rx.link = true → crcOk f = true → dupCheck s.brim.dup[flitOrigin f] (flitSeq f) = some d → flitBody f 0x20 1 = 2 →
      flitBody f 0x34 1 = s.brim.position →
      (flitBody f 0x22 2 = 0 → ∃ t, exec (.mgmtMessage rx) s = .next t ∧ t.upd = { s.upd with accepted := min 127 (s.upd.accepted + 1) }) ∧
      (flitBody f 0x22 2 ≠ 0 → ∃ t, exec (.mgmtMessage rx) s = .next t ∧ t.upd = { s.upd with refused := min 127 (s.upd.refused + 1) })) ∧
    (dupCheck s.brim.dup[flitOrigin f] (flitSeq f) = none → exec (.mgmtMessage rx) s = .next s))

/-! ### Supplies, boot and management (chapters 2 and 13) -/

/-- Supplies and main rails (R44, R57, R62, R414 to R417, R425, R428, R481). The rails start only under the sequencer's conditions, with every present cartridge being read; a lost supply, a rail fault, a thermal trip or MAIN_INHIBIT
turns them off, with the cause noted, while what the non-volatile store holds stays; a shed stage and a swap to the second loop are noted. -/
def Obligations.SuppliesAndRails : Prop :=
  ∀ s : State,
    exec .vstbyValid s = .next (updPwr (fun p => { p with vstbyValid := true }) s) ∧
    (∃ t, exec .vstbyLoss s = .next t ∧ t.pwr.vstbyValid = false ∧ t.pwr.railsOn = false ∧ t.pwr.mgCause = 0 ∧ t.pwr.mainInhibit = false ∧
      t.pwr.trip = none ∧ t.pwr.standbyMatings = Vector.replicate 8 0 ∧ t.hostMem = s.hostMem ∧ t.cfg.slots = s.cfg.slots ∧
      t.acc.pwHash = s.acc.pwHash) ∧
    (∃ t, exec .vmainValid s = .next t ∧ t = { s with pwr := { s.pwr with vmainValid := true, trip := t.pwr.trip } } ∧
      (s.pwr.trip = none → t.pwr.trip = none) ∧
      (∀ h, s.pwr.trip = some h → t.pwr.trip = some { h with restart := h.restart || (h.elapsed && !s.pwr.vmainValid) })) ∧
    (∃ t, exec .vmainLow s = .next t ∧ t.pwr.vmainValid = false ∧ t.pwr.railsOn = false ∧
      t.pwr.mgCause = (if s.pwr.railsOn then s.pwr.mgCause ||| 8 else s.pwr.mgCause) ∧ t.cfg.slots = s.cfg.slots) ∧
    (∀ present : BitVec 8, s.pwr.railsOn = false → railsAllowed s = true → ∃ t, exec (.mainRailsOn present) s = .next t ∧
      t.pwr.railsOn = true ∧ t.pwr.railGroup = 0 ∧ t.pwr.trip = none ∧
      (∀ n : Fin 8, present.getLsbD n.val = true → (t.carts[n]).state = .reading ∧ cart3V3 n t = !s.pwr.perst ∧
        (t.carts[n]).counted = (s.pwr.standbyMatings[n]).toNat) ∧
      (∀ n : Fin 8, present.getLsbD n.val = false → (t.carts[n]).state = .absent ∧ cart3V3 n t = false)) ∧
    (∀ present : BitVec 8, s.pwr.railsOn = true ∨ railsAllowed s = false → exec (.mainRailsOn present) s = .next s) ∧
    (s.pwr.railsOn = true → s.pwr.railGroup < 10 → exec .railGroupReady s =
      .next (updPwr (fun p => { p with railGroup := p.railGroup + 1 }) s)) ∧
    (∀ (r : Fin 22) (k : Fin 4), s.pwr.railsOn = true → k.val < railStages r.val → k.val ∉ (s.pwr.rails[r]).shedStages →
      ∃ t, exec (.phaseShed r k) s = .next t ∧
        Safety.Quiet (updPwr (fun p => { p with rails := upd p.rails r fun x => { x with shedStages := k.val :: x.shedStages } }) s) t) ∧
    (∀ r : Fin 22, s.pwr.railsOn = true → (s.pwr.rails[r]).loopB = false → ∃ t, exec (.loopB r) s = .next t ∧
      Safety.Quiet (updPwr (fun p => { p with rails := upd p.rails r fun x => { x with loopB := true } }) s) t) ∧
    (∀ (r : Fin 22) (u i : BitVec 16), s.pwr.railsOn = true → ∃ t, exec (.railFault r u i) s = .next t ∧ t.pwr.railsOn = false ∧
      t.pwr.mgCause = s.pwr.mgCause ||| 2 ∧ t.pwr.trip = some { cause := 2, elapsed := false, restart := false } ∧ t.cfg.slots = s.cfg.slots) ∧
    (∀ (r : Fin 22) (u i : BitVec 16), s.pwr.railsOn = false → exec (.railFault r u i) s = .next s) ∧
    (s.pwr.railsOn = true → ∃ t, exec .thermTrip s = .next t ∧ t.pwr.railsOn = false ∧ t.pwr.mgCause = s.pwr.mgCause ||| 1 ∧
      t.pwr.trip = some { cause := 1, elapsed := false, restart := false } ∧ t.health.trips = s.health.trips + 1) ∧
    exec .tripHoldoffEnd s = .next (updPwr (fun p => { p with trip := p.trip.map fun h => { h with elapsed := true } }) s)

/-- The management port (R425, R427, R428). Reads latch an item at its first byte and move the pointer on; writes set the pointer and then the items; MAIN_INHIBIT turns the rails off;
a 1 written to the cause bit of a trip after its holdoff lets the rails restart. Without VSTBY the port does nothing. -/
def Obligations.ManagementPort : Prop :=
  ∀ s : State,
    (s.pwr.vstbyValid = true →
      (∀ (first : Bool), mgBase s.pwr.mgPointer.toNat = s.pwr.mgPointer.toNat → exec (.mgRead first) s =
        .next { s with
          pwr := { s.pwr with mgPointer := s.pwr.mgPointer + 1, mgLatch := some (s.pwr.mgPointer.toNat, mgItem s s.pwr.mgPointer.toNat) },
          busRead := ((mgItem s s.pwr.mgPointer.toNat).getD 0 0).zeroExtend 64 }) ∧
      (∀ l, mgBase s.pwr.mgPointer.toNat ≠ s.pwr.mgPointer.toNat → s.pwr.mgLatch = some (mgBase s.pwr.mgPointer.toNat, l) →
        exec (.mgRead false) s = .next { s with
          pwr := { s.pwr with mgPointer := s.pwr.mgPointer + 1 },
          busRead := (l.getD (s.pwr.mgPointer.toNat - mgBase s.pwr.mgPointer.toNat) 0).zeroExtend 64 }) ∧
      (∀ a : Byte, exec (.mgWrite [a]) s = .next (updPwr (fun p => { p with mgPointer := a, mgLatch := none }) s)) ∧
      (∀ b : Byte, ∃ t, exec (.mgWrite [0x16, b]) s = .next t ∧ t.pwr.mainInhibit = b.getLsbD 0 ∧ t.pwr.mgPointer = 0x17 ∧
        (b.getLsbD 0 = true → t.pwr.railsOn = false) ∧ (b.getLsbD 0 = false → t.pwr.railsOn = s.pwr.railsOn)) ∧
      (∃ t, exec (.mainInhibit true) s = .next t ∧ t.pwr.mainInhibit = true ∧ t.pwr.railsOn = false ∧ t.cfg.slots = s.cfg.slots) ∧
      exec (.mainInhibit false) s = .next (updPwr (fun p => { p with mainInhibit := false }) s) ∧
      (∀ v : Byte, ∃ t, exec (.mgCauseClear v) s = .next t ∧ t.pwr.mgCause = s.pwr.mgCause &&& ~~~(v.truncate 4 : BitVec 4) ∧
        t = updPwr (fun p => { p with mgCause := t.pwr.mgCause, trip := t.pwr.trip }) s ∧
        (∀ h, s.pwr.trip = some h → h.elapsed = true → (v.truncate 4 : BitVec 4) &&& h.cause ≠ 0 →
          t.pwr.trip = some { h with restart := true }))) ∧
    (s.pwr.vstbyValid = false → (∀ first, exec (.mgRead first) s = .next s) ∧ (∀ l, exec (.mgWrite l) s = .next s) ∧
      (∀ on, exec (.mainInhibit on) s = .next s) ∧ (∀ v, exec (.mgCauseClear v) s = .next s))

/-- PERST# and boot (R46, R409, R410, R460, R476, R483, R488). Asserting PERST# resets everything outside the always-on domain and the test port and keeps what the store and host memory hold; releasing it runs the starter, and
proofing begins. The loader leads to the main stage, or to RESCUE where no set passes; the main firmware takes the settings slot; READY restarts the delays owed. -/
def Obligations.PerstAndBoot : Prop :=
  ∀ s : State,
    (s.pwr.perst = false → ∃ t, exec .perstAssert s = .next t ∧ t.pwr.perst = true ∧ t.pwr.perstAt = s.aoCycles ∧ live t = false ∧
      t.boot = Boot.reset ∧ t.clk = Clk.reset ∧ t.mem = Mem.reset ∧ t.tb = Timebase.reset ∧ t.tap = s.tap ∧ t.hostMem = s.hostMem ∧
      t.cfg.slots = s.cfg.slots ∧ t.acc.pwHash = s.acc.pwHash ∧ (∀ l : Fin 2, (t.acc.level[l]).isOpen = false) ∧
      (∀ n : Fin 64, t.hif.qps[n] = QPair.reset) ∧ (∀ n : Fin 8, (t.carts[n]).state = (s.carts[n]).state ∧ cart3V3 n t = false) ∧
      t.pending = s.pending) ∧
    (s.pwr.perst = true → exec .perstAssert s = .next s) ∧
    (∀ c : BootChecks, s.pwr.perst = true → s.pwr.railsOn = true → ∃ t, exec (.perstRelease c) s = .next t ∧ t.pwr.perst = false ∧
      t.proof.active = true ∧ t.proof.step = 1 ∧ t.boot.idnMismatch = (s.boot.idnMismatch || c.idn.isSome) ∧
      (c.setOk = true → t.boot.stage = .loader) ∧
      (c.setOk = false → s.upd.act.state = .confirmed → t.boot.stage = (if c.fallbackOk then .loader else .rescue)) ∧
      (s.upd.act.state = .trial → s.upd.act.trialBoots < 3 → c.setOk = true → t.upd.act.state = .trial ∧
        t.upd.act.trialBoots = s.upd.act.trialBoots + 1) ∧
      (s.upd.act.state = .trial → s.upd.act.trialBoots = 3 → t.upd.act.state = .reverted)) ∧
    (live s = true →
      (∀ c : BootChecks, s.boot.stage = .loader → c.setOk = true → ∃ t, exec (.loaderDone c) s = .next t ∧ t.boot = { s.boot with stage := .main } ∧
        t.upd.act = s.upd.act) ∧
      (∀ c : BootChecks, s.boot.stage = .loader → c.setOk = false → c.fallbackOk = false → s.upd.act.state ≠ .trial →
        ∃ t, exec (.loaderDone c) s = .next t ∧ t.boot.stage = .rescue) ∧
      (∀ c : BootChecks, s.boot.stage = .main → exec (.loaderDone c) s = .next s) ∧
      (s.boot.stage = .main → exec .pmcFirmwareStart s = .next (updBoot (fun b => { b with pmcRunning := true }) s)) ∧
      (s.boot.stage = .main → s.boot.mainRunning = false → s.upd.ctrlNew = false →
        ∃ t, exec (.mainFirmwareStart true) s = .next t ∧ t.boot = { s.boot with mainRunning := true } ∧ t.cfg.slot = s.upd.act.settingsSlot ∧
          (copyInUse { s.cfg with slot := s.upd.act.settingsSlot } = none → t.cfg.defaulted = true ∧ t.cfg.restoring = s.cfg.restoring) ∧
          (∀ b, copyInUse { s.cfg with slot := s.upd.act.settingsSlot } = some b → t.cfg.copyB = b ∧ t.cfg.defaulted = false ∧
            (s.cfg.bootRestore = true → t.cfg.restoring = true))) ∧
      (s.boot.ready = false → s.boot.mainRunning = true ∨ s.boot.stage = .rescue → s.boot.ccFailed = false →
        ∃ t, exec .ready s = .next t ∧ t.boot = { s.boot with ready := true, reached := true } ∧ t = { s with boot := t.boot, acc := t.acc } ∧
          (∀ l : Fin 2, t.acc.level[l] = { s.acc.level[l] with delay := delayEnd (s.acc.level[l]).fails s })) ∧
      (s.boot.ready = true → exec .ready s = .next s))

/-- Restarts of the control complex and the PMC (R411 to R413, R486). Each cause begins a restart that is counted and takes the nonces, and the fifth within 60 s fails the complex; a core that fails its self-test twice in a row is fenced; the PMC's restart is only counted. Nothing outside
the control complex changes. -/
def Obligations.Restarts : Prop :=
  ∀ s : State, live s = true →
    (∀ (i : Instr) (c : RestartCause), (i = .ccSramEcc ∧ c = .sramEcc) ∨ (i = .watchdog ∧ c = .watchdog) ∨
        (i = .lockstepError ∧ c = .lockstep ∧ s.boot.singleCore = false) →
      s.boot.stage = .main ∨ s.boot.stage = .rescue → s.boot.ccFailed = false → s.boot.restarting = none →
      ∃ t, exec i s = .next t ∧ t.boot.restarting = some c ∧ t.boot.lastRestart = some c ∧ t.boot.ccRestarts = s.boot.ccRestarts + 1 ∧
        (∀ l : Fin 2, t.acc.level[l] = { s.acc.level[l] with nonce := none }) ∧ committing t = false ∧
        t.boot.ccFailed = decide (5 ≤ ((s.aoCycles :: s.boot.restartTimes).filter fun x => decide (s.aoCycles - x ≤ 1500000000)).length) ∧
        Safety.Quiet { s with boot := t.boot, acc := t.acc, pwr := { s.pwr with mgCause := t.pwr.mgCause } } t) ∧
    (s.boot.singleCore = true → exec .lockstepError s = .next s) ∧
    (∀ c, s.boot.restarting = some c → s.boot.singleCore = false → ∃ t, exec (.ccRestart true true) s = .next t ∧
      t = updBoot (fun b => { b with restarting := none, coreFails := #v[0, 0] }) s) ∧
    (∀ c, s.boot.restarting = some c → s.boot.singleCore = false → (s.boot.coreFails[(0 : Fin 2)]) = 1 →
      ∃ t, exec (.ccRestart false true) s = .next t ∧ t.boot.restarting = none ∧ t.boot.singleCore = true ∧ t.boot.fencedCore = false ∧
        t.boot.ccFailed = s.boot.ccFailed) ∧
    (s.boot.restarting = none → ∀ a b, exec (.ccRestart a b) s = .next s) ∧
    (∀ cause : Fin 3, s.boot.pmcRunning = true → ∃ t, exec (.pmcRestart cause) s = .next t ∧
      Safety.Quiet (updBoot (fun b => { b with pmcRestarts := b.pmcRestarts + 1 }) s) t)

/-- Telemetry, the thermal policy and the life log (R418, R420 to R423, R426, R428, R437). The PMC's measurements reach its registers while it runs, the always-on ones in any case. Tmax is the hottest sensor that is not excluded; at 95 °C the policy throttles the engines, one level
per 10 ms while it stays hot, and then the felts. A sensor out of range, or off the median of its die for 1 s, is excluded and reported once. The life log takes what was written, and its hours, hot seconds and peak never fall. Of an
instance only its note that hops may be dropped (R315) follows the throttle. -/
def Obligations.TelemetryAndPolicy : Prop :=
  (∀ (m : Telemetry) (s : State), WellFormed.instr (.telemetryUpdate m) = true → s.pwr.vstbyValid = true →
    ∃ t, exec (.telemetryUpdate m) s = .next t ∧ t = { s with pwr := t.pwr } ∧ t.pwr.mgVmain = m.mgVmain ∧ t.pwr.mgVstby = m.mgVstby ∧
      (live s = true → s.boot.pmcRunning = true → t.pwr.vmainMv = m.vmain ∧ t.pwr.pin = m.pin ∧ t.pwr.imain = m.imain ∧
        t.pwr.vstbyMv = m.vstby ∧ t.pwr.energy = BitVec.ofNat 64 (min (2 ^ 64 - 1) (s.pwr.energy.toNat + m.joules)) ∧
        (∀ i : Fin 22, t.pwr.rails[i] = { s.pwr.rails[i] with
          voltage := (m.rails.getD i.val (0, 0, 0)).1, current := (m.rails.getD i.val (0, 0, 0)).2.1, power := (m.rails.getD i.val (0, 0, 0)).2.2 })) ∧
      (live s = false ∨ s.boot.pmcRunning = false → t.pwr = { s.pwr with mgVmain := m.mgVmain, mgVstby := m.mgVstby })) ∧
  (∀ (temps : List (BitVec 16)) (s : State), WellFormed.instr (.tmaxEvaluate temps) = true → live s = true →
    (s.boot.pmcRunning = false → exec (.tmaxEvaluate temps) s = .next s) ∧
    (∀ i : Fin 64, s.boot.pmcRunning = true →
      hottestOf (Vector.ofFn fun k : Fin 64 => senseOne temps k s.health.sensors[k]) = some i →
      let tmax := temps.getD i.val 0
      ∃ t, exec (.tmaxEvaluate temps) s = .next t ∧ t.health.tmax = tmax ∧ t.health.hottest = i.val ∧
        Safety.Quiet { s with health := t.health, eng := { s.eng with throttled := t.eng.throttled }, insts := t.insts } t ∧
        (∀ i : Fin 16, t.insts[i] = { s.insts[i] with mayDrop := (t.insts[i]).mayDrop }) ∧
        (s.health.policy = .normal → 9500 ≤ tmax.toInt → t.health.policy = .engine ∧ t.health.engLevel = 7 ∧ t.eng.throttled = true) ∧
        (s.health.policy = .normal → tmax.toInt < 9500 → t.health.policy = .normal ∧ t.eng.throttled = s.eng.throttled) ∧
        (s.health.policy = .engine → 9500 ≤ tmax.toInt → 9 ≤ s.health.msSinceChange →
          (1 < s.health.engLevel → t.health.policy = .engine ∧ t.health.engLevel = s.health.engLevel - 1) ∧
          (s.health.engLevel ≤ 1 → t.health.policy = .felt ∧ t.health.feltRate = 1)) ∧
        (s.health.policy = .engine → 9500 ≤ tmax.toInt → s.health.msSinceChange < 9 → t.health.policy = .engine ∧
          t.health.engLevel = s.health.engLevel) ∧
        (s.health.policy = .felt → 9500 ≤ tmax.toInt → 9 ≤ s.health.msSinceChange → t.health.policy = .felt ∧
          t.health.feltRate = (if s.health.feltRate < 3 then s.health.feltRate + 1 else s.health.feltRate)))) ∧
  (∀ (n : Fin 64) (reading : BitVec 16) (s : State), live s = true →
    (s.boot.pmcRunning = true → (s.health.sensors[n]).excluded = false → sensorBad n reading s = true → ∃ t, exec (.thermSensor n reading) s = .next t ∧
      Safety.Quiet (updHealth (fun h => { h with sensors := upd h.sensors n fun x => { x with temp := reading, excluded := true } }) s) t) ∧
    ((s.health.sensors[n]).excluded = true ∨ sensorBad n reading s = false → exec (.thermSensor n reading) s = .next s)) ∧
  (∀ (hours : W32) (avg peak : BitVec 16) (hot : W32) (s : State), live s = true →
    ∃ t, exec (.lifeLogWrite hours avg peak hot) s = .next t ∧ t.health = { s.health with
        powerHours := BitVec.ofNat 32 (max s.health.powerHours.toNat hours.toNat), avgTj := avg, tjPeak := higher s.health.tjPeak peak,
        hotSeconds := BitVec.ofNat 32 (max s.health.hotSeconds.toNat hot.toNat), lifeWarnHours := t.health.lifeWarnHours } ∧
      Safety.Quiet { s with health := t.health } t)

/-- The in-service test (R237, R239, R240, R242, R431, R432). A scrub counts what it corrects and what it cannot; a sample lost marks its block in the
quality map of its era and in every segment that holds it, and metadata lost in both copies marks its segment; a repair, a failed lane, a phase difference beyond 200 fs and uncorrectable MRAM data set the item's failure bit, and a good result
sets none; a starved item is reported once. -/
def Obligations.InServiceTest : Prop :=
  ∀ s : State, live s = true →
    (∀ r : ScrubRead,
      (r.found = .clean → ∃ t, exec (.scrub r) s = .next t ∧ t.mem = s.mem ∧ t.slices = s.slices ∧
        t.health.istFailed = s.health.istFailed) ∧
      (r.found = .corrected → ∃ t, exec (.scrub r) s = .next t ∧ t.mem.corr = min (2 ^ 64 - 1) (s.mem.corr + 1) ∧
        t.mem.uncorr = s.mem.uncorr ∧ t.mem.segs = s.mem.segs ∧ t.slices = s.slices ∧ t.health.istFailed = s.health.istFailed) ∧
      (∀ (ch : Fin 8) (sn back : Nat), r.found = .sample ch sn back → ∃ t, exec (.scrub r) s = .next t ∧
        t.mem.uncorr = min (2 ^ 64 - 1) (s.mem.uncorr + 1) ∧ t.mem.uncorrSeen = true ∧ t.health.istFailed.getLsbD 2 = true ∧
        t.mem.segs = s.mem.segs.map (markSeg (s.proof.era - back) ch.val (sn / 4096)) ∧
        (back = 0 → (∃ x ∈ (t.slices[ch]).qual, x.1 = sn / 4096) ∧
          (∀ x ∈ (t.slices[ch]).qual, x.1 = sn / 4096 → x.2.getLsbD 6 = true) ∧ (∀ k : Fin 8, k ≠ ch → t.slices[k] = s.slices[k])) ∧
        (back ≠ 0 → t.slices = s.slices)) ∧
      (r.found = .metadata ∨ r.found = .other → ∃ t, exec (.scrub r) s = .next t ∧ t.mem.uncorr = min (2 ^ 64 - 1) (s.mem.uncorr + 1) ∧
        t.mem.uncorrSeen = true ∧ t.health.istFailed.getLsbD 2 = true ∧ t.mem.segs = s.mem.segs ∧ t.slices = s.slices) ∧
      (∀ seq : Nat, r.found = .metadataLost seq → ∃ t, exec (.scrub r) s = .next t ∧
        t.mem.uncorr = min (2 ^ 64 - 1) (s.mem.uncorr + 2) ∧ t.mem.uncorrSeen = true ∧ t.health.istFailed.getLsbD 2 = true ∧
        t.mem.segs = s.mem.segs.map (fun g => if g.seq = seq then { g with lost := true } else g) ∧ t.slices = s.slices)) ∧
    (∀ (stack : Fin 4) (lane : Bool) (index : Nat), ∃ t, exec (.scrubRepair stack lane index) s = .next t ∧
      t.health = { s.health with repairs := (stack.val, lane, index) :: s.health.repairs, istFailed := s.health.istFailed ||| 4 } ∧
      Safety.Quiet { s with health := t.health } t) ∧
    (∀ (lane : Fin 32) (v h : Nat), WellFormed.instr (.istSerdes lane v h) = true → ∃ t, exec (.istSerdes lane v h) s = .next t ∧
      t.health.istFailed = (if v < 20 ∨ h < 150 then s.health.istFailed ||| 32 else s.health.istFailed) ∧
      Safety.Quiet { s with health := t.health } t) ∧
    (∀ fs : Nat, ∃ t, exec (.istSyns fs) s = .next t ∧
      t.health.istFailed = (if 200 < fs then s.health.istFailed ||| 64 else s.health.istFailed) ∧ Safety.Quiet { s with health := t.health } t) ∧
    (∀ bad : Option Nat, ∃ t, exec (.mramScrub bad) s = .next t ∧
      t.health.istFailed = (if bad.isSome then s.health.istFailed ||| 128 else s.health.istFailed) ∧ Safety.Quiet { s with health := t.health } t) ∧
    (∀ item : Fin 8, (s.health.istStarved.getLsbD item.val = false → ∃ t, exec (.istStarved item) s = .next t ∧
        t.health = { s.health with istStarved := s.health.istStarved ||| BitVec.ofNat 8 (2 ^ item.val) } ∧ Safety.Quiet { s with health := t.health } t) ∧
      (s.health.istStarved.getLsbD item.val = true → exec (.istStarved item) s = .next s))

/-! ### Slices (chapter 4) -/

/-- Proofing steps (R74, R99, R109, R110, R122 to R124, R146, R151, R305). Each step's end does its work and starts the next: PF1 selects the bands, PF2 waits for the clocks and rebuilds the lane maps,
PF3 fits the lane tables and retires the lanes that failed, PF4 fits the position tables, PF5 forms the TAC offsets from the factory delay and the measured one, sets the outputs' delays and
loads the sets of the active cartridges, PF6 ends once no set is being derived, and the end of PF7 ends proofing, saves the lane, position and TAC tables,
starts rotation on a new grid (the model's reading, log 144) and designates the reserves. Outside proofing nothing happens. PF2 that takes too long sets the failure flag and is reported once. -/
def Obligations.ProofingSteps : Prop :=
  ∀ s : State, live s = true →
    (∀ d, WellFormed.instr (.proofingStepEnd d) = true →
      (s.proof.active = false → exec (.proofingStepEnd d) s = .next s) ∧
      (s.proof.active = true →
        (s.proof.step = 1 → ∃ t, exec (.proofingStepEnd d) s = .next t ∧ t.proof = { s.proof with step := 2 } ∧ t.slices = s.slices ∧
          t.hostMem = s.hostMem) ∧
        (s.proof.step = 2 → clocksDone s = false → exec (.proofingStepEnd d) s = .next s) ∧
        (s.proof.step = 2 → clocksDone s = true → ∃ t, exec (.proofingStepEnd d) s = .next t ∧ t.proof = { s.proof with step := 3 } ∧
          t.clk = { s.clk with applyBusy := false } ∧ (∀ n : Fin 8, t.slices[n] = (rebuildMap s.slices[n]).1) ∧
          (s.clk.noBand[(3 : Fin 4)] = true → t.tacs = s.tacs) ∧
          (∀ i : Fin 8, s.clk.noBand[(3 : Fin 4)] = false → i.val ≤ 6 → t.tacs[i] = { s.tacs[i] with calRun := some .quick, hits := 0 })) ∧
        (s.proof.step = 3 → ∃ t, exec (.proofingStepEnd d) s = .next t ∧ t.proof = { s.proof with step := 4 } ∧
          (∀ x, d.retired = [x] → (s.slices[x.1]).substs = [] → (t.slices[x.1]).retired.getLsbD x.2.val = true) ∧
          (∀ n : Fin 8, (∀ x ∈ d.retired, x.1 ≠ n) → t.slices[n] = { s.slices[n] with laneTab := (t.slices[n]).laneTab })) ∧
        (s.proof.step = 4 → ∃ t, exec (.proofingStepEnd d) s = .next t ∧ t.proof = { s.proof with step := 5 } ∧
          (∀ n : Fin 8, t.slices[n] = { s.slices[n] with posTab := (t.slices[n]).posTab, reconFit := (t.slices[n]).reconFit }) ∧
          t = { s with proof := t.proof, slices := t.slices, freeCtr := t.freeCtr }) ∧
        (s.proof.step = 5 → ∃ t, exec (.proofingStepEnd d) s = .next t ∧ t.proof = { s.proof with step := 6 } ∧
          (∀ i : Fin 8, t.tacs[i] = { s.tacs[i] with offset := Config.landDelay i.val + d.tacOffsets.getD i.val 0 }) ∧
          t.clk = { s.clk with outs := t.clk.outs } ∧
          (∀ n : Fin 8, (s.carts[n]).state ≠ .active → t.carts[n] = s.carts[n] ∧ (t.slices[n]).firNext = (s.slices[n]).firNext) ∧
          (∀ n : Fin 8, (s.carts[n]).state = .active → fsMilli s = 80000000000000 →
            (t.slices[n]).firNext = some (firCoef (s.carts[n]).factory, .firCoef, 4096 * nextBlock n s)) ∧
          (∀ n : Fin 8, (s.carts[n]).state = .active → fsMilli s ≠ 80000000000000 →
            (t.carts[n]).deriving_ = true ∧ (t.slices[n]).firNext = (s.slices[n]).firNext)) ∧
        (s.proof.step = 6 → (∃ n : Fin 8, (s.carts[n]).deriving_ = true ∧ (s.carts[n]).state = .active) →
          exec (.proofingStepEnd d) s = .next s) ∧
        (s.proof.step = 6 → (∀ n : Fin 8, (s.carts[n]).deriving_ = false ∨ (s.carts[n]).state ≠ .active) →
          exec (.proofingStepEnd d) s = .next { s with proof := { s.proof with step := 7 } }) ∧
        (s.proof.step = 7 → ∃ t, exec (.proofingStepEnd d) s = .next t ∧
          t.proof = { s.proof with active := false, step := 0, fail := false, endSample := some (takenSample s) } ∧
          (∀ i : Fin 8, t.tacs[i] = { s.tacs[i] with saved := (s.tacs[i]).table }) ∧
          (∀ n : Fin 8, (t.slices[n]).savedLane = (s.slices[n]).laneTab ∧ (t.slices[n]).savedPos = (s.slices[n]).posTab ∧
            (t.slices[n]).rotBase = takenSample s / 40 ∧ (t.slices[n]).rotK = 0 ∧ (t.slices[n]).laneMap = (s.slices[n]).laneMap ∧
            ((s.slices[n]).outLane.isSome = true → (t.slices[n]).rotRun = true ∧ (t.slices[n]).shadowPos = stepPosition s.slices[n] 0 ∧
              (t.slices[n]).shadowSince = takenSample s / 40)) ∧
          (∀ (p : Fin 8) (e : Nat), t.eng.reserve[p] = some e → e / 32 = p.val ∧ e ∉ s.eng.retired ∧
            ∀ i : Fin 16, e ∉ (s.insts[i]).engines)))) ∧
    (s.proof.active = true → s.proof.step = 2 → s.proof.overrun = false → ∃ t, exec .proofFail s = .next t ∧
      Safety.Quiet { s with proof := { s.proof with fail := true, overrun := true } } t) ∧
    (s.proof.active = false ∨ s.proof.step ≠ 2 ∨ s.proof.overrun = true → exec .proofFail s = .next s)

/-- Slice words and overrange (R25, R100, R103, R105, R108, R120, R121). The 40 codes of a slice word, after the cartridge FIR, the clamp and the repair of failed positions, are in range and
join the slice's output, and its word count rises by one, and no other slice's; the lane table moves in the entries of lanes that serve a position alone; before samples exist nothing happens. A clipped
code opens or extends an overrange episode; the episode ends after 2^21 lc without one. -/
def Obligations.SliceWordsAndOverrange : Prop :=
  ∀ (n : Fin 8) (s : State), live s = true →
    (∀ x : SliceIn, WellFormed.instr (.sliceWord n x) = true →
      let codes := outputWord n (s.slices[n]).words x.codes s
      (samplesExist s = false → exec (.sliceWord n x) s = .next s) ∧
      (samplesExist s = true → ∃ t, exec (.sliceWord n x) s = .next t ∧ (∀ c ∈ codes, -2048 ≤ c ∧ c ≤ 2047) ∧
        (t.slices[n]).words = (s.slices[n]).words + 1 ∧ (t.slices[n]).log = codes :: (s.slices[n]).log ∧
        (∀ k : Fin 8, k ≠ n → t.slices[k] = s.slices[k]) ∧
        (t.slices[n]).laneTab = (trackLanes x.tracked s.slices[n]).laneTab ∧
        (∀ l : Fin 41, servedPos s.slices[n] l.val = none → (t.slices[n]).laneTab[l] = (s.slices[n]).laneTab[l]) ∧
        (codes.any clippedCode = true → (t.slices[n]).ovrLast = some (s.slices[n]).words ∧ (t.slices[n]).ovrOn = true) ∧
        (codes.any clippedCode = false → (t.slices[n]).ovrLast = (s.slices[n]).ovrLast ∧ (t.slices[n]).ovrOn = (s.slices[n]).ovrOn ∧
          (t.slices[n]).ovrCount = (s.slices[n]).ovrCount))) ∧
    ((s.slices[n]).ovrOn = true → 2 ^ 21 ≤ cleanWords s.slices[n] → ∃ t, exec (.ovrEpisodeEnd n) s = .next t ∧
      Safety.Quiet (updSlice n (fun x => { x with ovrOn := false }) s) t) ∧
    ((s.slices[n]).ovrOn = false ∨ cleanWords s.slices[n] < 2 ^ 21 → exec (.ovrEpisodeEnd n) s = .next s)

/-- Lanes (R99, R104, R110 to R119). What a lane check saw that does not fail it by R113 changes nothing. A failed lane is retired; where it served a position the out lane takes that position two lc later, or the position is interpolated where there is none, and the samples from
32 lc before the detection to 34 lc after it are marked; a lane out of service is retired without a mark; a replacement that fails at the same position within 65,536 lc gives the first lane back. A rotation step of the
grid gives the out lane the entry fitted to it and moves it into the position that it shadowed, unless the entry is out of range or the two disagree; off the grid, and in proofing, nothing happens. The blind
estimator acts once per period (both grids start at the end of proofing, the model's reading, log 144) and holds while the input is quiet. -/
def Obligations.LanesAndRotation : Prop :=
  ∀ (n : Fin 8) (s : State), live s = true →
    let x := s.slices[n]
    let d := takenLc s
    (∀ (lane : Fin 41) (check : LaneCheck), checkOf n (lane, check) s = none → exec (.laneCheckFail n lane check none) s = .next s) ∧
    (∀ (lane : Fin 41) (check : LaneCheck), (checkOf n (lane, check) s).isSome = true → x.retired.getLsbD lane.val = false →
      ∃ t, exec (.laneCheckFail n lane check none) s = .next t ∧
      Safety.Quiet { s with slices := upd s.slices n fun _ => t.slices[n], health := { s.health with istFailed := s.health.istFailed ||| 1 } } t ∧
      (servedPos x lane.val = none → (t.slices[n]).retired.getLsbD lane.val = true ∧ (t.slices[n]).laneMap = x.laneMap ∧
        (t.slices[n]).interp = x.interp ∧ (t.slices[n]).substWin = x.substWin) ∧
      (∀ (p : Fin 40) (o : Nat), servedPos x lane.val = some p.val → positionFaulty x lane.val p.val d = none → x.outLane = some o →
        (t.slices[n]).retired.getLsbD lane.val = true ∧ (t.slices[n]).laneMap = x.laneMap.set p.val (some o) ∧
        (t.slices[n]).interp = x.interp ∧ (t.slices[n]).substWin = (40 * (d - 32), 40 * (d + 34) + 39) :: x.substWin ∧
        (t.slices[n]).repairs = (p.val, d - 32, some (d + 2)) :: x.repairs ∧
        (t.slices[n]).substs = { pos := p.val, failed := lane.val, replacing := o, at_ := d + 2 } :: x.substs ∧
        (t.slices[n]).outLane = x.standby.max? ∧ ((t.slices[n]).outLane = none → (t.slices[n]).rotRun = false) ∧
        ((t.slices[n]).outLane.isSome = true → (t.slices[n]).shadowSince = d + 2)) ∧
      (∀ p : Fin 40, servedPos x lane.val = some p.val → positionFaulty x lane.val p.val d = none → x.outLane = none →
        (t.slices[n]).retired.getLsbD lane.val = true ∧ (t.slices[n]).laneMap = x.laneMap.set p.val none ∧
        (t.slices[n]).interp = x.interp ||| BitVec.ofNat 40 (2 ^ p.val) ∧
        (t.slices[n]).substWin = (40 * (d - 32), 40 * (d + 34) + 39) :: x.substWin) ∧
      (∀ (p : Fin 40) (b : Substitution), servedPos x lane.val = some p.val → positionFaulty x lane.val p.val d = some b →
        b.replacing = lane.val ∧ b.pos = p.val ∧ d ≤ b.at_ + 65536 ∧ (t.slices[n]).outLane = some b.failed ∧ (t.slices[n]).laneMap = x.laneMap.set p.val none ∧
        (t.slices[n]).interp = x.interp ||| BitVec.ofNat 40 (2 ^ p.val) ∧ (t.slices[n]).substs = x.substs.filter (·.pos != p.val) ∧
        (t.slices[n]).repairs = (p.val, d - 32, none) :: x.repairs ∧
        (t.slices[n]).retired = x.retired &&& ~~~(BitVec.ofNat 41 (2 ^ b.failed)))) ∧
    (s.proof.active = true ∨ d < stepLc x → ∀ m fit, exec (.rotationStep n m fit) s = .next s) ∧
    (s.proof.active = false → stepLc x ≤ d →
      (x.outLane = none → ∀ m fit, exec (.rotationStep n m fit) s = .next (updSlice n (fun y => { y with rotK := y.rotK + 1 }) s)) ∧
      (∀ o, x.outLane = some o → x.shadowPos = stepPosition x x.rotK → x.shadowSince + 2 ^ 20 ≤ d →
        (∀ m fit, inRange fit = false → ∃ t, exec (.rotationStep n m fit) s = .next t ∧ (t.slices[n]).rotK = x.rotK + 1 ∧ (t.slices[n]).laneMap = x.laneMap ∧
          (t.slices[n]).retired = x.retired ||| BitVec.ofNat 41 (2 ^ o) ∧ (∀ k : Fin 8, k ≠ n → t.slices[k] = s.slices[k])) ∧
        (∀ m fit, inRange fit = true → shadowFails m = false → x.mismatch = none → ∃ t, exec (.rotationStep n m fit) s = .next t ∧
          (t.slices[n]).laneTab = updN x.laneTab o (fun _ => fit) ∧ (t.slices[n]).rotK = x.rotK + 1 ∧
          (t.slices[n]).laneMap = updN x.laneMap x.shadowPos (fun _ => some o) ∧
          (t.slices[n]).outLane = (getN x.laneMap x.shadowPos).getD none ∧ (t.slices[n]).shadowSince = d ∧
          (t.slices[n]).retired = x.retired ∧ (t.slices[n]).interp = x.interp ∧ (∀ k : Fin 8, k ≠ n → t.slices[k] = s.slices[k])) ∧
        (∀ m fit, inRange fit = true → shadowFails m = true → x.mismatch = none → ∃ t, exec (.rotationStep n m fit) s = .next t ∧
          (t.slices[n]).mismatch = some x.shadowPos ∧
          (t.slices[n]).laneMap = x.laneMap ∧ (t.slices[n]).outLane = some o ∧ (t.slices[n]).retired = x.retired) ∧
        (∀ m fit p, inRange fit = true → shadowFails m = true → x.mismatch = some p → ∃ t, exec (.rotationStep n m fit) s = .next t ∧ (t.slices[n]).laneMap = x.laneMap ∧
          (t.slices[n]).retired = x.retired ||| BitVec.ofNat 41 (2 ^ o)) ∧
        (∀ m fit, inRange fit = true → shadowFails m = false → ∀ (p : Fin 40) (f : Nat), x.mismatch = some p.val →
          x.laneMap[p] = some f → ∃ t, exec (.rotationStep n m fit) s = .next t ∧
          (t.slices[n]).laneMap = x.laneMap.set p.val (some o) ∧ (t.slices[n]).retired = x.retired ||| BitVec.ofNat 41 (2 ^ f) ∧
          (t.slices[n]).mismatch = none)) ∧
      (∀ o, x.outLane = some o → x.shadowPos ≠ stepPosition x x.rotK ∨ d < x.shadowSince + 2 ^ 20 → ∀ m fit,
        ∃ t, exec (.rotationStep n m fit) s = .next t ∧ (t.slices[n]).laneMap = x.laneMap ∧ (t.slices[n]).outLane = some o ∧
          (t.slices[n]).rotK = x.rotK + 1 ∧ (t.slices[n]).shadowSince = d)) ∧
    (∀ taps, WellFormed.posTaps taps = true →
      (blindDue n s = false → ∀ quiet, exec (.blindEstimatorUpdate n quiet taps) s = .next s) ∧
      (blindDue n s = true →
        exec (.blindEstimatorUpdate n true taps) s = .next (updSlice n (fun y => { y with blindK := y.blindK + 1 }) s) ∧
        exec (.blindEstimatorUpdate n false taps) s = .next (updSlice n (fun y => { y with
          blindK := y.blindK + 1
          posTab := Vector.ofFn fun p : Fin 40 =>
            { skew := moveTaps (y.posTab[p]).skew ((taps.getD p.val []).take 16),
              eq := moveTaps (y.posTab[p]).eq ((taps.getD p.val []).drop 16) } }) s)))

/-- Diagnostic spans of a reduction bank, and chain recovery (R232, R259). A parity failure ends the open intervals, clears the bank and starts a recovery of 65,536 lc; when the span of a recovery or SELFTEST ends, the configured set
resumes, or proofing's span where proofing runs; SELFTEST starts only on a bank that nothing uses. Chain recovery clears the filters and detectors and marks the next outputs. -/
def Obligations.BankAndChainRecovery : Prop :=
  ∀ (n : Fin 8) (s : State), live s = true →
    let b := s.reds[n]
    (∃ t, exec (.bankRecovery n) s = .next t ∧ (t.reds[n]).acc = Vector.replicate 4 [] ∧
      (t.reds[n]).start = Vector.replicate 4 (commitSample s) ∧ (t.reds[n]).lanes = b.lanes ∧ (t.reds[n]).segRed = b.segRed ∧
      (t.reds[n]).diag = some (.recovery (lcNow s + 65536)) ∧
      t.health.istFailed = (if b.diag = some .selftest then s.health.istFailed ||| 16 else s.health.istFailed) ∧
      (∀ k : Fin 8, k ≠ n → t.reds[k] = s.reds[k]) ∧ t.slices = s.slices ∧ t.ddcs = s.ddcs ∧ t.hostMem = s.hostMem) ∧
    (∀ e, b.diag = some (.recovery e) → e ≤ lcNow s → isProofing s (commitSample s) = true → ∃ t, exec (.diagnosticSpanEnd n) s = .next t ∧
      (t.reds[n]).diag = some .proofing ∧ (t.reds[n]).lanes = b.lanes ∧ (t.reds[n]).segRed = b.segRed ∧ (t.reds[n]).next = b.next ∧
      (∀ k : Fin 8, k ≠ n → t.reds[k] = s.reds[k]) ∧ t.slices = s.slices ∧ t.hostMem = s.hostMem) ∧
    (b.diag = some .selftest ∨ (∃ e, b.diag = some (.recovery e) ∧ e ≤ lcNow s ∧ isProofing s (commitSample s) = false) →
      ∃ t, exec (.diagnosticSpanEnd n) s = .next t ∧
      (t.reds[n]).diag = none ∧ (t.reds[n]).lanes = (takeNext b).lanes ∧ (t.reds[n]).segRed = (takeNext b).segRed ∧
      (t.reds[n]).next = none ∧ (t.reds[n]).acc = Vector.replicate 4 [] ∧ (∀ k : Fin 8, k ≠ n → t.reds[k] = s.reds[k]) ∧
      t.slices = s.slices ∧ t.hostMem = s.hostMem) ∧
    (b.diag = none ∨ b.diag = some .proofing ∨ (∃ e, b.diag = some (.recovery e) ∧ lcNow s < e) →
      exec (.diagnosticSpanEnd n) s = .next s) ∧
    (b.diag = none → b.segRed = 0 → redStreamed n s = false → ∃ t, exec (.bankSelftestStart n) s = .next t ∧
      (t.reds[n]).diag = some .selftest ∧ (t.reds[n]).acc = Vector.replicate 4 [] ∧ (t.reds[n]).lanes = b.lanes ∧
      (∀ k : Fin 8, k ≠ n → t.reds[k] = s.reds[k]) ∧ t.hostMem = s.hostMem) ∧
    (b.diag ≠ none ∨ b.segRed ≠ 0 ∨ redStreamed n s = true → exec (.bankSelftestStart n) s = .next s) ∧
    (∃ t, exec (.chainRecovery n) s = .next t ∧
      Safety.Quiet (updDdc n (fun c => { c with
        clearedAt := 40 * (s.slices[n]).words, armed := Vector.replicate 2 .off, last := none, toMark := chainS c.cfg }) s) t)

/-! ### Cartridges (chapter 2) -/

/-- Cartridge inputs (R53 to R62, R106, R107). Insertion with the rails up starts a read with one mating counted, and a mating on standby power is counted by the power controller. A read of a valid factory area makes the input ACTIVE with its matings
counted on; a bad factory area, a timeout and an overcurrent fault it, with the pass-through set and the worn flag; removal returns it to ABSENT. A wear record that is due, for its dose and time or another cause, goes to the other copy with the next SEQ, and
a write that fails twice is reported and given up; a set that a derivation ends is the least-squares inverse as the model rounds it (log 140). -/
def Obligations.CartridgeInputs : Prop :=
  ∀ (n : Fin 8) (s : State),
    let c := s.carts[n]
    (s.pwr.railsOn = true → c.state = .absent → exec (.cartridgeInsert n) s = .next (updCart n (fun _ =>
      { Cart.reset with state := .reading, present := true, v33 := true, counted := 1 }) s)) ∧
    (s.pwr.railsOn = false ∨ c.state ≠ .absent → exec (.cartridgeInsert n) s = .next s) ∧
    (s.pwr.vstbyValid = true → s.pwr.railsOn = false → ∃ t, exec (.standbyMating n) s = .next t ∧
      (t.pwr.standbyMatings[n]).toNat = min 255 ((s.pwr.standbyMatings[n]).toNat + 1) ∧ (t.carts[n]).present = true ∧
      t = { s with pwr := { s.pwr with standbyMatings := upd s.pwr.standbyMatings n fun _ => t.pwr.standbyMatings[n] },
                   carts := upd s.carts n fun x => { x with present := true } }) ∧
    (s.pwr.vstbyValid = false ∨ s.pwr.railsOn = true → exec (.standbyMating n) s = .next s) ∧
    (s.pwr.railsOn = true → c.state ≠ .absent → ∃ t, exec (.cartridgeRemove n) s = .next t ∧ t.carts[n] = Cart.reset ∧
      (t.slices[n]).wornFrom = none ∧ (c.state = .active → (t.slices[n]).firNext = some (passThrough, .passThrough, 4096 * nextBlock n s)) ∧
      (∀ k : Fin 8, k ≠ n → t.carts[k] = s.carts[k] ∧ t.slices[k] = s.slices[k]) ∧
      Safety.Quiet { s with carts := t.carts, slices := t.slices, freeCtr := t.freeCtr } t) ∧
    (s.pwr.railsOn = true → c.state = .absent → exec (.cartridgeRemove n) s = .next s) ∧
    (s.pwr.railsOn = false → exec (.cartridgeRemove n) s = .next (updCart n (fun x => { x with present := false }) s)) ∧
    (live s = true →
      (∀ (f a b : List Byte), WellFormed.cartridge f a b = true →
        (c.state ≠ .reading → exec (.cartridgeIdRead n f a b) s = .next s) ∧
        (c.state = .reading → factoryOk f = false → ∃ t, exec (.cartridgeIdRead n f a b) s = .next t ∧ (t.carts[n]).state = .faulted ∧
          (t.slices[n]).firNext = some (passThrough, .passThrough, 4096 * nextBlock n s) ∧ (t.slices[n]).wornFrom.isSome = true ∧
          (∀ k : Fin 8, k ≠ n → t.carts[k] = s.carts[k])) ∧
        (∀ copyB, c.state = .reading → factoryOk f = true → wearInUse a b = some copyB →
          ∃ t, exec (.cartridgeIdRead n f a b) s = .next t ∧ (t.carts[n]).state = .active ∧ (t.carts[n]).factory = f ∧
            (t.carts[n]).useB = copyB ∧ (t.carts[n]).matings = fieldAt (if copyB then b else a) 4 4 + c.counted ∧
            (t.carts[n]).dose = fieldAt (if copyB then b else a) 8 8 ∧ (t.carts[n]).counted = 0 ∧
            (0 < c.counted → (t.carts[n]).writeDue = true) ∧ (∀ k : Fin 8, k ≠ n → t.carts[k] = s.carts[k])) ∧
        (c.state = .reading → factoryOk f = true → wearInUse a b = none → ∃ t, exec (.cartridgeIdRead n f a b) s = .next t ∧
          (t.carts[n]).state = .active ∧ (t.carts[n]).matings = 0 ∧ (t.carts[n]).dose = 0 ∧ (t.carts[n]).wear = 3 ∧
          (t.carts[n]).pastLife = true ∧ (t.carts[n]).writeDue = true ∧ (t.slices[n]).wornFrom.isSome = true)) ∧
      (c.state = .reading → ∃ t, exec (.cartridgeReadTimeout n) s = .next t ∧
        t.carts[n] = { c with state := .faulted, counted := 0, writeDue := false, deriving_ := false } ∧
        (t.slices[n]).firNext = some (passThrough, .passThrough, 4096 * nextBlock n s) ∧ (t.slices[n]).wornFrom.isSome = true ∧
        Safety.Quiet { s with carts := upd s.carts n fun _ => t.carts[n], slices := upd s.slices n fun _ => t.slices[n] } t) ∧
      (c.state ≠ .reading → exec (.cartridgeReadTimeout n) s = .next s) ∧
      (c.state = .active → ∃ t, exec (.cartridgeOvercurrent n) s = .next t ∧ (t.carts[n]).state = .faulted ∧ (t.carts[n]).v33 = false ∧
        (t.slices[n]).firNext = some (passThrough, .passThrough, 4096 * nextBlock n s) ∧ (t.slices[n]).wornFrom.isSome = true ∧
        Safety.Quiet { s with carts := upd s.carts n fun _ => t.carts[n], slices := upd s.slices n fun _ => t.slices[n] } t) ∧
      (c.state = .reading → ∃ t, exec (.cartridgeOvercurrent n) s = .next t ∧ (t.carts[n]).state = .faulted ∧ (t.carts[n]).v33 = false ∧
        Safety.Quiet { s with carts := upd s.carts n fun _ => t.carts[n] } t) ∧
      (c.state = .absent ∨ c.state = .faulted → exec (.cartridgeOvercurrent n) s = .next s) ∧
      (c.state = .active → c.writeDue = true ∨ doseDue s.aoCycles c = true →
        exec (.wearRecordWrite n true) s = .next (updCart n (fun x => { x with
          seq := x.seq + 1, useB := !x.useB, doseWritten := x.dose, lastWrite := some s.aoCycles, writeDue := false, writeFailed := 0,
          wearA := if x.useB then wearRecord n x ((x.seq.toNat + 1) % 2 ^ 32) else x.wearA,
          wearB := if x.useB then x.wearB else wearRecord n x ((x.seq.toNat + 1) % 2 ^ 32) }) s) ∧
        (c.writeFailed = 0 → exec (.wearRecordWrite n false) s = .next (updCart n (fun x => { x with writeFailed := 1 }) s)) ∧
        (c.writeFailed ≠ 0 → ∃ t, exec (.wearRecordWrite n false) s = .next t ∧
          Safety.Quiet (updCart n (fun x => { x with writeFailed := 0, writeDue := false, lastWrite := some s.aoCycles }) s) t)) ∧
      (c.state ≠ .active ∨ (c.writeDue = false ∧ doseDue s.aoCycles c = false) → ∀ ok, exec (.wearRecordWrite n ok) s = .next s) ∧
      (∀ up, WellFormed.instr (.cartridgeFirDerived n up) = true →
        (c.deriving_ = true → c.state = .active → exec (.cartridgeFirDerived n up) s =
          .next (updSlice n (fun x => { x with
            firNext := some (derivedSet n up s, .derived, 4096 * nextBlock n s), firInactive := derivedSet n up s })
            (updCart n (fun x => { x with deriving_ := false }) s))) ∧
        (c.deriving_ = false ∨ c.state ≠ .active → exec (.cartridgeFirDerived n up) s = .next s)))

/-! ### Engines and services (chapter 10) -/

/-- Engines (R305 to R310, R315). A corrected error is only counted. A failed engine is retired for good; the share of one that served moves to a reserve at the next frame, or its instance fails where no reserve is free; a free reserve is tested only in its turn, while nothing else
is tested and no throttle holds; a reserve that passes takes the share of the pair's next engine, which becomes the reserve, and one that fails is retired. -/
def Obligations.EnginesFailAndRotate : Prop :=
  ∀ s : State, live s = true →
    (∀ f : EngineFault, f.error = .corrected → exec (.engineFail f) s = .next { s with eng := { s.eng with
      ecc := min (2 ^ 64 - 1) (s.eng.ecc + 1), eccOvf := s.eng.eccOvf || decide (s.eng.ecc + 1 = 2 ^ 64 - 1) } }) ∧
    (∀ f : EngineFault, f.error ≠ .corrected → f.engine.val ∈ s.eng.retired → exec (.engineFail f) s = .next s) ∧
    (∀ (f : EngineFault) (e : Fin 256), f.error ≠ .corrected → f.engine = e → e.val ∉ s.eng.retired →
      (∀ (i : Fin 16) (r : Nat), servedBy s e.val = some i → chooseReserve s e.val = some r → ∃ t, exec (.engineFail f) s = .next t ∧
        t.eng.retired = e.val :: s.eng.retired ∧ t.eng.moving = s.eng.moving ++ [(e.val, r, i.val)] ∧ (∀ p : Fin 8, t.eng.reserve[p] ≠ some r) ∧
        (t.insts[i]).faults = (frameNow s.insts[i] s, e.val) :: (s.insts[i]).faults ∧
        (t.insts[i]).moved = ((s.insts[i]).moved || !(s.insts[i]).queue.isEmpty) ∧ (t.insts[i]).state = (s.insts[i]).state ∧
        (∀ k : Fin 16, k ≠ i → t.insts[k] = s.insts[k]) ∧ Safety.Quiet { s with eng := t.eng, insts := t.insts } t) ∧
      (∀ i : Fin 16, servedBy s e.val = some i → chooseReserve s e.val = none → ∃ t, exec (.engineFail f) s = .next t ∧
        t.eng = { s.eng with retired := e.val :: s.eng.retired } ∧ (t.insts[i]).state = .failed ∧
        (∀ k : Fin 16, k ≠ i → t.insts[k] = s.insts[k]) ∧ Safety.Quiet { s with eng := t.eng, insts := t.insts } t) ∧
      (servedBy s e.val = none → (∀ m ∈ s.eng.moving, m.2.1 ≠ e.val) → ∃ t, exec (.engineFail f) s = .next t ∧ t.eng.retired = e.val :: s.eng.retired ∧ t.insts = s.insts ∧
        (∀ p : Fin 8, t.eng.reserve[p] ≠ some e.val) ∧ Safety.Quiet { s with eng := t.eng } t) ∧
      (∀ m ∈ s.eng.moving, servedBy s e.val = none → m.2.1 = e.val → ∃ t, exec (.engineFail f) s = .next t ∧
        t.eng.retired = e.val :: s.eng.retired ∧ (∀ q ∈ t.eng.moving, q.2.1 ≠ e.val) ∧
        Safety.Quiet { s with eng := t.eng, insts := t.insts } t)) ∧
    (∀ (e : Fin 256) (r : Nat) (i : Fin 16), (s.eng.moving.find? fun m => m.1 = e.val) = some (e.val, r, i.val) →
      ∃ t, exec (.engMigrate e) s = .next t ∧ t.eng = { s.eng with moving := s.eng.moving.filter fun m => m.1 != e.val } ∧
        (t.insts[i]).engines = (s.insts[i]).engines.map (fun y => if y = e.val then r else y) ∧ (t.insts[i]).migrated = true ∧
        (t.insts[i]).queue = (s.insts[i]).queue ∧ (∀ k : Fin 16, k ≠ i → t.insts[k] = s.insts[k]) ∧ Safety.Quiet { s with eng := t.eng, insts := t.insts } t) ∧
    (∀ e : Fin 256, (s.eng.moving.find? fun m => m.1 = e.val) = none → exec (.engMigrate e) s = .next s) ∧
    (∀ pair : Fin 8,
      ((s.eng.reserve[pair]).isSome = true → s.eng.selftest = none → s.eng.throttled = false → turnDue pair s = true →
        exec (.reserveRotation pair) s = .next { s with eng := { s.eng with
          selftest := some pair.val, turnAt := s.eng.turnAt.set pair.val (some s.aoCycles) } }) ∧
      ((s.eng.reserve[pair]) = none ∨ s.eng.selftest ≠ none ∨ s.eng.throttled = true ∨ turnDue pair s = false →
        exec (.reserveRotation pair) s = .next s) ∧
      (s.eng.selftest ≠ some pair.val ∨ s.eng.throttled = true → ∀ f, exec (.selftestDone pair f) s = .next s) ∧
      (∀ r, s.eng.selftest = some pair.val → s.eng.throttled = false → s.eng.reserve[pair] = some r →
        (nextTested { s with eng := { s.eng with tested := r :: s.eng.tested } } pair.val r = none →
          ∃ t, exec (.selftestDone pair none) s = .next t ∧ t.eng = { s.eng with
              selftest := none, tested := (r :: s.eng.tested).filter fun e => e / 32 != pair.val } ∧ t.insts = s.insts) ∧
        (∀ e, nextTested { s with eng := { s.eng with tested := r :: s.eng.tested } } pair.val r = some e →
          ∃ t, exec (.selftestDone pair none) s = .next t ∧ t.eng = { s.eng with
              selftest := none, tested := r :: s.eng.tested, reserve := s.eng.reserve.set pair.val (some e) } ∧
            (∀ i : Fin 16, t.insts[i] = { s.insts[i] with engines := (s.insts[i]).engines.map fun y => if y = e then r else y }) ∧
            t = { s with eng := t.eng, insts := t.insts }) ∧
        (∀ f : Fin 3, r ∉ s.eng.retired → servedBy s r = none → ∃ t, exec (.selftestDone pair (some f)) s = .next t ∧
          t.eng.retired = r :: s.eng.retired ∧ t.eng.selftest = none ∧ t.insts = s.insts ∧
          t.health = { s.health with istFailed := s.health.istFailed ||| 8 })))

/-- Services at work (R313, R315, R317, R318, R326, R327, R330, R331). A loaded instance switches to its new settings, running, with its queue let go and no average begun. A SPECTRAL instance that runs, or that failed in a later frame, delivers at a hop that ends a spectrum, and at no other.
MEASURE writes the 128 bytes of its record of a retained segment into the segment and lets the segment go; RECORD_AVERAGE adds the segment at the head of its queue. -/
def Obligations.ServicesAtWork : Prop :=
  ∀ s : State, live s = true →
    (∀ (i : Fin 16) (c : SvcCfg), (s.insts[i]).next = some c → ∃ t, exec (.serviceSwitch i) s = .next t ∧ (t.insts[i]).cfg = some c ∧
      (t.insts[i]).next = none ∧ (t.insts[i]).state = .running ∧ (t.insts[i]).switchAt = nextSample s ∧ (t.insts[i]).queue = [] ∧
      (t.insts[i]).sums = [] ∧ (t.insts[i]).added = 0 ∧ (∀ k : Fin 16, k ≠ i → t.insts[k] = s.insts[k]) ∧
      t.slices = s.slices ∧ t.hostMem = s.hostMem ∧ t.eng = s.eng) ∧
    (∀ i : Fin 16, (s.insts[i]).next = none → exec (.serviceSwitch i) s = .next s) ∧
    (∀ (i : Fin 8) (hop : Nat) (r : SpectrumReads) (s' : State), WellFormed.instr (.spectrumDeliver i hop r) = true →
      s' = feltParity ⟨8 + i.val, by omega⟩ r.parity (scrubbed r.ecc s) →
      let x := s.insts[(Fin.castLE (by decide) i : Fin 16)]
      (∀ c : SpCfg, x.cfg = some (.spectral c) →
        (delivers x hop = true → hopDue x c hop s' = true → ∃ t, exec (.spectrumDeliver i hop r) s = .next t ∧
          (t.insts[(Fin.castLE (by decide) i : Fin 16)]).lastHop = some hop ∧
          (t.insts[(Fin.castLE (by decide) i : Fin 16)]).faults = (x.faults.filter fun f => decide (hop < f.1)) ∧
          (t.insts[(Fin.castLE (by decide) i : Fin 16)]).cfg = x.cfg ∧ t.slices = s'.slices ∧ t.eng = s.eng) ∧
        (delivers x hop = false ∨ hopDue x c hop s' = false → exec (.spectrumDeliver i hop r) s = .next s')) ∧
      ((∀ c : SpCfg, x.cfg ≠ some (.spectral c)) → exec (.spectrumDeliver i hop r) s = .next s')) ∧
    (∀ (n : Fin 4) (i : Fin 16) (ecc : ScrubResult) (s' : State), i.val = 8 + n.val → s' = scrubbed ecc s →
      ((s.insts[i]).queue = [] → exec (.measureRecord { unit := n, ecc := ecc }) s = .next s') ∧
      (∀ (c : MsCfg) (g : Segment) (seq : Nat) (rest : List Nat), (s.insts[i]).cfg = some (.measure c) → (s.insts[i]).queue = seq :: rest →
        (s.insts[i]).state = .running → (s.insts[i]).next = none → findSeg s' seq = some g →
        ∃ t, exec (.measureRecord { unit := n, ecc := ecc }) s = .next t ∧ (t.insts[i]).queue = rest ∧ (t.insts[i]).moved = false ∧
          (∀ k : Fin 16, k ≠ i → t.insts[k] = s.insts[k]) ∧ t.slices = s'.slices ∧
          (g.retention = .retained → ∃ h, findSeg t seq = some h ∧ h.meas = measBytes c g ((measure c g s').1.1.map measWord) (s.insts[i]).moved
            false (measure c g s').1.2 s ∧ h.engReaders = g.engReaders - 1))) ∧
    (∀ (n : Fin 4) (i : Fin 16) (ecc : ScrubResult) (s' : State), i.val = 12 + n.val → s' = scrubbed ecc s →
      ((s.insts[i]).queue = [] → exec (.averageAdd { unit := n, ecc := ecc }) s = .next s') ∧
      (∀ (c : RaCfg) (g : Segment) (seq : Nat) (rest : List Nat), (s.insts[i]).cfg = some (.average c) → (s.insts[i]).queue = seq :: rest →
        (s.insts[i]).state = .running → (s.insts[i]).next = none → findSeg s' seq = some g → (s.insts[i]).added + 1 ≠ c.count →
        ∃ t, exec (.averageAdd { unit := n, ecc := ecc }) s = .next t ∧ (t.insts[i]).queue = rest ∧ (t.insts[i]).added = (s.insts[i]).added + 1 ∧
          (t.insts[i]).lastSeq = seq ∧ (t.insts[i]).leftOut = (s.insts[i]).leftOut ∧
          ((s.insts[i]).added = 0 → (t.insts[i]).firstSeq = seq ∧ (t.insts[i]).firstT = g.t ∧ (t.insts[i]).sums = averageData c g) ∧
          ((s.insts[i]).added ≠ 0 → (t.insts[i]).firstSeq = (s.insts[i]).firstSeq ∧
            (t.insts[i]).sums = (s.insts[i]).sums.zipWith (fun a b => a.zipWith (· + ·) b) (averageData c g)) ∧
          t = { s' with insts := upd s.insts i fun _ => t.insts[i], mem := t.mem }) ∧
      (∀ (c : RaCfg) (g : Segment) (seq : Nat) (rest : List Nat), (s.insts[i]).cfg = some (.average c) → (s.insts[i]).queue = seq :: rest →
        (s.insts[i]).state = .running → (s.insts[i]).next = none → findSeg s' seq = some g → (s.insts[i]).added + 1 = c.count →
        ∃ t, exec (.averageAdd { unit := n, ecc := ecc }) s = .next t ∧ (t.insts[i]).added = 0 ∧ (t.insts[i]).sums = [] ∧ (t.insts[i]).stopped = !c.again ∧
          (c.again = false → (t.insts[i]).queue = []) ∧ (c.again = true → (t.insts[i]).queue = rest)))

/-! ### The Brim ring (chapter 12) -/

/-- Brim links (R74, R382, R383, R385, R386, R388, R402). Without a SYN-T band no link trains or reaches UP. A link that reaches UP ends ALONE; a link that goes DOWN, for abandoned flits only after 64 within 1 ms, forgets the flits it keeps, and the last one leaves the member ALONE. A retransmission resends the kept flits
from the one asked for, each at most three times and within 200 ns; an abandoned flit is counted. DELAY_REQ is sent with its stamp, answered with the arrival as T2, and the answer gives the link delay, averaged over 128 exchanges. -/
def Obligations.BrimLinks : Prop :=
  ∀ (p : Fin 4) (s : State), live s = true →
    let l := s.brim.links[p]
    (l.state ≠ .up → s.clk.noBand[(3 : Fin 4)] = false → ∃ t, exec (.brimLinkUp p) s = .next t ∧ t.brim.links = upd s.brim.links p (fun x => { x with state := .up }) ∧
      (s.brim.ring = .alone ∨ s.brim.ring = .forming → t.brim.ring = .forming) ∧ Safety.Quiet { s with brim := t.brim } t) ∧
    (l.state = .up ∨ s.clk.noBand[(3 : Fin 4)] = true → exec (.brimLinkUp p) s = .next s) ∧
    (∀ gaveUp, (l.state ≠ .down → (gaveUp = true → gaveUp64 p s = true) → ∃ t, exec (.brimLinkDown p gaveUp) s = .next t ∧
        t.brim.links = upd s.brim.links p (fun x => { x with state := .down, kept := [], abandoned := [], sentT1 := none, samples := [] }) ∧
        ((∀ q : Fin 4, q ≠ p → (s.brim.links[q]).state = .down) → t.brim.ring = .alone) ∧
        ((∃ q : Fin 4, q ≠ p ∧ (s.brim.links[q]).state ≠ .down) → s.brim.ring = .formed → t.brim.ring = .degraded) ∧ Safety.Quiet { s with brim := t.brim } t) ∧
      (l.state = .down ∨ (gaveUp = true ∧ gaveUp64 p s = false) → exec (.brimLinkDown p gaveUp) s = .next s)) ∧
    (s.clk.noBand[(3 : Fin 4)] = true → exec (.brimLinkTraining p) s = .next s) ∧
    (l.state = .down → s.clk.noBand[(3 : Fin 4)] = false → exec (.brimLinkTraining p) s = .next (updLink p (fun x => { x with state := .training }) s)) ∧
    (l.state ≠ .down → exec (.brimLinkTraining p) s = .next s) ∧
    (∀ i : Nat, (linkUp s p = false → exec (.flitRetransmit p i) s = .next s) ∧
      (linkUp s p = true → (∀ k ∈ l.kept, k.2.2 < 3 ∧ lcNow s ≤ k.2.1 + keepLc s) → exec (.flitRetransmit p i) s =
        .next (updLink p (fun x => { x with
          sent := ((l.kept.reverse.drop i).map (·.1)).reverse ++ x.sent,
          kept := (l.kept.reverse.take i ++ (l.kept.reverse.drop i).map fun (k : List Byte × Nat × Nat) => (k.1, k.2.1, k.2.2 + 1)).reverse }) s)) ∧
      (linkUp s p = true → (∀ k ∈ l.kept, 3 ≤ k.2.2 ∨ k.2.1 + keepLc s < lcNow s) → exec (.flitRetransmit p i) s = .next s)) ∧
    (∃ t, exec (.flitAbandon p) s = .next t ∧ t.brim.counters[(5 : Fin 6)] = min (2 ^ 64 - 1) (s.brim.counters[(5 : Fin 6)] + 1) ∧
      t.brim.links = upd s.brim.links p (fun x => { x with kept := x.kept.dropLast, abandoned := (lcNow s :: x.abandoned).take 64 }) ∧
      Safety.Quiet { s with brim := { s.brim with links := t.brim.links, counters := t.brim.counters, ovf := t.brim.ovf } } t) ∧
    (linkUp s p = true → ∃ t f, exec (.delayReqSend p) s = .next t ∧ (t.brim.links[p]).sent = f :: l.sent ∧ flitKind f = 0x05 ∧
      (t.brim.links[p]).sentT1 = some (flitT f) ∧ (∀ q : Fin 4, q ≠ p → t.brim.links[q] = s.brim.links[q]) ∧
      t = { s with brim := { s.brim with links := t.brim.links }, freeCtr := t.freeCtr }) ∧
    (linkUp s p = false → exec (.delayReqSend p) s = .next s) ∧
    (∀ rx : Rx, rx.link = p → rx.flit.length = 64 →
      (linkUp s p = false ∨ crcOk rx.flit = false → exec (.delayReq rx) s = .next s ∧ exec (.delayResp rx) s = .next s) ∧
      (linkUp s p = true → crcOk rx.flit = true →
        (∃ t f, exec (.delayReq rx) s = .next t ∧ (t.brim.links[p]).sent = f :: l.sent ∧ flitKind f = 0x06 ∧
          flitBody f 0x20 12 = rx.arrival.toNat ∧ t = { s with brim := { s.brim with links := t.brim.links }, freeCtr := t.freeCtr }) ∧
        (l.sentT1 = none → exec (.delayResp rx) s = .next s) ∧
        (∀ t1, l.sentT1 = some t1 →
          let t2 := BitVec.ofNat 96 (flitBody rx.flit 0x20 12)
          let d := (tsDiff rx.arrival t1 - tsDiff (flitT rx.flit) t2) / 2
          let θ := (tsDiff t2 t1 - tsDiff rx.arrival (flitT rx.flit)) / 2
          exec (.delayResp rx) s = .next (updLink p (fun x => { x with
            samples := ((d, θ) :: x.samples).take 128, delay := average ((((d, θ) :: x.samples).take 128).map (·.1)), sentT1 := none }) s))))

/-- Flooded messages (R383, R387, R391, R395 to R397, R400). A flit that arrives on a link that is not UP, with a bad CRC, or whose key is recorded has no effect. A new TRIGGER from an agreeing peer is queued while it is in time, and counted
as late, dropped or rejected otherwise; with more than 64 sites seen it has no effect; a queued trigger whose instant has come leaves the queue; STOP stops the sequencers of the mask; EPOCH records its sender's epoch state. -/
def Obligations.FloodedMessages : Prop :=
  ∀ (rx : Rx) (s : State), live s = true → rx.flit.length = 64 →
    let f := rx.flit
    let o := flitOrigin f
    let x := s.brim.peers[o]
    let agrees : Prop := flitTb f % 4 = 2 ∧ s.tb.state = .set ∧ x.valid = true ∧ x.fsKhz = BitVec.ofNat 32 s.clk.fsKhzNow
    let margin := tsDiff (flitT f) rx.arrival + lsysUnits s
    (linkUp s rx.link = false ∨ crcOk f = false ∨ dupCheck s.brim.dup[o] (flitSeq f) = none →
      exec (.triggerMessage rx) s = .next s ∧ exec (.stopMessage rx) s = .next s ∧ exec (.epochMessage rx) s = .next s ∧
      exec (.statusMessage rx) s = .next s) ∧
    (∀ table, linkUp s rx.link = true → crcOk f = true → dupCheck s.brim.dup[o] (flitSeq f) = some table →
      (∃ t, exec (.epochMessage rx) s = .next t ∧ t.brim.dup = s.brim.dup.set o.val (some table) ∧
        t.brim.peers = upd s.brim.peers o (fun x => { x with epoch := flitTb f % 4 }) ∧ Safety.Quiet { s with brim := t.brim } t) ∧
      (∃ t, exec (.stopMessage rx) s = .next t ∧ t.brim.dup = s.brim.dup.set o.val (some table) ∧
        (∀ a ∈ maskAs s.brim.stopMask.toNat, armed s.seqs[a] = true →
          (t.seqs[a]).state = .idle ∧ (t.seqs[a]).stopAt = some (commitSample s) ∧ (t.seqs[a]).openSeg = none) ∧
        (∀ a : Fin 4, a ∉ maskAs s.brim.stopMask.toNat ∨ armed s.seqs[a] = false →
          t.seqs[a] = { s.seqs[a] with stopEvent := (t.seqs[a]).stopEvent })) ∧
      (s.brim.tooMany = true → exec (.triggerMessage rx) s = .next s) ∧
      (s.brim.tooMany = false → ∃ t, exec (.triggerMessage rx) s = .next t ∧ t.brim.dup = s.brim.dup.set o.val (some table) ∧
        (¬ agrees → t.brim.queue = s.brim.queue ∧ t.tus = s.tus ∧
          t.brim.counters[(2 : Fin 6)] = min (2 ^ 64 - 1) (s.brim.counters[(2 : Fin 6)] + 1)) ∧
        (agrees → 0 ≤ margin → s.brim.queue.length < 32768 →
          t.brim.queue = s.brim.queue ++ [{ cls := flitClass f % 16, t := flitT f, late := false }] ∧
          t = { s with brim := t.brim, freeCtr := t.freeCtr }) ∧
        (agrees → 0 ≤ margin → 32768 ≤ s.brim.queue.length → t.brim.queue = s.brim.queue ∧
          t.brim.counters[(4 : Fin 6)] = min (2 ^ 64 - 1) (s.brim.counters[(4 : Fin 6)] + 1)) ∧
        (agrees → margin < 0 → t.brim.queue = s.brim.queue ∧
          (tooOld s (flitT f) = true → t.tus = s.tus ∧
            t.brim.counters[(1 : Fin 6)] = min (2 ^ 64 - 1) (s.brim.counters[(1 : Fin 6)] + 1)) ∧
          (tooOld s (flitT f) = false → t.brim.counters[(0 : Fin 6)] = min (2 ^ 64 - 1) (s.brim.counters[(0 : Fin 6)] + 1))))) ∧
    ((∀ m ∈ s.brim.queue, 0 < tsDiff m.t (tsOf s (takenSample s + 39)) + lsysUnits s) → exec .triggerPresent s = .next s) ∧
    (∀ m ∈ s.brim.queue, tsDiff m.t (tsOf s (takenSample s + 39)) + lsysUnits s ≤ 0 →
      ∃ t w, exec .triggerPresent s = .next t ∧ w ∈ s.brim.queue ∧ tsDiff w.t (tsOf s (takenSample s + 39)) + lsysUnits s ≤ 0 ∧
        t.brim = { s.brim with queue := s.brim.queue.erase w } ∧ t = { s with brim := t.brim, tus := t.tus })

/-- Membership of the ring (R380, R385, R388, R389, R392, R402, R405). STATUS and DISCOVER leave on every link that is UP. A STATUS makes its sender valid and reachable and shows whether it agrees; a peer not heard for 10 ms is stale; a mismatch
clears once every peer agrees. A DISCOVER records its sender's serial. The ring forms from the agreed list of sites: positions go from the lowest serial on, and the ring is FORMED where every link is UP and no site is dark. -/
def Obligations.RingMembership : Prop :=
  ∀ s : State, live s = true →
    (anyLinkUp s = true → (∃ t, exec .statusSend s = .next t ∧ t.brim.seq = nextSeq s.brim.seq ∧
        (∀ p : Fin 4, linkUp s p = true → ∃ f, (t.brim.links[p]).sent = f :: (s.brim.links[p]).sent ∧ flitKind f = 0x04 ∧ flitSeq f = s.brim.seq) ∧
        Safety.Quiet { s with brim := t.brim } t) ∧
      (s.brim.discovered = false → ∃ t, exec .discoverSend s = .next t ∧ t.brim.discovered = true ∧ t.brim.seq = s.brim.seq ∧
        (∀ p : Fin 4, linkUp s p = true → ∃ f, (t.brim.links[p]).sent = f :: (s.brim.links[p]).sent ∧ flitKind f = 0x07 ∧ flitSeq f = 0) ∧
        t = { s with brim := t.brim, freeCtr := t.freeCtr }) ∧
      (s.brim.discovered = true → ∃ t, exec .discoverSend s = .next t ∧ t.brim.seq = nextSeq s.brim.seq ∧
        (∀ p : Fin 4, linkUp s p = true → ∃ f, (t.brim.links[p]).sent = f :: (s.brim.links[p]).sent ∧ flitKind f = 0x07 ∧ flitSeq f = s.brim.seq) ∧
        t = { s with brim := t.brim, freeCtr := t.freeCtr })) ∧
    (anyLinkUp s = false → exec .statusSend s = .next s ∧ exec .discoverSend s = .next s) ∧
    (∀ (rx : Rx) (table : DupTable), rx.flit.length = 64 → linkUp s rx.link = true → crcOk rx.flit = true →
      dupCheck s.brim.dup[flitOrigin rx.flit] (flitSeq rx.flit) = some table →
      let o := flitOrigin rx.flit
      ∃ t, exec (.statusMessage rx) s = .next t ∧ (t.brim.peers[o]).valid = true ∧ (t.brim.peers[o]).stale = false ∧
        (t.brim.peers[o]).fsKhz = BitVec.ofNat 32 (flitBody rx.flit 0x20 4) ∧ (t.brim.peers[o]).epoch = flitTb rx.flit % 4 ∧
        (t.brim.peers[o]).agrees = (statusDiffers rx.flit s).isNone ∧
        t.brim.cfgMismatch = (s.brim.cfgMismatch || (statusDiffers rx.flit s).isSome) ∧
        (∀ k : Fin 64, k ≠ o → t.brim.peers[k] = s.brim.peers[k]) ∧ Safety.Quiet { s with brim := t.brim } t) ∧
    (∀ n : Fin 64, n.val ≠ s.brim.position → (s.brim.peers[n]).stale = false → (s.brim.peers[n]).valid = true →
      ∃ t, exec (.peerStale n) s = .next t ∧ t.brim.peers = upd s.brim.peers n (fun x => { x with stale := true }) ∧
        Safety.Quiet { s with brim := t.brim } t) ∧
    (∀ n : Fin 64, n.val = s.brim.position ∨ (s.brim.peers[n]).stale = true → exec (.peerStale n) s = .next s) ∧
    (exec .cfgMismatchClear s = .next (if peersAgree s.brim then { s with brim := { s.brim with cfgMismatch := false } } else s)) ∧
    (∀ rx : Rx, rx.flit.length = 64 →
      (linkUp s rx.link = false ∨ crcOk rx.flit = false → exec (.discover rx) s = .next s) ∧
      (linkUp s rx.link = true → crcOk rx.flit = true → ∃ t, exec (.discover rx) s = .next t ∧
        t.brim.peers = upd s.brim.peers (flitOrigin rx.flit) (fun x => { x with serial := discoverSerial rx.flit }) ∧
        Safety.Quiet { s with brim := t.brim } t)) ∧
    (∀ list, WellFormed.sites list = true →
      (s.brim.ring ≠ .forming ∨ list.length < 2 → exec (.ringFormed list) s = .next s) ∧
      (s.brim.ring = .forming → 64 < list.length → ∃ t, exec (.ringFormed list) s = .next t ∧ t.brim = { s.brim with tooMany := true } ∧
        Safety.Quiet { s with brim := t.brim } t) ∧
      (∀ pos, s.brim.ring = .forming → 2 ≤ list.length → list.length ≤ 64 → ownPosition (rotateSites list) = some pos →
        ∃ t, exec (.ringFormed list) s = .next t ∧ t.brim.sites = rotateSites list ∧ t.brim.position = pos ∧ t.brim.tooMany = false ∧
          (∀ n : Fin 64, (t.brim.peers[n]).valid = false ∧ (t.brim.peers[n]).stale = false) ∧
          ((∀ p : Fin 4, linkUp s p = true) → (∀ x ∈ list, x.2 = false) → t.brim.ring = .formed) ∧
          ((∃ p : Fin 4, linkUp s p = false) ∨ (∃ x ∈ list, x.2 = true) → t.brim.ring = .degraded) ∧
          (∀ p : Fin 4, (t.brim.links[p]).state = (s.brim.links[p]).state ∧ (t.brim.links[p]).farPos = neighbour list.length pos p) ∧
          t.brim.lsysShort = decide (s.brim.lsysNs ≤ 400 * hDeg list.length) ∧
          Safety.Quiet { s with brim := t.brim } t))

/-! ### The test access port (chapter 13) -/

/-- The test access port (R435, R436). EXTEST, EXTEST_PULSE, EXTEST_TRAIN, CLAMP and HIGHZ act only while PERST# is asserted and as BYPASS otherwise; asserting PERST# leaves the port as it is, and the loss of the main rails resets it. A TCK edge moves the controller and nothing outside the port; five edges with TMS high, or TRST, lead to reset with IDCODE in every die; the instructions that were shifted in take effect when the controller
updates them; a die captures its identity, or the one zero bit of BYPASS; a test instruction reaches the boundary-scan cells only while PERST# is asserted. Without the main rails nothing happens. -/
def Obligations.TestAccessPort : Prop :=
  (∀ ir : Byte, ir = 0x00 ∨ ir = 0x03 ∨ ir = 0x04 ∨ ir = 0x05 ∨ ir = 0x06 → actingIr true ir = ir ∧ actingIr false ir = 0xFF) ∧
  ∀ s : State,
    (∃ t, exec .perstAssert s = .next t ∧ t.tap = s.tap) ∧
    (s.pwr.railsOn = true → ∃ t, exec .vmainLow s = .next t ∧ t.tap = Tap.reset) ∧
    exec .trstAssert s = .next { s with tap := { s.tap with state := .testLogicReset, ir := Vector.replicate 8 0x01 } } ∧
    (s.pwr.railsOn = false → ∀ m d, exec (.tckEdge m d) s = .next s) ∧
    (s.pwr.railsOn = true →
      (∀ m d, ∃ t, exec (.tckEdge m d) s = .next t ∧ t.tap.state = tapNext m s.tap.state ∧ t = { s with tap := t.tap, freeCtr := t.freeCtr }) ∧
      (∀ d1 d2 d3 d4 d5, ∃ t1 t2 t3 t4 t5, exec (.tckEdge true d1) s = .next t1 ∧ exec (.tckEdge true d2) t1 = .next t2 ∧
        exec (.tckEdge true d3) t2 = .next t3 ∧ exec (.tckEdge true d4) t3 = .next t4 ∧ exec (.tckEdge true d5) t4 = .next t5 ∧
        t5.tap.state = .testLogicReset ∧ t5.tap.ir = Vector.replicate 8 0x01) ∧
      (s.tap.state = .updateIr → ∀ m d, ∃ t, exec (.tckEdge m d) s = .next t ∧ t.tap.shift = s.tap.shift ∧ t.tap.cells = s.tap.cells ∧
        ∀ k : Fin 8, t.tap.ir[k] = BitVec.ofNat 8 (ofBits s.tap.shift[k])) ∧
      (s.tap.state = .captureDr → ∀ m d, ∃ t, exec (.tckEdge m d) s = .next t ∧ t.tap.ir = s.tap.ir ∧ t.tap.cells = s.tap.cells ∧
        (∀ k : Fin 8, s.tap.ir[k] = 0x01 → t.tap.shift[k] = bitsOf 32 (idcode k.val).toNat) ∧
        (∀ k : Fin 8, s.tap.ir[k] ≠ 0x01 → s.tap.ir[k] ≠ 0x02 → s.pwr.perst = false ∨ s.tap.ir[k] = 0xFF → t.tap.shift[k] = [false])) ∧
      (s.tap.state = .shiftDr ∨ s.tap.state = .shiftIr → ∀ m d, ∃ t, exec (.tckEdge m d) s = .next t ∧ t.tap.ir = s.tap.ir ∧
        t.tap.cells = s.tap.cells ∧ t.tap.tdo = (shiftChain d s.tap.shift.toList).2) ∧
      (s.tap.state = .updateDr → ∀ m d, ∃ t, exec (.tckEdge m d) s = .next t ∧ t.tap.ir = s.tap.ir ∧ t.tap.shift = s.tap.shift ∧
        ∀ k : Fin 8, t.tap.cells[k] = (if usesCells (actingIr s.pwr.perst s.tap.ir[k]) then s.tap.shift[k] else s.tap.cells[k])))
end

