-- ==== Sys2Proof/Laws/State.lean ====
section
/-!
SUPPORT. Laws of the updates: what each field of the state holds after each named update, true by unfolding, so that no proof has
to unfold a record update.
-/
namespace Sys2Proof.Machine

section
variable (a : Nat) (l : List Byte) (s : State)
@[simp] theorem hostWrite_pending : (hostWrite a l s).pending = s.pending := rfl
@[simp] theorem hostWrite_aoCycles : (hostWrite a l s).aoCycles = s.aoCycles := rfl
@[simp] theorem hostWrite_freeCtr : (hostWrite a l s).freeCtr = s.freeCtr := rfl
@[simp] theorem hostWrite_busRead : (hostWrite a l s).busRead = s.busRead := rfl
@[simp] theorem hostWrite_hostMem : (hostWrite a l s).hostMem = Memory.writeAll s.hostMem a l := rfl
@[simp] theorem hostWrite_hif : (hostWrite a l s).hif = s.hif := rfl
@[simp] theorem hostWrite_pwr : (hostWrite a l s).pwr = s.pwr := rfl
@[simp] theorem hostWrite_boot : (hostWrite a l s).boot = s.boot := rfl
@[simp] theorem hostWrite_health : (hostWrite a l s).health = s.health := rfl
@[simp] theorem hostWrite_tap : (hostWrite a l s).tap = s.tap := rfl
@[simp] theorem hostWrite_clk : (hostWrite a l s).clk = s.clk := rfl
@[simp] theorem hostWrite_proof : (hostWrite a l s).proof = s.proof := rfl
@[simp] theorem hostWrite_slices : (hostWrite a l s).slices = s.slices := rfl
@[simp] theorem hostWrite_carts : (hostWrite a l s).carts = s.carts := rfl
@[simp] theorem hostWrite_tb : (hostWrite a l s).tb = s.tb := rfl
@[simp] theorem hostWrite_tacs : (hostWrite a l s).tacs = s.tacs := rfl
@[simp] theorem hostWrite_timers : (hostWrite a l s).timers = s.timers := rfl
@[simp] theorem hostWrite_tus : (hostWrite a l s).tus = s.tus := rfl
@[simp] theorem hostWrite_auxEdges : (hostWrite a l s).auxEdges = s.auxEdges := rfl
@[simp] theorem hostWrite_seqs : (hostWrite a l s).seqs = s.seqs := rfl
@[simp] theorem hostWrite_trigCfg : (hostWrite a l s).trigCfg = s.trigCfg := rfl
@[simp] theorem hostWrite_trigouts : (hostWrite a l s).trigouts = s.trigouts := rfl
@[simp] theorem hostWrite_mem : (hostWrite a l s).mem = s.mem := rfl
@[simp] theorem hostWrite_reds : (hostWrite a l s).reds = s.reds := rfl
@[simp] theorem hostWrite_ddcs : (hostWrite a l s).ddcs = s.ddcs := rfl
@[simp] theorem hostWrite_felts : (hostWrite a l s).felts = s.felts := rfl
@[simp] theorem hostWrite_masks : (hostWrite a l s).masks = s.masks := rfl
@[simp] theorem hostWrite_eng : (hostWrite a l s).eng = s.eng := rfl
@[simp] theorem hostWrite_insts : (hostWrite a l s).insts = s.insts := rfl
@[simp] theorem hostWrite_brim : (hostWrite a l s).brim = s.brim := rfl
@[simp] theorem hostWrite_upd : (hostWrite a l s).upd = s.upd := rfl
@[simp] theorem hostWrite_cfg : (hostWrite a l s).cfg = s.cfg := rfl
@[simp] theorem hostWrite_acc : (hostWrite a l s).acc = s.acc := rfl
@[simp] theorem hostWrite_admission : (hostWrite a l s).admission = s.admission := rfl
end

section
variable (v : Fin 64) (s : State)
@[simp] theorem pendVector_pending : (pendVector v s).pending = s.pending := rfl
@[simp] theorem pendVector_aoCycles : (pendVector v s).aoCycles = s.aoCycles := rfl
@[simp] theorem pendVector_freeCtr : (pendVector v s).freeCtr = s.freeCtr := rfl
@[simp] theorem pendVector_busRead : (pendVector v s).busRead = s.busRead := rfl
@[simp] theorem pendVector_hostMem : (pendVector v s).hostMem = s.hostMem := rfl
@[simp] theorem pendVector_hif_cmdEn : (pendVector v s).hif.cmdEn = s.hif.cmdEn := rfl
@[simp] theorem pendVector_hif_torn : (pendVector v s).hif.torn = s.hif.torn := rfl
@[simp] theorem pendVector_hif_badAccess : (pendVector v s).hif.badAccess = s.hif.badAccess := rfl
@[simp] theorem pendVector_hif_cmdPaused : (pendVector v s).hif.cmdPaused = s.hif.cmdPaused := rfl
@[simp] theorem pendVector_hif_urgentSeen : (pendVector v s).hif.urgentSeen = s.hif.urgentSeen := rfl
@[simp] theorem pendVector_hif_hostMemErr : (pendVector v s).hif.hostMemErr = s.hif.hostMemErr := rfl
@[simp] theorem pendVector_hif_linkGen : (pendVector v s).hif.linkGen = s.hif.linkGen := rfl
@[simp] theorem pendVector_hif_linkWidth : (pendVector v s).hif.linkWidth = s.hif.linkWidth := rfl
@[simp] theorem pendVector_hif_linkUp : (pendVector v s).hif.linkUp = s.hif.linkUp := rfl
@[simp] theorem pendVector_hif_linkRecovery : (pendVector v s).hif.linkRecovery = s.hif.linkRecovery := rfl
@[simp] theorem pendVector_hif_busMaster : (pendVector v s).hif.busMaster = s.hif.busMaster := rfl
@[simp] theorem pendVector_hif_msixEnable : (pendVector v s).hif.msixEnable = s.hif.msixEnable := rfl
@[simp] theorem pendVector_hif_msixMask : (pendVector v s).hif.msixMask = s.hif.msixMask := rfl
@[simp] theorem pendVector_hif_latch : (pendVector v s).hif.latch = s.hif.latch := rfl
@[simp] theorem pendVector_hif_qps : (pendVector v s).hif.qps = s.hif.qps := rfl
@[simp] theorem pendVector_hif_ev : (pendVector v s).hif.ev = s.hif.ev := rfl
@[simp] theorem pendVector_hif_vecs : (pendVector v s).hif.vecs = Machine.upd s.hif.vecs v fun x => { x with pending := true } := rfl
@[simp] theorem pendVector_hif_streams : (pendVector v s).hif.streams = s.hif.streams := rfl
@[simp] theorem pendVector_hif_lastQp : (pendVector v s).hif.lastQp = s.hif.lastQp := rfl
@[simp] theorem pendVector_hif_sent : (pendVector v s).hif.sent = s.hif.sent := rfl
@[simp] theorem pendVector_hif_retries : (pendVector v s).hif.retries = s.hif.retries := rfl
@[simp] theorem pendVector_pwr : (pendVector v s).pwr = s.pwr := rfl
@[simp] theorem pendVector_boot : (pendVector v s).boot = s.boot := rfl
@[simp] theorem pendVector_health : (pendVector v s).health = s.health := rfl
@[simp] theorem pendVector_tap : (pendVector v s).tap = s.tap := rfl
@[simp] theorem pendVector_clk : (pendVector v s).clk = s.clk := rfl
@[simp] theorem pendVector_proof : (pendVector v s).proof = s.proof := rfl
@[simp] theorem pendVector_slices : (pendVector v s).slices = s.slices := rfl
@[simp] theorem pendVector_carts : (pendVector v s).carts = s.carts := rfl
@[simp] theorem pendVector_tb : (pendVector v s).tb = s.tb := rfl
@[simp] theorem pendVector_tacs : (pendVector v s).tacs = s.tacs := rfl
@[simp] theorem pendVector_timers : (pendVector v s).timers = s.timers := rfl
@[simp] theorem pendVector_tus : (pendVector v s).tus = s.tus := rfl
@[simp] theorem pendVector_auxEdges : (pendVector v s).auxEdges = s.auxEdges := rfl
@[simp] theorem pendVector_seqs : (pendVector v s).seqs = s.seqs := rfl
@[simp] theorem pendVector_trigCfg : (pendVector v s).trigCfg = s.trigCfg := rfl
@[simp] theorem pendVector_trigouts : (pendVector v s).trigouts = s.trigouts := rfl
@[simp] theorem pendVector_mem : (pendVector v s).mem = s.mem := rfl
@[simp] theorem pendVector_reds : (pendVector v s).reds = s.reds := rfl
@[simp] theorem pendVector_ddcs : (pendVector v s).ddcs = s.ddcs := rfl
@[simp] theorem pendVector_felts : (pendVector v s).felts = s.felts := rfl
@[simp] theorem pendVector_masks : (pendVector v s).masks = s.masks := rfl
@[simp] theorem pendVector_eng : (pendVector v s).eng = s.eng := rfl
@[simp] theorem pendVector_insts : (pendVector v s).insts = s.insts := rfl
@[simp] theorem pendVector_brim : (pendVector v s).brim = s.brim := rfl
@[simp] theorem pendVector_upd : (pendVector v s).upd = s.upd := rfl
@[simp] theorem pendVector_cfg : (pendVector v s).cfg = s.cfg := rfl
@[simp] theorem pendVector_acc : (pendVector v s).acc = s.acc := rfl
@[simp] theorem pendVector_admission : (pendVector v s).admission = s.admission := rfl
end

section
variable (n : Fin 256) (f : EvSource → EvSource) (s : State)
@[simp] theorem updSource_pending : (updSource n f s).pending = s.pending := rfl
@[simp] theorem updSource_aoCycles : (updSource n f s).aoCycles = s.aoCycles := rfl
@[simp] theorem updSource_freeCtr : (updSource n f s).freeCtr = s.freeCtr := rfl
@[simp] theorem updSource_busRead : (updSource n f s).busRead = s.busRead := rfl
@[simp] theorem updSource_hostMem : (updSource n f s).hostMem = s.hostMem := rfl
@[simp] theorem updSource_hif_cmdEn : (updSource n f s).hif.cmdEn = s.hif.cmdEn := rfl
@[simp] theorem updSource_hif_torn : (updSource n f s).hif.torn = s.hif.torn := rfl
@[simp] theorem updSource_hif_badAccess : (updSource n f s).hif.badAccess = s.hif.badAccess := rfl
@[simp] theorem updSource_hif_cmdPaused : (updSource n f s).hif.cmdPaused = s.hif.cmdPaused := rfl
@[simp] theorem updSource_hif_urgentSeen : (updSource n f s).hif.urgentSeen = s.hif.urgentSeen := rfl
@[simp] theorem updSource_hif_hostMemErr : (updSource n f s).hif.hostMemErr = s.hif.hostMemErr := rfl
@[simp] theorem updSource_hif_linkGen : (updSource n f s).hif.linkGen = s.hif.linkGen := rfl
@[simp] theorem updSource_hif_linkWidth : (updSource n f s).hif.linkWidth = s.hif.linkWidth := rfl
@[simp] theorem updSource_hif_linkUp : (updSource n f s).hif.linkUp = s.hif.linkUp := rfl
@[simp] theorem updSource_hif_linkRecovery : (updSource n f s).hif.linkRecovery = s.hif.linkRecovery := rfl
@[simp] theorem updSource_hif_busMaster : (updSource n f s).hif.busMaster = s.hif.busMaster := rfl
@[simp] theorem updSource_hif_msixEnable : (updSource n f s).hif.msixEnable = s.hif.msixEnable := rfl
@[simp] theorem updSource_hif_msixMask : (updSource n f s).hif.msixMask = s.hif.msixMask := rfl
@[simp] theorem updSource_hif_latch : (updSource n f s).hif.latch = s.hif.latch := rfl
@[simp] theorem updSource_hif_qps : (updSource n f s).hif.qps = s.hif.qps := rfl
@[simp] theorem updSource_hif_ev : (updSource n f s).hif.ev = { s.hif.ev with src := Machine.upd s.hif.ev.src n f } := rfl
@[simp] theorem updSource_hif_vecs : (updSource n f s).hif.vecs = s.hif.vecs := rfl
@[simp] theorem updSource_hif_streams : (updSource n f s).hif.streams = s.hif.streams := rfl
@[simp] theorem updSource_hif_lastQp : (updSource n f s).hif.lastQp = s.hif.lastQp := rfl
@[simp] theorem updSource_hif_sent : (updSource n f s).hif.sent = s.hif.sent := rfl
@[simp] theorem updSource_hif_retries : (updSource n f s).hif.retries = s.hif.retries := rfl
@[simp] theorem updSource_pwr : (updSource n f s).pwr = s.pwr := rfl
@[simp] theorem updSource_boot : (updSource n f s).boot = s.boot := rfl
@[simp] theorem updSource_health : (updSource n f s).health = s.health := rfl
@[simp] theorem updSource_tap : (updSource n f s).tap = s.tap := rfl
@[simp] theorem updSource_clk : (updSource n f s).clk = s.clk := rfl
@[simp] theorem updSource_proof : (updSource n f s).proof = s.proof := rfl
@[simp] theorem updSource_slices : (updSource n f s).slices = s.slices := rfl
@[simp] theorem updSource_carts : (updSource n f s).carts = s.carts := rfl
@[simp] theorem updSource_tb : (updSource n f s).tb = s.tb := rfl
@[simp] theorem updSource_tacs : (updSource n f s).tacs = s.tacs := rfl
@[simp] theorem updSource_timers : (updSource n f s).timers = s.timers := rfl
@[simp] theorem updSource_tus : (updSource n f s).tus = s.tus := rfl
@[simp] theorem updSource_auxEdges : (updSource n f s).auxEdges = s.auxEdges := rfl
@[simp] theorem updSource_seqs : (updSource n f s).seqs = s.seqs := rfl
@[simp] theorem updSource_trigCfg : (updSource n f s).trigCfg = s.trigCfg := rfl
@[simp] theorem updSource_trigouts : (updSource n f s).trigouts = s.trigouts := rfl
@[simp] theorem updSource_mem : (updSource n f s).mem = s.mem := rfl
@[simp] theorem updSource_reds : (updSource n f s).reds = s.reds := rfl
@[simp] theorem updSource_ddcs : (updSource n f s).ddcs = s.ddcs := rfl
@[simp] theorem updSource_felts : (updSource n f s).felts = s.felts := rfl
@[simp] theorem updSource_masks : (updSource n f s).masks = s.masks := rfl
@[simp] theorem updSource_eng : (updSource n f s).eng = s.eng := rfl
@[simp] theorem updSource_insts : (updSource n f s).insts = s.insts := rfl
@[simp] theorem updSource_brim : (updSource n f s).brim = s.brim := rfl
@[simp] theorem updSource_upd : (updSource n f s).upd = s.upd := rfl
@[simp] theorem updSource_cfg : (updSource n f s).cfg = s.cfg := rfl
@[simp] theorem updSource_acc : (updSource n f s).acc = s.acc := rfl
@[simp] theorem updSource_admission : (updSource n f s).admission = s.admission := rfl
end

section
variable (f : Health → Health) (s : State)
@[simp] theorem updHealth_pending : (updHealth f s).pending = s.pending := rfl
@[simp] theorem updHealth_aoCycles : (updHealth f s).aoCycles = s.aoCycles := rfl
@[simp] theorem updHealth_freeCtr : (updHealth f s).freeCtr = s.freeCtr := rfl
@[simp] theorem updHealth_busRead : (updHealth f s).busRead = s.busRead := rfl
@[simp] theorem updHealth_hostMem : (updHealth f s).hostMem = s.hostMem := rfl
@[simp] theorem updHealth_hif : (updHealth f s).hif = s.hif := rfl
@[simp] theorem updHealth_pwr : (updHealth f s).pwr = s.pwr := rfl
@[simp] theorem updHealth_boot : (updHealth f s).boot = s.boot := rfl
@[simp] theorem updHealth_health : (updHealth f s).health = f s.health := rfl
@[simp] theorem updHealth_tap : (updHealth f s).tap = s.tap := rfl
@[simp] theorem updHealth_clk : (updHealth f s).clk = s.clk := rfl
@[simp] theorem updHealth_proof : (updHealth f s).proof = s.proof := rfl
@[simp] theorem updHealth_slices : (updHealth f s).slices = s.slices := rfl
@[simp] theorem updHealth_carts : (updHealth f s).carts = s.carts := rfl
@[simp] theorem updHealth_tb : (updHealth f s).tb = s.tb := rfl
@[simp] theorem updHealth_tacs : (updHealth f s).tacs = s.tacs := rfl
@[simp] theorem updHealth_timers : (updHealth f s).timers = s.timers := rfl
@[simp] theorem updHealth_tus : (updHealth f s).tus = s.tus := rfl
@[simp] theorem updHealth_auxEdges : (updHealth f s).auxEdges = s.auxEdges := rfl
@[simp] theorem updHealth_seqs : (updHealth f s).seqs = s.seqs := rfl
@[simp] theorem updHealth_trigCfg : (updHealth f s).trigCfg = s.trigCfg := rfl
@[simp] theorem updHealth_trigouts : (updHealth f s).trigouts = s.trigouts := rfl
@[simp] theorem updHealth_mem : (updHealth f s).mem = s.mem := rfl
@[simp] theorem updHealth_reds : (updHealth f s).reds = s.reds := rfl
@[simp] theorem updHealth_ddcs : (updHealth f s).ddcs = s.ddcs := rfl
@[simp] theorem updHealth_felts : (updHealth f s).felts = s.felts := rfl
@[simp] theorem updHealth_masks : (updHealth f s).masks = s.masks := rfl
@[simp] theorem updHealth_eng : (updHealth f s).eng = s.eng := rfl
@[simp] theorem updHealth_insts : (updHealth f s).insts = s.insts := rfl
@[simp] theorem updHealth_brim : (updHealth f s).brim = s.brim := rfl
@[simp] theorem updHealth_upd : (updHealth f s).upd = s.upd := rfl
@[simp] theorem updHealth_cfg : (updHealth f s).cfg = s.cfg := rfl
@[simp] theorem updHealth_acc : (updHealth f s).acc = s.acc := rfl
@[simp] theorem updHealth_admission : (updHealth f s).admission = s.admission := rfl
end

section
variable (n : Fin 64) (f : QPair → QPair) (s : State)
@[simp] theorem updQp_pending : (updQp n f s).pending = s.pending := rfl
@[simp] theorem updQp_aoCycles : (updQp n f s).aoCycles = s.aoCycles := rfl
@[simp] theorem updQp_freeCtr : (updQp n f s).freeCtr = s.freeCtr := rfl
@[simp] theorem updQp_busRead : (updQp n f s).busRead = s.busRead := rfl
@[simp] theorem updQp_hostMem : (updQp n f s).hostMem = s.hostMem := rfl
@[simp] theorem updQp_hif_cmdEn : (updQp n f s).hif.cmdEn = s.hif.cmdEn := rfl
@[simp] theorem updQp_hif_torn : (updQp n f s).hif.torn = s.hif.torn := rfl
@[simp] theorem updQp_hif_badAccess : (updQp n f s).hif.badAccess = s.hif.badAccess := rfl
@[simp] theorem updQp_hif_cmdPaused : (updQp n f s).hif.cmdPaused = s.hif.cmdPaused := rfl
@[simp] theorem updQp_hif_urgentSeen : (updQp n f s).hif.urgentSeen = s.hif.urgentSeen := rfl
@[simp] theorem updQp_hif_hostMemErr : (updQp n f s).hif.hostMemErr = s.hif.hostMemErr := rfl
@[simp] theorem updQp_hif_linkGen : (updQp n f s).hif.linkGen = s.hif.linkGen := rfl
@[simp] theorem updQp_hif_linkWidth : (updQp n f s).hif.linkWidth = s.hif.linkWidth := rfl
@[simp] theorem updQp_hif_linkUp : (updQp n f s).hif.linkUp = s.hif.linkUp := rfl
@[simp] theorem updQp_hif_linkRecovery : (updQp n f s).hif.linkRecovery = s.hif.linkRecovery := rfl
@[simp] theorem updQp_hif_busMaster : (updQp n f s).hif.busMaster = s.hif.busMaster := rfl
@[simp] theorem updQp_hif_msixEnable : (updQp n f s).hif.msixEnable = s.hif.msixEnable := rfl
@[simp] theorem updQp_hif_msixMask : (updQp n f s).hif.msixMask = s.hif.msixMask := rfl
@[simp] theorem updQp_hif_latch : (updQp n f s).hif.latch = s.hif.latch := rfl
@[simp] theorem updQp_hif_qps : (updQp n f s).hif.qps = Machine.upd s.hif.qps n f := rfl
@[simp] theorem updQp_hif_ev : (updQp n f s).hif.ev = s.hif.ev := rfl
@[simp] theorem updQp_hif_vecs : (updQp n f s).hif.vecs = s.hif.vecs := rfl
@[simp] theorem updQp_hif_streams : (updQp n f s).hif.streams = s.hif.streams := rfl
@[simp] theorem updQp_hif_lastQp : (updQp n f s).hif.lastQp = s.hif.lastQp := rfl
@[simp] theorem updQp_hif_sent : (updQp n f s).hif.sent = s.hif.sent := rfl
@[simp] theorem updQp_hif_retries : (updQp n f s).hif.retries = s.hif.retries := rfl
@[simp] theorem updQp_pwr : (updQp n f s).pwr = s.pwr := rfl
@[simp] theorem updQp_boot : (updQp n f s).boot = s.boot := rfl
@[simp] theorem updQp_health : (updQp n f s).health = s.health := rfl
@[simp] theorem updQp_tap : (updQp n f s).tap = s.tap := rfl
@[simp] theorem updQp_clk : (updQp n f s).clk = s.clk := rfl
@[simp] theorem updQp_proof : (updQp n f s).proof = s.proof := rfl
@[simp] theorem updQp_slices : (updQp n f s).slices = s.slices := rfl
@[simp] theorem updQp_carts : (updQp n f s).carts = s.carts := rfl
@[simp] theorem updQp_tb : (updQp n f s).tb = s.tb := rfl
@[simp] theorem updQp_tacs : (updQp n f s).tacs = s.tacs := rfl
@[simp] theorem updQp_timers : (updQp n f s).timers = s.timers := rfl
@[simp] theorem updQp_tus : (updQp n f s).tus = s.tus := rfl
@[simp] theorem updQp_auxEdges : (updQp n f s).auxEdges = s.auxEdges := rfl
@[simp] theorem updQp_seqs : (updQp n f s).seqs = s.seqs := rfl
@[simp] theorem updQp_trigCfg : (updQp n f s).trigCfg = s.trigCfg := rfl
@[simp] theorem updQp_trigouts : (updQp n f s).trigouts = s.trigouts := rfl
@[simp] theorem updQp_mem : (updQp n f s).mem = s.mem := rfl
@[simp] theorem updQp_reds : (updQp n f s).reds = s.reds := rfl
@[simp] theorem updQp_ddcs : (updQp n f s).ddcs = s.ddcs := rfl
@[simp] theorem updQp_felts : (updQp n f s).felts = s.felts := rfl
@[simp] theorem updQp_masks : (updQp n f s).masks = s.masks := rfl
@[simp] theorem updQp_eng : (updQp n f s).eng = s.eng := rfl
@[simp] theorem updQp_insts : (updQp n f s).insts = s.insts := rfl
@[simp] theorem updQp_brim : (updQp n f s).brim = s.brim := rfl
@[simp] theorem updQp_upd : (updQp n f s).upd = s.upd := rfl
@[simp] theorem updQp_cfg : (updQp n f s).cfg = s.cfg := rfl
@[simp] theorem updQp_acc : (updQp n f s).acc = s.acc := rfl
@[simp] theorem updQp_admission : (updQp n f s).admission = s.admission := rfl
end

section
variable (i : Fin 64) (x : Option Stream) (s : State)
@[simp] theorem setStream_pending : (setStream i x s).pending = s.pending := rfl
@[simp] theorem setStream_aoCycles : (setStream i x s).aoCycles = s.aoCycles := rfl
@[simp] theorem setStream_freeCtr : (setStream i x s).freeCtr = s.freeCtr := rfl
@[simp] theorem setStream_busRead : (setStream i x s).busRead = s.busRead := rfl
@[simp] theorem setStream_hostMem : (setStream i x s).hostMem = s.hostMem := rfl
@[simp] theorem setStream_hif_cmdEn : (setStream i x s).hif.cmdEn = s.hif.cmdEn := rfl
@[simp] theorem setStream_hif_torn : (setStream i x s).hif.torn = s.hif.torn := rfl
@[simp] theorem setStream_hif_badAccess : (setStream i x s).hif.badAccess = s.hif.badAccess := rfl
@[simp] theorem setStream_hif_cmdPaused : (setStream i x s).hif.cmdPaused = s.hif.cmdPaused := rfl
@[simp] theorem setStream_hif_urgentSeen : (setStream i x s).hif.urgentSeen = s.hif.urgentSeen := rfl
@[simp] theorem setStream_hif_hostMemErr : (setStream i x s).hif.hostMemErr = s.hif.hostMemErr := rfl
@[simp] theorem setStream_hif_linkGen : (setStream i x s).hif.linkGen = s.hif.linkGen := rfl
@[simp] theorem setStream_hif_linkWidth : (setStream i x s).hif.linkWidth = s.hif.linkWidth := rfl
@[simp] theorem setStream_hif_linkUp : (setStream i x s).hif.linkUp = s.hif.linkUp := rfl
@[simp] theorem setStream_hif_linkRecovery : (setStream i x s).hif.linkRecovery = s.hif.linkRecovery := rfl
@[simp] theorem setStream_hif_busMaster : (setStream i x s).hif.busMaster = s.hif.busMaster := rfl
@[simp] theorem setStream_hif_msixEnable : (setStream i x s).hif.msixEnable = s.hif.msixEnable := rfl
@[simp] theorem setStream_hif_msixMask : (setStream i x s).hif.msixMask = s.hif.msixMask := rfl
@[simp] theorem setStream_hif_latch : (setStream i x s).hif.latch = s.hif.latch := rfl
@[simp] theorem setStream_hif_qps : (setStream i x s).hif.qps = s.hif.qps := rfl
@[simp] theorem setStream_hif_ev : (setStream i x s).hif.ev = s.hif.ev := rfl
@[simp] theorem setStream_hif_vecs : (setStream i x s).hif.vecs = s.hif.vecs := rfl
@[simp] theorem setStream_hif_streams : (setStream i x s).hif.streams = s.hif.streams.set i x := rfl
@[simp] theorem setStream_hif_lastQp : (setStream i x s).hif.lastQp = s.hif.lastQp := rfl
@[simp] theorem setStream_hif_sent : (setStream i x s).hif.sent = s.hif.sent := rfl
@[simp] theorem setStream_hif_retries : (setStream i x s).hif.retries = s.hif.retries := rfl
@[simp] theorem setStream_pwr : (setStream i x s).pwr = s.pwr := rfl
@[simp] theorem setStream_boot : (setStream i x s).boot = s.boot := rfl
@[simp] theorem setStream_health : (setStream i x s).health = s.health := rfl
@[simp] theorem setStream_tap : (setStream i x s).tap = s.tap := rfl
@[simp] theorem setStream_clk : (setStream i x s).clk = s.clk := rfl
@[simp] theorem setStream_proof : (setStream i x s).proof = s.proof := rfl
@[simp] theorem setStream_slices : (setStream i x s).slices = s.slices := rfl
@[simp] theorem setStream_carts : (setStream i x s).carts = s.carts := rfl
@[simp] theorem setStream_tb : (setStream i x s).tb = s.tb := rfl
@[simp] theorem setStream_tacs : (setStream i x s).tacs = s.tacs := rfl
@[simp] theorem setStream_timers : (setStream i x s).timers = s.timers := rfl
@[simp] theorem setStream_tus : (setStream i x s).tus = s.tus := rfl
@[simp] theorem setStream_auxEdges : (setStream i x s).auxEdges = s.auxEdges := rfl
@[simp] theorem setStream_seqs : (setStream i x s).seqs = s.seqs := rfl
@[simp] theorem setStream_trigCfg : (setStream i x s).trigCfg = s.trigCfg := rfl
@[simp] theorem setStream_trigouts : (setStream i x s).trigouts = s.trigouts := rfl
@[simp] theorem setStream_mem : (setStream i x s).mem = s.mem := rfl
@[simp] theorem setStream_reds : (setStream i x s).reds = s.reds := rfl
@[simp] theorem setStream_ddcs : (setStream i x s).ddcs = s.ddcs := rfl
@[simp] theorem setStream_felts : (setStream i x s).felts = s.felts := rfl
@[simp] theorem setStream_masks : (setStream i x s).masks = s.masks := rfl
@[simp] theorem setStream_eng : (setStream i x s).eng = s.eng := rfl
@[simp] theorem setStream_insts : (setStream i x s).insts = s.insts := rfl
@[simp] theorem setStream_brim : (setStream i x s).brim = s.brim := rfl
@[simp] theorem setStream_upd : (setStream i x s).upd = s.upd := rfl
@[simp] theorem setStream_cfg : (setStream i x s).cfg = s.cfg := rfl
@[simp] theorem setStream_acc : (setStream i x s).acc = s.acc := rfl
@[simp] theorem setStream_admission : (setStream i x s).admission = s.admission := rfl
end

section
variable (f : Power → Power) (s : State)
@[simp] theorem updPwr_pending : (updPwr f s).pending = s.pending := rfl
@[simp] theorem updPwr_aoCycles : (updPwr f s).aoCycles = s.aoCycles := rfl
@[simp] theorem updPwr_freeCtr : (updPwr f s).freeCtr = s.freeCtr := rfl
@[simp] theorem updPwr_busRead : (updPwr f s).busRead = s.busRead := rfl
@[simp] theorem updPwr_hostMem : (updPwr f s).hostMem = s.hostMem := rfl
@[simp] theorem updPwr_hif : (updPwr f s).hif = s.hif := rfl
@[simp] theorem updPwr_pwr : (updPwr f s).pwr = f s.pwr := rfl
@[simp] theorem updPwr_boot : (updPwr f s).boot = s.boot := rfl
@[simp] theorem updPwr_health : (updPwr f s).health = s.health := rfl
@[simp] theorem updPwr_tap : (updPwr f s).tap = s.tap := rfl
@[simp] theorem updPwr_clk : (updPwr f s).clk = s.clk := rfl
@[simp] theorem updPwr_proof : (updPwr f s).proof = s.proof := rfl
@[simp] theorem updPwr_slices : (updPwr f s).slices = s.slices := rfl
@[simp] theorem updPwr_carts : (updPwr f s).carts = s.carts := rfl
@[simp] theorem updPwr_tb : (updPwr f s).tb = s.tb := rfl
@[simp] theorem updPwr_tacs : (updPwr f s).tacs = s.tacs := rfl
@[simp] theorem updPwr_timers : (updPwr f s).timers = s.timers := rfl
@[simp] theorem updPwr_tus : (updPwr f s).tus = s.tus := rfl
@[simp] theorem updPwr_auxEdges : (updPwr f s).auxEdges = s.auxEdges := rfl
@[simp] theorem updPwr_seqs : (updPwr f s).seqs = s.seqs := rfl
@[simp] theorem updPwr_trigCfg : (updPwr f s).trigCfg = s.trigCfg := rfl
@[simp] theorem updPwr_trigouts : (updPwr f s).trigouts = s.trigouts := rfl
@[simp] theorem updPwr_mem : (updPwr f s).mem = s.mem := rfl
@[simp] theorem updPwr_reds : (updPwr f s).reds = s.reds := rfl
@[simp] theorem updPwr_ddcs : (updPwr f s).ddcs = s.ddcs := rfl
@[simp] theorem updPwr_felts : (updPwr f s).felts = s.felts := rfl
@[simp] theorem updPwr_masks : (updPwr f s).masks = s.masks := rfl
@[simp] theorem updPwr_eng : (updPwr f s).eng = s.eng := rfl
@[simp] theorem updPwr_insts : (updPwr f s).insts = s.insts := rfl
@[simp] theorem updPwr_brim : (updPwr f s).brim = s.brim := rfl
@[simp] theorem updPwr_upd : (updPwr f s).upd = s.upd := rfl
@[simp] theorem updPwr_cfg : (updPwr f s).cfg = s.cfg := rfl
@[simp] theorem updPwr_acc : (updPwr f s).acc = s.acc := rfl
@[simp] theorem updPwr_admission : (updPwr f s).admission = s.admission := rfl
end

section
variable (f : Boot → Boot) (s : State)
@[simp] theorem updBoot_pending : (updBoot f s).pending = s.pending := rfl
@[simp] theorem updBoot_aoCycles : (updBoot f s).aoCycles = s.aoCycles := rfl
@[simp] theorem updBoot_freeCtr : (updBoot f s).freeCtr = s.freeCtr := rfl
@[simp] theorem updBoot_busRead : (updBoot f s).busRead = s.busRead := rfl
@[simp] theorem updBoot_hostMem : (updBoot f s).hostMem = s.hostMem := rfl
@[simp] theorem updBoot_hif : (updBoot f s).hif = s.hif := rfl
@[simp] theorem updBoot_pwr : (updBoot f s).pwr = s.pwr := rfl
@[simp] theorem updBoot_boot : (updBoot f s).boot = f s.boot := rfl
@[simp] theorem updBoot_health : (updBoot f s).health = s.health := rfl
@[simp] theorem updBoot_tap : (updBoot f s).tap = s.tap := rfl
@[simp] theorem updBoot_clk : (updBoot f s).clk = s.clk := rfl
@[simp] theorem updBoot_proof : (updBoot f s).proof = s.proof := rfl
@[simp] theorem updBoot_slices : (updBoot f s).slices = s.slices := rfl
@[simp] theorem updBoot_carts : (updBoot f s).carts = s.carts := rfl
@[simp] theorem updBoot_tb : (updBoot f s).tb = s.tb := rfl
@[simp] theorem updBoot_tacs : (updBoot f s).tacs = s.tacs := rfl
@[simp] theorem updBoot_timers : (updBoot f s).timers = s.timers := rfl
@[simp] theorem updBoot_tus : (updBoot f s).tus = s.tus := rfl
@[simp] theorem updBoot_auxEdges : (updBoot f s).auxEdges = s.auxEdges := rfl
@[simp] theorem updBoot_seqs : (updBoot f s).seqs = s.seqs := rfl
@[simp] theorem updBoot_trigCfg : (updBoot f s).trigCfg = s.trigCfg := rfl
@[simp] theorem updBoot_trigouts : (updBoot f s).trigouts = s.trigouts := rfl
@[simp] theorem updBoot_mem : (updBoot f s).mem = s.mem := rfl
@[simp] theorem updBoot_reds : (updBoot f s).reds = s.reds := rfl
@[simp] theorem updBoot_ddcs : (updBoot f s).ddcs = s.ddcs := rfl
@[simp] theorem updBoot_felts : (updBoot f s).felts = s.felts := rfl
@[simp] theorem updBoot_masks : (updBoot f s).masks = s.masks := rfl
@[simp] theorem updBoot_eng : (updBoot f s).eng = s.eng := rfl
@[simp] theorem updBoot_insts : (updBoot f s).insts = s.insts := rfl
@[simp] theorem updBoot_brim : (updBoot f s).brim = s.brim := rfl
@[simp] theorem updBoot_upd : (updBoot f s).upd = s.upd := rfl
@[simp] theorem updBoot_cfg : (updBoot f s).cfg = s.cfg := rfl
@[simp] theorem updBoot_acc : (updBoot f s).acc = s.acc := rfl
@[simp] theorem updBoot_admission : (updBoot f s).admission = s.admission := rfl
end

section
variable (l : Fin 2) (f : Level → Level) (s : State)
@[simp] theorem updLevel_pending : (updLevel l f s).pending = s.pending := rfl
@[simp] theorem updLevel_aoCycles : (updLevel l f s).aoCycles = s.aoCycles := rfl
@[simp] theorem updLevel_freeCtr : (updLevel l f s).freeCtr = s.freeCtr := rfl
@[simp] theorem updLevel_busRead : (updLevel l f s).busRead = s.busRead := rfl
@[simp] theorem updLevel_hostMem : (updLevel l f s).hostMem = s.hostMem := rfl
@[simp] theorem updLevel_hif : (updLevel l f s).hif = s.hif := rfl
@[simp] theorem updLevel_pwr : (updLevel l f s).pwr = s.pwr := rfl
@[simp] theorem updLevel_boot : (updLevel l f s).boot = s.boot := rfl
@[simp] theorem updLevel_health : (updLevel l f s).health = s.health := rfl
@[simp] theorem updLevel_tap : (updLevel l f s).tap = s.tap := rfl
@[simp] theorem updLevel_clk : (updLevel l f s).clk = s.clk := rfl
@[simp] theorem updLevel_proof : (updLevel l f s).proof = s.proof := rfl
@[simp] theorem updLevel_slices : (updLevel l f s).slices = s.slices := rfl
@[simp] theorem updLevel_carts : (updLevel l f s).carts = s.carts := rfl
@[simp] theorem updLevel_tb : (updLevel l f s).tb = s.tb := rfl
@[simp] theorem updLevel_tacs : (updLevel l f s).tacs = s.tacs := rfl
@[simp] theorem updLevel_timers : (updLevel l f s).timers = s.timers := rfl
@[simp] theorem updLevel_tus : (updLevel l f s).tus = s.tus := rfl
@[simp] theorem updLevel_auxEdges : (updLevel l f s).auxEdges = s.auxEdges := rfl
@[simp] theorem updLevel_seqs : (updLevel l f s).seqs = s.seqs := rfl
@[simp] theorem updLevel_trigCfg : (updLevel l f s).trigCfg = s.trigCfg := rfl
@[simp] theorem updLevel_trigouts : (updLevel l f s).trigouts = s.trigouts := rfl
@[simp] theorem updLevel_mem : (updLevel l f s).mem = s.mem := rfl
@[simp] theorem updLevel_reds : (updLevel l f s).reds = s.reds := rfl
@[simp] theorem updLevel_ddcs : (updLevel l f s).ddcs = s.ddcs := rfl
@[simp] theorem updLevel_felts : (updLevel l f s).felts = s.felts := rfl
@[simp] theorem updLevel_masks : (updLevel l f s).masks = s.masks := rfl
@[simp] theorem updLevel_eng : (updLevel l f s).eng = s.eng := rfl
@[simp] theorem updLevel_insts : (updLevel l f s).insts = s.insts := rfl
@[simp] theorem updLevel_brim : (updLevel l f s).brim = s.brim := rfl
@[simp] theorem updLevel_upd : (updLevel l f s).upd = s.upd := rfl
@[simp] theorem updLevel_cfg : (updLevel l f s).cfg = s.cfg := rfl
@[simp] theorem updLevel_acc : (updLevel l f s).acc = { s.acc with level := Machine.upd s.acc.level l f } := rfl
@[simp] theorem updLevel_admission : (updLevel l f s).admission = s.admission := rfl
end

section
variable (f : Brim → Brim) (s : State)
@[simp] theorem updBrim_pending : (updBrim f s).pending = s.pending := rfl
@[simp] theorem updBrim_aoCycles : (updBrim f s).aoCycles = s.aoCycles := rfl
@[simp] theorem updBrim_freeCtr : (updBrim f s).freeCtr = s.freeCtr := rfl
@[simp] theorem updBrim_busRead : (updBrim f s).busRead = s.busRead := rfl
@[simp] theorem updBrim_hostMem : (updBrim f s).hostMem = s.hostMem := rfl
@[simp] theorem updBrim_hif : (updBrim f s).hif = s.hif := rfl
@[simp] theorem updBrim_pwr : (updBrim f s).pwr = s.pwr := rfl
@[simp] theorem updBrim_boot : (updBrim f s).boot = s.boot := rfl
@[simp] theorem updBrim_health : (updBrim f s).health = s.health := rfl
@[simp] theorem updBrim_tap : (updBrim f s).tap = s.tap := rfl
@[simp] theorem updBrim_clk : (updBrim f s).clk = s.clk := rfl
@[simp] theorem updBrim_proof : (updBrim f s).proof = s.proof := rfl
@[simp] theorem updBrim_slices : (updBrim f s).slices = s.slices := rfl
@[simp] theorem updBrim_carts : (updBrim f s).carts = s.carts := rfl
@[simp] theorem updBrim_tb : (updBrim f s).tb = s.tb := rfl
@[simp] theorem updBrim_tacs : (updBrim f s).tacs = s.tacs := rfl
@[simp] theorem updBrim_timers : (updBrim f s).timers = s.timers := rfl
@[simp] theorem updBrim_tus : (updBrim f s).tus = s.tus := rfl
@[simp] theorem updBrim_auxEdges : (updBrim f s).auxEdges = s.auxEdges := rfl
@[simp] theorem updBrim_seqs : (updBrim f s).seqs = s.seqs := rfl
@[simp] theorem updBrim_trigCfg : (updBrim f s).trigCfg = s.trigCfg := rfl
@[simp] theorem updBrim_trigouts : (updBrim f s).trigouts = s.trigouts := rfl
@[simp] theorem updBrim_mem : (updBrim f s).mem = s.mem := rfl
@[simp] theorem updBrim_reds : (updBrim f s).reds = s.reds := rfl
@[simp] theorem updBrim_ddcs : (updBrim f s).ddcs = s.ddcs := rfl
@[simp] theorem updBrim_felts : (updBrim f s).felts = s.felts := rfl
@[simp] theorem updBrim_masks : (updBrim f s).masks = s.masks := rfl
@[simp] theorem updBrim_eng : (updBrim f s).eng = s.eng := rfl
@[simp] theorem updBrim_insts : (updBrim f s).insts = s.insts := rfl
@[simp] theorem updBrim_brim : (updBrim f s).brim = f s.brim := rfl
@[simp] theorem updBrim_upd : (updBrim f s).upd = s.upd := rfl
@[simp] theorem updBrim_cfg : (updBrim f s).cfg = s.cfg := rfl
@[simp] theorem updBrim_acc : (updBrim f s).acc = s.acc := rfl
@[simp] theorem updBrim_admission : (updBrim f s).admission = s.admission := rfl
end

section
variable (p : Fin 4) (f : BrimLink → BrimLink) (s : State)
@[simp] theorem updLink_pending : (updLink p f s).pending = s.pending := rfl
@[simp] theorem updLink_aoCycles : (updLink p f s).aoCycles = s.aoCycles := rfl
@[simp] theorem updLink_freeCtr : (updLink p f s).freeCtr = s.freeCtr := rfl
@[simp] theorem updLink_busRead : (updLink p f s).busRead = s.busRead := rfl
@[simp] theorem updLink_hostMem : (updLink p f s).hostMem = s.hostMem := rfl
@[simp] theorem updLink_hif : (updLink p f s).hif = s.hif := rfl
@[simp] theorem updLink_pwr : (updLink p f s).pwr = s.pwr := rfl
@[simp] theorem updLink_boot : (updLink p f s).boot = s.boot := rfl
@[simp] theorem updLink_health : (updLink p f s).health = s.health := rfl
@[simp] theorem updLink_tap : (updLink p f s).tap = s.tap := rfl
@[simp] theorem updLink_clk : (updLink p f s).clk = s.clk := rfl
@[simp] theorem updLink_proof : (updLink p f s).proof = s.proof := rfl
@[simp] theorem updLink_slices : (updLink p f s).slices = s.slices := rfl
@[simp] theorem updLink_carts : (updLink p f s).carts = s.carts := rfl
@[simp] theorem updLink_tb : (updLink p f s).tb = s.tb := rfl
@[simp] theorem updLink_tacs : (updLink p f s).tacs = s.tacs := rfl
@[simp] theorem updLink_timers : (updLink p f s).timers = s.timers := rfl
@[simp] theorem updLink_tus : (updLink p f s).tus = s.tus := rfl
@[simp] theorem updLink_auxEdges : (updLink p f s).auxEdges = s.auxEdges := rfl
@[simp] theorem updLink_seqs : (updLink p f s).seqs = s.seqs := rfl
@[simp] theorem updLink_trigCfg : (updLink p f s).trigCfg = s.trigCfg := rfl
@[simp] theorem updLink_trigouts : (updLink p f s).trigouts = s.trigouts := rfl
@[simp] theorem updLink_mem : (updLink p f s).mem = s.mem := rfl
@[simp] theorem updLink_reds : (updLink p f s).reds = s.reds := rfl
@[simp] theorem updLink_ddcs : (updLink p f s).ddcs = s.ddcs := rfl
@[simp] theorem updLink_felts : (updLink p f s).felts = s.felts := rfl
@[simp] theorem updLink_masks : (updLink p f s).masks = s.masks := rfl
@[simp] theorem updLink_eng : (updLink p f s).eng = s.eng := rfl
@[simp] theorem updLink_insts : (updLink p f s).insts = s.insts := rfl
@[simp] theorem updLink_brim : (updLink p f s).brim = { s.brim with links := Machine.upd s.brim.links p f } := rfl
@[simp] theorem updLink_upd : (updLink p f s).upd = s.upd := rfl
@[simp] theorem updLink_cfg : (updLink p f s).cfg = s.cfg := rfl
@[simp] theorem updLink_acc : (updLink p f s).acc = s.acc := rfl
@[simp] theorem updLink_admission : (updLink p f s).admission = s.admission := rfl
end

section
variable (n : Fin 64) (f : Peer → Peer) (s : State)
@[simp] theorem updPeer_pending : (updPeer n f s).pending = s.pending := rfl
@[simp] theorem updPeer_aoCycles : (updPeer n f s).aoCycles = s.aoCycles := rfl
@[simp] theorem updPeer_freeCtr : (updPeer n f s).freeCtr = s.freeCtr := rfl
@[simp] theorem updPeer_busRead : (updPeer n f s).busRead = s.busRead := rfl
@[simp] theorem updPeer_hostMem : (updPeer n f s).hostMem = s.hostMem := rfl
@[simp] theorem updPeer_hif : (updPeer n f s).hif = s.hif := rfl
@[simp] theorem updPeer_pwr : (updPeer n f s).pwr = s.pwr := rfl
@[simp] theorem updPeer_boot : (updPeer n f s).boot = s.boot := rfl
@[simp] theorem updPeer_health : (updPeer n f s).health = s.health := rfl
@[simp] theorem updPeer_tap : (updPeer n f s).tap = s.tap := rfl
@[simp] theorem updPeer_clk : (updPeer n f s).clk = s.clk := rfl
@[simp] theorem updPeer_proof : (updPeer n f s).proof = s.proof := rfl
@[simp] theorem updPeer_slices : (updPeer n f s).slices = s.slices := rfl
@[simp] theorem updPeer_carts : (updPeer n f s).carts = s.carts := rfl
@[simp] theorem updPeer_tb : (updPeer n f s).tb = s.tb := rfl
@[simp] theorem updPeer_tacs : (updPeer n f s).tacs = s.tacs := rfl
@[simp] theorem updPeer_timers : (updPeer n f s).timers = s.timers := rfl
@[simp] theorem updPeer_tus : (updPeer n f s).tus = s.tus := rfl
@[simp] theorem updPeer_auxEdges : (updPeer n f s).auxEdges = s.auxEdges := rfl
@[simp] theorem updPeer_seqs : (updPeer n f s).seqs = s.seqs := rfl
@[simp] theorem updPeer_trigCfg : (updPeer n f s).trigCfg = s.trigCfg := rfl
@[simp] theorem updPeer_trigouts : (updPeer n f s).trigouts = s.trigouts := rfl
@[simp] theorem updPeer_mem : (updPeer n f s).mem = s.mem := rfl
@[simp] theorem updPeer_reds : (updPeer n f s).reds = s.reds := rfl
@[simp] theorem updPeer_ddcs : (updPeer n f s).ddcs = s.ddcs := rfl
@[simp] theorem updPeer_felts : (updPeer n f s).felts = s.felts := rfl
@[simp] theorem updPeer_masks : (updPeer n f s).masks = s.masks := rfl
@[simp] theorem updPeer_eng : (updPeer n f s).eng = s.eng := rfl
@[simp] theorem updPeer_insts : (updPeer n f s).insts = s.insts := rfl
@[simp] theorem updPeer_brim : (updPeer n f s).brim = { s.brim with peers := Machine.upd s.brim.peers n f } := rfl
@[simp] theorem updPeer_upd : (updPeer n f s).upd = s.upd := rfl
@[simp] theorem updPeer_cfg : (updPeer n f s).cfg = s.cfg := rfl
@[simp] theorem updPeer_acc : (updPeer n f s).acc = s.acc := rfl
@[simp] theorem updPeer_admission : (updPeer n f s).admission = s.admission := rfl
end

section
variable (n : Fin 8) (f : Cart → Cart) (s : State)
@[simp] theorem updCart_pending : (updCart n f s).pending = s.pending := rfl
@[simp] theorem updCart_aoCycles : (updCart n f s).aoCycles = s.aoCycles := rfl
@[simp] theorem updCart_freeCtr : (updCart n f s).freeCtr = s.freeCtr := rfl
@[simp] theorem updCart_busRead : (updCart n f s).busRead = s.busRead := rfl
@[simp] theorem updCart_hostMem : (updCart n f s).hostMem = s.hostMem := rfl
@[simp] theorem updCart_hif : (updCart n f s).hif = s.hif := rfl
@[simp] theorem updCart_pwr : (updCart n f s).pwr = s.pwr := rfl
@[simp] theorem updCart_boot : (updCart n f s).boot = s.boot := rfl
@[simp] theorem updCart_health : (updCart n f s).health = s.health := rfl
@[simp] theorem updCart_tap : (updCart n f s).tap = s.tap := rfl
@[simp] theorem updCart_clk : (updCart n f s).clk = s.clk := rfl
@[simp] theorem updCart_proof : (updCart n f s).proof = s.proof := rfl
@[simp] theorem updCart_slices : (updCart n f s).slices = s.slices := rfl
@[simp] theorem updCart_carts : (updCart n f s).carts = Machine.upd s.carts n f := rfl
@[simp] theorem updCart_tb : (updCart n f s).tb = s.tb := rfl
@[simp] theorem updCart_tacs : (updCart n f s).tacs = s.tacs := rfl
@[simp] theorem updCart_timers : (updCart n f s).timers = s.timers := rfl
@[simp] theorem updCart_tus : (updCart n f s).tus = s.tus := rfl
@[simp] theorem updCart_auxEdges : (updCart n f s).auxEdges = s.auxEdges := rfl
@[simp] theorem updCart_seqs : (updCart n f s).seqs = s.seqs := rfl
@[simp] theorem updCart_trigCfg : (updCart n f s).trigCfg = s.trigCfg := rfl
@[simp] theorem updCart_trigouts : (updCart n f s).trigouts = s.trigouts := rfl
@[simp] theorem updCart_mem : (updCart n f s).mem = s.mem := rfl
@[simp] theorem updCart_reds : (updCart n f s).reds = s.reds := rfl
@[simp] theorem updCart_ddcs : (updCart n f s).ddcs = s.ddcs := rfl
@[simp] theorem updCart_felts : (updCart n f s).felts = s.felts := rfl
@[simp] theorem updCart_masks : (updCart n f s).masks = s.masks := rfl
@[simp] theorem updCart_eng : (updCart n f s).eng = s.eng := rfl
@[simp] theorem updCart_insts : (updCart n f s).insts = s.insts := rfl
@[simp] theorem updCart_brim : (updCart n f s).brim = s.brim := rfl
@[simp] theorem updCart_upd : (updCart n f s).upd = s.upd := rfl
@[simp] theorem updCart_cfg : (updCart n f s).cfg = s.cfg := rfl
@[simp] theorem updCart_acc : (updCart n f s).acc = s.acc := rfl
@[simp] theorem updCart_admission : (updCart n f s).admission = s.admission := rfl
end

section
variable (n : Fin 8) (f : Slice → Slice) (s : State)
@[simp] theorem updSlice_pending : (updSlice n f s).pending = s.pending := rfl
@[simp] theorem updSlice_aoCycles : (updSlice n f s).aoCycles = s.aoCycles := rfl
@[simp] theorem updSlice_freeCtr : (updSlice n f s).freeCtr = s.freeCtr := rfl
@[simp] theorem updSlice_busRead : (updSlice n f s).busRead = s.busRead := rfl
@[simp] theorem updSlice_hostMem : (updSlice n f s).hostMem = s.hostMem := rfl
@[simp] theorem updSlice_hif : (updSlice n f s).hif = s.hif := rfl
@[simp] theorem updSlice_pwr : (updSlice n f s).pwr = s.pwr := rfl
@[simp] theorem updSlice_boot : (updSlice n f s).boot = s.boot := rfl
@[simp] theorem updSlice_health : (updSlice n f s).health = s.health := rfl
@[simp] theorem updSlice_tap : (updSlice n f s).tap = s.tap := rfl
@[simp] theorem updSlice_clk : (updSlice n f s).clk = s.clk := rfl
@[simp] theorem updSlice_proof : (updSlice n f s).proof = s.proof := rfl
@[simp] theorem updSlice_slices : (updSlice n f s).slices = Machine.upd s.slices n f := rfl
@[simp] theorem updSlice_carts : (updSlice n f s).carts = s.carts := rfl
@[simp] theorem updSlice_tb : (updSlice n f s).tb = s.tb := rfl
@[simp] theorem updSlice_tacs : (updSlice n f s).tacs = s.tacs := rfl
@[simp] theorem updSlice_timers : (updSlice n f s).timers = s.timers := rfl
@[simp] theorem updSlice_tus : (updSlice n f s).tus = s.tus := rfl
@[simp] theorem updSlice_auxEdges : (updSlice n f s).auxEdges = s.auxEdges := rfl
@[simp] theorem updSlice_seqs : (updSlice n f s).seqs = s.seqs := rfl
@[simp] theorem updSlice_trigCfg : (updSlice n f s).trigCfg = s.trigCfg := rfl
@[simp] theorem updSlice_trigouts : (updSlice n f s).trigouts = s.trigouts := rfl
@[simp] theorem updSlice_mem : (updSlice n f s).mem = s.mem := rfl
@[simp] theorem updSlice_reds : (updSlice n f s).reds = s.reds := rfl
@[simp] theorem updSlice_ddcs : (updSlice n f s).ddcs = s.ddcs := rfl
@[simp] theorem updSlice_felts : (updSlice n f s).felts = s.felts := rfl
@[simp] theorem updSlice_masks : (updSlice n f s).masks = s.masks := rfl
@[simp] theorem updSlice_eng : (updSlice n f s).eng = s.eng := rfl
@[simp] theorem updSlice_insts : (updSlice n f s).insts = s.insts := rfl
@[simp] theorem updSlice_brim : (updSlice n f s).brim = s.brim := rfl
@[simp] theorem updSlice_upd : (updSlice n f s).upd = s.upd := rfl
@[simp] theorem updSlice_cfg : (updSlice n f s).cfg = s.cfg := rfl
@[simp] theorem updSlice_acc : (updSlice n f s).acc = s.acc := rfl
@[simp] theorem updSlice_admission : (updSlice n f s).admission = s.admission := rfl
end

section
variable (f : Cfg → Cfg) (s : State)
@[simp] theorem updCfg_pending : (updCfg f s).pending = s.pending := rfl
@[simp] theorem updCfg_aoCycles : (updCfg f s).aoCycles = s.aoCycles := rfl
@[simp] theorem updCfg_freeCtr : (updCfg f s).freeCtr = s.freeCtr := rfl
@[simp] theorem updCfg_busRead : (updCfg f s).busRead = s.busRead := rfl
@[simp] theorem updCfg_hostMem : (updCfg f s).hostMem = s.hostMem := rfl
@[simp] theorem updCfg_hif : (updCfg f s).hif = s.hif := rfl
@[simp] theorem updCfg_pwr : (updCfg f s).pwr = s.pwr := rfl
@[simp] theorem updCfg_boot : (updCfg f s).boot = s.boot := rfl
@[simp] theorem updCfg_health : (updCfg f s).health = s.health := rfl
@[simp] theorem updCfg_tap : (updCfg f s).tap = s.tap := rfl
@[simp] theorem updCfg_clk : (updCfg f s).clk = s.clk := rfl
@[simp] theorem updCfg_proof : (updCfg f s).proof = s.proof := rfl
@[simp] theorem updCfg_slices : (updCfg f s).slices = s.slices := rfl
@[simp] theorem updCfg_carts : (updCfg f s).carts = s.carts := rfl
@[simp] theorem updCfg_tb : (updCfg f s).tb = s.tb := rfl
@[simp] theorem updCfg_tacs : (updCfg f s).tacs = s.tacs := rfl
@[simp] theorem updCfg_timers : (updCfg f s).timers = s.timers := rfl
@[simp] theorem updCfg_tus : (updCfg f s).tus = s.tus := rfl
@[simp] theorem updCfg_auxEdges : (updCfg f s).auxEdges = s.auxEdges := rfl
@[simp] theorem updCfg_seqs : (updCfg f s).seqs = s.seqs := rfl
@[simp] theorem updCfg_trigCfg : (updCfg f s).trigCfg = s.trigCfg := rfl
@[simp] theorem updCfg_trigouts : (updCfg f s).trigouts = s.trigouts := rfl
@[simp] theorem updCfg_mem : (updCfg f s).mem = s.mem := rfl
@[simp] theorem updCfg_reds : (updCfg f s).reds = s.reds := rfl
@[simp] theorem updCfg_ddcs : (updCfg f s).ddcs = s.ddcs := rfl
@[simp] theorem updCfg_felts : (updCfg f s).felts = s.felts := rfl
@[simp] theorem updCfg_masks : (updCfg f s).masks = s.masks := rfl
@[simp] theorem updCfg_eng : (updCfg f s).eng = s.eng := rfl
@[simp] theorem updCfg_insts : (updCfg f s).insts = s.insts := rfl
@[simp] theorem updCfg_brim : (updCfg f s).brim = s.brim := rfl
@[simp] theorem updCfg_upd : (updCfg f s).upd = s.upd := rfl
@[simp] theorem updCfg_cfg : (updCfg f s).cfg = f s.cfg := rfl
@[simp] theorem updCfg_acc : (updCfg f s).acc = s.acc := rfl
@[simp] theorem updCfg_admission : (updCfg f s).admission = s.admission := rfl
end

section
variable (n : Fin 8) (f : Ddc → Ddc) (s : State)
@[simp] theorem updDdc_pending : (updDdc n f s).pending = s.pending := rfl
@[simp] theorem updDdc_aoCycles : (updDdc n f s).aoCycles = s.aoCycles := rfl
@[simp] theorem updDdc_freeCtr : (updDdc n f s).freeCtr = s.freeCtr := rfl
@[simp] theorem updDdc_busRead : (updDdc n f s).busRead = s.busRead := rfl
@[simp] theorem updDdc_hostMem : (updDdc n f s).hostMem = s.hostMem := rfl
@[simp] theorem updDdc_hif : (updDdc n f s).hif = s.hif := rfl
@[simp] theorem updDdc_pwr : (updDdc n f s).pwr = s.pwr := rfl
@[simp] theorem updDdc_boot : (updDdc n f s).boot = s.boot := rfl
@[simp] theorem updDdc_health : (updDdc n f s).health = s.health := rfl
@[simp] theorem updDdc_tap : (updDdc n f s).tap = s.tap := rfl
@[simp] theorem updDdc_clk : (updDdc n f s).clk = s.clk := rfl
@[simp] theorem updDdc_proof : (updDdc n f s).proof = s.proof := rfl
@[simp] theorem updDdc_slices : (updDdc n f s).slices = s.slices := rfl
@[simp] theorem updDdc_carts : (updDdc n f s).carts = s.carts := rfl
@[simp] theorem updDdc_tb : (updDdc n f s).tb = s.tb := rfl
@[simp] theorem updDdc_tacs : (updDdc n f s).tacs = s.tacs := rfl
@[simp] theorem updDdc_timers : (updDdc n f s).timers = s.timers := rfl
@[simp] theorem updDdc_tus : (updDdc n f s).tus = s.tus := rfl
@[simp] theorem updDdc_auxEdges : (updDdc n f s).auxEdges = s.auxEdges := rfl
@[simp] theorem updDdc_seqs : (updDdc n f s).seqs = s.seqs := rfl
@[simp] theorem updDdc_trigCfg : (updDdc n f s).trigCfg = s.trigCfg := rfl
@[simp] theorem updDdc_trigouts : (updDdc n f s).trigouts = s.trigouts := rfl
@[simp] theorem updDdc_mem : (updDdc n f s).mem = s.mem := rfl
@[simp] theorem updDdc_reds : (updDdc n f s).reds = s.reds := rfl
@[simp] theorem updDdc_ddcs : (updDdc n f s).ddcs = Machine.upd s.ddcs n f := rfl
@[simp] theorem updDdc_felts : (updDdc n f s).felts = s.felts := rfl
@[simp] theorem updDdc_masks : (updDdc n f s).masks = s.masks := rfl
@[simp] theorem updDdc_eng : (updDdc n f s).eng = s.eng := rfl
@[simp] theorem updDdc_insts : (updDdc n f s).insts = s.insts := rfl
@[simp] theorem updDdc_brim : (updDdc n f s).brim = s.brim := rfl
@[simp] theorem updDdc_upd : (updDdc n f s).upd = s.upd := rfl
@[simp] theorem updDdc_cfg : (updDdc n f s).cfg = s.cfg := rfl
@[simp] theorem updDdc_acc : (updDdc n f s).acc = s.acc := rfl
@[simp] theorem updDdc_admission : (updDdc n f s).admission = s.admission := rfl
end

section
variable (c : Fin 4) (i : Fin 32) (f : BandEntry → BandEntry) (s : State)
@[simp] theorem updBand_pending : (updBand c i f s).pending = s.pending := rfl
@[simp] theorem updBand_aoCycles : (updBand c i f s).aoCycles = s.aoCycles := rfl
@[simp] theorem updBand_freeCtr : (updBand c i f s).freeCtr = s.freeCtr := rfl
@[simp] theorem updBand_busRead : (updBand c i f s).busRead = s.busRead := rfl
@[simp] theorem updBand_hostMem : (updBand c i f s).hostMem = s.hostMem := rfl
@[simp] theorem updBand_hif : (updBand c i f s).hif = s.hif := rfl
@[simp] theorem updBand_pwr : (updBand c i f s).pwr = s.pwr := rfl
@[simp] theorem updBand_boot : (updBand c i f s).boot = s.boot := rfl
@[simp] theorem updBand_health : (updBand c i f s).health = s.health := rfl
@[simp] theorem updBand_tap : (updBand c i f s).tap = s.tap := rfl
@[simp] theorem updBand_proof : (updBand c i f s).proof = s.proof := rfl
@[simp] theorem updBand_slices : (updBand c i f s).slices = s.slices := rfl
@[simp] theorem updBand_carts : (updBand c i f s).carts = s.carts := rfl
@[simp] theorem updBand_tb : (updBand c i f s).tb = s.tb := rfl
@[simp] theorem updBand_tacs : (updBand c i f s).tacs = s.tacs := rfl
@[simp] theorem updBand_timers : (updBand c i f s).timers = s.timers := rfl
@[simp] theorem updBand_tus : (updBand c i f s).tus = s.tus := rfl
@[simp] theorem updBand_auxEdges : (updBand c i f s).auxEdges = s.auxEdges := rfl
@[simp] theorem updBand_seqs : (updBand c i f s).seqs = s.seqs := rfl
@[simp] theorem updBand_trigCfg : (updBand c i f s).trigCfg = s.trigCfg := rfl
@[simp] theorem updBand_trigouts : (updBand c i f s).trigouts = s.trigouts := rfl
@[simp] theorem updBand_mem : (updBand c i f s).mem = s.mem := rfl
@[simp] theorem updBand_reds : (updBand c i f s).reds = s.reds := rfl
@[simp] theorem updBand_ddcs : (updBand c i f s).ddcs = s.ddcs := rfl
@[simp] theorem updBand_felts : (updBand c i f s).felts = s.felts := rfl
@[simp] theorem updBand_masks : (updBand c i f s).masks = s.masks := rfl
@[simp] theorem updBand_eng : (updBand c i f s).eng = s.eng := rfl
@[simp] theorem updBand_insts : (updBand c i f s).insts = s.insts := rfl
@[simp] theorem updBand_brim : (updBand c i f s).brim = s.brim := rfl
@[simp] theorem updBand_upd : (updBand c i f s).upd = s.upd := rfl
@[simp] theorem updBand_cfg : (updBand c i f s).cfg = s.cfg := rfl
@[simp] theorem updBand_acc : (updBand c i f s).acc = s.acc := rfl
@[simp] theorem updBand_admission : (updBand c i f s).admission = s.admission := rfl
end

section
variable (c : Fin 2) (x : CoreState) (s : State)
@[simp] theorem setCore_pending : (setCore c x s).pending = s.pending := rfl
@[simp] theorem setCore_aoCycles : (setCore c x s).aoCycles = s.aoCycles := rfl
@[simp] theorem setCore_freeCtr : (setCore c x s).freeCtr = s.freeCtr := rfl
@[simp] theorem setCore_busRead : (setCore c x s).busRead = s.busRead := rfl
@[simp] theorem setCore_hostMem : (setCore c x s).hostMem = s.hostMem := rfl
@[simp] theorem setCore_hif : (setCore c x s).hif = s.hif := rfl
@[simp] theorem setCore_pwr : (setCore c x s).pwr = s.pwr := rfl
@[simp] theorem setCore_boot : (setCore c x s).boot = s.boot := rfl
@[simp] theorem setCore_health : (setCore c x s).health = s.health := rfl
@[simp] theorem setCore_tap : (setCore c x s).tap = s.tap := rfl
@[simp] theorem setCore_proof : (setCore c x s).proof = s.proof := rfl
@[simp] theorem setCore_slices : (setCore c x s).slices = s.slices := rfl
@[simp] theorem setCore_carts : (setCore c x s).carts = s.carts := rfl
@[simp] theorem setCore_tb : (setCore c x s).tb = s.tb := rfl
@[simp] theorem setCore_tacs : (setCore c x s).tacs = s.tacs := rfl
@[simp] theorem setCore_timers : (setCore c x s).timers = s.timers := rfl
@[simp] theorem setCore_tus : (setCore c x s).tus = s.tus := rfl
@[simp] theorem setCore_auxEdges : (setCore c x s).auxEdges = s.auxEdges := rfl
@[simp] theorem setCore_seqs : (setCore c x s).seqs = s.seqs := rfl
@[simp] theorem setCore_trigCfg : (setCore c x s).trigCfg = s.trigCfg := rfl
@[simp] theorem setCore_trigouts : (setCore c x s).trigouts = s.trigouts := rfl
@[simp] theorem setCore_mem : (setCore c x s).mem = s.mem := rfl
@[simp] theorem setCore_reds : (setCore c x s).reds = s.reds := rfl
@[simp] theorem setCore_ddcs : (setCore c x s).ddcs = s.ddcs := rfl
@[simp] theorem setCore_felts : (setCore c x s).felts = s.felts := rfl
@[simp] theorem setCore_masks : (setCore c x s).masks = s.masks := rfl
@[simp] theorem setCore_eng : (setCore c x s).eng = s.eng := rfl
@[simp] theorem setCore_insts : (setCore c x s).insts = s.insts := rfl
@[simp] theorem setCore_brim : (setCore c x s).brim = s.brim := rfl
@[simp] theorem setCore_upd : (setCore c x s).upd = s.upd := rfl
@[simp] theorem setCore_cfg : (setCore c x s).cfg = s.cfg := rfl
@[simp] theorem setCore_acc : (setCore c x s).acc = s.acc := rfl
@[simp] theorem setCore_admission : (setCore c x s).admission = s.admission := rfl
end

section
variable (c : Fin 4) (x : Bool) (s : State)
@[simp] theorem setLock_pending : (setLock c x s).pending = s.pending := rfl
@[simp] theorem setLock_aoCycles : (setLock c x s).aoCycles = s.aoCycles := rfl
@[simp] theorem setLock_freeCtr : (setLock c x s).freeCtr = s.freeCtr := rfl
@[simp] theorem setLock_busRead : (setLock c x s).busRead = s.busRead := rfl
@[simp] theorem setLock_hostMem : (setLock c x s).hostMem = s.hostMem := rfl
@[simp] theorem setLock_hif : (setLock c x s).hif = s.hif := rfl
@[simp] theorem setLock_pwr : (setLock c x s).pwr = s.pwr := rfl
@[simp] theorem setLock_boot : (setLock c x s).boot = s.boot := rfl
@[simp] theorem setLock_health : (setLock c x s).health = s.health := rfl
@[simp] theorem setLock_tap : (setLock c x s).tap = s.tap := rfl
@[simp] theorem setLock_proof : (setLock c x s).proof = s.proof := rfl
@[simp] theorem setLock_slices : (setLock c x s).slices = s.slices := rfl
@[simp] theorem setLock_carts : (setLock c x s).carts = s.carts := rfl
@[simp] theorem setLock_tb : (setLock c x s).tb = s.tb := rfl
@[simp] theorem setLock_tacs : (setLock c x s).tacs = s.tacs := rfl
@[simp] theorem setLock_timers : (setLock c x s).timers = s.timers := rfl
@[simp] theorem setLock_tus : (setLock c x s).tus = s.tus := rfl
@[simp] theorem setLock_auxEdges : (setLock c x s).auxEdges = s.auxEdges := rfl
@[simp] theorem setLock_seqs : (setLock c x s).seqs = s.seqs := rfl
@[simp] theorem setLock_trigCfg : (setLock c x s).trigCfg = s.trigCfg := rfl
@[simp] theorem setLock_trigouts : (setLock c x s).trigouts = s.trigouts := rfl
@[simp] theorem setLock_mem : (setLock c x s).mem = s.mem := rfl
@[simp] theorem setLock_reds : (setLock c x s).reds = s.reds := rfl
@[simp] theorem setLock_ddcs : (setLock c x s).ddcs = s.ddcs := rfl
@[simp] theorem setLock_felts : (setLock c x s).felts = s.felts := rfl
@[simp] theorem setLock_masks : (setLock c x s).masks = s.masks := rfl
@[simp] theorem setLock_eng : (setLock c x s).eng = s.eng := rfl
@[simp] theorem setLock_insts : (setLock c x s).insts = s.insts := rfl
@[simp] theorem setLock_brim : (setLock c x s).brim = s.brim := rfl
@[simp] theorem setLock_upd : (setLock c x s).upd = s.upd := rfl
@[simp] theorem setLock_cfg : (setLock c x s).cfg = s.cfg := rfl
@[simp] theorem setLock_acc : (setLock c x s).acc = s.acc := rfl
@[simp] theorem setLock_admission : (setLock c x s).admission = s.admission := rfl
end

section
variable (n : Fin 16) (f : Felt → Felt) (s : State)
@[simp] theorem updFelt_pending : (updFelt n f s).pending = s.pending := rfl
@[simp] theorem updFelt_aoCycles : (updFelt n f s).aoCycles = s.aoCycles := rfl
@[simp] theorem updFelt_freeCtr : (updFelt n f s).freeCtr = s.freeCtr := rfl
@[simp] theorem updFelt_busRead : (updFelt n f s).busRead = s.busRead := rfl
@[simp] theorem updFelt_hostMem : (updFelt n f s).hostMem = s.hostMem := rfl
@[simp] theorem updFelt_hif : (updFelt n f s).hif = s.hif := rfl
@[simp] theorem updFelt_pwr : (updFelt n f s).pwr = s.pwr := rfl
@[simp] theorem updFelt_boot : (updFelt n f s).boot = s.boot := rfl
@[simp] theorem updFelt_health : (updFelt n f s).health = s.health := rfl
@[simp] theorem updFelt_tap : (updFelt n f s).tap = s.tap := rfl
@[simp] theorem updFelt_clk : (updFelt n f s).clk = s.clk := rfl
@[simp] theorem updFelt_proof : (updFelt n f s).proof = s.proof := rfl
@[simp] theorem updFelt_slices : (updFelt n f s).slices = s.slices := rfl
@[simp] theorem updFelt_carts : (updFelt n f s).carts = s.carts := rfl
@[simp] theorem updFelt_tb : (updFelt n f s).tb = s.tb := rfl
@[simp] theorem updFelt_tacs : (updFelt n f s).tacs = s.tacs := rfl
@[simp] theorem updFelt_timers : (updFelt n f s).timers = s.timers := rfl
@[simp] theorem updFelt_tus : (updFelt n f s).tus = s.tus := rfl
@[simp] theorem updFelt_auxEdges : (updFelt n f s).auxEdges = s.auxEdges := rfl
@[simp] theorem updFelt_seqs : (updFelt n f s).seqs = s.seqs := rfl
@[simp] theorem updFelt_trigCfg : (updFelt n f s).trigCfg = s.trigCfg := rfl
@[simp] theorem updFelt_trigouts : (updFelt n f s).trigouts = s.trigouts := rfl
@[simp] theorem updFelt_mem : (updFelt n f s).mem = s.mem := rfl
@[simp] theorem updFelt_reds : (updFelt n f s).reds = s.reds := rfl
@[simp] theorem updFelt_ddcs : (updFelt n f s).ddcs = s.ddcs := rfl
@[simp] theorem updFelt_felts : (updFelt n f s).felts = Machine.upd s.felts n f := rfl
@[simp] theorem updFelt_masks : (updFelt n f s).masks = s.masks := rfl
@[simp] theorem updFelt_eng : (updFelt n f s).eng = s.eng := rfl
@[simp] theorem updFelt_insts : (updFelt n f s).insts = s.insts := rfl
@[simp] theorem updFelt_brim : (updFelt n f s).brim = s.brim := rfl
@[simp] theorem updFelt_upd : (updFelt n f s).upd = s.upd := rfl
@[simp] theorem updFelt_cfg : (updFelt n f s).cfg = s.cfg := rfl
@[simp] theorem updFelt_acc : (updFelt n f s).acc = s.acc := rfl
@[simp] theorem updFelt_admission : (updFelt n f s).admission = s.admission := rfl
end

section
variable (m : Fin 64) (f : Mask → Mask) (s : State)
@[simp] theorem updMask_pending : (updMask m f s).pending = s.pending := rfl
@[simp] theorem updMask_aoCycles : (updMask m f s).aoCycles = s.aoCycles := rfl
@[simp] theorem updMask_freeCtr : (updMask m f s).freeCtr = s.freeCtr := rfl
@[simp] theorem updMask_busRead : (updMask m f s).busRead = s.busRead := rfl
@[simp] theorem updMask_hostMem : (updMask m f s).hostMem = s.hostMem := rfl
@[simp] theorem updMask_hif : (updMask m f s).hif = s.hif := rfl
@[simp] theorem updMask_pwr : (updMask m f s).pwr = s.pwr := rfl
@[simp] theorem updMask_boot : (updMask m f s).boot = s.boot := rfl
@[simp] theorem updMask_health : (updMask m f s).health = s.health := rfl
@[simp] theorem updMask_tap : (updMask m f s).tap = s.tap := rfl
@[simp] theorem updMask_clk : (updMask m f s).clk = s.clk := rfl
@[simp] theorem updMask_proof : (updMask m f s).proof = s.proof := rfl
@[simp] theorem updMask_slices : (updMask m f s).slices = s.slices := rfl
@[simp] theorem updMask_carts : (updMask m f s).carts = s.carts := rfl
@[simp] theorem updMask_tb : (updMask m f s).tb = s.tb := rfl
@[simp] theorem updMask_tacs : (updMask m f s).tacs = s.tacs := rfl
@[simp] theorem updMask_timers : (updMask m f s).timers = s.timers := rfl
@[simp] theorem updMask_tus : (updMask m f s).tus = s.tus := rfl
@[simp] theorem updMask_auxEdges : (updMask m f s).auxEdges = s.auxEdges := rfl
@[simp] theorem updMask_seqs : (updMask m f s).seqs = s.seqs := rfl
@[simp] theorem updMask_trigCfg : (updMask m f s).trigCfg = s.trigCfg := rfl
@[simp] theorem updMask_trigouts : (updMask m f s).trigouts = s.trigouts := rfl
@[simp] theorem updMask_mem : (updMask m f s).mem = s.mem := rfl
@[simp] theorem updMask_reds : (updMask m f s).reds = s.reds := rfl
@[simp] theorem updMask_ddcs : (updMask m f s).ddcs = s.ddcs := rfl
@[simp] theorem updMask_felts : (updMask m f s).felts = s.felts := rfl
@[simp] theorem updMask_masks : (updMask m f s).masks = Machine.upd s.masks m f := rfl
@[simp] theorem updMask_eng : (updMask m f s).eng = s.eng := rfl
@[simp] theorem updMask_insts : (updMask m f s).insts = s.insts := rfl
@[simp] theorem updMask_brim : (updMask m f s).brim = s.brim := rfl
@[simp] theorem updMask_upd : (updMask m f s).upd = s.upd := rfl
@[simp] theorem updMask_cfg : (updMask m f s).cfg = s.cfg := rfl
@[simp] theorem updMask_acc : (updMask m f s).acc = s.acc := rfl
@[simp] theorem updMask_admission : (updMask m f s).admission = s.admission := rfl
end

section
variable (q : Nat) (f : Segment → Segment) (s : State)
@[simp] theorem updSeg_pending : (updSeg q f s).pending = s.pending := rfl
@[simp] theorem updSeg_aoCycles : (updSeg q f s).aoCycles = s.aoCycles := rfl
@[simp] theorem updSeg_freeCtr : (updSeg q f s).freeCtr = s.freeCtr := rfl
@[simp] theorem updSeg_busRead : (updSeg q f s).busRead = s.busRead := rfl
@[simp] theorem updSeg_hostMem : (updSeg q f s).hostMem = s.hostMem := rfl
@[simp] theorem updSeg_hif : (updSeg q f s).hif = s.hif := rfl
@[simp] theorem updSeg_pwr : (updSeg q f s).pwr = s.pwr := rfl
@[simp] theorem updSeg_boot : (updSeg q f s).boot = s.boot := rfl
@[simp] theorem updSeg_health : (updSeg q f s).health = s.health := rfl
@[simp] theorem updSeg_tap : (updSeg q f s).tap = s.tap := rfl
@[simp] theorem updSeg_clk : (updSeg q f s).clk = s.clk := rfl
@[simp] theorem updSeg_proof : (updSeg q f s).proof = s.proof := rfl
@[simp] theorem updSeg_slices : (updSeg q f s).slices = s.slices := rfl
@[simp] theorem updSeg_carts : (updSeg q f s).carts = s.carts := rfl
@[simp] theorem updSeg_tb : (updSeg q f s).tb = s.tb := rfl
@[simp] theorem updSeg_tacs : (updSeg q f s).tacs = s.tacs := rfl
@[simp] theorem updSeg_timers : (updSeg q f s).timers = s.timers := rfl
@[simp] theorem updSeg_tus : (updSeg q f s).tus = s.tus := rfl
@[simp] theorem updSeg_auxEdges : (updSeg q f s).auxEdges = s.auxEdges := rfl
@[simp] theorem updSeg_seqs : (updSeg q f s).seqs = s.seqs := rfl
@[simp] theorem updSeg_trigCfg : (updSeg q f s).trigCfg = s.trigCfg := rfl
@[simp] theorem updSeg_trigouts : (updSeg q f s).trigouts = s.trigouts := rfl
@[simp] theorem updSeg_mem : (updSeg q f s).mem = { s.mem with segs := s.mem.segs.map fun g => if g.seq = q then f g else g } := rfl
@[simp] theorem updSeg_reds : (updSeg q f s).reds = s.reds := rfl
@[simp] theorem updSeg_ddcs : (updSeg q f s).ddcs = s.ddcs := rfl
@[simp] theorem updSeg_felts : (updSeg q f s).felts = s.felts := rfl
@[simp] theorem updSeg_masks : (updSeg q f s).masks = s.masks := rfl
@[simp] theorem updSeg_eng : (updSeg q f s).eng = s.eng := rfl
@[simp] theorem updSeg_insts : (updSeg q f s).insts = s.insts := rfl
@[simp] theorem updSeg_brim : (updSeg q f s).brim = s.brim := rfl
@[simp] theorem updSeg_upd : (updSeg q f s).upd = s.upd := rfl
@[simp] theorem updSeg_cfg : (updSeg q f s).cfg = s.cfg := rfl
@[simp] theorem updSeg_acc : (updSeg q f s).acc = s.acc := rfl
@[simp] theorem updSeg_admission : (updSeg q f s).admission = s.admission := rfl
end

section
variable (a : Fin 4) (f : Seq → Seq) (s : State)
@[simp] theorem updAs_pending : (updAs a f s).pending = s.pending := rfl
@[simp] theorem updAs_aoCycles : (updAs a f s).aoCycles = s.aoCycles := rfl
@[simp] theorem updAs_freeCtr : (updAs a f s).freeCtr = s.freeCtr := rfl
@[simp] theorem updAs_busRead : (updAs a f s).busRead = s.busRead := rfl
@[simp] theorem updAs_hostMem : (updAs a f s).hostMem = s.hostMem := rfl
@[simp] theorem updAs_hif : (updAs a f s).hif = s.hif := rfl
@[simp] theorem updAs_pwr : (updAs a f s).pwr = s.pwr := rfl
@[simp] theorem updAs_boot : (updAs a f s).boot = s.boot := rfl
@[simp] theorem updAs_health : (updAs a f s).health = s.health := rfl
@[simp] theorem updAs_tap : (updAs a f s).tap = s.tap := rfl
@[simp] theorem updAs_clk : (updAs a f s).clk = s.clk := rfl
@[simp] theorem updAs_proof : (updAs a f s).proof = s.proof := rfl
@[simp] theorem updAs_slices : (updAs a f s).slices = s.slices := rfl
@[simp] theorem updAs_carts : (updAs a f s).carts = s.carts := rfl
@[simp] theorem updAs_tb : (updAs a f s).tb = s.tb := rfl
@[simp] theorem updAs_tacs : (updAs a f s).tacs = s.tacs := rfl
@[simp] theorem updAs_timers : (updAs a f s).timers = s.timers := rfl
@[simp] theorem updAs_tus : (updAs a f s).tus = s.tus := rfl
@[simp] theorem updAs_auxEdges : (updAs a f s).auxEdges = s.auxEdges := rfl
@[simp] theorem updAs_seqs : (updAs a f s).seqs = Machine.upd s.seqs a f := rfl
@[simp] theorem updAs_trigCfg : (updAs a f s).trigCfg = s.trigCfg := rfl
@[simp] theorem updAs_trigouts : (updAs a f s).trigouts = s.trigouts := rfl
@[simp] theorem updAs_mem : (updAs a f s).mem = s.mem := rfl
@[simp] theorem updAs_reds : (updAs a f s).reds = s.reds := rfl
@[simp] theorem updAs_ddcs : (updAs a f s).ddcs = s.ddcs := rfl
@[simp] theorem updAs_felts : (updAs a f s).felts = s.felts := rfl
@[simp] theorem updAs_masks : (updAs a f s).masks = s.masks := rfl
@[simp] theorem updAs_eng : (updAs a f s).eng = s.eng := rfl
@[simp] theorem updAs_insts : (updAs a f s).insts = s.insts := rfl
@[simp] theorem updAs_brim : (updAs a f s).brim = s.brim := rfl
@[simp] theorem updAs_upd : (updAs a f s).upd = s.upd := rfl
@[simp] theorem updAs_cfg : (updAs a f s).cfg = s.cfg := rfl
@[simp] theorem updAs_acc : (updAs a f s).acc = s.acc := rfl
@[simp] theorem updAs_admission : (updAs a f s).admission = s.admission := rfl
end

section
variable (o : Fin 2) (f : TrigOut → TrigOut) (s : State)
@[simp] theorem updOut_pending : (updOut o f s).pending = s.pending := rfl
@[simp] theorem updOut_aoCycles : (updOut o f s).aoCycles = s.aoCycles := rfl
@[simp] theorem updOut_freeCtr : (updOut o f s).freeCtr = s.freeCtr := rfl
@[simp] theorem updOut_busRead : (updOut o f s).busRead = s.busRead := rfl
@[simp] theorem updOut_hostMem : (updOut o f s).hostMem = s.hostMem := rfl
@[simp] theorem updOut_hif : (updOut o f s).hif = s.hif := rfl
@[simp] theorem updOut_pwr : (updOut o f s).pwr = s.pwr := rfl
@[simp] theorem updOut_boot : (updOut o f s).boot = s.boot := rfl
@[simp] theorem updOut_health : (updOut o f s).health = s.health := rfl
@[simp] theorem updOut_tap : (updOut o f s).tap = s.tap := rfl
@[simp] theorem updOut_clk : (updOut o f s).clk = s.clk := rfl
@[simp] theorem updOut_proof : (updOut o f s).proof = s.proof := rfl
@[simp] theorem updOut_slices : (updOut o f s).slices = s.slices := rfl
@[simp] theorem updOut_carts : (updOut o f s).carts = s.carts := rfl
@[simp] theorem updOut_tb : (updOut o f s).tb = s.tb := rfl
@[simp] theorem updOut_tacs : (updOut o f s).tacs = s.tacs := rfl
@[simp] theorem updOut_timers : (updOut o f s).timers = s.timers := rfl
@[simp] theorem updOut_tus : (updOut o f s).tus = s.tus := rfl
@[simp] theorem updOut_auxEdges : (updOut o f s).auxEdges = s.auxEdges := rfl
@[simp] theorem updOut_seqs : (updOut o f s).seqs = s.seqs := rfl
@[simp] theorem updOut_trigCfg : (updOut o f s).trigCfg = s.trigCfg := rfl
@[simp] theorem updOut_trigouts : (updOut o f s).trigouts = Machine.upd s.trigouts o f := rfl
@[simp] theorem updOut_mem : (updOut o f s).mem = s.mem := rfl
@[simp] theorem updOut_reds : (updOut o f s).reds = s.reds := rfl
@[simp] theorem updOut_ddcs : (updOut o f s).ddcs = s.ddcs := rfl
@[simp] theorem updOut_felts : (updOut o f s).felts = s.felts := rfl
@[simp] theorem updOut_masks : (updOut o f s).masks = s.masks := rfl
@[simp] theorem updOut_eng : (updOut o f s).eng = s.eng := rfl
@[simp] theorem updOut_insts : (updOut o f s).insts = s.insts := rfl
@[simp] theorem updOut_brim : (updOut o f s).brim = s.brim := rfl
@[simp] theorem updOut_upd : (updOut o f s).upd = s.upd := rfl
@[simp] theorem updOut_cfg : (updOut o f s).cfg = s.cfg := rfl
@[simp] theorem updOut_acc : (updOut o f s).acc = s.acc := rfl
@[simp] theorem updOut_admission : (updOut o f s).admission = s.admission := rfl
end

section
variable (u : Fin 16) (f : Tu → Tu) (s : State)
@[simp] theorem updTu_pending : (updTu u f s).pending = s.pending := rfl
@[simp] theorem updTu_aoCycles : (updTu u f s).aoCycles = s.aoCycles := rfl
@[simp] theorem updTu_freeCtr : (updTu u f s).freeCtr = s.freeCtr := rfl
@[simp] theorem updTu_busRead : (updTu u f s).busRead = s.busRead := rfl
@[simp] theorem updTu_hostMem : (updTu u f s).hostMem = s.hostMem := rfl
@[simp] theorem updTu_hif : (updTu u f s).hif = s.hif := rfl
@[simp] theorem updTu_pwr : (updTu u f s).pwr = s.pwr := rfl
@[simp] theorem updTu_boot : (updTu u f s).boot = s.boot := rfl
@[simp] theorem updTu_health : (updTu u f s).health = s.health := rfl
@[simp] theorem updTu_tap : (updTu u f s).tap = s.tap := rfl
@[simp] theorem updTu_clk : (updTu u f s).clk = s.clk := rfl
@[simp] theorem updTu_proof : (updTu u f s).proof = s.proof := rfl
@[simp] theorem updTu_slices : (updTu u f s).slices = s.slices := rfl
@[simp] theorem updTu_carts : (updTu u f s).carts = s.carts := rfl
@[simp] theorem updTu_tb : (updTu u f s).tb = s.tb := rfl
@[simp] theorem updTu_tacs : (updTu u f s).tacs = s.tacs := rfl
@[simp] theorem updTu_timers : (updTu u f s).timers = s.timers := rfl
@[simp] theorem updTu_tus : (updTu u f s).tus = Machine.upd s.tus u f := rfl
@[simp] theorem updTu_auxEdges : (updTu u f s).auxEdges = s.auxEdges := rfl
@[simp] theorem updTu_seqs : (updTu u f s).seqs = s.seqs := rfl
@[simp] theorem updTu_trigCfg : (updTu u f s).trigCfg = s.trigCfg := rfl
@[simp] theorem updTu_trigouts : (updTu u f s).trigouts = s.trigouts := rfl
@[simp] theorem updTu_mem : (updTu u f s).mem = s.mem := rfl
@[simp] theorem updTu_reds : (updTu u f s).reds = s.reds := rfl
@[simp] theorem updTu_ddcs : (updTu u f s).ddcs = s.ddcs := rfl
@[simp] theorem updTu_felts : (updTu u f s).felts = s.felts := rfl
@[simp] theorem updTu_masks : (updTu u f s).masks = s.masks := rfl
@[simp] theorem updTu_eng : (updTu u f s).eng = s.eng := rfl
@[simp] theorem updTu_insts : (updTu u f s).insts = s.insts := rfl
@[simp] theorem updTu_brim : (updTu u f s).brim = s.brim := rfl
@[simp] theorem updTu_upd : (updTu u f s).upd = s.upd := rfl
@[simp] theorem updTu_cfg : (updTu u f s).cfg = s.cfg := rfl
@[simp] theorem updTu_acc : (updTu u f s).acc = s.acc := rfl
@[simp] theorem updTu_admission : (updTu u f s).admission = s.admission := rfl
end

section
variable (n : Fin 8) (f : Tac → Tac) (s : State)
@[simp] theorem updTac_pending : (updTac n f s).pending = s.pending := rfl
@[simp] theorem updTac_aoCycles : (updTac n f s).aoCycles = s.aoCycles := rfl
@[simp] theorem updTac_freeCtr : (updTac n f s).freeCtr = s.freeCtr := rfl
@[simp] theorem updTac_busRead : (updTac n f s).busRead = s.busRead := rfl
@[simp] theorem updTac_hostMem : (updTac n f s).hostMem = s.hostMem := rfl
@[simp] theorem updTac_hif : (updTac n f s).hif = s.hif := rfl
@[simp] theorem updTac_pwr : (updTac n f s).pwr = s.pwr := rfl
@[simp] theorem updTac_boot : (updTac n f s).boot = s.boot := rfl
@[simp] theorem updTac_health : (updTac n f s).health = s.health := rfl
@[simp] theorem updTac_tap : (updTac n f s).tap = s.tap := rfl
@[simp] theorem updTac_clk : (updTac n f s).clk = s.clk := rfl
@[simp] theorem updTac_proof : (updTac n f s).proof = s.proof := rfl
@[simp] theorem updTac_slices : (updTac n f s).slices = s.slices := rfl
@[simp] theorem updTac_carts : (updTac n f s).carts = s.carts := rfl
@[simp] theorem updTac_tb : (updTac n f s).tb = s.tb := rfl
@[simp] theorem updTac_tacs : (updTac n f s).tacs = Machine.upd s.tacs n f := rfl
@[simp] theorem updTac_timers : (updTac n f s).timers = s.timers := rfl
@[simp] theorem updTac_tus : (updTac n f s).tus = s.tus := rfl
@[simp] theorem updTac_auxEdges : (updTac n f s).auxEdges = s.auxEdges := rfl
@[simp] theorem updTac_seqs : (updTac n f s).seqs = s.seqs := rfl
@[simp] theorem updTac_trigCfg : (updTac n f s).trigCfg = s.trigCfg := rfl
@[simp] theorem updTac_trigouts : (updTac n f s).trigouts = s.trigouts := rfl
@[simp] theorem updTac_mem : (updTac n f s).mem = s.mem := rfl
@[simp] theorem updTac_reds : (updTac n f s).reds = s.reds := rfl
@[simp] theorem updTac_ddcs : (updTac n f s).ddcs = s.ddcs := rfl
@[simp] theorem updTac_felts : (updTac n f s).felts = s.felts := rfl
@[simp] theorem updTac_masks : (updTac n f s).masks = s.masks := rfl
@[simp] theorem updTac_eng : (updTac n f s).eng = s.eng := rfl
@[simp] theorem updTac_insts : (updTac n f s).insts = s.insts := rfl
@[simp] theorem updTac_brim : (updTac n f s).brim = s.brim := rfl
@[simp] theorem updTac_upd : (updTac n f s).upd = s.upd := rfl
@[simp] theorem updTac_cfg : (updTac n f s).cfg = s.cfg := rfl
@[simp] theorem updTac_acc : (updTac n f s).acc = s.acc := rfl
@[simp] theorem updTac_admission : (updTac n f s).admission = s.admission := rfl
end

section
variable (n : Fin 8) (f : Timer → Timer) (s : State)
@[simp] theorem updTimer_pending : (updTimer n f s).pending = s.pending := rfl
@[simp] theorem updTimer_aoCycles : (updTimer n f s).aoCycles = s.aoCycles := rfl
@[simp] theorem updTimer_freeCtr : (updTimer n f s).freeCtr = s.freeCtr := rfl
@[simp] theorem updTimer_busRead : (updTimer n f s).busRead = s.busRead := rfl
@[simp] theorem updTimer_hostMem : (updTimer n f s).hostMem = s.hostMem := rfl
@[simp] theorem updTimer_hif : (updTimer n f s).hif = s.hif := rfl
@[simp] theorem updTimer_pwr : (updTimer n f s).pwr = s.pwr := rfl
@[simp] theorem updTimer_boot : (updTimer n f s).boot = s.boot := rfl
@[simp] theorem updTimer_health : (updTimer n f s).health = s.health := rfl
@[simp] theorem updTimer_tap : (updTimer n f s).tap = s.tap := rfl
@[simp] theorem updTimer_clk : (updTimer n f s).clk = s.clk := rfl
@[simp] theorem updTimer_proof : (updTimer n f s).proof = s.proof := rfl
@[simp] theorem updTimer_slices : (updTimer n f s).slices = s.slices := rfl
@[simp] theorem updTimer_carts : (updTimer n f s).carts = s.carts := rfl
@[simp] theorem updTimer_tb : (updTimer n f s).tb = s.tb := rfl
@[simp] theorem updTimer_tacs : (updTimer n f s).tacs = s.tacs := rfl
@[simp] theorem updTimer_timers : (updTimer n f s).timers = Machine.upd s.timers n f := rfl
@[simp] theorem updTimer_tus : (updTimer n f s).tus = s.tus := rfl
@[simp] theorem updTimer_auxEdges : (updTimer n f s).auxEdges = s.auxEdges := rfl
@[simp] theorem updTimer_seqs : (updTimer n f s).seqs = s.seqs := rfl
@[simp] theorem updTimer_trigCfg : (updTimer n f s).trigCfg = s.trigCfg := rfl
@[simp] theorem updTimer_trigouts : (updTimer n f s).trigouts = s.trigouts := rfl
@[simp] theorem updTimer_mem : (updTimer n f s).mem = s.mem := rfl
@[simp] theorem updTimer_reds : (updTimer n f s).reds = s.reds := rfl
@[simp] theorem updTimer_ddcs : (updTimer n f s).ddcs = s.ddcs := rfl
@[simp] theorem updTimer_felts : (updTimer n f s).felts = s.felts := rfl
@[simp] theorem updTimer_masks : (updTimer n f s).masks = s.masks := rfl
@[simp] theorem updTimer_eng : (updTimer n f s).eng = s.eng := rfl
@[simp] theorem updTimer_insts : (updTimer n f s).insts = s.insts := rfl
@[simp] theorem updTimer_brim : (updTimer n f s).brim = s.brim := rfl
@[simp] theorem updTimer_upd : (updTimer n f s).upd = s.upd := rfl
@[simp] theorem updTimer_cfg : (updTimer n f s).cfg = s.cfg := rfl
@[simp] theorem updTimer_acc : (updTimer n f s).acc = s.acc := rfl
@[simp] theorem updTimer_admission : (updTimer n f s).admission = s.admission := rfl
end

section
variable (n : Fin 8) (f : RedBank → RedBank) (s : State)
@[simp] theorem updRed_pending : (updRed n f s).pending = s.pending := rfl
@[simp] theorem updRed_aoCycles : (updRed n f s).aoCycles = s.aoCycles := rfl
@[simp] theorem updRed_freeCtr : (updRed n f s).freeCtr = s.freeCtr := rfl
@[simp] theorem updRed_busRead : (updRed n f s).busRead = s.busRead := rfl
@[simp] theorem updRed_hostMem : (updRed n f s).hostMem = s.hostMem := rfl
@[simp] theorem updRed_hif : (updRed n f s).hif = s.hif := rfl
@[simp] theorem updRed_pwr : (updRed n f s).pwr = s.pwr := rfl
@[simp] theorem updRed_boot : (updRed n f s).boot = s.boot := rfl
@[simp] theorem updRed_health : (updRed n f s).health = s.health := rfl
@[simp] theorem updRed_tap : (updRed n f s).tap = s.tap := rfl
@[simp] theorem updRed_clk : (updRed n f s).clk = s.clk := rfl
@[simp] theorem updRed_proof : (updRed n f s).proof = s.proof := rfl
@[simp] theorem updRed_slices : (updRed n f s).slices = s.slices := rfl
@[simp] theorem updRed_carts : (updRed n f s).carts = s.carts := rfl
@[simp] theorem updRed_tb : (updRed n f s).tb = s.tb := rfl
@[simp] theorem updRed_tacs : (updRed n f s).tacs = s.tacs := rfl
@[simp] theorem updRed_timers : (updRed n f s).timers = s.timers := rfl
@[simp] theorem updRed_tus : (updRed n f s).tus = s.tus := rfl
@[simp] theorem updRed_auxEdges : (updRed n f s).auxEdges = s.auxEdges := rfl
@[simp] theorem updRed_seqs : (updRed n f s).seqs = s.seqs := rfl
@[simp] theorem updRed_trigCfg : (updRed n f s).trigCfg = s.trigCfg := rfl
@[simp] theorem updRed_trigouts : (updRed n f s).trigouts = s.trigouts := rfl
@[simp] theorem updRed_mem : (updRed n f s).mem = s.mem := rfl
@[simp] theorem updRed_reds : (updRed n f s).reds = Machine.upd s.reds n f := rfl
@[simp] theorem updRed_ddcs : (updRed n f s).ddcs = s.ddcs := rfl
@[simp] theorem updRed_felts : (updRed n f s).felts = s.felts := rfl
@[simp] theorem updRed_masks : (updRed n f s).masks = s.masks := rfl
@[simp] theorem updRed_eng : (updRed n f s).eng = s.eng := rfl
@[simp] theorem updRed_insts : (updRed n f s).insts = s.insts := rfl
@[simp] theorem updRed_brim : (updRed n f s).brim = s.brim := rfl
@[simp] theorem updRed_upd : (updRed n f s).upd = s.upd := rfl
@[simp] theorem updRed_cfg : (updRed n f s).cfg = s.cfg := rfl
@[simp] theorem updRed_acc : (updRed n f s).acc = s.acc := rfl
@[simp] theorem updRed_admission : (updRed n f s).admission = s.admission := rfl
end

section
variable (i : Fin 16) (f : Inst → Inst) (s : State)
@[simp] theorem updInst_pending : (updInst i f s).pending = s.pending := rfl
@[simp] theorem updInst_aoCycles : (updInst i f s).aoCycles = s.aoCycles := rfl
@[simp] theorem updInst_freeCtr : (updInst i f s).freeCtr = s.freeCtr := rfl
@[simp] theorem updInst_busRead : (updInst i f s).busRead = s.busRead := rfl
@[simp] theorem updInst_hostMem : (updInst i f s).hostMem = s.hostMem := rfl
@[simp] theorem updInst_hif : (updInst i f s).hif = s.hif := rfl
@[simp] theorem updInst_pwr : (updInst i f s).pwr = s.pwr := rfl
@[simp] theorem updInst_boot : (updInst i f s).boot = s.boot := rfl
@[simp] theorem updInst_health : (updInst i f s).health = s.health := rfl
@[simp] theorem updInst_tap : (updInst i f s).tap = s.tap := rfl
@[simp] theorem updInst_clk : (updInst i f s).clk = s.clk := rfl
@[simp] theorem updInst_proof : (updInst i f s).proof = s.proof := rfl
@[simp] theorem updInst_slices : (updInst i f s).slices = s.slices := rfl
@[simp] theorem updInst_carts : (updInst i f s).carts = s.carts := rfl
@[simp] theorem updInst_tb : (updInst i f s).tb = s.tb := rfl
@[simp] theorem updInst_tacs : (updInst i f s).tacs = s.tacs := rfl
@[simp] theorem updInst_timers : (updInst i f s).timers = s.timers := rfl
@[simp] theorem updInst_tus : (updInst i f s).tus = s.tus := rfl
@[simp] theorem updInst_auxEdges : (updInst i f s).auxEdges = s.auxEdges := rfl
@[simp] theorem updInst_seqs : (updInst i f s).seqs = s.seqs := rfl
@[simp] theorem updInst_trigCfg : (updInst i f s).trigCfg = s.trigCfg := rfl
@[simp] theorem updInst_trigouts : (updInst i f s).trigouts = s.trigouts := rfl
@[simp] theorem updInst_mem : (updInst i f s).mem = s.mem := rfl
@[simp] theorem updInst_reds : (updInst i f s).reds = s.reds := rfl
@[simp] theorem updInst_ddcs : (updInst i f s).ddcs = s.ddcs := rfl
@[simp] theorem updInst_felts : (updInst i f s).felts = s.felts := rfl
@[simp] theorem updInst_masks : (updInst i f s).masks = s.masks := rfl
@[simp] theorem updInst_eng : (updInst i f s).eng = s.eng := rfl
@[simp] theorem updInst_insts : (updInst i f s).insts = Machine.upd s.insts i f := rfl
@[simp] theorem updInst_brim : (updInst i f s).brim = s.brim := rfl
@[simp] theorem updInst_upd : (updInst i f s).upd = s.upd := rfl
@[simp] theorem updInst_cfg : (updInst i f s).cfg = s.cfg := rfl
@[simp] theorem updInst_acc : (updInst i f s).acc = s.acc := rfl
@[simp] theorem updInst_admission : (updInst i f s).admission = s.admission := rfl
end

section
variable (f : Eng → Eng) (s : State)
@[simp] theorem updEng_pending : (updEng f s).pending = s.pending := rfl
@[simp] theorem updEng_aoCycles : (updEng f s).aoCycles = s.aoCycles := rfl
@[simp] theorem updEng_freeCtr : (updEng f s).freeCtr = s.freeCtr := rfl
@[simp] theorem updEng_busRead : (updEng f s).busRead = s.busRead := rfl
@[simp] theorem updEng_hostMem : (updEng f s).hostMem = s.hostMem := rfl
@[simp] theorem updEng_hif : (updEng f s).hif = s.hif := rfl
@[simp] theorem updEng_pwr : (updEng f s).pwr = s.pwr := rfl
@[simp] theorem updEng_boot : (updEng f s).boot = s.boot := rfl
@[simp] theorem updEng_health : (updEng f s).health = s.health := rfl
@[simp] theorem updEng_tap : (updEng f s).tap = s.tap := rfl
@[simp] theorem updEng_clk : (updEng f s).clk = s.clk := rfl
@[simp] theorem updEng_proof : (updEng f s).proof = s.proof := rfl
@[simp] theorem updEng_slices : (updEng f s).slices = s.slices := rfl
@[simp] theorem updEng_carts : (updEng f s).carts = s.carts := rfl
@[simp] theorem updEng_tb : (updEng f s).tb = s.tb := rfl
@[simp] theorem updEng_tacs : (updEng f s).tacs = s.tacs := rfl
@[simp] theorem updEng_timers : (updEng f s).timers = s.timers := rfl
@[simp] theorem updEng_tus : (updEng f s).tus = s.tus := rfl
@[simp] theorem updEng_auxEdges : (updEng f s).auxEdges = s.auxEdges := rfl
@[simp] theorem updEng_seqs : (updEng f s).seqs = s.seqs := rfl
@[simp] theorem updEng_trigCfg : (updEng f s).trigCfg = s.trigCfg := rfl
@[simp] theorem updEng_trigouts : (updEng f s).trigouts = s.trigouts := rfl
@[simp] theorem updEng_mem : (updEng f s).mem = s.mem := rfl
@[simp] theorem updEng_reds : (updEng f s).reds = s.reds := rfl
@[simp] theorem updEng_ddcs : (updEng f s).ddcs = s.ddcs := rfl
@[simp] theorem updEng_felts : (updEng f s).felts = s.felts := rfl
@[simp] theorem updEng_masks : (updEng f s).masks = s.masks := rfl
@[simp] theorem updEng_eng : (updEng f s).eng = f s.eng := rfl
@[simp] theorem updEng_insts : (updEng f s).insts = s.insts := rfl
@[simp] theorem updEng_brim : (updEng f s).brim = s.brim := rfl
@[simp] theorem updEng_upd : (updEng f s).upd = s.upd := rfl
@[simp] theorem updEng_cfg : (updEng f s).cfg = s.cfg := rfl
@[simp] theorem updEng_acc : (updEng f s).acc = s.acc := rfl
@[simp] theorem updEng_admission : (updEng f s).admission = s.admission := rfl
end

section
variable (f : Upd → Upd) (s : State)
@[simp] theorem updUpd_pending : (updUpd f s).pending = s.pending := rfl
@[simp] theorem updUpd_aoCycles : (updUpd f s).aoCycles = s.aoCycles := rfl
@[simp] theorem updUpd_freeCtr : (updUpd f s).freeCtr = s.freeCtr := rfl
@[simp] theorem updUpd_busRead : (updUpd f s).busRead = s.busRead := rfl
@[simp] theorem updUpd_hostMem : (updUpd f s).hostMem = s.hostMem := rfl
@[simp] theorem updUpd_hif : (updUpd f s).hif = s.hif := rfl
@[simp] theorem updUpd_pwr : (updUpd f s).pwr = s.pwr := rfl
@[simp] theorem updUpd_boot : (updUpd f s).boot = s.boot := rfl
@[simp] theorem updUpd_health : (updUpd f s).health = s.health := rfl
@[simp] theorem updUpd_tap : (updUpd f s).tap = s.tap := rfl
@[simp] theorem updUpd_clk : (updUpd f s).clk = s.clk := rfl
@[simp] theorem updUpd_proof : (updUpd f s).proof = s.proof := rfl
@[simp] theorem updUpd_slices : (updUpd f s).slices = s.slices := rfl
@[simp] theorem updUpd_carts : (updUpd f s).carts = s.carts := rfl
@[simp] theorem updUpd_tb : (updUpd f s).tb = s.tb := rfl
@[simp] theorem updUpd_tacs : (updUpd f s).tacs = s.tacs := rfl
@[simp] theorem updUpd_timers : (updUpd f s).timers = s.timers := rfl
@[simp] theorem updUpd_tus : (updUpd f s).tus = s.tus := rfl
@[simp] theorem updUpd_auxEdges : (updUpd f s).auxEdges = s.auxEdges := rfl
@[simp] theorem updUpd_seqs : (updUpd f s).seqs = s.seqs := rfl
@[simp] theorem updUpd_trigCfg : (updUpd f s).trigCfg = s.trigCfg := rfl
@[simp] theorem updUpd_trigouts : (updUpd f s).trigouts = s.trigouts := rfl
@[simp] theorem updUpd_mem : (updUpd f s).mem = s.mem := rfl
@[simp] theorem updUpd_reds : (updUpd f s).reds = s.reds := rfl
@[simp] theorem updUpd_ddcs : (updUpd f s).ddcs = s.ddcs := rfl
@[simp] theorem updUpd_felts : (updUpd f s).felts = s.felts := rfl
@[simp] theorem updUpd_masks : (updUpd f s).masks = s.masks := rfl
@[simp] theorem updUpd_eng : (updUpd f s).eng = s.eng := rfl
@[simp] theorem updUpd_insts : (updUpd f s).insts = s.insts := rfl
@[simp] theorem updUpd_brim : (updUpd f s).brim = s.brim := rfl
@[simp] theorem updUpd_upd : (updUpd f s).upd = f s.upd := rfl
@[simp] theorem updUpd_cfg : (updUpd f s).cfg = s.cfg := rfl
@[simp] theorem updUpd_acc : (updUpd f s).acc = s.acc := rfl
@[simp] theorem updUpd_admission : (updUpd f s).admission = s.admission := rfl
end

end Sys2Proof.Machine
end

