-- ==== Sys2Proof/Laws/Events.lean ====
section
/-!
SUPPORT. Laws of raising events (R367, R369): an event changes its own source's entry and the counter of free values at most.
-/
namespace Sys2Proof.Machine

/-- Raising an event is quiet. -/
theorem raiseWith_quiet (b : Bool) (src : Fin 256) (sev : Nat) (ts : TS96) (data : List Byte) (s : State) :
    Safety.Quiet s (raiseWith b src sev ts data s) := by
  unfold Safety.Quiet raiseWith updSource
  dsimp only
  repeat' split
  all_goals rfl

theorem raise_quiet (src : Fin 256) (sev : Nat) (ts : TS96) (data : List Byte) (s : State) :
    Safety.Quiet s (raise src sev ts data s) := raiseWith_quiet ..

theorem raiseNow_quiet (src : Fin 256) (sev : Nat) (data : List Byte) (s : State) :
    Safety.Quiet s (raiseNow src sev data s) := raiseWith_quiet ..

theorem raiseBoot_quiet (src : Fin 256) (sev : Nat) (data : List Byte) (s : State) :
    Safety.Quiet s (raiseBoot src sev data s) := raiseWith_quiet ..

/-- What is quiet after something quiet is quiet. -/
theorem quiet_trans {s t u : State} (h : Safety.Quiet s t) (k : Safety.Quiet t u) : Safety.Quiet s u := by
  unfold Safety.Quiet at *
  rw [k, h]

theorem quiet_refl (s : State) : Safety.Quiet s s := rfl

/-- A fresh free value moves the counter only. -/
theorem fresh_quiet (s : State) : Safety.Quiet s (fresh s).2 := rfl

@[simp] theorem fresh_fst (s : State) : (fresh s).1 = s.freeCtr := rfl

section
variable (b : Bool) (src : Fin 256) (sev : Nat) (ts : TS96) (data : List Byte) (s : State)
@[simp] theorem raiseWith_pending : (raiseWith b src sev ts data s).pending = s.pending := by rw [raiseWith_quiet b src sev ts data s]
@[simp] theorem raiseWith_aoCycles : (raiseWith b src sev ts data s).aoCycles = s.aoCycles := by rw [raiseWith_quiet b src sev ts data s]
@[simp] theorem raiseWith_busRead : (raiseWith b src sev ts data s).busRead = s.busRead := by rw [raiseWith_quiet b src sev ts data s]
@[simp] theorem raiseWith_hostMem : (raiseWith b src sev ts data s).hostMem = s.hostMem := by rw [raiseWith_quiet b src sev ts data s]
@[simp] theorem raiseWith_pwr : (raiseWith b src sev ts data s).pwr = s.pwr := by rw [raiseWith_quiet b src sev ts data s]
@[simp] theorem raiseWith_boot : (raiseWith b src sev ts data s).boot = s.boot := by rw [raiseWith_quiet b src sev ts data s]
@[simp] theorem raiseWith_health : (raiseWith b src sev ts data s).health = s.health := by rw [raiseWith_quiet b src sev ts data s]
@[simp] theorem raiseWith_tap : (raiseWith b src sev ts data s).tap = s.tap := by rw [raiseWith_quiet b src sev ts data s]
@[simp] theorem raiseWith_clk : (raiseWith b src sev ts data s).clk = s.clk := by rw [raiseWith_quiet b src sev ts data s]
@[simp] theorem raiseWith_proof : (raiseWith b src sev ts data s).proof = s.proof := by rw [raiseWith_quiet b src sev ts data s]
@[simp] theorem raiseWith_slices : (raiseWith b src sev ts data s).slices = s.slices := by rw [raiseWith_quiet b src sev ts data s]
@[simp] theorem raiseWith_carts : (raiseWith b src sev ts data s).carts = s.carts := by rw [raiseWith_quiet b src sev ts data s]
@[simp] theorem raiseWith_tb : (raiseWith b src sev ts data s).tb = s.tb := by rw [raiseWith_quiet b src sev ts data s]
@[simp] theorem raiseWith_tacs : (raiseWith b src sev ts data s).tacs = s.tacs := by rw [raiseWith_quiet b src sev ts data s]
@[simp] theorem raiseWith_timers : (raiseWith b src sev ts data s).timers = s.timers := by rw [raiseWith_quiet b src sev ts data s]
@[simp] theorem raiseWith_tus : (raiseWith b src sev ts data s).tus = s.tus := by rw [raiseWith_quiet b src sev ts data s]
@[simp] theorem raiseWith_auxEdges : (raiseWith b src sev ts data s).auxEdges = s.auxEdges := by rw [raiseWith_quiet b src sev ts data s]
@[simp] theorem raiseWith_seqs : (raiseWith b src sev ts data s).seqs = s.seqs := by rw [raiseWith_quiet b src sev ts data s]
@[simp] theorem raiseWith_trigCfg : (raiseWith b src sev ts data s).trigCfg = s.trigCfg := by rw [raiseWith_quiet b src sev ts data s]
@[simp] theorem raiseWith_trigouts : (raiseWith b src sev ts data s).trigouts = s.trigouts := by rw [raiseWith_quiet b src sev ts data s]
@[simp] theorem raiseWith_mem : (raiseWith b src sev ts data s).mem = s.mem := by rw [raiseWith_quiet b src sev ts data s]
@[simp] theorem raiseWith_reds : (raiseWith b src sev ts data s).reds = s.reds := by rw [raiseWith_quiet b src sev ts data s]
@[simp] theorem raiseWith_ddcs : (raiseWith b src sev ts data s).ddcs = s.ddcs := by rw [raiseWith_quiet b src sev ts data s]
@[simp] theorem raiseWith_felts : (raiseWith b src sev ts data s).felts = s.felts := by rw [raiseWith_quiet b src sev ts data s]
@[simp] theorem raiseWith_masks : (raiseWith b src sev ts data s).masks = s.masks := by rw [raiseWith_quiet b src sev ts data s]
@[simp] theorem raiseWith_eng : (raiseWith b src sev ts data s).eng = s.eng := by rw [raiseWith_quiet b src sev ts data s]
@[simp] theorem raiseWith_insts : (raiseWith b src sev ts data s).insts = s.insts := by rw [raiseWith_quiet b src sev ts data s]
@[simp] theorem raiseWith_brim : (raiseWith b src sev ts data s).brim = s.brim := by rw [raiseWith_quiet b src sev ts data s]
@[simp] theorem raiseWith_upd : (raiseWith b src sev ts data s).upd = s.upd := by rw [raiseWith_quiet b src sev ts data s]
@[simp] theorem raiseWith_cfg : (raiseWith b src sev ts data s).cfg = s.cfg := by rw [raiseWith_quiet b src sev ts data s]
@[simp] theorem raiseWith_acc : (raiseWith b src sev ts data s).acc = s.acc := by rw [raiseWith_quiet b src sev ts data s]
@[simp] theorem raiseWith_admission : (raiseWith b src sev ts data s).admission = s.admission := by rw [raiseWith_quiet b src sev ts data s]
@[simp] theorem raiseWith_hif_cmdEn : (raiseWith b src sev ts data s).hif.cmdEn = s.hif.cmdEn := by rw [raiseWith_quiet b src sev ts data s]
@[simp] theorem raiseWith_hif_torn : (raiseWith b src sev ts data s).hif.torn = s.hif.torn := by rw [raiseWith_quiet b src sev ts data s]
@[simp] theorem raiseWith_hif_badAccess : (raiseWith b src sev ts data s).hif.badAccess = s.hif.badAccess := by rw [raiseWith_quiet b src sev ts data s]
@[simp] theorem raiseWith_hif_cmdPaused : (raiseWith b src sev ts data s).hif.cmdPaused = s.hif.cmdPaused := by rw [raiseWith_quiet b src sev ts data s]
@[simp] theorem raiseWith_hif_urgentSeen : (raiseWith b src sev ts data s).hif.urgentSeen = s.hif.urgentSeen := by rw [raiseWith_quiet b src sev ts data s]
@[simp] theorem raiseWith_hif_hostMemErr : (raiseWith b src sev ts data s).hif.hostMemErr = s.hif.hostMemErr := by rw [raiseWith_quiet b src sev ts data s]
@[simp] theorem raiseWith_hif_linkGen : (raiseWith b src sev ts data s).hif.linkGen = s.hif.linkGen := by rw [raiseWith_quiet b src sev ts data s]
@[simp] theorem raiseWith_hif_linkWidth : (raiseWith b src sev ts data s).hif.linkWidth = s.hif.linkWidth := by rw [raiseWith_quiet b src sev ts data s]
@[simp] theorem raiseWith_hif_linkUp : (raiseWith b src sev ts data s).hif.linkUp = s.hif.linkUp := by rw [raiseWith_quiet b src sev ts data s]
@[simp] theorem raiseWith_hif_linkRecovery : (raiseWith b src sev ts data s).hif.linkRecovery = s.hif.linkRecovery := by rw [raiseWith_quiet b src sev ts data s]
@[simp] theorem raiseWith_hif_busMaster : (raiseWith b src sev ts data s).hif.busMaster = s.hif.busMaster := by rw [raiseWith_quiet b src sev ts data s]
@[simp] theorem raiseWith_hif_msixEnable : (raiseWith b src sev ts data s).hif.msixEnable = s.hif.msixEnable := by rw [raiseWith_quiet b src sev ts data s]
@[simp] theorem raiseWith_hif_msixMask : (raiseWith b src sev ts data s).hif.msixMask = s.hif.msixMask := by rw [raiseWith_quiet b src sev ts data s]
@[simp] theorem raiseWith_hif_latch : (raiseWith b src sev ts data s).hif.latch = s.hif.latch := by rw [raiseWith_quiet b src sev ts data s]
@[simp] theorem raiseWith_hif_qps : (raiseWith b src sev ts data s).hif.qps = s.hif.qps := by rw [raiseWith_quiet b src sev ts data s]
@[simp] theorem raiseWith_hif_vecs : (raiseWith b src sev ts data s).hif.vecs = s.hif.vecs := by rw [raiseWith_quiet b src sev ts data s]
@[simp] theorem raiseWith_hif_streams : (raiseWith b src sev ts data s).hif.streams = s.hif.streams := by rw [raiseWith_quiet b src sev ts data s]
@[simp] theorem raiseWith_hif_lastQp : (raiseWith b src sev ts data s).hif.lastQp = s.hif.lastQp := by rw [raiseWith_quiet b src sev ts data s]
@[simp] theorem raiseWith_hif_sent : (raiseWith b src sev ts data s).hif.sent = s.hif.sent := by rw [raiseWith_quiet b src sev ts data s]
@[simp] theorem raiseWith_hif_retries : (raiseWith b src sev ts data s).hif.retries = s.hif.retries := by rw [raiseWith_quiet b src sev ts data s]
end

section
variable (src : Fin 256) (sev : Nat) (ts : TS96) (data : List Byte) (s : State)
@[simp] theorem raise_pending : (raise src sev ts data s).pending = s.pending := by rw [raise_quiet src sev ts data s]
@[simp] theorem raise_aoCycles : (raise src sev ts data s).aoCycles = s.aoCycles := by rw [raise_quiet src sev ts data s]
@[simp] theorem raise_busRead : (raise src sev ts data s).busRead = s.busRead := by rw [raise_quiet src sev ts data s]
@[simp] theorem raise_hostMem : (raise src sev ts data s).hostMem = s.hostMem := by rw [raise_quiet src sev ts data s]
@[simp] theorem raise_pwr : (raise src sev ts data s).pwr = s.pwr := by rw [raise_quiet src sev ts data s]
@[simp] theorem raise_boot : (raise src sev ts data s).boot = s.boot := by rw [raise_quiet src sev ts data s]
@[simp] theorem raise_health : (raise src sev ts data s).health = s.health := by rw [raise_quiet src sev ts data s]
@[simp] theorem raise_tap : (raise src sev ts data s).tap = s.tap := by rw [raise_quiet src sev ts data s]
@[simp] theorem raise_clk : (raise src sev ts data s).clk = s.clk := by rw [raise_quiet src sev ts data s]
@[simp] theorem raise_proof : (raise src sev ts data s).proof = s.proof := by rw [raise_quiet src sev ts data s]
@[simp] theorem raise_slices : (raise src sev ts data s).slices = s.slices := by rw [raise_quiet src sev ts data s]
@[simp] theorem raise_carts : (raise src sev ts data s).carts = s.carts := by rw [raise_quiet src sev ts data s]
@[simp] theorem raise_tb : (raise src sev ts data s).tb = s.tb := by rw [raise_quiet src sev ts data s]
@[simp] theorem raise_tacs : (raise src sev ts data s).tacs = s.tacs := by rw [raise_quiet src sev ts data s]
@[simp] theorem raise_timers : (raise src sev ts data s).timers = s.timers := by rw [raise_quiet src sev ts data s]
@[simp] theorem raise_tus : (raise src sev ts data s).tus = s.tus := by rw [raise_quiet src sev ts data s]
@[simp] theorem raise_auxEdges : (raise src sev ts data s).auxEdges = s.auxEdges := by rw [raise_quiet src sev ts data s]
@[simp] theorem raise_seqs : (raise src sev ts data s).seqs = s.seqs := by rw [raise_quiet src sev ts data s]
@[simp] theorem raise_trigCfg : (raise src sev ts data s).trigCfg = s.trigCfg := by rw [raise_quiet src sev ts data s]
@[simp] theorem raise_trigouts : (raise src sev ts data s).trigouts = s.trigouts := by rw [raise_quiet src sev ts data s]
@[simp] theorem raise_mem : (raise src sev ts data s).mem = s.mem := by rw [raise_quiet src sev ts data s]
@[simp] theorem raise_reds : (raise src sev ts data s).reds = s.reds := by rw [raise_quiet src sev ts data s]
@[simp] theorem raise_ddcs : (raise src sev ts data s).ddcs = s.ddcs := by rw [raise_quiet src sev ts data s]
@[simp] theorem raise_felts : (raise src sev ts data s).felts = s.felts := by rw [raise_quiet src sev ts data s]
@[simp] theorem raise_masks : (raise src sev ts data s).masks = s.masks := by rw [raise_quiet src sev ts data s]
@[simp] theorem raise_eng : (raise src sev ts data s).eng = s.eng := by rw [raise_quiet src sev ts data s]
@[simp] theorem raise_insts : (raise src sev ts data s).insts = s.insts := by rw [raise_quiet src sev ts data s]
@[simp] theorem raise_brim : (raise src sev ts data s).brim = s.brim := by rw [raise_quiet src sev ts data s]
@[simp] theorem raise_upd : (raise src sev ts data s).upd = s.upd := by rw [raise_quiet src sev ts data s]
@[simp] theorem raise_cfg : (raise src sev ts data s).cfg = s.cfg := by rw [raise_quiet src sev ts data s]
@[simp] theorem raise_acc : (raise src sev ts data s).acc = s.acc := by rw [raise_quiet src sev ts data s]
@[simp] theorem raise_admission : (raise src sev ts data s).admission = s.admission := by rw [raise_quiet src sev ts data s]
@[simp] theorem raise_hif_cmdEn : (raise src sev ts data s).hif.cmdEn = s.hif.cmdEn := by rw [raise_quiet src sev ts data s]
@[simp] theorem raise_hif_torn : (raise src sev ts data s).hif.torn = s.hif.torn := by rw [raise_quiet src sev ts data s]
@[simp] theorem raise_hif_badAccess : (raise src sev ts data s).hif.badAccess = s.hif.badAccess := by rw [raise_quiet src sev ts data s]
@[simp] theorem raise_hif_cmdPaused : (raise src sev ts data s).hif.cmdPaused = s.hif.cmdPaused := by rw [raise_quiet src sev ts data s]
@[simp] theorem raise_hif_urgentSeen : (raise src sev ts data s).hif.urgentSeen = s.hif.urgentSeen := by rw [raise_quiet src sev ts data s]
@[simp] theorem raise_hif_hostMemErr : (raise src sev ts data s).hif.hostMemErr = s.hif.hostMemErr := by rw [raise_quiet src sev ts data s]
@[simp] theorem raise_hif_linkGen : (raise src sev ts data s).hif.linkGen = s.hif.linkGen := by rw [raise_quiet src sev ts data s]
@[simp] theorem raise_hif_linkWidth : (raise src sev ts data s).hif.linkWidth = s.hif.linkWidth := by rw [raise_quiet src sev ts data s]
@[simp] theorem raise_hif_linkUp : (raise src sev ts data s).hif.linkUp = s.hif.linkUp := by rw [raise_quiet src sev ts data s]
@[simp] theorem raise_hif_linkRecovery : (raise src sev ts data s).hif.linkRecovery = s.hif.linkRecovery := by rw [raise_quiet src sev ts data s]
@[simp] theorem raise_hif_busMaster : (raise src sev ts data s).hif.busMaster = s.hif.busMaster := by rw [raise_quiet src sev ts data s]
@[simp] theorem raise_hif_msixEnable : (raise src sev ts data s).hif.msixEnable = s.hif.msixEnable := by rw [raise_quiet src sev ts data s]
@[simp] theorem raise_hif_msixMask : (raise src sev ts data s).hif.msixMask = s.hif.msixMask := by rw [raise_quiet src sev ts data s]
@[simp] theorem raise_hif_latch : (raise src sev ts data s).hif.latch = s.hif.latch := by rw [raise_quiet src sev ts data s]
@[simp] theorem raise_hif_qps : (raise src sev ts data s).hif.qps = s.hif.qps := by rw [raise_quiet src sev ts data s]
@[simp] theorem raise_hif_vecs : (raise src sev ts data s).hif.vecs = s.hif.vecs := by rw [raise_quiet src sev ts data s]
@[simp] theorem raise_hif_streams : (raise src sev ts data s).hif.streams = s.hif.streams := by rw [raise_quiet src sev ts data s]
@[simp] theorem raise_hif_lastQp : (raise src sev ts data s).hif.lastQp = s.hif.lastQp := by rw [raise_quiet src sev ts data s]
@[simp] theorem raise_hif_sent : (raise src sev ts data s).hif.sent = s.hif.sent := by rw [raise_quiet src sev ts data s]
@[simp] theorem raise_hif_retries : (raise src sev ts data s).hif.retries = s.hif.retries := by rw [raise_quiet src sev ts data s]
end

section
variable (src : Fin 256) (sev : Nat) (data : List Byte) (s : State)
@[simp] theorem raiseNow_pending : (raiseNow src sev data s).pending = s.pending := by rw [raiseNow_quiet src sev data s]
@[simp] theorem raiseNow_aoCycles : (raiseNow src sev data s).aoCycles = s.aoCycles := by rw [raiseNow_quiet src sev data s]
@[simp] theorem raiseNow_busRead : (raiseNow src sev data s).busRead = s.busRead := by rw [raiseNow_quiet src sev data s]
@[simp] theorem raiseNow_hostMem : (raiseNow src sev data s).hostMem = s.hostMem := by rw [raiseNow_quiet src sev data s]
@[simp] theorem raiseNow_pwr : (raiseNow src sev data s).pwr = s.pwr := by rw [raiseNow_quiet src sev data s]
@[simp] theorem raiseNow_boot : (raiseNow src sev data s).boot = s.boot := by rw [raiseNow_quiet src sev data s]
@[simp] theorem raiseNow_health : (raiseNow src sev data s).health = s.health := by rw [raiseNow_quiet src sev data s]
@[simp] theorem raiseNow_tap : (raiseNow src sev data s).tap = s.tap := by rw [raiseNow_quiet src sev data s]
@[simp] theorem raiseNow_clk : (raiseNow src sev data s).clk = s.clk := by rw [raiseNow_quiet src sev data s]
@[simp] theorem raiseNow_proof : (raiseNow src sev data s).proof = s.proof := by rw [raiseNow_quiet src sev data s]
@[simp] theorem raiseNow_slices : (raiseNow src sev data s).slices = s.slices := by rw [raiseNow_quiet src sev data s]
@[simp] theorem raiseNow_carts : (raiseNow src sev data s).carts = s.carts := by rw [raiseNow_quiet src sev data s]
@[simp] theorem raiseNow_tb : (raiseNow src sev data s).tb = s.tb := by rw [raiseNow_quiet src sev data s]
@[simp] theorem raiseNow_tacs : (raiseNow src sev data s).tacs = s.tacs := by rw [raiseNow_quiet src sev data s]
@[simp] theorem raiseNow_timers : (raiseNow src sev data s).timers = s.timers := by rw [raiseNow_quiet src sev data s]
@[simp] theorem raiseNow_tus : (raiseNow src sev data s).tus = s.tus := by rw [raiseNow_quiet src sev data s]
@[simp] theorem raiseNow_auxEdges : (raiseNow src sev data s).auxEdges = s.auxEdges := by rw [raiseNow_quiet src sev data s]
@[simp] theorem raiseNow_seqs : (raiseNow src sev data s).seqs = s.seqs := by rw [raiseNow_quiet src sev data s]
@[simp] theorem raiseNow_trigCfg : (raiseNow src sev data s).trigCfg = s.trigCfg := by rw [raiseNow_quiet src sev data s]
@[simp] theorem raiseNow_trigouts : (raiseNow src sev data s).trigouts = s.trigouts := by rw [raiseNow_quiet src sev data s]
@[simp] theorem raiseNow_mem : (raiseNow src sev data s).mem = s.mem := by rw [raiseNow_quiet src sev data s]
@[simp] theorem raiseNow_reds : (raiseNow src sev data s).reds = s.reds := by rw [raiseNow_quiet src sev data s]
@[simp] theorem raiseNow_ddcs : (raiseNow src sev data s).ddcs = s.ddcs := by rw [raiseNow_quiet src sev data s]
@[simp] theorem raiseNow_felts : (raiseNow src sev data s).felts = s.felts := by rw [raiseNow_quiet src sev data s]
@[simp] theorem raiseNow_masks : (raiseNow src sev data s).masks = s.masks := by rw [raiseNow_quiet src sev data s]
@[simp] theorem raiseNow_eng : (raiseNow src sev data s).eng = s.eng := by rw [raiseNow_quiet src sev data s]
@[simp] theorem raiseNow_insts : (raiseNow src sev data s).insts = s.insts := by rw [raiseNow_quiet src sev data s]
@[simp] theorem raiseNow_brim : (raiseNow src sev data s).brim = s.brim := by rw [raiseNow_quiet src sev data s]
@[simp] theorem raiseNow_upd : (raiseNow src sev data s).upd = s.upd := by rw [raiseNow_quiet src sev data s]
@[simp] theorem raiseNow_cfg : (raiseNow src sev data s).cfg = s.cfg := by rw [raiseNow_quiet src sev data s]
@[simp] theorem raiseNow_acc : (raiseNow src sev data s).acc = s.acc := by rw [raiseNow_quiet src sev data s]
@[simp] theorem raiseNow_admission : (raiseNow src sev data s).admission = s.admission := by rw [raiseNow_quiet src sev data s]
@[simp] theorem raiseNow_hif_cmdEn : (raiseNow src sev data s).hif.cmdEn = s.hif.cmdEn := by rw [raiseNow_quiet src sev data s]
@[simp] theorem raiseNow_hif_torn : (raiseNow src sev data s).hif.torn = s.hif.torn := by rw [raiseNow_quiet src sev data s]
@[simp] theorem raiseNow_hif_badAccess : (raiseNow src sev data s).hif.badAccess = s.hif.badAccess := by rw [raiseNow_quiet src sev data s]
@[simp] theorem raiseNow_hif_cmdPaused : (raiseNow src sev data s).hif.cmdPaused = s.hif.cmdPaused := by rw [raiseNow_quiet src sev data s]
@[simp] theorem raiseNow_hif_urgentSeen : (raiseNow src sev data s).hif.urgentSeen = s.hif.urgentSeen := by rw [raiseNow_quiet src sev data s]
@[simp] theorem raiseNow_hif_hostMemErr : (raiseNow src sev data s).hif.hostMemErr = s.hif.hostMemErr := by rw [raiseNow_quiet src sev data s]
@[simp] theorem raiseNow_hif_linkGen : (raiseNow src sev data s).hif.linkGen = s.hif.linkGen := by rw [raiseNow_quiet src sev data s]
@[simp] theorem raiseNow_hif_linkWidth : (raiseNow src sev data s).hif.linkWidth = s.hif.linkWidth := by rw [raiseNow_quiet src sev data s]
@[simp] theorem raiseNow_hif_linkUp : (raiseNow src sev data s).hif.linkUp = s.hif.linkUp := by rw [raiseNow_quiet src sev data s]
@[simp] theorem raiseNow_hif_linkRecovery : (raiseNow src sev data s).hif.linkRecovery = s.hif.linkRecovery := by rw [raiseNow_quiet src sev data s]
@[simp] theorem raiseNow_hif_busMaster : (raiseNow src sev data s).hif.busMaster = s.hif.busMaster := by rw [raiseNow_quiet src sev data s]
@[simp] theorem raiseNow_hif_msixEnable : (raiseNow src sev data s).hif.msixEnable = s.hif.msixEnable := by rw [raiseNow_quiet src sev data s]
@[simp] theorem raiseNow_hif_msixMask : (raiseNow src sev data s).hif.msixMask = s.hif.msixMask := by rw [raiseNow_quiet src sev data s]
@[simp] theorem raiseNow_hif_latch : (raiseNow src sev data s).hif.latch = s.hif.latch := by rw [raiseNow_quiet src sev data s]
@[simp] theorem raiseNow_hif_qps : (raiseNow src sev data s).hif.qps = s.hif.qps := by rw [raiseNow_quiet src sev data s]
@[simp] theorem raiseNow_hif_vecs : (raiseNow src sev data s).hif.vecs = s.hif.vecs := by rw [raiseNow_quiet src sev data s]
@[simp] theorem raiseNow_hif_streams : (raiseNow src sev data s).hif.streams = s.hif.streams := by rw [raiseNow_quiet src sev data s]
@[simp] theorem raiseNow_hif_lastQp : (raiseNow src sev data s).hif.lastQp = s.hif.lastQp := by rw [raiseNow_quiet src sev data s]
@[simp] theorem raiseNow_hif_sent : (raiseNow src sev data s).hif.sent = s.hif.sent := by rw [raiseNow_quiet src sev data s]
@[simp] theorem raiseNow_hif_retries : (raiseNow src sev data s).hif.retries = s.hif.retries := by rw [raiseNow_quiet src sev data s]
end

section
variable (src : Fin 256) (sev : Nat) (data : List Byte) (s : State)
@[simp] theorem raiseBoot_pending : (raiseBoot src sev data s).pending = s.pending := by rw [raiseBoot_quiet src sev data s]
@[simp] theorem raiseBoot_aoCycles : (raiseBoot src sev data s).aoCycles = s.aoCycles := by rw [raiseBoot_quiet src sev data s]
@[simp] theorem raiseBoot_busRead : (raiseBoot src sev data s).busRead = s.busRead := by rw [raiseBoot_quiet src sev data s]
@[simp] theorem raiseBoot_hostMem : (raiseBoot src sev data s).hostMem = s.hostMem := by rw [raiseBoot_quiet src sev data s]
@[simp] theorem raiseBoot_pwr : (raiseBoot src sev data s).pwr = s.pwr := by rw [raiseBoot_quiet src sev data s]
@[simp] theorem raiseBoot_boot : (raiseBoot src sev data s).boot = s.boot := by rw [raiseBoot_quiet src sev data s]
@[simp] theorem raiseBoot_health : (raiseBoot src sev data s).health = s.health := by rw [raiseBoot_quiet src sev data s]
@[simp] theorem raiseBoot_tap : (raiseBoot src sev data s).tap = s.tap := by rw [raiseBoot_quiet src sev data s]
@[simp] theorem raiseBoot_clk : (raiseBoot src sev data s).clk = s.clk := by rw [raiseBoot_quiet src sev data s]
@[simp] theorem raiseBoot_proof : (raiseBoot src sev data s).proof = s.proof := by rw [raiseBoot_quiet src sev data s]
@[simp] theorem raiseBoot_slices : (raiseBoot src sev data s).slices = s.slices := by rw [raiseBoot_quiet src sev data s]
@[simp] theorem raiseBoot_carts : (raiseBoot src sev data s).carts = s.carts := by rw [raiseBoot_quiet src sev data s]
@[simp] theorem raiseBoot_tb : (raiseBoot src sev data s).tb = s.tb := by rw [raiseBoot_quiet src sev data s]
@[simp] theorem raiseBoot_tacs : (raiseBoot src sev data s).tacs = s.tacs := by rw [raiseBoot_quiet src sev data s]
@[simp] theorem raiseBoot_timers : (raiseBoot src sev data s).timers = s.timers := by rw [raiseBoot_quiet src sev data s]
@[simp] theorem raiseBoot_tus : (raiseBoot src sev data s).tus = s.tus := by rw [raiseBoot_quiet src sev data s]
@[simp] theorem raiseBoot_auxEdges : (raiseBoot src sev data s).auxEdges = s.auxEdges := by rw [raiseBoot_quiet src sev data s]
@[simp] theorem raiseBoot_seqs : (raiseBoot src sev data s).seqs = s.seqs := by rw [raiseBoot_quiet src sev data s]
@[simp] theorem raiseBoot_trigCfg : (raiseBoot src sev data s).trigCfg = s.trigCfg := by rw [raiseBoot_quiet src sev data s]
@[simp] theorem raiseBoot_trigouts : (raiseBoot src sev data s).trigouts = s.trigouts := by rw [raiseBoot_quiet src sev data s]
@[simp] theorem raiseBoot_mem : (raiseBoot src sev data s).mem = s.mem := by rw [raiseBoot_quiet src sev data s]
@[simp] theorem raiseBoot_reds : (raiseBoot src sev data s).reds = s.reds := by rw [raiseBoot_quiet src sev data s]
@[simp] theorem raiseBoot_ddcs : (raiseBoot src sev data s).ddcs = s.ddcs := by rw [raiseBoot_quiet src sev data s]
@[simp] theorem raiseBoot_felts : (raiseBoot src sev data s).felts = s.felts := by rw [raiseBoot_quiet src sev data s]
@[simp] theorem raiseBoot_masks : (raiseBoot src sev data s).masks = s.masks := by rw [raiseBoot_quiet src sev data s]
@[simp] theorem raiseBoot_eng : (raiseBoot src sev data s).eng = s.eng := by rw [raiseBoot_quiet src sev data s]
@[simp] theorem raiseBoot_insts : (raiseBoot src sev data s).insts = s.insts := by rw [raiseBoot_quiet src sev data s]
@[simp] theorem raiseBoot_brim : (raiseBoot src sev data s).brim = s.brim := by rw [raiseBoot_quiet src sev data s]
@[simp] theorem raiseBoot_upd : (raiseBoot src sev data s).upd = s.upd := by rw [raiseBoot_quiet src sev data s]
@[simp] theorem raiseBoot_cfg : (raiseBoot src sev data s).cfg = s.cfg := by rw [raiseBoot_quiet src sev data s]
@[simp] theorem raiseBoot_acc : (raiseBoot src sev data s).acc = s.acc := by rw [raiseBoot_quiet src sev data s]
@[simp] theorem raiseBoot_admission : (raiseBoot src sev data s).admission = s.admission := by rw [raiseBoot_quiet src sev data s]
@[simp] theorem raiseBoot_hif_cmdEn : (raiseBoot src sev data s).hif.cmdEn = s.hif.cmdEn := by rw [raiseBoot_quiet src sev data s]
@[simp] theorem raiseBoot_hif_torn : (raiseBoot src sev data s).hif.torn = s.hif.torn := by rw [raiseBoot_quiet src sev data s]
@[simp] theorem raiseBoot_hif_badAccess : (raiseBoot src sev data s).hif.badAccess = s.hif.badAccess := by rw [raiseBoot_quiet src sev data s]
@[simp] theorem raiseBoot_hif_cmdPaused : (raiseBoot src sev data s).hif.cmdPaused = s.hif.cmdPaused := by rw [raiseBoot_quiet src sev data s]
@[simp] theorem raiseBoot_hif_urgentSeen : (raiseBoot src sev data s).hif.urgentSeen = s.hif.urgentSeen := by rw [raiseBoot_quiet src sev data s]
@[simp] theorem raiseBoot_hif_hostMemErr : (raiseBoot src sev data s).hif.hostMemErr = s.hif.hostMemErr := by rw [raiseBoot_quiet src sev data s]
@[simp] theorem raiseBoot_hif_linkGen : (raiseBoot src sev data s).hif.linkGen = s.hif.linkGen := by rw [raiseBoot_quiet src sev data s]
@[simp] theorem raiseBoot_hif_linkWidth : (raiseBoot src sev data s).hif.linkWidth = s.hif.linkWidth := by rw [raiseBoot_quiet src sev data s]
@[simp] theorem raiseBoot_hif_linkUp : (raiseBoot src sev data s).hif.linkUp = s.hif.linkUp := by rw [raiseBoot_quiet src sev data s]
@[simp] theorem raiseBoot_hif_linkRecovery : (raiseBoot src sev data s).hif.linkRecovery = s.hif.linkRecovery := by rw [raiseBoot_quiet src sev data s]
@[simp] theorem raiseBoot_hif_busMaster : (raiseBoot src sev data s).hif.busMaster = s.hif.busMaster := by rw [raiseBoot_quiet src sev data s]
@[simp] theorem raiseBoot_hif_msixEnable : (raiseBoot src sev data s).hif.msixEnable = s.hif.msixEnable := by rw [raiseBoot_quiet src sev data s]
@[simp] theorem raiseBoot_hif_msixMask : (raiseBoot src sev data s).hif.msixMask = s.hif.msixMask := by rw [raiseBoot_quiet src sev data s]
@[simp] theorem raiseBoot_hif_latch : (raiseBoot src sev data s).hif.latch = s.hif.latch := by rw [raiseBoot_quiet src sev data s]
@[simp] theorem raiseBoot_hif_qps : (raiseBoot src sev data s).hif.qps = s.hif.qps := by rw [raiseBoot_quiet src sev data s]
@[simp] theorem raiseBoot_hif_vecs : (raiseBoot src sev data s).hif.vecs = s.hif.vecs := by rw [raiseBoot_quiet src sev data s]
@[simp] theorem raiseBoot_hif_streams : (raiseBoot src sev data s).hif.streams = s.hif.streams := by rw [raiseBoot_quiet src sev data s]
@[simp] theorem raiseBoot_hif_lastQp : (raiseBoot src sev data s).hif.lastQp = s.hif.lastQp := by rw [raiseBoot_quiet src sev data s]
@[simp] theorem raiseBoot_hif_sent : (raiseBoot src sev data s).hif.sent = s.hif.sent := by rw [raiseBoot_quiet src sev data s]
@[simp] theorem raiseBoot_hif_retries : (raiseBoot src sev data s).hif.retries = s.hif.retries := by rw [raiseBoot_quiet src sev data s]
end

end Sys2Proof.Machine
end

