-- ==== Sys2Proof/Laws/Memory.lean ====
section
/-!
SUPPORT. Laws of host memory (log 6): every operation keeps its canonical form, a read after a write to the same address gives the
byte written, and a write leaves every other address alone.
-/
namespace Sys2Proof.Machine

/-- In a canonical list every address after the first lies above it. -/
theorem Memory.lt_of_wf {a : Nat} {b : Byte} {t : List Host.Cell} (h : Memory.wf ((a, b) :: t) = true) :
    b ≠ 0 ∧ Memory.wf t = true ∧ ∀ c ∈ t, a < c.1 := by
  induction t generalizing a b with
  | nil => simpa [Memory.wf] using h
  | cons c t ih =>
    obtain ⟨a', b'⟩ := c
    simp only [Memory.wf, Bool.and_eq_true, decide_eq_true_eq, bne_iff_ne, ne_eq] at h
    obtain ⟨⟨h1, h2⟩, h3⟩ := h
    refine ⟨h1, h3, fun c hc => ?_⟩
    rcases List.mem_cons.1 hc with rfl | hc
    · exact h2
    · exact Nat.lt_trans h2 ((ih h3).2.2 c hc)

/-- A canonical list with a smaller nonzero cell put before it is canonical. -/
theorem Memory.wf_cons {a : Nat} {b : Byte} {t : List Host.Cell} (hb : b ≠ 0) (ht : Memory.wf t = true)
    (h : ∀ c ∈ t, a < c.1) : Memory.wf ((a, b) :: t) = true := by
  cases t with
  | nil => simpa [Memory.wf] using hb
  | cons c t =>
    obtain ⟨a', b'⟩ := c
    have := h (a', b') (List.mem_cons_self ..)
    have this : a < a' := this
    simp only [Memory.wf, ht, this, decide_true, Bool.and_true, bne_iff_ne, ne_eq]
    exact hb

/-- Addresses after a write are those before it and the one written. -/
theorem Memory.mem_write {m : List Host.Cell} {a : Nat} {b : Byte} {c : Host.Cell} (h : c ∈ Memory.write m a b) :
    c.1 = a ∨ c ∈ m := by
  induction m with
  | nil =>
    simp only [Memory.write] at h
    split at h <;> simp_all
  | cons d t ih =>
    obtain ⟨a', b'⟩ := d
    simp only [Memory.write] at h
    repeat' split at h
    all_goals simp_all
    · rcases h with rfl | rfl | h <;> simp_all
    · rcases h with rfl | h <;> simp_all
    · rcases h with rfl | h
      · simp
      · rcases ih h with h | h <;> simp [h]

/-- Writing one byte keeps the canonical form. -/
theorem Memory.write_wf (m : List Host.Cell) (a : Nat) (b : Byte) (h : Memory.wf m = true) :
    Memory.wf (Memory.write m a b) = true := by
  induction m with
  | nil => simp only [Memory.write]; split <;> simp_all [Memory.wf]
  | cons d t ih =>
    obtain ⟨a', b'⟩ := d
    obtain ⟨h1, h2, h3⟩ := Memory.lt_of_wf h
    simp only [Memory.write]
    by_cases hlt : a < a'
    · simp only [hlt, if_true]
      split
      · exact h
      · refine Memory.wf_cons ‹_› h fun c hc => ?_
        rcases List.mem_cons.1 hc with rfl | hc
        · exact hlt
        · exact Nat.lt_trans hlt (h3 c hc)
    · simp only [hlt, if_false]
      by_cases he : a = a'
      · subst he
        simp only [if_true]
        split
        · exact h2
        · exact Memory.wf_cons ‹_› h2 h3
      · simp only [he, if_false]
        refine Memory.wf_cons h1 (ih h2) fun c hc => ?_
        rcases Memory.mem_write hc with rfl | hc
        · omega
        · exact h3 c hc

/-- Writing a byte string keeps the canonical form. -/
theorem Memory.writeAll_wf (l : List Byte) (m : List Host.Cell) (a : Nat) (h : Memory.wf m = true) :
    Memory.wf (Memory.writeAll m a l) = true := by
  induction l generalizing m a with
  | nil => exact h
  | cons b l ih => exact ih _ _ (Memory.write_wf m _ b h)

/-- An address below every listed one reads zero. -/
theorem Memory.read_zero {m : List Host.Cell} {a : Nat} (h : ∀ c ∈ m, a < c.1) : Memory.read m a = 0 := by
  induction m with
  | nil => rfl
  | cons d t ih =>
    obtain ⟨a', b'⟩ := d
    have : a ≠ a' := Nat.ne_of_lt (h (a', b') (List.mem_cons_self ..))
    simp only [Memory.read, this, if_false]
    exact ih fun c hc => h c (List.mem_cons_of_mem _ hc)

/-- A byte written reads back, and every other address reads as before. -/
theorem Memory.read_write (m : List Host.Cell) (a x : Nat) (b : Byte) (h : Memory.wf m = true) :
    Memory.read (Memory.write m a b) x = if x = a then b else Memory.read m x := by
  induction m with
  | nil =>
    simp only [Memory.write]
    split <;> simp_all [Memory.read]
  | cons d t ih =>
    obtain ⟨a', b'⟩ := d
    obtain ⟨h1, h2, h3⟩ := Memory.lt_of_wf h
    simp only [Memory.write]
    by_cases hlt : a < a'
    · simp only [hlt, if_true]
      split
      · subst_vars
        by_cases hx : x = a
        · subst hx
          simp only [if_true]
          exact Memory.read_zero fun c hc => by
            rcases List.mem_cons.1 hc with rfl | hc
            · exact hlt
            · exact Nat.lt_trans hlt (h3 c hc)
        · simp [hx]
      · simp [Memory.read]
    · simp only [hlt, if_false]
      by_cases he : a = a'
      · subst he
        simp only [if_true]
        split
        · subst_vars
          by_cases hx : x = a
          · subst hx
            simp only [if_true]
            exact Memory.read_zero h3
          · simp [hx, Memory.read]
        · simp only [Memory.read]
          split <;> rfl
      · simp only [he, if_false, Memory.read, ih h2]
        by_cases hx : x = a'
        · subst hx
          have : ¬ x = a := fun e => he e.symm
          simp [this]
        · simp [hx]

/-- What the device writes into host memory keeps the canonical form. -/
theorem hostWrite_wf (addr : Nat) (l : List Byte) (s : State) (h : Memory.wf s.hostMem = true) :
    Memory.wf (hostWrite addr l s).hostMem = true := Memory.writeAll_wf l _ _ h

/-- Reset lists nothing. -/
theorem reset_hostMem : Memory.wf State.reset.hostMem = true := rfl

end Sys2Proof.Machine
end

