-- ==== Sys2Proof/Laws/Ops.lean ====
section
/-!
SUPPORT. Laws of the shared operations: vectors, loops over indexes, the power gate, the run of a queue command, and completions.
-/
namespace Sys2Proof.Machine

/-! ### Vectors -/

@[simp] theorem upd_get {α : Type} {n : Nat} (v : Vector α n) (i : Fin n) (f : α → α) : (upd v i f)[i.val] = f v[i] := by
  simp [upd]

theorem upd_get_ne {α : Type} {n : Nat} (v : Vector α n) (i j : Fin n) (f : α → α) (h : j ≠ i) :
    (upd v i f)[j.val] = v[j.val] := by
  have : i.val ≠ j.val := fun e => h (Fin.ext e.symm)
  simp [upd, this]

/-- An entry replaced by itself leaves the vector as it is. -/
theorem upd_id {α : Type} {n : Nat} (v : Vector α n) (i : Fin n) (f : α → α) (h : f v[i] = v[i]) : upd v i f = v := by
  unfold upd
  rw [h]
  exact Vector.set_getElem_self ..

theorem getN_fin {α : Type} {n : Nat} (v : Vector α n) (i : Fin n) : getN v i.val = some v[i] := by
  simp [getN]

theorem updN_fin {α : Type} {n : Nat} (v : Vector α n) (i : Fin n) (f : α → α) : updN v i.val f = upd v i f := by
  simp [updN]

/-! ### Loops over indexes -/

/-- What every turn of a loop leaves alone, the loop leaves alone. -/
theorem foldl_frame {α β σ : Type} (p : σ → β) (f : σ → α → σ) (l : List α) (s : σ)
    (h : ∀ s a, p (f s a) = p s) : p (l.foldl f s) = p s := by
  induction l generalizing s with
  | nil => rfl
  | cons a l ih => rw [List.foldl_cons, ih, h]

theorem forAll_frame {β : Type} {n : Nat} (p : State → β) (f : Fin n → State → State) (s : State)
    (h : ∀ i s, p (f i s) = p s) : p (forAll n f s) = p s := foldl_frame p _ _ s fun s i => h i s

/-- What every turn of a loop keeps, the loop keeps. -/
theorem foldl_keeps {α σ : Type} (q : σ → Prop) (f : σ → α → σ) (l : List α) (s : σ)
    (h : ∀ s a, q s → q (f s a)) (hs : q s) : q (l.foldl f s) := by
  induction l generalizing s with
  | nil => exact hs
  | cons a l ih => exact ih _ (h s a hs)

theorem forAll_keeps {n : Nat} (q : State → Prop) (f : Fin n → State → State) (s : State)
    (h : ∀ i s, q s → q (f i s)) (hs : q s) : q (forAll n f s) := foldl_keeps q _ _ s (fun s i => h i s) hs

/-! ### The power gate (R46) -/

theorem whenLive_live {s : State} (h : live s = true) (k : Host.Outcome State Fault Refusal) : whenLive s k = k := by
  simp [whenLive, h]

theorem whenLive_held {s : State} (h : live s = false) (k : Host.Outcome State Fault Refusal) : whenLive s k = .next s := by
  simp [whenLive, h]

/-! ### Queue commands (R350, R351) -/

/-- A descriptor that commits runs its command's check and commit, and settles what that answers. -/
theorem runCmd_commits {n : Fin 64} {op : Nat} {g : Fetched} {s : State} (c : Safety.Commits n op g s) (block : List Byte)
    (deps : Call → List (Nat × Nat)) (f : Call → State → Reply) :
    runCmd (.host n) op block deps f s = settle n g op (noteReply op g.desc block (f (Safety.callOf g block) s)) s := by
  unfold runCmd Safety.callOf
  dsimp only
  rw [c.first]
  simp only [c.goes, c.pair, c.code, c.main, c.rest, beq_self_eq_true, Bool.and_self, if_true, Bool.false_and,
    Bool.false_eq_true, if_false]

/-- A command that succeeds. -/
theorem runCmd_ok {n : Fin 64} {op : Nat} {g : Fetched} {s s' : State} {block result : List Byte} (c : Safety.Commits n op g s)
    (deps : Call → List (Nat × Nat)) {f : Call → State → Reply} (h : f (Safety.callOf g block) s = .ok s' result) :
    runCmd (.host n) op block deps f s = Safety.succeeds n g op block result s' := by
  rw [runCmd_commits c, h]
  rfl

/-- A command that commits and goes on with a transfer. -/
theorem runCmd_start {n : Fin 64} {op : Nat} {g : Fetched} {s s' : State} {block result : List Byte} {x : Xfer}
    (c : Safety.Commits n op g s) (deps : Call → List (Nat × Nat)) {f : Call → State → Reply}
    (h : f (Safety.callOf g block) s = .start s' x result) :
    runCmd (.host n) op block deps f s = Safety.starts n g op block x result s' := by
  rw [runCmd_commits c, h]
  rfl

/-- A command that is refused, other than for want of a budget: nothing but its completion. -/
theorem runCmd_refuse {n : Fin 64} {op : Nat} {g : Fetched} {s : State} {block : List Byte} {status detail : Nat}
    (c : Safety.Commits n op g s) (deps : Call → List (Nat × Nat)) {f : Call → State → Reply}
    (h : f (Safety.callOf g block) s = refuse status detail) (k : status ≠ stCapacity) :
    runCmd (.host n) op block deps f s = Safety.refuses n g status detail s := by
  rw [runCmd_commits c, h]
  simp [refuse, noteReply, settle, admitRefusal, k, Safety.refuses]

/-! ### Completions (R348, R352) -/

/-- A completion written changes host memory, the queue pair and pending vectors only. -/
theorem writeComp_frame (n : Fin 64) (c : Comp) (s : State) :
    writeComp n c s = { s with
      hostMem := (writeComp n c s).hostMem
      hif := { s.hif with qps := (writeComp n c s).hif.qps, vecs := (writeComp n c s).hif.vecs } } := by
  unfold writeComp
  dsimp only
  split <;> rfl

/-- A command that finishes changes host memory, its queue pair and pending vectors only. -/
theorem finish_frame (n : Fin 64) (tag : W32) (status detail : Nat) (result : List Byte) (s : State) :
    finish n tag status detail result s = { s with
      hostMem := (finish n tag status detail result s).hostMem
      hif := { s.hif with
        qps := (finish n tag status detail result s).hif.qps
        vecs := (finish n tag status detail result s).hif.vecs } } := by
  unfold finish
  split
  · rfl
  · unfold postComp
    dsimp only
    split
    · rw [writeComp_frame]; rfl
    · rfl

/-- A completion keeps the canonical form of host memory. -/
theorem writeComp_wf (n : Fin 64) (c : Comp) (s : State) (h : Memory.wf s.hostMem = true) :
    Memory.wf (writeComp n c s).hostMem = true := by
  unfold writeComp
  dsimp only
  split <;> exact hostWrite_wf _ _ _ h

theorem finish_wf (n : Fin 64) (tag : W32) (status detail : Nat) (result : List Byte) (s : State)
    (h : Memory.wf s.hostMem = true) : Memory.wf (finish n tag status detail result s).hostMem = true := by
  unfold finish
  split
  · exact h
  · unfold postComp
    dsimp only
    split
    · exact writeComp_wf _ _ _ h
    · exact h

/-- An event record keeps the canonical form of host memory. -/
theorem putRecord_wf (e : Event) (b : Bool) (s : State) (h : Memory.wf s.hostMem = true) :
    Memory.wf (putRecord e b s).hostMem = true := by
  unfold putRecord
  dsimp only
  split
  · simp only [pendVector_hostMem, hostWrite_hostMem]
    exact Memory.writeAll_wf _ _ _ h
  · simp only [hostWrite_hostMem]
    exact Memory.writeAll_wf _ _ _ h

/-! ### The settings record (R473, R474) -/

/-- A number laid out in `n` bytes has `n` bytes. -/
@[simp] theorem le_length (n v : Nat) : (le n v).length = n := by
  induction n generalizing v with
  | zero => rfl
  | succ n ih => simp [le, ih]

/-- Padding to a size gives that size. -/
@[simp] theorem pad_length (n : Nat) (l : List Byte) : (pad n l).length = n := by simp [pad]; omega

/-- LEN of a copy is its number of bytes (R473). -/
theorem copyBytes_length (x : CfgCopy) : (copyBytes x).length = copyLen x := by
  have h : ∀ l : List CfgItem, (l.flatMap itemBytes).length = (l.map fun i => 8 + (i.payload.length + 7) / 8 * 8).sum := by
    intro l
    induction l with
    | nil => rfl
    | cons i l ih => simp [itemBytes, ih]; omega
  simp [copyBytes, copyLen, h]
  omega

end Sys2Proof.Machine
end

