-- ==== Sys2Proof/Tests/Slice0.lean ====
section
/-!
SUPPORT. Small tests of single steps, one ill-formed term for each operand check, and for every statement with hypotheses
states and operands that meet them.
-/
namespace Sys2Proof.Tests

open Sys2Proof.Machine

set_option Elab.async false

/-! ### States and commands that the tests build -/

/-- `n` zero bytes with little-endian fields (offset, size, value) written over them. -/
def bytesOf (n : Nat) (fs : List (Nat × Nat × Nat)) : List Byte :=
  fs.foldl (fun l f => patch l f.1 (le f.2.1 f.2.2)) (List.replicate n 0)

/-- A descriptor with this opcode, tag 7, and further fields (R351). -/
def desc (op : Nat) (fs : List (Nat × Nat × Nat)) : List Byte := bytesOf 64 ((0, 2, op) :: (4, 4, 7) :: fs)

/-- The descriptor as a queue pair holds it after its fetch. -/
def fetchedOf (d : List Byte) : Fetched :=
  { desc := d, tag := 7, opcode := BitVec.ofNat 16 (fieldAt d 0 2), fence := false, committed := false, xfer := none, result := [] }

/-- A parameter block with `n` fields (R357), some of them given. -/
def block (op item n : Nat) (fs : List (Nat × Nat)) : List Byte :=
  bytesOf (0x20 + 8 * n) ([(0, 2, op), (2, 1, item), (4, 4, 0x00010000), (8, 4, 0x20 + 8 * n)] ++
    fs.map fun f => (0x20 + 8 * f.1, 8, f.2))

/-- The descriptor of a command with a block of `n` fields. -/
def blockDesc (op n : Nat) : List Byte := desc op [(8, 8, 4096), (0x10, 4, 0x20 + 8 * n)]

/-- The module with its firmware running and proofing over. -/
def up : State := { State.reset with
  boot := { State.reset.boot with stage := .main, ready := true, reached := true, mainRunning := true, pmcRunning := true }
  proof := { State.reset.proof with active := false, step := 0, endSample := some 0 } }

/-- The link trained and DMA allowed. -/
def linked (s : State) : State :=
  { s with hif := { s.hif with linkUp := true, linkGen := 5, linkWidth := 16, busMaster := true, msixEnable := true } }

/-- Queue pair 0 running, with a descriptor that it commits next. -/
def withDesc (d : List Byte) (s : State) : State :=
  updQp 0 (fun q => { q with
    enable := true, state := .running, fetched := [fetchedOf d],
    history := [{ tag := 7, state := .queued, attempt := 1, comp := none, written := none }] }) s

/-- Queue pair 0 running with nothing fetched. -/
def running (s : State) : State := updQp 0 (fun q => { q with enable := true, state := .running }) s

/-- SL0 has delivered `k` slice words. -/
def atLc (k : Nat) (s : State) : State := { s with slices := upd s.slices 0 fun x => { x with words := k } }

/-- The conditions of Safety.Commits, as a test evaluates them. -/
def commitsB (n : Fin 64) (op : Nat) (g : Fetched) (s : State) : Bool :=
  live s && committing s && !(s.boot.stage == .rescue) && !s.cfg.restoring && s.hif.qps[n].state == .running
    && nextCommit s.hif.qps[n] == some g && g.opcode.toNat == op

theorem commits_of (n : Fin 64) (op : Nat) (g : Fetched) (s : State) (h : commitsB n op g s = true) : Safety.Commits n op g s := by
  simp only [commitsB, Bool.and_eq_true, Bool.not_eq_true', beq_iff_eq] at h
  obtain ⟨⟨⟨⟨⟨⟨h1, h2⟩, h3⟩, h4⟩, h5⟩, h6⟩, h7⟩ := h
  exact ⟨h1, h2, h3, h4, h5, h6, h7⟩

/-- The next state of a command passes a check. -/
def after (c : Instr) (s : State) (p : State → Bool) : Bool :=
  match exec c s with
  | .next t => p t
  | _ => false

/-- The completion that queue pair 0 keeps of tag 7 after a command. -/
def completes (c : Instr) (s : State) (status detail : Nat) : Bool :=
  after c s fun t =>
    match tagOf t.hif.qps[(0 : Fin 64)] 7 with
    | some e => e.state == .done && e.comp.any (fun c => c.status == status && c.detail.toNat == detail)
    | none => false

/-- The value of a parser, as a test compares it. -/
def parsed {α : Type} (x : Except Nat α) : Option α := match x with
  | .ok a => some a
  | .error _ => none

theorem ok_of {α : Type} (x : Except Nat α) (a : α) (h : parsed x = some a) : x = .ok a := by
  cases x with
  | ok b => simpa [parsed] using h
  | error _ => simp [parsed] at h

theorem ok_any {α : Type} (x : Except Nat α) (p : α → Bool) (h : (parsed x).any p = true) : ∃ a, x = .ok a ∧ p a = true := by
  cases x with
  | ok b => exact ⟨b, rfl, by simpa [parsed] using h⟩
  | error _ => simp [parsed] at h

/-- A block command ready on queue pair 0. -/
def blockReady (op n : Nat) (s : State) : State := withDesc (blockDesc op n) s

/-- A block passes its header check. -/
def headerOk (op fields n : Nat) (b : List Byte) : Bool := (headerFault op fields (Safety.callOf (fetchedOf (blockDesc op n)) b)).isNone

/-- A capture region for sequencer 0. -/
def regioned (s : State) : State := { s with mem := { s.mem with capSize := #v[992, 0, 0, 0] } }

/-- The same as a configuration. -/
def seqCfg : SeqCfg := { SeqCfg.reset with channels := 1, l := 64, autoNs := 1000, lateAllow := 0 }

/-- Queue pair 0 with a committed command that runs a transfer. -/
def transferring (x : Xfer) : State := updQp 0 (fun q => { q with
  fetched := [{ fetchedOf (desc 0x31 []) with committed := true, xfer := some x }] }) (running up)

/-- The update engine changed. -/
def withUpd (f : Upd → Upd) (s : State) : State := { s with upd := f s.upd }

theorem slice_left (a b : List Byte) (off n : Nat) (h : off + n ≤ a.length) : slice (a ++ b) off n = slice a off n := by
  have h1 : n - ((a ++ b).length - off) = 0 := by simp; omega
  have h2 : n - (a.length - off) = 0 := by omega
  simp only [slice, h1, h2, List.drop_append_of_le_length (show off ≤ a.length by omega)]
  rw [List.take_append_of_le_length (by simp; omega)]

theorem fieldAt_left (a b : List Byte) (off n : Nat) (h : off + n ≤ a.length) : fieldAt (a ++ b) off n = fieldAt a off n := by
  rw [fieldAt, fieldAt, slice_left a b off n h]


/-! ### Ill-formed operands, one for each check of WellFormed.lean -/

theorem smoke_codes_length : WellFormed.instr (.sliceWord 0 { codes := List.replicate 39 0, parity := [] }) = false := by decide
theorem smoke_codes_parity : WellFormed.instr (.sliceWord 0 { codes := List.replicate 40 0, parity := [2097152] }) = false := by decide
theorem smoke_codes_ok : WellFormed.instr (.sliceWord 0 { codes := -2048 :: List.replicate 39 2047, parity := [5] }) = true := by decide
theorem smoke_descriptor : WellFormed.instr (.descriptorFetch 0 (List.replicate 63 0)) = false := by decide
theorem smoke_flit : WellFormed.instr (.triggerMessage { link := 0, flit := List.replicate 65 0, arrival := 0 }) = false := by decide
theorem smoke_temps : WellFormed.instr (.tmaxEvaluate (List.replicate 63 0)) = false := by decide
theorem smoke_telemetry : WellFormed.instr (.telemetryUpdate
    { rails := [], vmain := 0, imain := 0, pin := 0, vstby := 0, joules := 0, mgVmain := 0, mgVstby := 0 }) = false := by decide
theorem smoke_cartridge : WellFormed.instr (.cartridgeIdRead 0 [] (List.replicate 64 0) (List.replicate 64 0)) = false := by decide
theorem smoke_wear : WellFormed.instr (.cartridgeIdRead 0 (List.replicate 2048 0) (List.replicate 64 0) (List.replicate 63 0)) = false := by
  decide +kernel
theorem smoke_firTaps : WellFormed.instr (.cartridgeFirDerived 0 (List.replicate 63 true)) = false := by decide
theorem smoke_posTaps : WellFormed.instr (.blindEstimatorUpdate 0 true (List.replicate 39 (List.replicate 32 0))) = false := by decide
theorem smoke_posTaps_length : WellFormed.instr (.blindEstimatorUpdate 0 true (List.replicate 40 [])) = false := by decide
theorem smoke_histogram : WellFormed.instr (.tacCalRunEnd 0 (List.replicate 4096 0) 0) = false := by decide +kernel
theorem smoke_firSet : WellFormed.instr (.setDdc .restore [] (List.replicate 383 0)) = false := by decide +kernel
theorem smoke_proofData : WellFormed.instr (.proofingStepEnd { bandPass := [], retired := [], tacOffsets := [], delays := [] }) = false := by decide
theorem smoke_bins : WellFormed.instr (.spectrumDeliver 0 0 { ecc := .clean, parity := [2097152] }) = false := by decide
theorem smoke_sites : WellFormed.instr (.ringFormed [([], true)]) = false := by decide
theorem smoke_link : WellFormed.instr (.hifLink 8 16) = false := by decide
theorem smoke_link_width : WellFormed.instr (.hifLink 5 4) = false := by decide
theorem smoke_serdesLane : WellFormed.instr (.istSerdes 4 0 0) = false := by decide

/-- An ill-formed operand stops the command with the one fault there is. -/
theorem test_illFormed_faults : exec (.sliceWord 0 { codes := [], parity := [] }) State.reset = .fault .illFormed := rfl


/-! ### Witnesses: the step and the host interface -/

theorem witness_EmptyQueueIdlesOneCycle : up.pending = [] := rfl

theorem witness_WellFormedCommandsComplete : WellFormed.instr (.sliceWord 0 { codes := List.replicate 40 0, parity := [] }) = true ∧
    exec (.sliceWord 0 { codes := [], parity := [] }) State.reset = .fault .illFormed ∧
    WellFormed.instr (.sliceWord 0 { codes := [], parity := [] }) = false := ⟨by decide, rfl, by decide⟩

theorem witness_HeldBlocksTakeNoCommand :
    live { up with pwr := { up.pwr with perst := true } } = false ∧ Safety.alwaysOn .ready = false ∧
    State.reset.boot.reached = false ∧ Safety.hostAccess .flr = true := by decide +kernel

theorem witness_EveryStepKeepsHostMemoryCanonical : Safety.Inv up ∧ step up = .next { up with aoCycles := up.aoCycles + 1 } := ⟨rfl, rfl⟩

theorem witness_HostWritesReadBack : Memory.wf [(5, 1)] = true ∧ [(2 : Byte), 0].length ≤ 2 ^ 64 := by decide

/-- Queue pair 0 running, two completions written that the host has not released. -/
def doorbells : State := updQp 0 (fun q => { q with cqTail := 1, unreleased := 2 }) (running up)

/-- The ring enabled; 3 records written, 1 released. -/
def ringOn : State := { linked up with hif := { (linked up).hif with ev := { EvRing.reset with
  enable := true, prod := 3, released := 1, src := upd EvRing.reset.src 5 (fun e => { e with map := 0x80 }) } } }

/-- The ring in overflow. -/
def ringFull : State := { ringOn with hif := { ringOn.hif with ev := { ringOn.hif.ev with overflow := true } } }

/-- An open stream with one transfer that the host has not consumed. -/
def aStream : Stream :=
  { kind := .channel, source := 0, lane := 0, wide := false, vector := 0, irq := true, bufBytes := 65536, tailAddr := 64,
    irqBytes := 64, irqUsec := 1, ringLog2 := 20, ringAddr := 4096, first := 0, laneN := 2, buf := [], gap := none,
    tail := 64, consumed := 0, held := some 0, unsignalled := 64, firstUnsignalledAt := some 0, closing := none, seq := 0, group := [],
    groupCount := 0, groupTs := 0, groupAt := 0, groupFrom := 0, waiting := [], told := 0 }

/-- Stream 0 open. -/
def streaming : State := setStream 0 (some aStream) up

theorem witness_DoorbellWrites_sqTail : reachable doorbells = true ∧ (doorbells.hif.qps[(0 : Fin 64)]).state = .running ∧
    (15 : W64).toNat % 2 ^ 16 < 2 ^ (doorbells.hif.qps[(0 : Fin 64)]).sqLog2 ∧
    2 ^ (doorbells.hif.qps[(0 : Fin 64)]).sqLog2 ≤ (16 : W64).toNat % 2 ^ 16 ∧
    (up.hif.qps[(0 : Fin 64)]).state ≠ .running ∧ reachable up = true := by decide +kernel

theorem witness_DoorbellWrites_cqHead :
    let q := doorbells.hif.qps[(0 : Fin 64)]
    reachable doorbells = true ∧ q.state = .running ∧ q.unreleased ≤ 2 ^ q.cqLog2 ∧ q.cqTail < 2 ^ q.cqLog2 ∧
    (2 ≤ q.unreleased ∧ (1 : W64).toNat % 2 ^ 16 = (q.cqTail + 2 ^ q.cqLog2 - q.unreleased + 2) % 2 ^ q.cqLog2) ∧
    (q.unreleased < 3 ∧ 3 < 2 ^ q.cqLog2 ∧ (2 : W64).toNat % 2 ^ 16 = (q.cqTail + 2 ^ q.cqLog2 - q.unreleased + 3) % 2 ^ q.cqLog2) ∧
    2 ^ q.cqLog2 ≤ (16 : W64).toNat % 2 ^ 16 := by decide +kernel

theorem witness_DoorbellWrites_evqHead :
    reachable ringOn = true ∧ ringOn.hif.ev.enable = true ∧ ringOn.hif.ev.log2 ≤ 20 ∧ ringOn.hif.ev.overflow = false ∧
    (3 : W64).toNat % 2 ^ 20 = (ringOn.hif.ev.released.toNat + 2) % 2 ^ ringOn.hif.ev.log2 ∧
    2 ≤ (ringOn.hif.ev.prod - ringOn.hif.ev.released).toNat ∧ (ringOn.hif.ev.prod - ringOn.hif.ev.released).toNat < 3 ∧
    reachable ringFull = true ∧ ringFull.hif.ev.overflow = true ∧ dma ringFull = true ∧
    512 ≤ evFree { ringFull.hif.ev with released := 3 } ∧ (∀ src : Fin 256, (ringFull.hif.ev.src[src]).pending = 0) := by decide +kernel

theorem witness_DoorbellWrites_consumed :
    reachable streaming = true ∧ streaming.hif.streams[(0 : Fin 64)] = some aStream ∧
    ((64 : W64) - aStream.consumed).toNat ≤ (aStream.tail - aStream.consumed).toNat ∧
    (aStream.tail - aStream.consumed).toNat < ((65 : W64) - aStream.consumed).toNat ∧
    aStream.held = some 0 ∧ (((0 : W32) ++ (0 : W32) : W64) - aStream.consumed).toNat ≤ (aStream.tail - aStream.consumed).toNat := by
  decide +kernel

theorem witness_QueuePairLife :
    reachable up = true ∧ (up.hif.qps[(0 : Fin 64)]).state = .disabled ∧ qpCfgOk 0x00001004#32 = true ∧ qpCfgOk 0x00001003#32 = false ∧
    reachable (running up) = true ∧ ((running up).hif.qps[(0 : Fin 64)]).state = .running ∧ ((running up).hif.qps[(0 : Fin 64)]).fetched = [] ∧
    (let d := updQp 0 (fun q => { q with state := .draining }) up
     live d = true ∧ (d.hif.qps[(0 : Fin 64)]).state = .draining ∧ (d.hif.qps[(0 : Fin 64)]).fetched = [] ∧ (d.hif.qps[(0 : Fin 64)]).waiting = []) ∧
    ((withDesc (desc 1 []) up).hif.qps[(0 : Fin 64)]).fetched = [fetchedOf (desc 1 [])] ∧ (fetchedOf (desc 1 [])).committed = false ∧
    reachable (withDesc (desc 1 []) up) = true ∧ ((withDesc (desc 1 []) up).hif.qps[(0 : Fin 64)]).state = .running := by decide +kernel

/-- Queue pair 0 has a descriptor for the device to fetch. -/
def fetching : State :=
  let s := linked (updQp 0 (fun q => { q with sqTail := 1 }) (running up))
  { s with hif := { s.hif with cmdEn := true } }

/-- The same with tag 7 in the history, in a given state. -/
def fetchingAgain (st : TagState) : State :=
  updQp 0 (fun q => { q with
    history := [{ tag := 7, state := st, attempt := 1, comp := some (⟨7, 0, 0, 1, []⟩ : Comp), written := none }] }) fetching

theorem witness_DescriptorsAreFetched :
    live fetching = true ∧ (desc 1 []).length = 64 ∧ fetching.hif.cmdEn = true ∧ dma fetching = true ∧ fetchChoice fetching = some 0 ∧
    BitVec.ofNat 32 (fieldAt (desc 1 []) 4 4) = 7#32 ∧ knownOpcode (fieldAt (desc 1 []) 0 2) = true ∧
    knownOpcode (fieldAt (desc 3 []) 0 2) = false ∧ tagOf fetching.hif.qps[(0 : Fin 64)] 7 = none ∧
    (∀ f ∈ (fetching.hif.qps[(0 : Fin 64)]).fetched, f.tag ≠ 7) ∧
    (∀ st ∈ [TagState.queued, .committed, .done],
      fetchChoice (fetchingAgain st) = some 0 ∧ live (fetchingAgain st) = true ∧ dma (fetchingAgain st) = true ∧
      (tagOf (fetchingAgain st).hif.qps[(0 : Fin 64)] 7).any (fun e => e.state == st && e.comp.any (·.tag == 7)) = true) := by
  decide +kernel

theorem witness_CompletionIsPosted :
    (((withDesc (desc 1 []) up).hif.qps[(0 : Fin 64)]).fetched.find? fun g => g.tag == (fetchedOf (desc 1 [])).tag) =
      some (fetchedOf (desc 1 [])) ∧
    dma (withDesc (desc 1 []) up) = false ∧ dma (linked (withDesc (desc 1 []) up)) = true := by decide +kernel

theorem witness_HostErrorsAndBadAccesses :
    live (withDesc (desc 1 []) up) = true ∧ ((withDesc (desc 1 []) up).hif.qps[(0 : Fin 64)]).state = .running ∧
    (((withDesc (desc 1 []) up).hif.qps[(0 : Fin 64)]).fetched.find? fun g => g.tag == 7) = some (fetchedOf (desc 1 [])) ∧
    dma (withDesc (desc 1 []) up) = false ∧ 2 % 4 ≠ 0 ∧ 4 % 8 ≠ 0 ∧ reachable (withDesc (desc 1 []) up) = true ∧
    retriesOf 0 (withDesc (desc 1 []) up) ≠ 2 ∧
    retriesOf 0 { withDesc (desc 1 []) up with hif := { (withDesc (desc 1 []) up).hif with retries := [(0, 2)] } } = 2 := by decide +kernel

/-- The ring enabled and an event waiting in source 5. -/
def ringWaiting : State := updSource 5 (fun e => { e with
  waiting := some { source := 5, severity := 1, ts := 0, data := [], vector := 3, irq := true } }) ringOn

theorem witness_EventRing :
    reachable up = true ∧ up.hif.ev.enable = false ∧ (0x1000A#32).getLsbD 16 = true ∧ 10 ≤ (0x1000A#32).toNat % 32 ∧
    (0x1000A#32).toNat % 32 ≤ 20 ∧ (∀ src : Fin 256, (up.hif.ev.src[src]).held = false) ∧
    reachable ringOn = true ∧ ringOn.hif.ev.enable = true ∧ (0xA#32).getLsbD 16 = false ∧ 20 < (0x10015#32).toNat % 32 ∧
    (0x10009#32).toNat % 32 < 10 ∧
    live ringWaiting = true ∧ dma ringWaiting = true ∧ ringWaiting.hif.ev.overflow = false ∧
    (ringWaiting.hif.ev.src[(5 : Fin 256)]).waiting = some { source := 5, severity := 1, ts := 0, data := [], vector := 3, irq := true } ∧
    (ringWaiting.hif.ev.src[(5 : Fin 256)]).held = false ∧ (ringWaiting.hif.ev.src[(5 : Fin 256)]).pending = 0 ∧
    (ringWaiting.hif.ev.prod - ringWaiting.hif.ev.released).toNat + 256 < 2 ^ ringWaiting.hif.ev.log2 ∧
    (ringOn.hif.ev.src[(6 : Fin 256)]).map.getLsbD 7 = false ∧
    (ringOn.hif.ev.src[(5 : Fin 256)]).map.getLsbD 7 = true ∧ (ringOn.hif.ev.src[(5 : Fin 256)]).waiting = none ∧
    (ringWaiting.hif.ev.src[(5 : Fin 256)]).waiting.isSome = true ∧ ringFull.hif.ev.overflow = true := by decide +kernel

/-- Vector 3 pending, unmasked. -/
def vecPending : State := { linked up with hif := { (linked up).hif with
  vecs := upd (linked up).hif.vecs 3 (fun x => { x with pending := true, ctrl := 0, minGap := 1, lastSent := some 0 }) }, aoCycles := 3 }

theorem witness_InterruptsAreSent :
    live vecPending = true ∧ (vecPending.hif.vecs[(3 : Fin 64)]).pending = true ∧ vecPending.hif.msixEnable = true ∧
    vecPending.hif.msixMask = false ∧ (vecPending.hif.vecs[(3 : Fin 64)]).ctrl.getLsbD 0 = false ∧ dma vecPending = true ∧
    (vecPending.hif.vecs[(3 : Fin 64)]).lastSent = some 0 ∧
    (vecPending.hif.vecs[(3 : Fin 64)]).minGap.toNat * 100 ≤ (vecPending.aoCycles - 0) * 40 ∧
    (up.hif.vecs[(3 : Fin 64)]).pending = false ∧
    (let s := { streaming with aoCycles := 25 }
     live s = true ∧ s.hif.streams[(0 : Fin 64)] = some aStream ∧ aStream.irq = true ∧ aStream.firstUnsignalledAt = some 0 ∧
     aStream.irqUsec * 1000 ≤ (s.aoCycles - 0) * 40) := by decide +kernel

theorem witness_LinkAndWaitingCompletions :
    live up = true ∧ (∀ n : Fin 64, (up.hif.qps[n]).waiting = []) ∧ up.hif.linkGen = 0 ∧
    (linked up).hif.linkGen = 5 ∧ (linked up).hif.linkWidth = 16 ∧ live (linked up) = true ∧ reachable (linked up) = true ∧ (linked up).hif.busMaster = true := by
  decide +kernel

theorem witness_HostResetsTouchTheInterfaceOnly : live streaming = true ∧ reachable streaming = true := by decide +kernel

/-- The half latch holds a read of SYS_TS_NOW's neighbour, or a write. -/
def latched (l : HalfLatch) : State := { up with hif := { up.hif with latch := l } }

theorem witness_HalfLatch :
    reachable up = true ∧ 0x0118 % 8 = 0 ∧ 0x0118 ≠ offNowLo ∧ reg64 up 0x0118 = some 0 ∧ reg64 up (0x0118 + 4) = none ∧
    (latched (.read 0x0118 1)).hif.latch = .read 0x0118 1 ∧ reg64 (latched (.read 0x0118 1)) 0x0118 = some 0 ∧
    reg64 (latched (.read 0x0118 1)) 0x011C = none ∧ reachable (latched (.read 0x0118 1)) = true ∧
    up.hif.ev.enable = false ∧ reachable (latched (.write 0x0118 1)) = true ∧ (latched (.write 0x0118 1)).hif.ev.enable = false ∧
    (latched (.write 0x0118 1)).hif.latch = .write 0x0118 1 := by decide +kernel

theorem witness_HalfLatch_other : (∀ h, up.hif.latch ≠ .read 0x0118 h) ∧ (∀ held, up.hif.latch ≠ .write 0x0118 held) :=
  ⟨fun _ h => (by decide +kernel : up.hif.latch = .empty).symm.trans h |> HalfLatch.noConfusion,
   fun _ h => (by decide +kernel : up.hif.latch = .empty).symm.trans h |> HalfLatch.noConfusion⟩

theorem witness_RegisterWrites : reachable ringOn = true ∧ ringOn.hif.ev.enable = true ∧ reachable up = true ∧ up.hif.ev.enable = false := by
  decide +kernel

/-- A level of access open: 0 OWNER, 1 VENDOR. -/
def opened (l : Fin 2) : State := { up with acc := { up.acc with level := upd up.acc.level l fun x => { x with isOpen := true } } }

theorem witness_NamedWrites :
    reachable up = true ∧ ((0x21FF : Nat) < 0x2200 ∧ (0x29FF : Nat) < 0x2A00) ∧ (1 : W32).getLsbD 0 = true ∧ ownerRight up.acc = false ∧
    reachable (opened 1) = true ∧ ((opened 1).acc.level[(1 : Fin 2)]).isOpen = true ∧ ((opened 1).tacs[(0 : Fin 8)]).table = none ∧
    reachable (opened 0) = true ∧ ((opened 0).acc.level[(1 : Fin 2)]).isOpen = false ∧ ownerRight (opened 0).acc = true := by decide +kernel


/-! ### Witnesses: clocks -/

/-- The clock tile of the running module changed. -/
def withClk (f : Clk → Clk) : State := { up with clk := f up.clk }

/-- The loops locked, core A active, core B in a given state. -/
def clocked (b : CoreState) : State := withClk fun c => { c with
  refState := .locked, lock := Vector.replicate 4 true, core := #v[.active, b], fBypass := false }

theorem witness_LockLostAndRegained :
    (∀ b ∈ [CoreState.standby, .bad], live (clocked b) = true ∧ (clocked b).clk.refState = .locked ∧
      (clocked b).clk.core[0] = .active ∧ (clocked b).clk.core[1] = b ∧ (clocked b).clk.lock[1] = true ∧
      (∀ c : Fin 4, unlockMet { core := c, samples := 255, extremeFs := 10 ^ 9 } (clocked b) = true ∧
        unlockMet { core := c, samples := 0, extremeFs := 10 ^ 9 } (clocked b) = false ∧
        lockMet { core := c, samples := 0, extremeFs := 0 } (clocked b) = false)) ∧
    (let s := withClk fun c => { c with refState := .locking, lock := #v[true, true, true, false] }
     live s = true ∧ s.clk.noBand[3] = false ∧ s.clk.refState ≠ .coasting ∧ s.clk.refState ≠ .measuring ∧
     s.clk.refState = .locking ∧ s.clk.reband = none ∧ lockMet { core := 3, samples := 65535, extremeFs := 0 } s = true ∧
     ∀ c : Fin 4, c ≠ 3 → (s.clk.lock[c]) = true) := by decide +kernel

/-- A band-table entry at a frequency in kHz. -/
def band (khz : Nat) : BandEntry :=
  { centreKhz := BitVec.ofNat 32 khz, kvco := 100, capCode := 0, valid := true, verified := false, edited := false }

/-- Every loop with a band at its target in entry 31, one that does not qualify in entry 0. -/
def banded : State := { clocked .standby with clk := { (clocked .standby).clk with
  bands := Vector.ofFn fun c : Fin 4 => Vector.ofFn fun i : Fin 32 =>
    { band (if c.val < 2 then 40000000 else if c.val = 2 then 8000000 else 10625000) with valid := i.val == 31 } } }

theorem witness_StandbyBypassReband :
    live (clocked .standby) = true ∧ (clocked .standby).clk.core[0] = .active ∧ (clocked .standby).clk.core[1] = .standby ∧
    (clocked .bad).clk.core[1] = .bad ∧ (clocked .bad).clk.reband = none ∧ (clocked .bad).clk.lock[1] = true ∧ (clocked .bad).clk.noBand[1] = false ∧
    (clocked .bad).clk.fBypass = false ∧ up.clk.core[0] = .active ∧ (withClk fun c => { c with lock := Vector.replicate 4 true }).clk.fBypass = true ∧
    (withClk fun c => { c with lock := Vector.replicate 4 true }).clk.lock[2] = true ∧
    live banded = true ∧ banded.clk.lock[2] = true ∧ bandChoice (targetTwice 2 banded) banded.clk.bands[2] [] = some 31 ∧
    bandChoice (targetTwice 1 banded) banded.clk.bands[1] [] = some 31 ∧ banded.clk.lock[0] = true ∧ banded.clk.core[0] = .active ∧
    banded.clk.core[1] = .standby ∧ (31 : Fin 32).val ∈ [31] ∧ up.clk.lock[3] = false ∧
    bandChoice (targetTwice 1 (clocked .bad)) (Vector.replicate 32 { (banded.clk.bands[1])[(0 : Fin 32)] with valid := false }) [] = none ∧
    (let s := { banded with clk := { banded.clk with reband := some [31] } }
     live s = true ∧ lockMet { core := 1, samples := 65535, extremeFs := 0 } s = true ∧ s.clk.refState = .locked ∧ s.clk.noBand[1] = false ∧
     s.clk.core[0] = .active ∧ s.clk.core[1] = .standby ∧ s.clk.reband = some [31]) := by decide +kernel

theorem witness_BandSelectionIsNearest :
    bandChoice (targetTwice 2 banded) banded.clk.bands[2] [] = some 31 ∧ bandChoice (targetTwice 2 banded) banded.clk.bands[2] [31] = none ∧
    bandQualifies (targetTwice 2 banded) (banded.clk.bands[2])[(31 : Fin 32)] = true := by decide +kernel

/-- The reference in a given state. -/
def inRef (r : RefState) (ret : Bool) : State := withClk fun c => { c with
  refState := r, refretNow := ret, stepDelta := some 5, relockAt := some 0 }

theorem witness_ReferenceAndTimebaseSteps :
    (∀ r ∈ [RefState.locked, .locking, .start, .free, .coasting, .measuring, .stepPending],
      live (inRef r false) = true ∧ (inRef r false).clk.refState = r) ∧
    deltaInRange (inRef .measuring true) 0 = true ∧ deltaInW (inRef .measuring true) 0 = true ∧
    (∀ ret : Bool, deltaInRange (inRef .measuring ret) (2 ^ 24) = true ∧ deltaInW (inRef .measuring ret) (2 ^ 24) = false ∧
      (inRef .measuring ret).clk.refretNow = ret) ∧
    (∀ r ∈ [RefState.locked, .locking], lossCause (.missing 4) (inRef r true) = some 0 ∧
      lossCause (.frequency 0) (inRef r true) = some 1 ∧ lossCause (.missing 3) (inRef r true) = none) ∧
    (∀ c : Fin 4, up.clk.held[c] = false) ∧
    (let s := withClk fun c => { c with held := Vector.replicate 4 true }
     live s = true ∧ ∀ c : Fin 4, s.clk.held[c] = true) ∧
    (inRef .stepPending true).clk.stepDelta = some 5 := by decide +kernel

/-- A step is pending and no segment has ended within the window of R94, so that it falls on a block boundary. -/
theorem witness_ReferenceAndTimebaseSteps_instant :
    let s := atLc (10 ^ 12) (inRef .stepPending true)
    live s = true ∧ (stepInstantOf s).any (fun n => decide (n ≤ takenSample s + 39)) = true := by decide +kernel

theorem witness_ApplyRelocksOrIsRefused :
    reachable up = true ∧ up.cfg.restoring = false ∧ (1#32).getLsbD 0 = true ∧ applyAllowed up = true ∧ applyBudget (withClock up) = none ∧
    (let s := withClk fun c => { c with fsKhz := 47999999 }
     reachable s = true ∧ s.cfg.restoring = false ∧ applyAllowed s = false) := by decide +kernel


/-! ### Witnesses: queue commands and settings -/

/-- NOP waits to commit. -/
def nopReady : State := withDesc (desc 1 []) up

theorem witness_QueueCommandGate :
    Safety.queueOp (.nop (.host 0)) = some (.host 0, 1) ∧ WellFormed.instr (.nop (.host 0)) = true ∧
    nextCommit up.hif.qps[(0 : Fin 64)] = none ∧ nextCommit nopReady.hif.qps[(0 : Fin 64)] = some (fetchedOf (desc 1 [])) ∧
    (fetchedOf (desc 1 [])).opcode.toNat = 1 ∧ (fetchedOf (desc 1 [])).opcode.toNat ≠ 2 ∧ live nopReady = true ∧
    committing nopReady = true ∧ (nopReady.hif.qps[(0 : Fin 64)]).state = .running ∧ nopReady.boot.stage ≠ .rescue ∧
    rescueOpcode 0x10 = false ∧ busyInRestore 0x10 = true ∧
    (∀ x ∈ [{ nopReady with boot := { nopReady.boot with stage := .rescue } }, { nopReady with cfg := { nopReady.cfg with restoring := true } }],
      live x = true ∧ committing x = true ∧ (x.boot.stage = .rescue ∨ x.cfg.restoring = true)) := by decide +kernel

/-- TAG_STATUS of tag 8 on queue pair 1, whose history holds it in a given state; 0 DMA off. -/
def askTag (st : TagState) : State :=
  updQp 1 (fun q => { q with history := [{ tag := 8, state := st, attempt := 1, comp := none, written := none }] })
    (linked (withDesc (desc 2 [(8, 8, 64), (0x10, 4, 32), (0x18, 1, 1), (0x1C, 4, 8)]) up))

theorem witness_NopAndTagStatus : Safety.Commits 0 1 (fetchedOf (desc 1 [])) nopReady ∧
    (∀ st ∈ [TagState.queued, .committed, .done],
      Safety.Commits 0 2 (fetchedOf (desc 2 [(8, 8, 64), (0x10, 4, 32), (0x18, 1, 1), (0x1C, 4, 8)])) (askTag st) ∧
      dma (askTag st) = true ∧ (tagOf (askTag st).hif.qps[(1 : Fin 64)] 8).any (fun e => e.state == st) = true) ∧
    Safety.Commits 0 2 (fetchedOf (desc 2 [(0x18, 1, 64)])) (withDesc (desc 2 [(0x18, 1, 64)]) up) ∧
    64 ≤ arg1 (Safety.callOf (fetchedOf (desc 2 [(0x18, 1, 64)])) []) 0x18 := by
  refine ⟨commits_of _ _ _ _ (by decide +kernel), ?_, commits_of _ _ _ _ (by decide +kernel), by decide +kernel⟩
  have h : ∀ st ∈ [TagState.queued, .committed, .done],
      commitsB 0 2 (fetchedOf (desc 2 [(8, 8, 64), (0x10, 4, 32), (0x18, 1, 1), (0x1C, 4, 8)])) (askTag st) = true ∧
      dma (askTag st) = true ∧ (tagOf (askTag st).hif.qps[(1 : Fin 64)] 8).any (fun e => e.state == st) = true := by decide +kernel
  exact fun st hs => ⟨commits_of _ _ _ _ (h st hs).1, (h st hs).2⟩

theorem witness_TagStatus_checks :
    let c := Safety.callOf (fetchedOf (desc 2 [(8, 8, 64), (0x10, 4, 32), (0x18, 1, 1), (0x1C, 4, 8)])) []
    arg1 c 0x18 = (1 : Fin 64).val ∧ (destFault c 32).isNone = true ∧ BitVec.ofNat 32 (argN c 0x1C 4) = 8#32 ∧
    tagOf up.hif.qps[(1 : Fin 64)] 8 = none := by decide +kernel

/-- Sequencer 0 armed on unit 0. -/
def armedOn (s : State) : State := updAs 0 (fun q => { q with
  configured := true, state := .fill, cfg := { SeqCfg.reset with channels := 1, terms := [{ unit := 0, high := 0, low := 0 }] } }) s

/-- An EDGE unit on channel 0. -/
def edgeCfg : TuCfg := { TuCfg.reset with n := 0, rst := 0 }

theorem witness_SettingCommands_setTu :
    Safety.Commits 0 0x11 (fetchedOf (blockDesc 0x11 29)) (blockReady 0x11 29 up) ∧
    Safety.Commits 0 0x11 (fetchedOf (blockDesc 0x11 29)) (armedOn (regioned (blockReady 0x11 29 up))) ∧
    headerOk 0x11 29 29 (block 0x11 0 29 []) = true ∧ item (block 0x11 0 29 []) = (0 : Fin 16).val ∧
    parseTu 0 (block 0x11 0 29 []) = .ok edgeCfg ∧
    (let s := blockReady 0x11 29 up
     let s' := withTu 0 edgeCfg (nextSample s) s
     admission [0x06] 0 (dasMoved s s') s s' = none ∧ armedReaches s 0 = false ∧ raisesArmed s s' = false ∧
     s.masks.toList.any (maskNames 0) = false) ∧
    (let s := armedOn (regioned (blockReady 0x11 29 up))
     let s' := withTu 0 edgeCfg (nextSample s) s
     admission [0x06] 0 (dasMoved s s') s s' = none ∧ armedReaches s 0 = true) :=
  ⟨commits_of _ _ _ _ (by decide +kernel), commits_of _ _ _ _ (by decide +kernel), by decide +kernel, by decide +kernel,
    ok_of _ _ (by decide +kernel), by decide +kernel, by decide +kernel⟩

/-- NORMAL on channel 0, L 64, with AUTO_TIMEOUT and LATE_ALLOW at their least. -/
def seqFields : List (Nat × Nat) := [(0, 1), (1, 1), (2, 64), (8, 1000)]

theorem witness_SettingCommands_setAs :
    (∀ s ∈ [regioned (blockReady 0x12 16 up), armedOn (regioned (blockReady 0x12 16 up)), blockReady 0x12 16 up],
      Safety.Commits 0 0x12 (fetchedOf (blockDesc 0x12 16)) s) ∧
    headerOk 0x12 16 16 (block 0x12 0 16 seqFields) = true ∧ item (block 0x12 0 16 seqFields) = (0 : Fin 4).val ∧
    parseAs (block 0x12 0 16 seqFields) = .ok seqCfg ∧
    (let s := regioned (blockReady 0x12 16 up)
     let s' := updAs 0 (fun q => { q with cfg := seqCfg, configured := true, das := dAs s seqCfg }) s
     admission [0x01, 0x02, 0x06] 0 (· = 0) s s' = none ∧ armed s.seqs[(0 : Fin 4)] = false ∧ channelTaken s 0 seqCfg.channels = false ∧
     measuredAway s 0 seqCfg.channels = false) ∧
    (let s := armedOn (regioned (blockReady 0x12 16 up))
     let s' := updAs 0 (fun q => { q with cfg := seqCfg, configured := true, das := dAs s seqCfg }) s
     admission [0x01, 0x02, 0x06] 0 (· = 0) s s' = none ∧ armed s.seqs[(0 : Fin 4)] = true) ∧
    (let s := blockReady 0x12 16 up
     admission [0x01, 0x02, 0x06] 0 (· = 0) s (updAs 0 (fun q => { q with cfg := seqCfg, configured := true, das := dAs s seqCfg }) s) =
       some (6, 0)) := by
  refine ⟨?_, by decide +kernel, by decide +kernel, ok_of _ _ (by decide +kernel), by decide +kernel, by decide +kernel, by decide +kernel⟩
  have h : ∀ s ∈ [regioned (blockReady 0x12 16 up), armedOn (regioned (blockReady 0x12 16 up)), blockReady 0x12 16 up],
      commitsB 0 0x12 (fetchedOf (blockDesc 0x12 16)) s = true := by decide +kernel
  exact fun s hs => commits_of _ _ _ _ (h s hs)

/-- Lanes 1 to 3 OFF with N 2, MINMAX at N 2. -/
def redFields : List (Nat × Nat) := [(0, 2), (1, 7), (2, 2), (6, 7), (7, 2), (11, 7), (12, 2)]

theorem witness_SettingCommands_setRed :
    (∀ d ∈ [none, some DiagSpan.selftest, some .proofing],
      commitsB 0 0x13 (fetchedOf (blockDesc 0x13 17)) (updRed 3 (fun b => { b with diag := d }) (blockReady 0x13 17 up)) = true ∧
      ((updRed 3 (fun b => { b with diag := d }) (blockReady 0x13 17 up)).reds[(3 : Fin 8)]).diag = d) ∧
    headerOk 0x13 17 17 (block 0x13 3 17 redFields) = true ∧ item (block 0x13 3 17 redFields) = (3 : Fin 8).val ∧
    (parsed (parseRed (block 0x13 3 17 redFields))).any (fun cfg =>
      cfg.2 &&& ~~~(redSettled up.reds[(3 : Fin 8)]).2 == 0) = true := by decide +kernel

/-- Arguments of SET_MEMORY: a ring of 1 GB for channel 0, side areas of 64 MB. -/
def memArgs : List (Nat × Nat × Nat) := [(0x18, 1, 1), (0x19, 1, 1), (0x28, 2, 1), (0x2A, 2, 1), (0x2C, 2, 1), (0x2E, 2, 1)]

theorem witness_SettingCommands_setMemory :
    let s := withDesc (desc 0x10 memArgs) up
    Safety.Commits 0 0x10 (fetchedOf (desc 0x10 memArgs)) s ∧
    (∃ a, parseMemory (Safety.callOf (fetchedOf (desc 0x10 memArgs)) []) = .ok a ∧
      (admission [0x01, 0x02, 0x05, 0x06] 0x100 (fun _ => true) s (layMemory a s)).isNone = true) ∧
    s.seqs.toList.any armed = false ∧ (∀ k, k < 4 → retroBusy s k = 0) ∧ streamOpenNow s = false ∧ readingSegments s = false := by
  refine ⟨commits_of _ _ _ _ (by decide +kernel), ok_any _ _ ?_, ?_, ?_, ?_, ?_⟩ <;> decide +kernel

theorem witness_SettingCommands_setDdc :
    let s := blockReady 0x14 23 up
    let b := pad 216 (block 0x14 2 23 []) ++ []
    let cfg := chainCfg s.ddcs[(2 : Fin 8)]
    let s' := refreshDas (refreshLatency (updDdc 2 (fun d => { d with next := some (cfg, nextSample s) }) s))
    Safety.Commits 0 0x14 (fetchedOf (blockDesc 0x14 23)) s ∧ WellFormed.instr (.setDdc (.host 0) (block 0x14 2 23 []) []) = true ∧
    headerOk 0x14 23 23 b = true ∧ item b = (2 : Fin 8).val ∧ parseDdc (calTable s.upd) cfg (slice b 216 384) b = .ok cfg ∧
    admission ((if ddcStreamed s 2 then [0x01, 0x02, 0x03, 0x04] else []) ++ [0x06]) 2 (dasMoved s s') s s' = none ∧
    raisesArmed s s' = false := by
  refine ⟨commits_of _ _ _ _ ?_, ?_, ?_, ?_, ok_of _ _ ?_, ?_, ?_⟩ <;> decide +kernel

/-- SET_BRIM that exports nothing. -/
def brimFields : List (Nat × Nat) := (0, 500) :: (List.range 16).map fun i => (1 + i, 0xFF)

theorem witness_SettingCommands_setBrim :
    let s := blockReady 0x18 18 up
    Safety.Commits 0 0x18 (fetchedOf (blockDesc 0x18 18)) s ∧ headerOk 0x18 18 18 (block 0x18 0 18 brimFields) = true ∧
    (∃ x : Nat × Vector Nat 16 × BitVec 4, parseBrim (block 0x18 0 18 brimFields) = .ok x ∧ lsysTooShort s.brim x.1 = false ∧
      (let s' := refreshDas (updBrim (fun b => { b with
         lsysNs := x.1, exports := x.2.1, stopMask := x.2.2, lsysShort := b.lsysShort && lsysTooShort b x.1 }) s)
       admission [0x06] (item (block 0x18 0 18 brimFields)) (dasMoved s s') s s' = none ∧ raisesArmed s s' = false) ∧
      (∀ k < 16, ∀ u, getN x.2.1 k = some u → u < 16 → brimUnit s u = false) ∧ brimArmed s = false) := by
  refine ⟨commits_of _ _ _ _ ?_, ?_, (500, Vector.replicate 16 0xFF, 0), ok_of _ _ ?_, ?_, ?_, ?_, ?_⟩
  case refine_6 =>
    intro k hk u hu hlt
    have : u = 0xFF := by simp [getN, hk] at hu; omega
    omega
  all_goals decide +kernel

/-- TIMER_SET: STAMP on TIME-IN 0. -/
def timerArgs : List (Nat × Nat × Nat) := [(0x18, 1, 3), (0x19, 1, 1), (0x1A, 1, 0x10), (0x1F, 1, 1)]

theorem witness_SettingCommands_timerSet :
    let s := withDesc (desc 0x25 timerArgs) up
    let c := Safety.callOf (fetchedOf (desc 0x25 timerArgs)) []
    Safety.Commits 0 0x25 (fetchedOf (desc 0x25 timerArgs)) s ∧ arg1 c 0x18 = (3 : Fin 8).val ∧
    (∃ tm, parseTimer c = .ok tm ∧ admission (if (openStreams s).any (fun st => st.kind == .timer && st.source == 3)
      then [0x01, 0x02, 0x03, 0x04] else []) 0 (fun _ => false) s (updTimer 3 (fun x => { tm with seq := x.seq, latest := x.latest }) s) = none) ∧
    forcedBusy s (arg1 c 0x1F) = false ∧
    Safety.Commits 0 0x25 (fetchedOf (desc 0x25 [(0x18, 1, 0xFF)])) (withDesc (desc 0x25 [(0x18, 1, 0xFF)]) up) ∧
    arg1 (Safety.callOf (fetchedOf (desc 0x25 [(0x18, 1, 0xFF)])) []) 0x18 = 0xFF := by
  refine ⟨commits_of _ _ _ _ ?_, ?_, ⟨{ Timer.reset with mode := .stamp, startSrc := 0x10 }, ok_of _ _ ?_, ?_⟩, ?_, commits_of _ _ _ _ ?_, ?_⟩ <;>
    decide +kernel


/-- A SET_SERVICE block: the service as KIND, the instance, ENABLE, and LENGTH for `n` fields. -/
def svcBlock (svc i en n : Nat) (fs : List (Nat × Nat)) : List Byte := patch (block svc i n fs) 3 (le 1 en)

/-- MEASURE on channel 0 with no limits. -/
def measureFields : List (Nat × Nat) :=
  [(1, 0xFF), (2, 10), (3, 50), (4, 90), (6, 1000000), (7, 0xFF), (10, 0xFF), (13, 0xFF), (16, 0xFF)]

/-- SET_SERVICE ready to commit for MEASURE on sequencer 0. -/
def svcReady : State := updAs 0 (fun q => { q with configured := true, cfg := seqCfg }) (regioned (blockReady 0x17 19 up))

/-- Its settings. -/
def svcCfg : MsCfg :=
  { channel := 0, refChannel := 0xFF, low := 10, mid := 50, high := 90, hyst := 0, maxRate := 1000000,
    limits := List.replicate 4 (0xFF, 0, 0) }

/-- Engines that the device may give, in the order in which it takes them. -/
def svcEngines : List Nat :=
  let s1 : State := { svcReady with freeCtr := svcReady.freeCtr + 1 }
  ((freeEngines s1 8).foldl (fun acc e => insertEngine svcReady.freeCtr e acc) []).take (instEngines s1 (fsMilli s1) 8 (.measure svcCfg))

theorem witness_SettingCommands_setService :
    let s1 : State := { svcReady with freeCtr := svcReady.freeCtr + 1 }
    let codes := [0x01, 0x02, 0x05, 0x06, 0x08, 0x09, 0x0A]
    let given := fun (cfg : Option SvcCfg) (engines : List Nat) =>
      updEng (fun e => { e with moving := e.moving.filter fun m => m.2.2 != 8 }) (withService 8 cfg 0x00010000 engines s1)
    Safety.Commits 0 0x17 (fetchedOf (blockDesc 0x17 19)) svcReady ∧
    (∀ en ∈ [0, 1], serviceHeader (svcBlock 2 8 en 19 measureFields) = true ∧ fieldAt (svcBlock 2 8 en 19 measureFields) 2 1 = (8 : Fin 16).val ∧
      fieldAt (svcBlock 2 8 en 19 measureFields) 3 1 = en ∧ fieldAt (svcBlock 2 8 en 19 measureFields) 4 4 = 0x00010000) ∧
    svcReady.upd.state ≠ .activating ∧ serviceBusy svcReady 8 = false ∧
    (∃ c, parseService svcReady 8 (svcBlock 2 8 1 19 measureFields) = .ok c ∧ (c == .measure svcCfg) = true) ∧
    (admission codes 8 (dasMoved s1 (given (some (.measure svcCfg)) svcEngines)) s1 (given (some (.measure svcCfg)) svcEngines)).isNone = true ∧
    raisesArmed s1 (given (some (.measure svcCfg)) svcEngines) = false ∧
    (admission codes 8 (dasMoved s1 (given none [])) s1 (given none [])).isNone = true ∧ raisesArmed s1 (given none []) = false := by
  refine ⟨commits_of _ _ _ _ ?_, ?_, ?_, ?_, ok_any _ _ ?_, ?_, ?_, ?_, ?_⟩ <;> decide +kernel


/-! ### Witnesses: timebase, TACs and timers -/

/-- The timebase changed. -/
def withTb (f : Timebase → Timebase) (s : State) : State := { s with tb := f s.tb }

/-- EPOCH_SET at an edge, or at a tick. -/
def epochDesc (mode x : Nat) : List Byte := desc 0x24 [(0x18, 1, mode), (0x30, 9, x)]

theorem witness_EpochAndTimerRead_set :
    (let s := updTac 4 (fun t => { t with calValid := true }) (withDesc (epochDesc 0 0) up)
     commitsB 0 0x24 (fetchedOf (epochDesc 0 0)) s = true ∧ (s.tacs[(4 : Fin 8)]).calValid = true ∧ s.seqs.toList.any armed = false ∧
     streamOpenNow s = false ∧ s.clk.refState ≠ .measuring ∧ s.clk.refState ≠ .stepPending ∧ s.tb.held = [] ∧
     s.tb.state ≠ .armed ∧ s.tb.state ≠ .set ∧
     arg1 (Safety.callOf (fetchedOf (epochDesc 0 0)) []) 0x18 = 0 ∧ arg1 (Safety.callOf (fetchedOf (epochDesc 0 0)) []) 0x19 ≤ 1) ∧
    (∀ x ∈ [40 * 2 ^ 21, 40 * 2 ^ 21 - 1],
      let c := Safety.callOf (fetchedOf (epochDesc 1 x)) []
      let s := withDesc (epochDesc 1 x) up
      commitsB 0 0x24 (fetchedOf (epochDesc 1 x)) s = true ∧ arg1 c 0x18 = 1 ∧ arg1 c 0x19 ≤ 1 ∧
      (((40 * 2 ^ 21 * tick : Nat) ≤ tsDiff (ticksTs (BitVec.ofNat 72 (argN c 0x30 9))) (tsNow s)) ↔ x = 40 * 2 ^ 21)) := by decide +kernel

/-- An epoch armed for the instant of tick `x`, its edge known. -/
def epochArmed (atTick : Bool) (x : BitVec 72) : State := withTb (fun t => { t with
  state := .pending, arming := some { atTick := atTick, falling := false, v := 5, x := x },
  wait := some { map := { sn := 0, ts := 9 }, commit := 39, atTick := atTick } }) up

theorem witness_EpochAndTimerRead_commit :
    live up = true ∧ up.tb.arming = none ∧
    (∀ k : Bool, live (epochArmed k 0) = true ∧ (epochArmed k 0).tb.arming = some { atTick := k, falling := false, v := 5, x := 0 } ∧
      firstFrom (epochArmed k 0) 0 (ticksTs 0) < commitSample (epochArmed k 0) + 40 ∧
      (∀ m ∈ (epochArmed k 0).tb.maps, m.sn ≤ firstFrom (epochArmed k 0) 0 (ticksTs 0)) ∧
      (epochArmed k 0).tb.wait = some { map := { sn := 0, ts := 9 }, commit := 39, atTick := k } ∧
      39 < commitSample (epochArmed k 0) + 40) ∧
    commitSample (epochArmed true 1000) + 40 ≤ firstFrom (epochArmed true 1000) 0 (ticksTs 1000) := by decide +kernel

/-- A timer changed. -/
def withTimer (f : Timer → Timer) (s : State) : State := updTimer 0 f s

/-- A record. -/
def aRecord : TimerRec := { type := 1, flags := 0, tA := 0, value := 0, count := 0, seq := 0 }

theorem witness_EpochAndTimerRead_read :
    let d := desc 0x26 [(8, 8, 64), (0x10, 4, 64)]
    ∀ r ∈ [none, some aRecord],
      commitsB 0 0x26 (fetchedOf d) (withTimer (fun t => { t with latest := r }) (withDesc d up)) = true ∧
      ((withTimer (fun t => { t with latest := r }) (withDesc d up)).timers[(0 : Fin 8)]).latest = r ∧
      arg1 (Safety.callOf (fetchedOf d) []) 0x18 = (0 : Fin 8).val ∧ (destFault (Safety.callOf (fetchedOf d) []) 64).isNone = true := by
  decide +kernel

/-- Timer 0 stamps rising edges of TIME-IN 0; its TAC busy or not. -/
def stamping (busy : Option Int) : State :=
  updTac 0 (fun t => { t with busy := busy }) (withTimer (fun t => { t with mode := .stamp, startSrc := 0x10 }) up)

theorem witness_TacEdges :
    let pos := edgePos 0 1000 0 false (stamping none)
    (∀ b ∈ [none, some pos, some (pos + 1)],
      live (stamping b) = true ∧ tacNeeds 0 (stamping b) false = true ∧ (stamping b).clk.noBand[3] = false ∧
      ((stamping b).tacs[(0 : Fin 8)]).calRun = none ∧ syncNeeds 0 (stamping b) false = false ∧ ((stamping b).tacs[(0 : Fin 8)]).busy = b ∧
      edgePos 0 1000 0 false (stamping b) = pos ∧ afterCommit pos (stamping b) = false) ∧
    tacNeeds 0 (stamping none) true = false ∧
    ((stamping none).timers[(0 : Fin 8)]).mode = .stamp ∧ ((stamping none).timers[(0 : Fin 8)]).startSrc = tacSource 0 ∧
    polTakes ((stamping none).timers[(0 : Fin 8)]).startPol (some false) = true ∧
    (let s := withTb (fun t => { t with state := .armed, arming := some { atTick := false, falling := false, v := 5, x := 0 } }) up
     live s = true ∧ syncNeeds 4 s false = true ∧ s.clk.noBand[3] = false ∧ (s.tacs[(4 : Fin 8)]).calRun = none ∧
     (s.tacs[(4 : Fin 8)]).busy = none) := by decide +kernel

/-- TAC 0 in a calibration run, two runs in a row rejected. -/
def calibrating : State := updTac 0 (fun t => { t with calRun := some .idle, rejects := 2 }) up

theorem witness_CalibrationAndGates :
    live up = true ∧ (up.tacs[(0 : Fin 8)]).calRun = none ∧ up.clk.noBand[3] = false ∧ idleEnough 0 0 up = false ∧
    idleEnough 0 0 { up with aoCycles := 250000000 } = true ∧
    live calibrating = true ∧ (calibrating.tacs[(0 : Fin 8)]).calRun = some .idle ∧ calSuspended 0 calibrating = false ∧
    (calibrating.tacs[(0 : Fin 8)]).rejects = 2 ∧
    200 < ((201 : BitVec 16).toInt - (up.tacs[(0 : Fin 8)]).calTemp.toInt).natAbs ∧
    ((-200 : BitVec 16).toInt - (up.tacs[(0 : Fin 8)]).calTemp.toInt).natAbs ≤ 200 := by decide +kernel

theorem witness_CalibrationAndGates_accepted :
    WellFormed.histogram (List.replicate 4096 4096) = true ∧ tableAccepted (List.replicate 4096 4096) = true := by decide +kernel

theorem witness_CalibrationAndGates_rejected :
    WellFormed.histogram (2 ^ 24 :: List.replicate 4095 0) = true ∧ tableAccepted (2 ^ 24 :: List.replicate 4095 0) = false := by decide +kernel

/-- A stamp at a time. -/
def stampAt (t : TS96) : Stamp := { ts := t, flags := 0, steps := 0 }

/-- Timer 0 with a start that has waited longer than WIN, and a stop beside it. -/
def pairing (nearest : Bool) : State := atLc 1 (withTimer (fun t => { t with
  mode := .interval, win := 65536, nearest := nearest, waiting := [stampAt 0], unused := [stampAt 5] }) up)

/-- Timer 0 with an open gate that has counted `k` edges. -/
def gated (k : Nat) : State :=
  atLc 1 (withTimer (fun t => { t with mode := .frequency, gateNs := 1, gate := some { opening := stampAt 0, count := k } }) up)

theorem witness_CalibrationAndGates_timers :
    (∀ b : Bool, live (pairing b) = true ∧ ((pairing b).timers[(0 : Fin 8)]).mode = .interval ∧
      ((pairing b).timers[(0 : Fin 8)]).waiting = [stampAt 0] ∧
      winUnits (pairing b).timers[(0 : Fin 8)] < tsDiff (tsNow (pairing b)) (stampAt 0).ts ∧
      (pairing b).clk.noBand[3] = false ∧ ((pairing b).timers[(0 : Fin 8)]).nearest = b ∧ nearestStop (pairing b).timers[(0 : Fin 8)] (stampAt 0) = some (stampAt 5)) ∧
    (up.timers[(0 : Fin 8)]).mode ≠ .interval ∧
    (∀ k ∈ [0, 1], live (gated k) = true ∧ ((gated k).timers[(0 : Fin 8)]).mode = .frequency ∧
      ((gated k).timers[(0 : Fin 8)]).gate = some { opening := stampAt 0, count := k } ∧ (gated k).clk.noBand[3] = false) ∧
    (nsToTicks (gated 0) 0 : Int) * tick ≤ tsDiff (tsNow (gated 0)) (stampAt 0).ts ∧
    tsDiff (tsNow (gated 0)) (stampAt 0).ts < (nsToTicks (gated 0) 1000 : Int) * tick := by decide +kernel


/-! ### Witnesses: acquisition -/

/-- A segment of sequencer 0 on channel 0: samples 0 to 63, trigger sample 0. -/
def aSegment (seq : Nat) : Segment :=
  { seq := seq, sequencer := 0, t := 0, kt := 0, off := 0, first := 0, last := 63, channels := 1, flags := 0, epochGen := 0, postCount := 0,
    prefillWait := 0, holdoffSuppressed := 0, lateMissed := 0, fullMissed := 0, gapCount := 0, maskResult := 0, stepDelta := 0,
    retention := .retained, sidePtr := 0, measPtr := 0, overlap := [], ring := false, readers := 0, releasing := false, closed := true,
    complete := true, lost := false, era := 0, sideBytes := 0, data := [], side := [], meas := [], engReaders := 0 }

/-- Sequencer 0 changed. -/
def withSeq (f : Seq → Seq) (s : State) : State := updAs 0 f s

/-- Sequencer 0 configured on channel 0 with a capture region. -/
def ready : State := withSeq (fun q => { q with configured := true, cfg := seqCfg }) (regioned up)

/-- Segment 0 stored or being stored. -/
def holding (g : Segment) (s : State) : State := { s with mem := { s.mem with segs := [g], next := 1 } }

/-- ARM of sequencer 0, at once or at a time. -/
def armDesc (flags : Nat) : List Byte := desc 0x20 [(0x18, 1, 1), (0x19, 1, flags), (0x20, 12, 65536 * 40 * 2 ^ 24)]

theorem witness_AcquisitionCommands_arm :
    (∀ m ∈ [SeqMode.normal, .continuous], ∀ fl ∈ [0, 1],
      let s := withSeq (fun q => { q with cfg := { q.cfg with mode := m } }) (withDesc (armDesc fl) ready)
      commitsB 0 0x20 (fetchedOf (armDesc fl)) s = true ∧
      (∀ a ∈ maskAs (arg1 (Safety.callOf (fetchedOf (armDesc fl)) []) 0x18), (s.seqs[a]).configured = true ∧ armed s.seqs[a] = false) ∧
      s.tb.state ≠ .armed ∧ s.tb.state ≠ .pending ∧ bit (arg1 (Safety.callOf (fetchedOf (armDesc fl)) []) 0x19) 0 = (fl == 1) ∧
      (s.seqs[(0 : Fin 4)]).cfg.mode = m ∧
      (65536 * 40 * tick : Nat) ≤ tsDiff (argTs (Safety.callOf (fetchedOf (armDesc fl)) []) 0x20) (tsNow s)) := by decide +kernel

/-- STOP of sequencer 0 in a mode of stopping. -/
def stopDesc (mode : Nat) : List Byte := desc 0x21 [(0x18, 1, 1), (0x19, 1, mode)]

/-- Sequencer 0 filling segment 0. -/
def posting (s : State) : State := holding { aSegment 0 with complete := false, closed := false }
  (withSeq (fun q => { q with state := .post, armSample := some 0, openSeg := some 0, cutSinceArm := 1 }) s)

theorem witness_AcquisitionCommands_stop :
    (∀ m ∈ [0, 1],
      let s := posting (withDesc (stopDesc m) ready)
      let c := Safety.callOf (fetchedOf (stopDesc m)) []
      commitsB 0 0x21 (fetchedOf (stopDesc m)) s = true ∧ arg1 c 0x19 = m ∧ arg1 c 0x1A = 0 ∧
      arg1 c 0x1A ≤ 1 ∧ (0 : Fin 4) ∈ maskAs (arg1 c 0x18) ∧ armed s.seqs[(0 : Fin 4)] = true ∧ (s.seqs[(0 : Fin 4)]).state = .post ∧
      (s.seqs[(0 : Fin 4)]).startAt = none ∧ (s.seqs[(0 : Fin 4)]).stopEvent = none ∧
      armed s.seqs[(1 : Fin 4)] = false) ∧
    (let s := posting ready
     reachable s = true ∧ (1 : W32).getLsbD 0 = true ∧ (s.seqs[(0 : Fin 4)]).stopEvent = none ∧ armed s.seqs[(0 : Fin 4)] = true ∧ (s.seqs[(0 : Fin 4)]).openSeg = some 0 ∧
     (findSeg s 0).any (fun sg => decide (commitSample s ≤ sg.last)) = true) := by decide +kernel

/-- FORCE of the sequencers of a mask. -/
def forceDesc (m : Nat) : List Byte := desc 0x22 [(0x18, 1, m)]

/-- RETRO_CAPTURE on sequencer 0 at a time in samples. -/
def retroDesc (k : Nat) : List Byte := desc 0x23 [(0x18, 1, 0), (0x20, 12, k * 2 ^ 24)]

/-- A history ring of channel 0 with its first block from sample 4096. -/
def historied (s : State) : State := { s with mem := { s.mem with histChannels := 1, histGb := 1, histStart := 1, oldest := 1, cutAt := 4096 } }

theorem witness_AcquisitionCommands_forceRetro :
    (∀ m ∈ [0, 1], commitsB 0 0x22 (fetchedOf (forceDesc m)) (withDesc (forceDesc m) ready) = true ∧
      arg1 (Safety.callOf (fetchedOf (forceDesc m)) []) 0x18 % 16 = m) ∧
    (∀ k ∈ [4095, 4096],
      let s := historied (withDesc (retroDesc k) (atLc 300 ready))
      let c := Safety.callOf (fetchedOf (retroDesc k)) []
      let q := s.seqs[(0 : Fin 4)]
      commitsB 0 0x23 (fetchedOf (retroDesc k)) s = true ∧ arg1 c 0x18 = (0 : Fin 4).val ∧ q.configured = true ∧ histOn s.mem = true ∧
      q.cfg.channels &&& s.mem.histChannels = q.cfg.channels ∧ tsDiff (argTs c 0x20) (tsNow s) ≤ (2 ^ 40 * tick : Nat) ∧
      retroBusy s 0 < 4 ∧ triggerSampleIn s.tb.maps none (argTs c 0x20) = some k ∧ (k < histO s.mem ↔ k = 4095) ∧ slotBlocked s.mem s.mem.next = none ∧
      (k = 4096 → histO s.mem + q.cfg.p ≤ k ∧ cutFits 0 (cutAt q (argTs c 0x20) k q.cfg.p fRetro true) s s.mem = true)) := by decide +kernel

/-- Sequencer 0 armed at sample 0 in a state. -/
def seqIn (st : SeqState) (f : Seq → Seq) : State := withSeq (fun q => f { q with state := st, armSample := some 0 }) ready

theorem witness_SequencersMoveWithTime :
    (let s := withSeq (fun q => { q with startAt := some 0 }) ready
     live s = true ∧ (s.seqs[(0 : Fin 4)]).startAt = some 0 ∧ firstAt s 0 ≤ commitSample s ∧ (s.seqs[(0 : Fin 4)]).cfg.mode ≠ .continuous) ∧
    (withSeq (fun q => { q with startAt := some 0, cfg := { q.cfg with mode := .continuous } }) ready).seqs[(0 : Fin 4)].cfg.mode = .continuous ∧
    (let s := seqIn .fill id
     live s = true ∧ (s.seqs[(0 : Fin 4)]).state = .fill ∧ stateAt s.seqs[(0 : Fin 4)] s (commitSample s) = .ready) ∧
    (ready.seqs[(0 : Fin 4)]).state ≠ .fill ∧
    (∀ h ∈ [0, 1],
      let s := seqIn .holdoff fun q => { q with cfg := { q.cfg with holdTime := h } }
      live s = true ∧ (s.seqs[(0 : Fin 4)]).state = .holdoff ∧ inHoldoff s.seqs[(0 : Fin 4)] (commitSample s) = (h == 1)) ∧
    (∀ f ∈ [(fun q : Seq => { q with stopPending := some 2 }), (fun q => { q with cfg := { q.cfg with count := 1 } }), id],
      let s := withSeq f (atLc 100 (posting ready))
      live s = true ∧ (s.seqs[(0 : Fin 4)]).openSeg = some 0 ∧ (findSeg s 0).any (fun g => mayLeave s.seqs[(0 : Fin 4)] g.last s) = true ∧
      (s.seqs[(0 : Fin 4)]).cfg.mode ≠ .continuous) ∧
    (let q := (posting ready).seqs[(0 : Fin 4)]
     q.stopPending = none ∧ countReached q = false ∧ countReached { q with cfg := { q.cfg with count := 1 } } = true) := by decide +kernel

theorem witness_SequencersMoveWithTime_auto :
    let s := atLc 2100 (seqIn .ready fun q => { q with cfg := { q.cfg with mode := .auto } })
    let q := s.seqs[(0 : Fin 4)]
    let e := readySample q + nsToTicks s q.cfg.autoNs
    live s = true ∧ q.cfg.mode = .auto ∧ q.state ≠ .idle ∧ q.openSeg = none ∧ q.readyAt ≤ e ∧ stateAt q s e = .ready ∧ dueAt s (tsOf s e) q.das ≤ lcNow s ∧
    (∀ i ∈ q.queue, e < i.kt) ∧ slotBlocked s.mem s.mem.next = none ∧ cutFits 0 (cutAt q (tsOf s e) e q.cfg.p fAuto false) s s.mem = true := by
  decide +kernel

/-- The time of sample 80. -/
def ts80 : TS96 := 0x50000000

/-- Unit 0 with a firing at sample 80 that becomes known in lane clock 42, and sequencer 0 with a term on it. -/
def firing : State := atLc 42 (withSeq (fun q => { q with cfg := { q.cfg with terms := [{ unit := 0, high := 0, low := 0 }] } })
  (updTu 0 (fun x => { x with queue := [{ t := ts80, pos := 80 * tick, place := PlaceFlags.none, level := false, due := 42, remote := false }] }) ready))

/-- An instant for the sequencer to decide: a firing at sample 80. -/
def anInstant : Instant := { t := ts80, kt := 80, kind := .trigger 0, place := PlaceFlags.none, due := 42, late := false, waiter := none }

/-- Sequencer 0 with that instant in its queue. -/
def deciding (st : SeqState) (f : Seq → Seq) : State := atLc 42 (seqIn st fun q => f { q with
  cfg := { q.cfg with terms := [{ unit := 0, high := 0, low := 0 }] }, queue := [anInstant] })

theorem witness_DecisionsAndTrigouts_fire :
    live firing = true ∧ (ripeFiring firing firing.tus[(0 : Fin 16)]).isSome = true ∧
    (∀ c : Fin 16, firing.brim.exports[c] ≠ (0 : Fin 16).val) ∧ (firing.seqs[(0 : Fin 4)]).configured = true ∧
    (firing.seqs[(1 : Fin 4)]).configured = false := by decide +kernel

theorem witness_DecisionsAndTrigouts_decide :
    (∀ x ∈ [(deciding .ready id, SeqState.ready), (deciding .fill (fun q => { q with cfg := { q.cfg with p := 64, l := 128 }, fillStart := 40 }), .fill),
        (holding (aSegment 0) (deciding .holdoff (fun q => { q with cfg := { q.cfg with holdTime := 100 }, lastSeg := some 0 })), .holdoff),
        (holding { aSegment 0 with last := 127 } (deciding .post (fun q => { q with openSeg := some 0 })), .post),
        (deciding .idle (fun q => { q with armSample := none }), .idle)],
      let s := x.1
      let q := s.seqs[(0 : Fin 4)]
      live s = true ∧ q.queue = [anInstant] ∧ anInstant.due ≤ lcNow s ∧ instantHolds s q anInstant = true ∧ afterStopInstant q anInstant.kt = false ∧ expiryFirst q (some anInstant.kt) s = false ∧
      stateAt q s anInstant.kt = x.2 ∧ q.cfg.accept = false ∧ slotBlocked s.mem s.mem.next = none ∧
      (x.2 = .ready → cutFits 0 (cutAt q anInstant.t anInstant.kt q.cfg.p (placeFlagBits anInstant.place) false) s s.mem = true)) := by
  decide +kernel

/-- A trigger of sample 80 for TRIGOUT 0, decided in lane clock 2: its edge is due at the land 80 lc after T. -/
def outTrigger : OutTrigger := { pos := 80 * tick, decided := 2, late := false }

/-- TRIGOUT 0 with that trigger to put out, perhaps during a pulse. -/
def pulsing (lc : Nat) (until_ : Option Int) : State :=
  atLc lc (updOut 0 (fun x => { x with queue := [outTrigger], activeUntil := until_ }) up)

theorem witness_DecisionsAndTrigouts_trigout :
    (∀ x ∈ [(1, none), (82, none), (82, some (81 * lcUnits))],
      live (pulsing x.1 x.2) = true ∧ ((pulsing x.1 x.2).trigouts[(0 : Fin 2)]).queue = [outTrigger] ∧
      ((pulsing x.1 x.2).trigouts[(0 : Fin 2)]).activeUntil = x.2 ∧
      (landNow (pulsing x.1 x.2) + lcUnits ≤ (trigEdge outTrigger).1 ↔ x.1 = 1) ∧
      outBusy (pulsing x.1 x.2).trigouts[(0 : Fin 2)] (trigEdge outTrigger).1 = x.2.isSome) ∧
    81 * lcUnits < landNow (pulsing 82 (some (81 * lcUnits))) + lcUnits ∧
    landNow (pulsing 1 none) + lcUnits ≤ 81 * lcUnits := by decide +kernel


/-! ### Witnesses: felts and masks -/

/-- A felt changed. -/
def withFelt (f : Fin 16) (g : Felt → Felt) (s : State) : State := updFelt f g s

/-- SET_FELT of a channel felt: FOLDED, columns of 1 Ts, period 2 Ts. -/
def feltFields : List (Nat × Nat) := [(0, 1), (4, 2 ^ 24), (6, 2 ^ 25), (13, 100)]

/-- BAKE of felt 0 to a destination of its size. -/
def bakeDesc : List Byte := desc 0x30 [(8, 8, 64), (0x10, 4, 8388736)]

theorem witness_SetFeltAndBakeCommit :
    (∀ b ∈ [BakePhase.idle, .waiting],
      commitsB 0 0x15 (fetchedOf (blockDesc 0x15 15)) (withFelt 0 (fun x => { x with bake := b }) (blockReady 0x15 15 up)) = true) ∧
    headerOk 0x15 15 15 (block 0x15 0 15 feltFields) = true ∧ item (block 0x15 0 15 feltFields) = (0 : Fin 16).val ∧
    (parsed (parseFelt 0 (block 0x15 0 15 feltFields))).isSome = true ∧
    (∀ x ∈ [(BakePhase.idle, false), (.idle, true), (.clearing, false)],
      let s := withFelt 0 (fun y => { y with bake := x.1, clearing := x.2, cfg := { y.cfg with map := 1 } }) (withDesc bakeDesc up)
      commitsB 0 0x30 (fetchedOf bakeDesc) s = true ∧ arg1 (Safety.callOf (fetchedOf bakeDesc) []) 0x18 = (0 : Fin 16).val ∧
      (destFault (Safety.callOf (fetchedOf bakeDesc) []) 8388736).isNone = true ∧ (s.felts[(0 : Fin 16)]).cfg.map ≠ 0 ∧
      (s.felts[(0 : Fin 16)]).bake = x.1 ∧ (s.felts[(0 : Fin 16)]).clearing = x.2) := by decide +kernel

/-- A spill whose bin stands one below its largest value. -/
def aSpill : Spill := { bin := 3, toB := false, weight := 2, before := false }

theorem witness_FeltSteps :
    (let s := withFelt 0 (fun x => { x with clearing := true }) up
     live s = true ∧ (s.felts[(0 : Fin 16)]).clearing = true) ∧ (up.felts[(0 : Fin 16)]).clearing = false ∧ live up = true ∧
    (let s := withFelt 0 (fun x => { x with spills := [aSpill], bufA := [(3, 2 ^ 32 - 2)] }) up
     nextSpill s.felts[(0 : Fin 16)] = some aSpill ∧ 0 < aSpill.weight) ∧
    (let s := atLc 200000001 (withFelt 8 (fun x => { x with running := true, cfg := { x.cfg with age := 1, ageMs := 100 } }) up)
     let x := s.felts[(8 : Fin 16)]
     live s = true ∧ x.running = true ∧ x.cfg.age ≠ 0 ∧ x.sweep = none ∧ postpones x = false ∧ x.agePending = 0 ∧
     (nextAging x s).any (fun a => decide (a ≤ feltStage 8 s)) = true ∧ 8 ≤ (8 : Fin 16).val) ∧
    (let s := atLc 200000001 (withFelt 8 (fun x => { x with running := true, bake := .flushing, cfg := { x.cfg with age := 1, ageMs := 100 } }) up)
     let x := s.felts[(8 : Fin 16)]
     live s = true ∧ x.running = true ∧ postpones x = true ∧ (nextAging x s).any (fun a => decide (a ≤ feltStage 8 s)) = true) ∧
    (let s := atLc 200000001 (withFelt 8 (fun x => { x with running := true, agePending := 2, ageDue := some 5, cfg := { x.cfg with age := 1, ageMs := 100 } }) up)
     let x := s.felts[(8 : Fin 16)]
     x.running = true ∧ postpones x = false ∧ x.ageDue.isSome = true ∧ nextAging x s = some 5 ∧ 5 ≤ feltStage 8 s) ∧
    (withFelt 0 (fun x => { x with sweep := some (true, 1) }) up).felts[(0 : Fin 16)].sweep = some (true, 1) ∧
    (∀ k ∈ [32767, 32768],
      let s := atLc k (withFelt 0 (fun x => { x with bake := .flushing }) up)
      live s = true ∧ (s.felts[(0 : Fin 16)]).bake = .flushing ∧ (lcNow s < (s.felts[(0 : Fin 16)]).switchLc + 32768 ↔ k = 32767)) ∧
    (let s := atLc 100000 (withFelt 0 (fun x => { x with bake := .copying }) (updQp 0 (fun q => { q with
       fetched := [{ fetchedOf bakeDesc with committed := true, xfer := some (.bake 0 64) }] }) (linked (running up))))
     live s = true ∧ bakeFinal 0 (scrubbed .clean s) = true ∧ dma s = true ∧
     findBake 0 s = some (0, { fetchedOf bakeDesc with committed := true, xfer := some (.bake 0 64) }, 64)) ∧
    (withFelt 0 (fun x => { x with bake := .clearing }) up).felts[(0 : Fin 16)].bake = .clearing := by decide +kernel

/-- A mask block: channel 0, one column, one rectangle. -/
def maskFields : List (Nat × Nat) :=
  [(0, 1), (3, 1), (4, 2 ^ 25), (16, 1), (17, 0), (18, 4), (19, 0), (20, 256), (21, 256 + 10 * 2 ^ 32), (22, 10 * 2 ^ 32)]

/-- A rectangle, and a shape that a column meets twice. -/
def rectangle : Region := { outside := false, vertices := [(0, 0), (256, 0), (256, 10), (0, 10)] }
def fork : Region := { outside := false, vertices := [(0, 0), (512, 0), (512, 10), (1, 10), (1, 20), (512, 20), (512, 30), (0, 30)] }

/-- A mask changed. -/
def withMask (f : Mask → Mask) (s : State) : State := updMask 63 f s

theorem witness_Masks_set :
    Safety.Commits 0 0x16 (fetchedOf (blockDesc 0x16 23)) (blockReady 0x16 23 up) ∧
    headerOk 0x16 17 23 (block 0x16 63 23 maskFields) = true ∧ item (block 0x16 63 23 maskFields) = (63 : Fin 64).val ∧
    (∃ cfg, parseMask (block 0x16 63 23 maskFields) = .ok cfg ∧ (cfg.enable && cfg.regions == [rectangle] &&
      comparatorFits (blockReady 0x16 23 up) 63 cfg && maskRefOk (blockReady 0x16 23 up) cfg &&
      !comparatorFits { up with masks := Vector.replicate 64 { Mask.reset with cfg := { MaskCfg.reset with enable := true } } } 63 cfg) = true) := by
  refine ⟨commits_of _ _ _ _ ?_, ?_, ?_, ok_any _ _ ?_⟩ <;> decide +kernel

theorem witness_Masks_raster :
    badColumn { MaskCfg.reset with regions := [rectangle] } = none ∧
    (badColumn { MaskCfg.reset with ncol := 2, regions := [fork] }).isSome = true ∧
    (up.masks[(63 : Fin 64)]).raster = none ∧
    (let s := withMask (fun x => { x with raster := some { MaskCfg.reset with regions := [rectangle] } }) up
     live s = true ∧ (s.masks[(63 : Fin 64)]).raster = some { MaskCfg.reset with regions := [rectangle] } ∧ rasterPaused s = false) ∧
    rasterPaused (updEng (fun e => { e with throttled := true, reserve := e.reserve.set 0 (some 5) }) up) = true := by decide +kernel

theorem witness_Masks_events :
    (∀ k ∈ [4, 5],
      let s := atLc k (withMask (fun x => { x with stop := some (100, 5, 1) }) (posting ready))
      live s = true ∧ (s.masks[(63 : Fin 64)]).stop = some (100, 5, 1) ∧ (lcNow s < 5 ↔ k = 4) ∧
      (0 : Fin 4) ∈ maskAs (1 : Byte).toNat ∧ armed s.seqs[(0 : Fin 4)] = true ∧ (1 : Fin 4) ∉ maskAs (1 : Byte).toNat) ∧
    (up.masks[(63 : Fin 64)]).stop = none ∧ (up.masks[(63 : Fin 64)]).reloading = [] ∧
    (∀ k ∈ [2 ^ 21, 2 ^ 21 + 1],
      let s := atLc k (withMask (fun x => { x with lastViol := some 1, violNow := true }) up)
      live s = true ∧ (s.masks[(63 : Fin 64)]).lastViol = some 1 ∧ (s.masks[(63 : Fin 64)]).violNow = true ∧ (lcNow s < 1 + 2 ^ 21 ↔ k = 2 ^ 21)) ∧
    (let s := withMask (fun x => { x with reloading := [0], cfg := { x.cfg with enable := true } }) up
     live s = true ∧ (s.masks[(63 : Fin 64)]).cfg.enable = true ∧ 0 < (s.masks[(63 : Fin 64)]).cfg.ncol ∧
     (s.masks[(63 : Fin 64)]).reloading ≠ []) := by decide +kernel


/-! ### Witnesses: segments and streams -/

/-- READ_SEGMENTS of segment 0, all of it, to a destination of 4,096 bytes. -/
def readDesc : List Byte := desc 0x31 [(8, 8, 64), (0x10, 4, 4096)]

/-- READ_INDEX of one entry. -/
def indexDesc : List Byte := desc 0x32 [(8, 8, 64), (0x10, 4, 64), (0x20, 4, 1)]

theorem witness_ReadsAndTransfers_read :
    (∀ sg ∈ [aSegment 0, { aSegment 0 with complete := false }, { aSegment 0 with retention := .released }],
      let s := holding sg (withDesc readDesc up)
      let c := Safety.callOf (fetchedOf readDesc) []
      commitsB 0 0x31 (fetchedOf readDesc) s = true ∧ findSeg s (argN c 0x18 8) = some sg ∧ argN c 0x20 5 = 0 ∧ argN c 0x25 5 = 0 ∧
      arg1 c 0x2A = 0 ∧ arg1 c 0x2B ≤ 1 ∧ (destFault c (imageLen sg (sg.last + 1 - sg.first) sg.channels false false)).isNone = true ∧
      sg.first ≤ sg.last ∧ sg.channels &&& sg.channels = sg.channels) ∧
    findSeg up 0 = none := by decide +kernel

theorem witness_ReadsAndTransfers_index :
    (∀ x ∈ [holding (aSegment 0) (withDesc indexDesc up), withDesc indexDesc up],
      let c := Safety.callOf (fetchedOf indexDesc) []
      commitsB 0 0x32 (fetchedOf indexDesc) x = true ∧ argN c 0x20 4 = 1 ∧ (destFault c 64).isNone = true ∧
      (argN c 0x18 8 < x.mem.next → findSeg x (argN c 0x18 8) = some (aSegment 0) ∧ slotReused x 0 = false)) ∧
    (withDesc indexDesc up).mem.next ≤ 0 ∧ 0 < (holding (aSegment 0) up).mem.next ∧ (aSegment 0).complete = true ∧ (aSegment 0).lost = false := by
  decide +kernel

theorem witness_ReadsAndTransfers_transfer :
    (∀ x ∈ [Xfer.toHost 64 [1], .segment 0 64 { first := 0, count := 64, channels := 1, wide := false, side := false } false, .stage 0 [1]],
      live (transferring x) = true ∧ dma (transferring x) = false ∧ dma (linked (transferring x)) = true ∧ live (linked (transferring x)) = true ∧
      (((linked (transferring x)).hif.qps[(0 : Fin 64)]).fetched.find? fun g => g.tag == 7) =
        some { fetchedOf (desc 0x31 []) with committed := true, xfer := some x }) ∧
    (∀ k ∈ [1, 3],
      let g := { aSegment 0 with complete := false, closed := false }
      let s := atLc k (holding g up)
      live s = true ∧ findSeg s 0 = some g ∧ g.complete = false ∧ (lastStored g s = true ↔ k = 3) ∧ qualKnown g s = false) := by decide +kernel

theorem witness_ReadsAndTransfers_complete :
    let g := { aSegment 0 with complete := false, era := 0 }
    let s := { holding g up with proof := { up.proof with era := 1 } }
    live s = true ∧ findSeg s g.seq = some g ∧ lastStored g s = true ∧ redsEnded g s = true ∧ qualKnown g s = true := by decide +kernel

/-- A link of 242 GB/s. -/
def fastLink (s : State) : State := { linked s with hif := { (linked s).hif with linkGen := 7 } }

/-- STREAM_OPEN of channel 0: 64 MB of buffer, a ring of 4 MB. -/
def openDesc : List Byte := desc 0x33 [(0x19, 1, 1), (0x1E, 2, 1), (0x30, 1, 22)]

theorem witness_StreamLife_open :
    ∀ x ∈ [fastLink (withDesc openDesc up), setStream 0 (some aStream) (fastLink (withDesc openDesc up))],
      commitsB 0 0x33 (fetchedOf openDesc) x = true ∧ x.tb.state ≠ .armed ∧ x.tb.state ≠ .pending ∧
      (parsed (parseStream x (Safety.callOf (fetchedOf openDesc) []))).any (fun p => p.1 == 0 && decide (2 * largestRecord x p.2 ≤ 2 ^ p.2.ringLog2) &&
        (admission [0x01, 0x02, 0x03, 0x04, 0x05] 0 (fun _ => false) x (setStream 0 (some p.2) x)).isNone) = true := by decide +kernel

/-- STREAM_CLOSE of stream 0, dropping what waits or not. -/
def closeDesc (drop : Nat) : List Byte := desc 0x34 [(0x19, 1, drop)]

theorem witness_StreamLife_close :
    ∀ d ∈ [0, 1],
      let s := setStream 0 (some aStream) (withDesc (closeDesc d) up)
      commitsB 0 0x34 (fetchedOf (closeDesc d)) s = true ∧ s.hif.streams[(0 : Fin 64)] = some aStream ∧ aStream.closing = none ∧
      aStream.gap = none ∧ arg1 (Safety.callOf (fetchedOf (closeDesc d)) []) 0x18 = (0 : Fin 64).val ∧
      bit (arg1 (Safety.callOf (fetchedOf (closeDesc d)) []) 0x19) 0 = (d == 1) ∧ (withDesc (closeDesc d) up).hif.streams[(0 : Fin 64)] = none := by
  decide +kernel

/-- A unit of 64 bytes, or a segment's. -/
def aUnit (seg : Option Nat) : StreamUnit := { body := List.replicate 56 0, validAt := 0, weight := 0, ts := 0, seg := seg }

theorem witness_StreamLife_transfer :
    let st : Stream := { aStream with buf := [aUnit none] }
    let sg : Stream := { aStream with kind := .segment, buf := [aUnit (some 0)] }
    let s := setStream 0 (some st) (linked up)
    let t := holding (aSegment 0) (setStream 0 (some sg) (linked up))
    live s = true ∧ dma s = true ∧ s.hif.streams[(0 : Fin 64)] = some st ∧ (aUnit none).seg = none ∧
    (aUnit none).body.length ≤ toRingEnd st ∧ ringRoom st (aUnit none).body.length = true ∧
    live t = true ∧ dma t = true ∧ t.hif.streams[(0 : Fin 64)] = some sg ∧ findSeg t 0 = some (aSegment 0) ∧
    (nextPart sg (aSegment 0) (aUnit (some 0)).weight).1.length ≤ toRingEnd sg ∧
    ringRoom sg (nextPart sg (aSegment 0) (aUnit (some 0)).weight).1.length = true := by decide +kernel

theorem witness_StreamLife_end :
    let st : Stream := { aStream with closing := some 0 }
    let s := setStream 0 (some st) (linked up)
    live s = true ∧ dma s = true ∧ s.hif.streams[(0 : Fin 64)] = some st ∧ st.buf = [] ∧ st.gap = none ∧ st.group = [] ∧ 64 ≤ toRingEnd st ∧
    ringRoom st 64 = true := by decide +kernel

/-! ### Witnesses: settings, access and update -/

/-- A valid record. -/
def aCopy : CfgCopy := { CfgCopy.empty with valid := true, serial := ownSerial }

/-- The settings store changed. -/
def withCfg (f : Cfg → Cfg) (s : State) : State := updCfg f s

theorem witness_SettingsStore :
    Safety.Commits 0 0x40 (fetchedOf (desc 0x40 [])) (withDesc (desc 0x40 []) up) ∧ up.cfg.saving = none ∧
    Safety.Commits 0 0x40 (fetchedOf (desc 0x40 [])) (withCfg (fun c => { c with saving := some aCopy }) (withDesc (desc 0x40 []) up)) ∧
    (∀ k ∈ [0, 1], live (withCfg (fun c => { c with saving := some aCopy, saveFails := k }) up) = true ∧
      (withCfg (fun c => { c with saving := some aCopy, saveFails := k }) up).cfg.saveFails = k) ∧
    (withCfg (fun c => { c with saving := some aCopy }) up).cfg.saving = some aCopy ∧
    Safety.Commits 0 0x41 (fetchedOf (desc 0x41 [])) (withDesc (desc 0x41 []) up) ∧
    Safety.Commits 0 0x41 (fetchedOf (desc 0x41 [])) (armedOn (withDesc (desc 0x41 []) up)) ∧
    (armedOn (withDesc (desc 0x41 []) up)).seqs.toList.any armed = true ∧ up.seqs.toList.any armed = false ∧ streamOpenNow up = false ∧
    copyInUse up.cfg = none ∧ live up = true ∧ up.cfg.toRestore = [] ∧
    (withCfg (fun c => { c with toRestore := [{ kind := 0x11, index := 0, payload := [] }] }) up).cfg.toRestore ≠ [] ∧
    Safety.queueOp (.setTu .restore []) = some (.restore, 0x11) ∧ WellFormed.instr (.setTu .restore []) = true ∧
    restoreItem 0x11 up = none := by
  refine ⟨commits_of _ _ _ _ ?_, ?_, commits_of _ _ _ _ ?_, ?_, ?_, commits_of _ _ _ _ ?_, commits_of _ _ _ _ ?_, ?_⟩
  case refine_5 => rfl
  all_goals decide +kernel

theorem witness_SettingsStore_load :
    copyInUse { up.cfg with slots := Vector.replicate 2 #v[aCopy, CfgCopy.empty] } = some false := by
  simp [copyLen, copyInUse, copyOf, copyValid, aCopy, CfgCopy.empty, slotIdx]

/-- A level's state: its delay and nonce. -/
def withLevel (l : Fin 2) (f : Level → Level) (s : State) : State := updLevel l f s

theorem witness_AccessLevels_challenge :
    ∀ e ∈ [none, some 25000],
      let s := withLevel 1 (fun x => { x with delay := e }) (withDesc (desc 0x60 [(0x18, 1, 1)]) up)
      commitsB 0 0x60 (fetchedOf (desc 0x60 [(0x18, 1, 1)])) s = true ∧ (s.acc.level[(1 : Fin 2)]).delay = e ∧
      arg1 (Safety.callOf (fetchedOf (desc 0x60 [(0x18, 1, 1)])) []) 0x18 = (1 : Fin 2).val := by decide +kernel

theorem slice_end (a b : List Byte) (n : Nat) (h : b.length = n) : slice (a ++ b) a.length n = b := by
  subst h; simp [slice]

/-- ACC_RESPOND with the right response to a nonce. -/
def respondDesc (r : List Byte) : List Byte := (desc 0x61 [(0x18, 1, 1)]).take 32 ++ r

theorem witness_AccessLevels_respond (nonce : List Byte) :
    slice (respondDesc (expectedResponse 1 nonce)) 0x20 32 = expectedResponse 1 nonce :=
  slice_end _ _ _ (by simp [expectedResponse, pad]; omega)

theorem witness_AccessLevels_wrong (nonce : List Byte) :
    slice (respondDesc (List.replicate 32 0)) 0x20 32 ≠ expectedResponse 1 nonce ∨
    slice (respondDesc (List.replicate 32 1)) 0x20 32 ≠ expectedResponse 1 nonce := by
  have h0 : slice (respondDesc (List.replicate 32 0)) 0x20 32 = List.replicate 32 0 := by decide +kernel
  have h1 : slice (respondDesc (List.replicate 32 1)) 0x20 32 = List.replicate 32 1 := by decide +kernel
  rw [h0, h1]
  by_cases h : List.replicate 32 0 = expectedResponse 1 nonce
  · exact .inr (h ▸ by decide)
  · exact .inl h

theorem witness_AccessLevels_respond_commits (r : List Byte) (nonce : Option (List Byte)) :
    let s := withLevel 1 (fun x => { x with nonce := nonce }) (withDesc (respondDesc r) up)
    Safety.Commits 0 0x61 (fetchedOf (respondDesc r)) s ∧ (s.acc.level[(1 : Fin 2)]).delay = none ∧
    (s.acc.level[(1 : Fin 2)]).nonce = nonce ∧ arg1 (Safety.callOf (fetchedOf (respondDesc r)) []) 0x18 = (1 : Fin 2).val := by
  have h0 : fieldAt (respondDesc r) 0 2 = 0x61 := (fieldAt_left _ r 0 2 (by decide +kernel)).trans (by decide +kernel)
  have h1 : fieldAt (respondDesc r) 0x18 1 = 1 := (fieldAt_left _ r 0x18 1 (by decide +kernel)).trans (by decide +kernel)
  refine ⟨⟨rfl, rfl, rfl, rfl, rfl, rfl, ?_⟩, rfl, rfl, h1⟩
  simp [fetchedOf, h0]

theorem witness_AccessLevels_close :
    ∀ o : Bool,
      let s := withLevel 1 (fun x => { x with isOpen := o }) (withDesc (desc 0x64 [(0x18, 1, 1)]) up)
      commitsB 0 0x64 (fetchedOf (desc 0x64 [(0x18, 1, 1)])) s = true ∧ (s.acc.level[(1 : Fin 2)]).isOpen = o := by decide +kernel

/-- The block of the one-byte password "A". -/
def pwBlock (op : Nat) : List Byte := block op 0 9 [(0, 1), (1, 0x41)]

theorem witness_AccessLevels_password :
    (∀ op ∈ [0x62, 0x63], headerOk op 9 9 (pwBlock op) = true ∧ item (pwBlock op) = 0 ∧ parsed (parsePassword (pwBlock op)) = some [0x41] ∧
      commitsB 0 op (fetchedOf (blockDesc op 9)) (blockReady op 9 up) = true ∧
      commitsB 0 op (fetchedOf (blockDesc op 9)) (withLevel 0 (fun x => { x with isOpen := true }) (blockReady op 9 up)) = true) ∧
    (up.acc.level[(0 : Fin 2)]).delay = none ∧ up.acc.pwHash = none ∧ ownerRight up.acc = false ∧
    ownerRight (withLevel 0 (fun x => { x with isOpen := true }) up).acc = true ∧ live up = true := by decide +kernel

theorem witness_AccessLevels_password_hash (h : List Byte) :
    let s := { blockReady 0x62 9 up with acc := { up.acc with pwHash := some h } }
    Safety.Commits 0 0x62 (fetchedOf (blockDesc 0x62 9)) s ∧ (s.acc.level[(0 : Fin 2)]).delay = none ∧ s.acc.pwHash = some h ∧
    0 :: Config.passwordHash s.acc.salt [0x41] ≠ Config.passwordHash s.acc.salt [0x41] :=
  ⟨⟨rfl, rfl, rfl, rfl, rfl, rfl, rfl⟩, rfl, rfl, List.cons_ne_self _ _⟩


/-! ### Witnesses: update -/

/-- UPD_DOWNLOAD of 4 bytes at offset 0, NEW or not. -/
def dlDesc (new : Nat) : List Byte := desc 0x50 [(0x10, 4, 4), (0x20, 1, new)]

theorem witness_UpdateCommands_download :
    (∀ x ∈ [(1, UpdState.idle), (1, .trial), (0, .downloading)],
      let c := Safety.callOf (fetchedOf (dlDesc x.1)) []
      let s := withUpd (fun u => { u with state := x.2 }) (withDesc (dlDesc x.1) up)
      commitsB 0 0x50 (fetchedOf (dlDesc x.1)) s = true ∧ paramLen (fetchedOf (dlDesc x.1)).desc ≤ 16 * 2 ^ 20 ∧ arg1 c 0x20 = x.1 ∧
      argN c 0x18 8 = 0 ∧ newAllowed s.upd = (x.2 != .trial) ∧ s.upd.fwdEast = none ∧ s.upd.fwdWest = none ∧
      argN c 0x18 8 ≤ s.upd.staging.length ∧ s.upd.state = x.2) ∧
    (let s := withUpd (fun u => { u with state := .downloading, manifestOk := true, staging := [1], pkgLen := some 4 })
        (linked (transferring (.stage 1 [2, 3])))
     live s = true ∧ dma s = true ∧ s.upd.state = .downloading ∧ s.upd.manifestOk = true ∧ s.upd.pkgLen = some 4 ∧
     s.upd.staging.length + [(2 : Byte), 3].length < 4 ∧
     (((s.hif.qps[(0 : Fin 64)]).fetched.find? fun g => g.tag == 7).any fun f => f.xfer == some (.stage s.upd.staging.length [2, 3])) = true) := by
  decide +kernel

theorem witness_UpdateCommands_states :
    (∀ st ∈ [UpdState.idle, .downloading, .staged, .verifying, .verified, .activating, .trial], ∀ op ∈ [0x51, 0x52, 0x53, 0x54],
      commitsB 0 op (fetchedOf (desc op [])) (withUpd (fun u => { u with state := st }) (withDesc (desc op []) up)) = true ∧
      (withUpd (fun u => { u with state := st }) (withDesc (desc op []) up)).upd.state = st) := by decide +kernel

/-- UPD_ACTIVATE of a lower level at a time. -/
def actDesc (levels : Nat) : List Byte := desc 0x52 [(0x18, 1, levels), (0x20, 12, 40 * 2 ^ 52)]

theorem witness_UpdateCommands_activate :
    ∀ x ∈ [(1, 0x08), (2, 0x01)],
      let s := withUpd (fun u => { u with state := .verified, writtenBanks := BitVec.ofNat 6 x.2 }) (withDesc (actDesc x.1) up)
      let c := Safety.callOf (fetchedOf (actDesc x.1)) []
      commitsB 0 0x52 (fetchedOf (actDesc x.1)) s = true ∧ (activateFault (arg1 c 0x18) (arg1 c 0x19) (argTs c 0x20) s).isNone = true := by
  decide +kernel

/-- A package whose six parts are all SAME, and banks with the hash that it names. -/
def samePkg : List Byte := bytesOf 1344 ((List.range 6).map fun i => (0xC0 + 192 * i + 1, 1, 2))

/-- The update engine with that package staged. -/
def verifying (hash : List Byte) : State := withUpd (fun u => { u with
  state := .verifying, staging := samePkg, banks := Vector.replicate 6 (Vector.replicate 2 ⟨true, [], hash, 0, false⟩) }) up

theorem witness_UpdateSteps_verify :
    live (verifying []) = true ∧ (verifying []).upd.state = .verifying ∧
    (∀ p : Fin 6, (parsed (partImage (verifying (List.replicate 48 0)).upd.staging p.val
      (bankOf (verifying (List.replicate 48 0)) (verifying (List.replicate 48 0)).upd.act.banks p))).isSome = true) ∧
    (match partImage (verifying []).upd.staging 0 (bankOf (verifying []) (verifying []).upd.act.banks 0) with
      | .error d => d == 4 | .ok _ => false) = true := by decide +kernel

theorem witness_UpdateSteps :
    up.upd.state ≠ .verifying ∧ up.upd.upperSwitching = false ∧ up.upd.updateAt = none ∧ up.upd.revertAt = none ∧ up.upd.state ≠ .trial ∧
    (let s := withUpd (fun u => { u with upperSwitching := true, updateAt := some 39, state := .activating, revertAt := some 39 }) up
     live s = true ∧ s.upd.upperSwitching = true ∧ s.upd.updateAt = some 39 ∧ s.upd.state = .activating ∧ 39 < commitSample s + 40 ∧
     s.upd.revertAt = some 39) ∧
    (let s := withUpd (fun u => { u with state := .trial, deadlineTimer := true }) up
     live s = true ∧ s.upd.state = .trial ∧ s.upd.deadlineTick = none ∧ s.upd.deadlineTimer = true) ∧
    (let s := withUpd (fun u => { u with state := .trial, deadlineTick := some 0 }) up
     s.upd.state = .trial ∧ s.upd.deadlineTick = some 0 ∧ lcAt s 0 < commitSample s + 40) := by decide +kernel

/-- A flit with a good CRC. -/
def flit (fs : List (Nat × Nat × Nat)) : List Byte :=
  let b := bytesOf 60 fs
  b ++ le 4 (crc32c b).toNat

/-- The flit as received on link 0. -/
def rx (fs : List (Nat × Nat × Nat)) : Rx := { link := 0, flit := flit fs, arrival := 0 }

/-- A ring of four sites, this one at position 0, link 0 UP. -/
def ringed : State := updBrim (fun b => { b with
  ring := .formed, sites := List.replicate 4 ⟨List.replicate 12 0, false⟩, links := b.links.map fun l => { l with state := .up } }) up

theorem witness_UpdateChain_message :
    WellFormed.instr (.updateMessage (rx [(0x20, 1, 3)])) = true ∧ crcOk (flit [(0x20, 1, 3)]) = true ∧ flitBody (flit [(0x20, 1, 3)]) 0x20 1 = 3 ∧
    linkUp ringed 0 = true ∧ linkUp up 0 = false ∧ crcOk (List.replicate 64 0) = false ∧ live ringed = true ∧ ringed.upd.hostNew = false ∧
    newAllowed ringed.upd = true ∧ newAllowed (withUpd (fun u => { u with state := .trial }) ringed).upd = false ∧
    (let f := flit [(0x20, 1, 1), (0x21, 1, 2), (0x24, 8, 1)]
     let s := withUpd (fun u => { u with state := .downloading, chain := some false, manifestOk := true, pkgLen := some 4, staging := [1] }) ringed
     WellFormed.instr (.updateMessage (rx [(0x20, 1, 1), (0x21, 1, 2), (0x24, 8, 1)])) = true ∧ live s = true ∧ linkUp s 0 = true ∧ crcOk f = true ∧
     flitBody f 0x20 1 = 1 ∧ s.upd.chain = some false ∧ s.upd.state = .downloading ∧ s.upd.manifestOk = true ∧ s.upd.pkgLen = some 4 ∧
     flitBody f 0x24 8 = s.upd.staging.length ∧ s.upd.staging.length + flitBody f 0x21 1 < 4) := by decide +kernel

theorem witness_UpdateChain_forward :
    (let s := withUpd (fun u => { u with state := .downloading, chain := some false, manifestOk := true, staging := [1, 2], fwdWest := some (0, 1) }) ringed
     live s = true ∧ fwdOf s.upd true = some (0, 1) ∧ 0 < fwdLimit s.upd ∧ s.upd.chain = some false ∧ s.upd.state = .downloading ∧
     linkUp s (chainLink (!false) s).1 = true) ∧
    fwdOf ringed.upd true = none ∧ ringed.upd.chain = none := by decide +kernel

theorem witness_UpdateChain_mgmt :
    (∀ r ∈ [0, 1],
      let f := flit [(1, 1, 1), (4, 4, 1), (0x20, 1, 2), (0x22, 2, r)]
      WellFormed.instr (.mgmtMessage (rx [(1, 1, 1), (4, 4, 1), (0x20, 1, 2), (0x22, 2, r)])) = true ∧ live ringed = true ∧ linkUp ringed 0 = true ∧
      crcOk f = true ∧ (dupCheck ringed.brim.dup[flitOrigin f] (flitSeq f)).isSome = true ∧ flitBody f 0x20 1 = 2 ∧
      flitBody f 0x34 1 = ringed.brim.position ∧ flitBody f 0x22 2 = r ∧
      dupCheck (updBrim (fun b => { b with dup := Vector.replicate 64 (some { highest := 1, seen := [] }) }) ringed).brim.dup[flitOrigin f] (flitSeq f) = none) := by
  decide +kernel


/-! ### Witnesses: supplies, boot and health -/

/-- The supplies changed. -/
def withPwr (f : Power → Power) (s : State) : State := updPwr f s

theorem witness_SuppliesAndRails :
    (let s := withPwr (fun p => { p with railsOn := false, railGroup := 0 }) up
     s.pwr.railsOn = false ∧ railsAllowed s = true ∧ railsAllowed (withPwr (fun p => { p with mainInhibit := true }) s) = false) ∧
    (withPwr (fun p => { p with trip := some { cause := 1, elapsed := true, restart := false } }) up).pwr.trip = some { cause := 1, elapsed := true, restart := false } ∧
    up.pwr.trip = none ∧ up.pwr.railsOn = true ∧ (withPwr (fun p => { p with railGroup := 9 }) up).pwr.railGroup < 10 ∧
    (withPwr (fun p => { p with railGroup := 9 }) up).pwr.railsOn = true ∧ (3 : Fin 4).val < railStages 12 ∧
    (3 : Fin 4).val ∉ (up.pwr.rails[(12 : Fin 22)]).shedStages ∧ (up.pwr.rails[(21 : Fin 22)]).loopB = false ∧
    (7 : BitVec 8).getLsbD 0 = true ∧ (7 : BitVec 8).getLsbD 7 = false := by decide +kernel

theorem witness_ManagementPort :
    up.pwr.vstbyValid = true ∧ mgBase up.pwr.mgPointer.toNat = up.pwr.mgPointer.toNat ∧
    (let s := withPwr (fun p => { p with mgPointer := 0x13, mgLatch := some (0x10, [1, 2, 3, 4]) }) up
     s.pwr.vstbyValid = true ∧ mgBase s.pwr.mgPointer.toNat ≠ s.pwr.mgPointer.toNat ∧ s.pwr.mgLatch = some (mgBase s.pwr.mgPointer.toNat, [1, 2, 3, 4])) ∧
    (let s := withPwr (fun p => { p with mgCause := 1, trip := some { cause := 1, elapsed := true, restart := false } }) up
     s.pwr.trip = some { cause := 1, elapsed := true, restart := false } ∧ (((1 : Byte).truncate 4 : BitVec 4) &&& 1 ≠ 0)) ∧
    (withPwr (fun p => { p with vstbyValid := false }) up).pwr.vstbyValid = false := by decide +kernel

/-- Boot state changed. -/
def withBoot (f : Boot → Boot) (s : State) : State := updBoot f s

theorem witness_PerstAndBoot_perst :
    up.pwr.perst = false ∧ (withPwr (fun p => { p with perst := true }) up).pwr.perst = true ∧
    (withPwr (fun p => { p with perst := true }) up).pwr.railsOn = true ∧ up.upd.act.state = .confirmed ∧
    (∀ k ∈ [2, 3],
      let s := withUpd (fun u => { u with act := { u.act with state := .trial, trialBoots := k } }) (withPwr (fun p => { p with perst := true }) up)
      s.pwr.perst = true ∧ s.pwr.railsOn = true ∧ s.upd.act.state = .trial ∧ s.upd.act.trialBoots = k) := by decide +kernel

theorem witness_PerstAndBoot_boot :
    live up = true ∧ up.boot.stage = .main ∧ up.boot.ready = true ∧ up.upd.act.state ≠ .trial ∧
    (withBoot (fun b => { b with stage := .loader }) up).boot.stage = .loader ∧ live (withBoot (fun b => { b with stage := .loader }) up) = true ∧
    (let s := withBoot (fun b => { b with mainRunning := false, ready := false }) up
     live s = true ∧ s.boot.stage = .main ∧ s.boot.mainRunning = false ∧ s.upd.ctrlNew = false ∧ s.boot.ready = false ∧ s.boot.ccFailed = false ∧
     copyInUse { s.cfg with slot := s.upd.act.settingsSlot } = none ∧ s.cfg.bootRestore = true) ∧
    (let s := withBoot (fun b => { b with ready := false }) up
     live s = true ∧ s.boot.ready = false ∧ s.boot.mainRunning = true ∧ s.boot.ccFailed = false) := by decide +kernel

theorem witness_Restarts :
    live up = true ∧ up.boot.singleCore = false ∧ up.boot.stage = .main ∧ up.boot.ccFailed = false ∧ up.boot.restarting = none ∧ up.boot.pmcRunning = true ∧
    (withBoot (fun b => { b with singleCore := true }) up).boot.singleCore = true ∧
    (let s := withBoot (fun b => { b with restarting := some .watchdog, coreFails := #v[1, 0] }) up
     live s = true ∧ s.boot.restarting = some .watchdog ∧ s.boot.singleCore = false ∧ (s.boot.coreFails[(0 : Fin 2)]) = 1) := by decide +kernel

/-- Readings of 64 sensors, the last the hottest. -/
def temps (hot : BitVec 16) : List (BitVec 16) := List.replicate 63 2500 ++ [hot]

/-- The thermal policy in a state. -/
def policed (p : Policy) (lvl rate ms : Nat) : State :=
  updHealth (fun h => { h with policy := p, engLevel := lvl, feltRate := rate, msSinceChange := ms }) up

theorem witness_TelemetryAndPolicy :
    WellFormed.instr (.telemetryUpdate ⟨List.replicate 22 (1, 2, 3), 0, 0, 0, 0, 1, 0, 0⟩) = true ∧ up.pwr.vstbyValid = true ∧ live up = true ∧ up.boot.pmcRunning = true ∧
    (withBoot (fun b => { b with pmcRunning := false }) up).boot.pmcRunning = false ∧ live (withBoot (fun b => { b with pmcRunning := false }) up) = true ∧
    (up.health.sensors[(63 : Fin 64)]).excluded = false ∧ sensorBad 63 15001 up = true ∧ sensorBad 63 15000 up = false ∧
    sensorBad 3 2500 (updHealth (fun h => { h with sensors := upd h.sensors 3 fun x => { x with offMs := 1001 } }) up) = true ∧
    (updHealth (fun h => { h with sensors := upd h.sensors 63 fun x => { x with excluded := true } }) up).health.sensors[(63 : Fin 64)].excluded = true := by
  decide +kernel

/-- The sensors after an evaluation of such readings. -/
def sensed (s : State) : Vector Sensor 64 := Vector.ofFn fun k : Fin 64 => senseOne (temps 9500) k s.health.sensors[k]

theorem witness_TelemetryAndPolicy_temps :
    WellFormed.instr (.tmaxEvaluate (temps 9499)) = true ∧ (temps 9499).getD 63 0 = 9499 ∧
    WellFormed.instr (.tmaxEvaluate (temps 9500)) = true ∧ (temps 9500).getD 63 0 = 9500 ∧
    (9499 : BitVec 16).toInt < 9500 ∧ 9500 ≤ (9500 : BitVec 16).toInt ∧
    (∀ x ∈ [policed .normal 8 0 0, policed .engine 2 0 9, policed .engine 1 0 9, policed .engine 2 0 8, policed .felt 1 3 9],
      live x = true ∧ x.boot.pmcRunning = true ∧ hottestOf (sensed x) = some 63) := by decide +kernel

/-- Chapter 13: sensor 3 of CT0 against the median of its three neighbours. -/
theorem test_sensor_median : offMedian ([2500, 9000, 2500, 4001] ++ List.replicate 60 2500) 3 = true ∧
    offMedian ([2500, 9000, 2500, 4000] ++ List.replicate 60 2500) 3 = false ∧
    offMedian (List.replicate 63 2500 ++ [14999]) 63 = false := by decide +kernel

theorem witness_InServiceTest : live up = true ∧ WellFormed.instr (.istSerdes 3 19 150) = true ∧ WellFormed.instr (.istSerdes 16 20 149) = true ∧
    up.health.istStarved.getLsbD 7 = false ∧ (updHealth (fun h => { h with istStarved := 0x80 }) up).health.istStarved.getLsbD 7 = true ∧
    (updSlice 1 (fun x => { x with qual := [(0, 0)] }) up).slices[(1 : Fin 8)].qual = [(0, 0)] := by decide +kernel


/-! ### Witnesses: slices, cartridges, engines and services -/

/-- Proofing at a step. -/
def proofing (k : Nat) (fail : Bool) : State := { up with
  proof := { active := true, step := k, fail := fail, era := 0, endSample := none, overrun := fail }, clk := { up.clk with refState := .locked, lock := Vector.replicate 4 true } }

/-- What a step may find. -/
def found : ProofData := { bandPass := List.replicate 4 [], retired := [(0, 40)], tacOffsets := List.replicate 8 0, delays := List.replicate 8 (0, 0) }

theorem witness_ProofingSteps :
    WellFormed.instr (.proofingStepEnd found) = true ∧ live up = true ∧ up.proof.active = false ∧
    (∀ k ∈ [1, 2, 3, 4, 5, 6, 7], live (proofing k false) = true ∧ (proofing k false).proof.active = true ∧ (proofing k false).proof.step = k) ∧
    clocksDone (proofing 2 false) = true ∧ clocksDone { proofing 2 false with clk := up.clk } = false ∧ (proofing 2 false).clk.noBand[(3 : Fin 4)] = false ∧
    { proofing 2 false with clk := { (proofing 2 false).clk with noBand := Vector.replicate 4 true } }.clk.noBand[(3 : Fin 4)] = true ∧
    found.retired = [((0 : Fin 8), (40 : Fin 41))] ∧ ((proofing 3 false).slices[(0 : Fin 8)]).substs = [] ∧ (∀ x ∈ found.retired, x.1 ≠ 1) ∧ fsMilli up = 80000000000000 ∧
    (up.carts[(0 : Fin 8)]).state ≠ .active ∧ ((updCart 0 (fun c => { c with state := .active }) up).carts[(0 : Fin 8)]).state = .active ∧
    (up.slices[(0 : Fin 8)]).outLane = none ∧
    ((updSlice 0 (fun x => { x with outLane := some 40 }) up).slices[(0 : Fin 8)]).outLane.isSome = true ∧
    (let s := updCart 0 (fun c => { c with state := .active, deriving_ := true }) (proofing 6 false)
     (s.carts[(0 : Fin 8)]).deriving_ = true ∧ (s.carts[(0 : Fin 8)]).state = .active ∧ s.proof.step = 6) ∧
    (∀ n : Fin 8, ((proofing 6 false).carts[n]).deriving_ = false) ∧
    fsMilli { proofing 5 false with clk := { (proofing 5 false).clk with fsActual := 79000000000000 } } ≠ 80000000000000 ∧
    (proofing 2 true).proof.overrun = true ∧ (proofing 2 false).proof.overrun = false := by decide +kernel

/-- Slice 0 changed. -/
def withSlice (f : Slice → Slice) (s : State) : State := updSlice 0 f s

theorem witness_SliceWordsAndOverrange :
    live up = true ∧ samplesExist up = true ∧ samplesExist (proofing 2 false) = false ∧ live (proofing 2 false) = true ∧
    (∀ v ∈ [2047, 0], WellFormed.instr (.sliceWord 0 { codes := List.replicate 80 v, parity := [] }) = true ∧
      (outputWord 0 (up.slices[(0 : Fin 8)]).words (List.replicate 80 v) up).any clippedCode = decide (v = 2047)) ∧
    (let s := withSlice (fun x => { x with ovrOn := true, ovrLast := some 0, words := 2 ^ 21 + 1 }) up
     live s = true ∧ (s.slices[(0 : Fin 8)]).ovrOn = true ∧ 2 ^ 21 ≤ cleanWords s.slices[(0 : Fin 8)]) ∧
    (let s := withSlice (fun x => { x with ovrOn := true, ovrLast := some 0, words := 2 ^ 21 }) up
     cleanWords s.slices[(0 : Fin 8)] < 2 ^ 21) ∧ (up.slices[(0 : Fin 8)]).ovrOn = false := by decide +kernel

/-- Slice 0 with lanes 0 to 39 in service; lane 40 the out lane, or none. -/
def laned (out : Option Nat) (f : Slice → Slice) : State :=
  withSlice (fun x => f { x with laneMap := Vector.ofFn fun p : Fin 40 => some p.val, outLane := out }) up

theorem witness_LanesAndRotation_check :
    (∀ o ∈ [some 40, none], live (laned o id) = true ∧ ((laned o id).slices[(0 : Fin 8)]).retired.getLsbD 39 = false ∧
      servedPos (laned o id).slices[(0 : Fin 8)] 39 = some (39 : Fin 40).val ∧
      positionFaulty (laned o id).slices[(0 : Fin 8)] 39 39 (takenLc (laned o id)) = none ∧ ((laned o id).slices[(0 : Fin 8)]).outLane = o) ∧
    servedPos (laned none id).slices[(0 : Fin 8)] 40 = none ∧
    (let s := laned none fun x => { x with substs := [{ pos := 39, failed := 40, replacing := 39, at_ := 2 }] }
     positionFaulty s.slices[(0 : Fin 8)] 39 39 (takenLc s) = some { pos := 39, failed := 40, replacing := 39, at_ := 2 } ∧
     servedPos s.slices[(0 : Fin 8)] 39 = some (39 : Fin 40).val) ∧
    (∀ l ∈ [(39 : Fin 41), 40], (checkOf 0 (l, .parity true true) (laned none id)).isSome = true ∧
      checkOf 0 (l, .parity false true) (laned none id) = none) := by decide +kernel

/-- Slice 0 in rotation, its out lane shadowing position 0 long enough. -/
def rotating (mis : Option Nat) : State :=
  withSlice (fun x => { x with words := 50331648, mismatch := mis }) (laned (some 40) id)

theorem witness_LanesAndRotation_rotate :
    (proofing 3 false).proof.active = true ∧ up.proof.active = false ∧ ((laned none id).slices[(0 : Fin 8)]).outLane = none ∧
    (∀ m ∈ [none, some (0 : Fin 40).val], live (rotating m) = true ∧ (rotating m).proof.active = false ∧
      ((rotating m).slices[(0 : Fin 8)]).outLane = some 40 ∧
      ((rotating m).slices[(0 : Fin 8)]).shadowPos = stepPosition (rotating m).slices[(0 : Fin 8)] ((rotating m).slices[(0 : Fin 8)]).rotK ∧
      ((rotating m).slices[(0 : Fin 8)]).shadowSince + 2 ^ 20 ≤ takenLc (rotating m) ∧ ((rotating m).slices[(0 : Fin 8)]).mismatch = m ∧
      ((rotating m).slices[(0 : Fin 8)]).laneMap[(0 : Fin 40)] = some 0) ∧
    (∀ m ∈ [none, some (0 : Fin 40).val], stepLc (rotating m).slices[(0 : Fin 8)] ≤ takenLc (rotating m)) ∧
    takenLc (laned (some 40) id) < stepLc (laned (some 40) id).slices[(0 : Fin 8)] ∧
    (let s := withSlice (fun x => { x with shadowSince := 50000000 }) (rotating none)
     takenLc s < (s.slices[(0 : Fin 8)]).shadowSince + 2 ^ 20 ∧ stepLc s.slices[(0 : Fin 8)] ≤ takenLc s) ∧
    inRange ⟨0, 2 ^ 22, [2 ^ 22], 2 ^ 22⟩ = true ∧ inRange ⟨0, 2 ^ 23, [], 0⟩ = false ∧ shadowFails 3 = true ∧ shadowFails 1 = false ∧
    blindDue 0 (rotating none) = true ∧ blindDue 0 (laned none id) = false ∧
    WellFormed.posTaps (List.replicate 40 (List.replicate 32 0)) = true := by decide +kernel

theorem witness_BankAndChainRecovery :
    (∀ d ∈ [none, some DiagSpan.proofing, some .selftest, some (.recovery 0), some (.recovery 1)],
      live (updRed 3 (fun b => { b with diag := d }) up) = true ∧ ((updRed 3 (fun b => { b with diag := d }) up).reds[(3 : Fin 8)]).diag = d) ∧
    lcNow up = 0 ∧ isProofing up (commitSample up) = false ∧ isProofing (proofing 2 false) (commitSample (proofing 2 false)) = true ∧
    live (proofing 2 false) = true ∧
    (let s := updRed 3 (fun b => { b with diag := none, segRed := 0 }) up
     (s.reds[(3 : Fin 8)]).diag = none ∧ (s.reds[(3 : Fin 8)]).segRed = 0 ∧ redStreamed 3 s = false) := by decide +kernel

/-- The first part of a factory area: MAGIC, LAYOUT 1. -/
def factoryHead : List Byte := [0x59, 0x43, 0x52, 0x54, 1, 0] ++ List.replicate 758 0

/-- A factory area with a right FACTORY_CRC. -/
def factoryArea : List Byte := (factoryHead ++ le 4 (crc32c factoryHead).toNat) ++ List.replicate 1280 0

theorem crcOk_append (b : List Byte) : crcOk (b ++ le 4 (crc32c b).toNat) = true := by
  have hl : (b ++ le 4 (crc32c b).toNat).length - 4 = b.length := by simp [le]
  have hu : unle (le 4 (crc32c b).toNat) = (crc32c b).toNat := by
    have := (crc32c b).isLt
    simp only [le, unle, BitVec.toNat_ofNat]
    omega
  rw [crcOk, hl, List.drop_left, List.take_left, hu]
  exact beq_self_eq_true _

theorem factoryArea_ok : factoryOk factoryArea = true := by
  have hl : (factoryHead ++ le 4 (crc32c factoryHead).toNat).length = 0x300 := by
    rw [List.length_append, show factoryHead.length = 764 from by decide +kernel]; rfl
  have hs : slice factoryArea 0 0x300 = factoryHead ++ le 4 (crc32c factoryHead).toNat := by
    rw [factoryArea, slice_left _ _ _ _ (by omega), slice, hl, List.drop_zero, ← hl, List.take_length]
    simp
  have h0 : slice factoryArea 0 4 = [0x59, 0x43, 0x52, 0x54] := by
    rw [factoryArea, slice_left _ _ _ _ (by omega), factoryHead, List.append_assoc, slice_left _ _ _ _ (by decide)]; decide
  have h1 : fieldAt factoryArea 4 2 = 1 := by
    rw [factoryArea, fieldAt_left _ _ _ _ (by omega), factoryHead, List.append_assoc, fieldAt_left _ _ _ _ (by decide)]; decide
  rw [factoryOk, hs, crcOk_append, h0, h1]
  rfl

/-- A wear record with a right CRC. -/
def wearArea (seq : Nat) : List Byte := let b := bytesOf 60 [(0, 4, seq)]; b ++ le 4 (crc32c b).toNat

/-- Cartridge input 0 in a state. -/
def carted (c : CartState) : State := updCart 0 (fun x => { x with state := c, writeDue := true, deriving_ := true, counted := 1 }) up

theorem witness_CartridgeInputs :
    (∀ c ∈ [CartState.absent, .reading, .active, .faulted], live (carted c) = true ∧ (carted c).pwr.railsOn = true ∧
      ((carted c).carts[(0 : Fin 8)]).state = c ∧ ((carted c).carts[(0 : Fin 8)]).writeDue = true ∧ ((carted c).carts[(0 : Fin 8)]).deriving_ = true ∧
      ((carted c).carts[(0 : Fin 8)]).writeFailed = 0) ∧
    (let s := withPwr (fun p => { p with railsOn := false }) up
     s.pwr.railsOn = false ∧ s.pwr.vstbyValid = true) ∧ (withPwr (fun p => { p with vstbyValid := false }) up).pwr.vstbyValid = false ∧
    WellFormed.instr (.cartridgeFirDerived 0 (List.replicate 64 true)) = true ∧ (up.carts[(0 : Fin 8)]).writeDue = false ∧
    doseDue up.aoCycles up.carts[(0 : Fin 8)] = false ∧
    (let s := updCart 0 (fun x => { x with state := .active, dose := 1 }) up
     (s.carts[(0 : Fin 8)]).writeDue = false ∧ doseDue s.aoCycles s.carts[(0 : Fin 8)] = true) ∧
    fieldAt (List.replicate 64 (0 : Byte)) 4 4 + 1 = 1 := by decide +kernel

theorem witness_CartridgeInputs_areas :
    WellFormed.cartridge factoryArea (wearArea 0) (wearArea 1) = true ∧ factoryOk (List.replicate 2048 0) = false ∧
    wearInUse (wearArea 0) (wearArea 1) = some true ∧ wearInUse (wearArea 1) (wearArea 0) = some false ∧
    wearInUse (List.replicate 64 0) (List.replicate 64 0) = none ∧
    WellFormed.cartridge factoryArea (List.replicate 64 0) (List.replicate 64 0) = true := by decide +kernel

/-- Engine 0 serves instance 0; engine 5 is the reserve of pair 0, or none is. -/
def engined (reserve : Option Nat) (f : Eng → Eng) : State := updEng (fun e => f { e with reserve := e.reserve.set 0 reserve })
  (updInst 0 (fun x => { x with engines := [0], state := .running }) up)

theorem witness_EnginesFailAndRotate :
    (∀ r ∈ [none, some 5], live (engined r id) = true ∧ 0 ∉ (engined r id).eng.retired ∧ servedBy (engined r id) 0 = some 0 ∧
      chooseReserve (engined r id) 0 = r ∧ servedBy (engined r id) 7 = none ∧ (engined r id).eng.selftest = none ∧
      (engined r id).eng.throttled = false ∧ (engined r id).eng.reserve[(0 : Fin 8)] = r) ∧
    (engined none fun e => { e with retired := [0] }).eng.retired = [0] ∧
    ((engined none fun e => { e with moving := [(0, 5, 0)] }).eng.moving.find? fun m => m.1 = (0 : Fin 256).val) = some ((0 : Fin 256).val, 5, (0 : Fin 16).val) ∧
    (up.eng.moving.find? fun m => m.1 = (0 : Fin 256).val) = none ∧
    (let s := engined (some 5) fun e => { e with selftest := some 0 }
     live s = true ∧ s.eng.selftest = some (0 : Fin 8).val ∧ s.eng.reserve[(0 : Fin 8)] = some 5 ∧
     (nextTested { s with eng := { s.eng with tested := 5 :: s.eng.tested } } 0 5).isSome = true ∧ 5 ∉ s.eng.retired ∧ servedBy s 5 = none ∧
     nextTested { s with eng := { s.eng with tested := List.range 32 } } 0 5 = none ∧ turnDue 0 s = true) ∧
    turnDue 0 (engined (some 5) fun e => { e with turnAt := e.turnAt.set 0 (some 0) }) = false ∧
    (engined (some 5) fun e => { e with throttled := true }).eng.throttled = true := by
  decide +kernel

/-- SPECTRAL of 1,024 points on channel 0. -/
def spCfg : SpCfg :=
  { input := 0, n := 1024, integ := 1, peak := false, feltEn := false, feltBin0 := 0, feltBpc := 1, feltFloor := 0, feltStep := 1,
    streamBin0 := 0, streamBins := 32, trigs := List.replicate 4 ⟨false, 0, 0, 0, 0, 0, false⟩ }

/-- RECORD_AVERAGE of channel 0 over a count of segments. -/
def raCfg (count : Nat) (again : Bool) : RaCfg := { channels := 1, count := count, fine := false, again := again, maxRate := 1000000 }

/-- An instance running with settings and segment 0 in its queue. -/
def serving (i : Fin 16) (c : SvcCfg) : State :=
  updInst i (fun x => { x with state := .running, cfg := some c, queue := [0] }) (holding (aSegment 0) up)

theorem witness_ServicesAtWork :
    (∀ c ∈ [none, some (SvcCfg.spectral spCfg)], (updInst 0 (fun x => { x with next := c }) up).insts[(0 : Fin 16)].next = c) ∧ live up = true ∧
    WellFormed.instr (.spectrumDeliver 0 0 { ecc := .clean, parity := [] }) = true ∧
    (up.insts[(0 : Fin 16)]).cfg = none ∧
    (let x := (updInst 0 (fun x => { x with state := .failed, faults := [(3, 0)] }) up).insts[(0 : Fin 16)]
     delivers x 3 = true ∧ delivers x 4 = false) ∧
    (∀ x ∈ [((0 : Fin 16), SvcCfg.spectral spCfg), (8, .measure svcCfg), (12, .average (raCfg 2 false)), (12, .average (raCfg 1 true)), (12, .average (raCfg 1 false))],
      live (serving x.1 x.2) = true ∧ ((serving x.1 x.2).insts[x.1]).cfg = some x.2 ∧ ((serving x.1 x.2).insts[x.1]).state = .running ∧
      ((serving x.1 x.2).insts[x.1]).queue = [0] ∧ ((serving x.1 x.2).insts[x.1]).next = none ∧ findSeg (serving x.1 x.2) 0 = some (aSegment 0) ∧
      ((serving x.1 x.2).insts[x.1]).added = 0) ∧
    (aSegment 0).retention = .retained ∧ (up.insts[(8 : Fin 16)]).queue = [] ∧ (up.insts[(12 : Fin 16)]).queue = [] ∧
    (up.insts[(0 : Fin 16)]).state ≠ .running ∧
    (∀ lc ∈ [102, 103], let s := atLc lc (serving 0 (.spectral spCfg))
      live s = true ∧ (s.insts[(0 : Fin 16)]).cfg = some (.spectral spCfg) ∧ delivers s.insts[(0 : Fin 16)] 0 = true ∧
      hopDue s.insts[(0 : Fin 16)] spCfg 0 (feltParity 8 [] (scrubbed .clean s)) = decide (lc = 103)) := by decide +kernel


/-! ### Witnesses: the Brim ring and the test access port -/

/-- Link 0 in a state, the others DOWN. -/
def oneLink (st : LinkState) (f : BrimLink → BrimLink) : State := updLink 0 (fun l => f { l with state := st }) up

theorem witness_BrimLinks_states :
    (∀ st ∈ [LinkState.down, .training, .up], live (oneLink st id) = true ∧ ((oneLink st id).brim.links[(0 : Fin 4)]).state = st) ∧
    up.clk.noBand[(3 : Fin 4)] = false ∧ { up with clk := { up.clk with noBand := Vector.replicate 4 true } }.clk.noBand[(3 : Fin 4)] = true ∧
    up.brim.ring = .alone ∧ (∀ q : Fin 4, q ≠ 0 → ((oneLink .up id).brim.links[q]).state = .down) ∧
    gaveUp64 0 (oneLink .up fun l => { l with abandoned := List.replicate 64 0 }) = true ∧ gaveUp64 0 (oneLink .up id) = false ∧
    linkUp ringed 0 = true ∧ linkUp ringed 3 = true ∧ ringed.brim.ring = .formed ∧ live ringed = true := by decide +kernel

theorem witness_BrimLinks_retransmit :
    (let s := oneLink .up fun l => { l with kept := [(flit [], 0, 2)] }
     linkUp s 0 = true ∧ ∀ k ∈ (s.brim.links[(0 : Fin 4)]).kept, k.2.2 < 3 ∧ lcNow s ≤ k.2.1 + keepLc s) ∧
    (let s := oneLink .up fun l => { l with kept := [(flit [], 0, 3)] }
     linkUp s 0 = true ∧ ∀ k ∈ (s.brim.links[(0 : Fin 4)]).kept, 3 ≤ k.2.2 ∨ k.2.1 + keepLc s < lcNow s) ∧
    ((oneLink .up fun l => { l with sentT1 := some 5 }).brim.links[(0 : Fin 4)]).sentT1 = some 5 ∧
    ((oneLink .up id).brim.links[(0 : Fin 4)]).sentT1 = none ∧ (rx []).link = 0 ∧ (rx []).flit.length = 64 ∧ crcOk (flit []) = true ∧
    crcOk (List.replicate 64 0) = false := by decide +kernel

/-- A member that knows peer 1 and a trigger queue of a length. -/
def peered (k : Nat) (f : Brim → Brim) : State := updBrim (fun b => f { b with
  peers := upd b.peers 1 (fun x => { x with valid := true, fsKhz := 80000000 }),
  queue := List.replicate k { cls := 0, t := 0, late := false } }) (withTb (fun t => { t with state := .set }) ringed)

/-- A TRIGGER of peer 1 with its T at sample 0, received at a time. -/
def trigRx (arrival : TS96) : Rx := { rx [(1, 1, 1), (4, 4, 1), (0x1C, 1, 2)] with arrival := arrival }

theorem witness_FloodedMessages :
    (trigRx 0).flit.length = 64 ∧ linkUp (peered 0 id) (trigRx 0).link = true ∧ crcOk (trigRx 0).flit = true ∧ live (peered 0 id) = true ∧
    (dupCheck (peered 0 id).brim.dup[flitOrigin (trigRx 0).flit] (flitSeq (trigRx 0).flit)).isSome = true ∧
    (peered 0 id).brim.tooMany = false ∧ (peered 0 fun b => { b with tooMany := true }).brim.tooMany = true ∧
    flitTb (trigRx 0).flit % 4 = 2 ∧ (peered 0 id).tb.state = .set ∧
    (let x := (peered 0 id).brim.peers[flitOrigin (trigRx 0).flit]
     x.valid = true ∧ x.fsKhz = BitVec.ofNat 32 (peered 0 id).clk.fsKhzNow) ∧ ringed.tb.state ≠ .set ∧
    0 ≤ tsDiff (flitT (trigRx 0).flit) (trigRx 0).arrival + lsysUnits (peered 0 id) ∧
    tsDiff (flitT (trigRx 0x1000000000000).flit) (trigRx 0x1000000000000).arrival + lsysUnits (peered 0 id) < 0 ∧
    (peered 0 id).brim.queue.length < 32768 ∧ maskAs (peered 0 fun b => { b with stopMask := 1 }).brim.stopMask.toNat = [0] := by decide +kernel

theorem witness_FloodedMessages_full : 32768 ≤ (peered 32768 id).brim.queue.length := by
  show 32768 ≤ (List.replicate 32768 _).length
  exact Nat.le_of_eq List.length_replicate.symm

theorem witness_FloodedMessages_present :
    (let s := peered 1 id
     live s = true ∧ ∀ m ∈ s.brim.queue, 0 < tsDiff m.t (tsOf s (takenSample s + 39)) + lsysUnits s) ∧
    (let s := atLc 5000 (peered 1 id)
     live s = true ∧ ∃ m ∈ s.brim.queue, tsDiff m.t (tsOf s (takenSample s + 39)) + lsysUnits s ≤ 0) ∧
    tooOld (peered 0 id) 0 = true ∧
    tooOld (holding { aSegment 0 with complete := false, closed := false } (historied (atLc 300 (peered 0 id)))) 0x2000000000 = false := by
  decide +kernel

theorem witness_RingMembership :
    live ringed = true ∧ anyLinkUp ringed = true ∧ anyLinkUp up = false ∧ ringed.brim.discovered = false ∧
    (updBrim (fun b => { b with discovered := true }) ringed).brim.discovered = true ∧
    (1 : Fin 64).val ≠ (peered 0 id).brim.position ∧ ((peered 0 id).brim.peers[(1 : Fin 64)]).stale = false ∧
    ((peered 0 id).brim.peers[(1 : Fin 64)]).valid = true ∧ (0 : Fin 64).val = (peered 0 id).brim.position ∧
    ringed.brim.ring ≠ .forming ∧ (updBrim (fun b => { b with ring := .forming }) ringed).brim.ring = .forming ∧
    64 < (List.replicate 65 (List.replicate 12 (0 : Byte), false)).length ∧ WellFormed.sites (List.replicate 65 (List.replicate 12 0, false)) = true ∧
    (∀ p : Fin 4, linkUp ringed p = true) := by decide +kernel

/-- A list of two sites that holds this module gives it a position. -/
theorem witness_RingMembership_position :
    WellFormed.sites [(ownSerial, false), (ownSerial, false)] = true ∧
    ∃ pos, ownPosition (rotateSites [(ownSerial, false), (ownSerial, false)]) = some pos := by
  refine ⟨rfl, Option.isSome_iff_exists.mp ?_⟩
  rw [ownPosition, List.findIdx?_isSome, rotateSites]
  generalize anchorIndex _ = k
  match k with
  | 0 => simp
  | 1 => simp
  | n + 2 => simp

/-- The port with its controller in a state and every die holding an instruction. -/
def tapped (st : TapState) (ir : Byte) : State := { up with tap := { up.tap with state := st, ir := Vector.replicate 8 ir } }

theorem witness_TestAccessPort :
    up.pwr.railsOn = true ∧ (withPwr (fun p => { p with railsOn := false }) up).pwr.railsOn = false ∧
    (∀ st ∈ [TapState.updateIr, .captureDr, .shiftDr, .shiftIr, .updateDr], (tapped st 1).pwr.railsOn = true ∧ (tapped st 1).tap.state = st) ∧
    (∀ k : Fin 8, (tapped .captureDr 1).tap.ir[k] = 0x01 ∧ (tapped .captureDr 0xFF).tap.ir[k] = 0xFF) ∧ (tapped .captureDr 0).pwr.perst = false := by
  decide +kernel


/-! ### The worked cases of the chapters -/

/-- A condition on the next state of each command of a list in turn, with the lane clock at which it is given. -/
def runAt (l : List (Nat × (State → State) × Instr)) (s : State) : State :=
  l.foldl (fun s x => match exec x.2.2 (x.2.1 (atLc x.1 s)) with | .next t => t | _ => s) s

/-- A trigger of term 0 at a sample, put into the queue of sequencer 1. -/
def trig (k : Nat) (s : State) : State := updAs 1 (fun q => { q with
  queue := q.queue ++ [{ t := tsOf s k, kt := k, kind := .trigger 0, place := PlaceFlags.none, due := lcNow s, late := false, waiter := none }] }) s

/-- The settings of AS1 in the worked case of chapter 6. -/
def as1Cfg (accept : Bool) : SeqCfg := { SeqCfg.reset with
  channels := 4, l := 8192, p := 2048, holdTime := 4000, accept := accept, terms := [{ unit := 0, high := 0, low := 0 }] }

/-- AS1 of the worked case of chapter 6, armed at sample 10,000. -/
def as1 (accept : Bool) : State := startFill 10000 1 (updAs 1 (fun q => { q with configured := true, das := 50, cfg := as1Cfg accept }) { up with mem := { up.mem with capSize := #v[0, 992, 0, 0] } })

def as1Trigger (k : Nat) : Nat × (State → State) × Instr := (k / 40 + 60, trig k, .sequencerDecision 1)

def as1Run : List (Nat × (State → State) × Instr) :=
  [as1Trigger 11000, (350, id, .prefillDone 1), as1Trigger 12500, as1Trigger 14000, as1Trigger 18600, (530, id, .segmentEnd 1),
   as1Trigger 21000, (620, id, .holdoffEnd 1), (620, id, .prefillDone 1), as1Trigger 23000]


/-- What a test looks at in a segment. -/
def segRow (g : Segment) : List Nat := [g.seq, g.first, g.last, g.prefillWait, g.holdoffSuppressed, g.postCount, g.overlap.length]

/-- What a test looks at in a segment that was cut otherwise. -/
def cutRow (s : State) (g : Segment) : List Nat := [g.first, g.last, preLen g, postLen g, g.flags.toNat, (maskResultOf g s).toNat]

/-- The worked case of chapter 6: six triggers, two segments. -/
theorem test_sequencer_ledger : (runAt as1Run (as1 false)).mem.segs.map segRow =
    [[1, 20952, 29143, 0, 1, 0, 0], [0, 10452, 18643, 1, 0, 2, 2]] := by decide +kernel

/-- The same with PREFILL ACCEPT. -/
theorem test_sequencer_prefill_accept :
    ((runAt (as1Run.take 1) (as1 true)).mem.segs.map fun g => (g.first, g.last, preLen g, g.flags.getLsbD 2)) = [(10000, 17143, 1000, true)] := by
  decide +kernel

/-- A stop leaves the sequencer IDLE (R197, R198): a trigger before the stop sample counts AFTER_STOP, one after it does nothing. -/
theorem test_stop_leaves_idle :
    (let s := runAt (as1Run.take 2 ++ [(400, id, .urgentStop 1), as1Trigger 15500, as1Trigger 18000]) (as1 false)
     (s.mem.segs.length, (s.seqs[(1 : Fin 4)]).state, (s.seqs[(1 : Fin 4)]).counts.afterStop)) = (0, .idle, 1) := by decide +kernel

/-- R65: fPD of 100 MHz and an fs of 80 GS/s. -/
theorem test_synthesiser_numbers : chooseN 80000000 100000000000 = (400, 0) := by decide +kernel

/-- Chapter 4: two codes packed, one code left-justified. -/
theorem test_sample_formats : packed [-3, 1000] = [0xFD, 0x8F, 0x3E] ∧ wide16 [-3] = [0xD0, 0xFF] := by decide +kernel

/-- Chapter 0: the bytes of one second and half a tick. -/
theorem test_ts96_bytes : le 12 (80000000000 * 2 ^ 24 + 2 ^ 23) = [0, 0, 0x80, 0, 0x20, 0x5F, 0xA0, 0x12, 0, 0, 0, 0] := by decide +kernel

/-- Chapter 5: EPOCH_SET armed for SYNCIN with V 0, and K4 of 2.5 Ts. -/
def epochAtEdge : State := updTac 4 (fun t => { t with calValid := true, offset := 31250 })
  (withTb (fun t => { t with state := .armed, arming := some { atTick := false, falling := false, v := 0, x := 0 } }) up)

def epochRun : State := runAt [(999970, id, .tacEdge 4 false 1000000 1229 false), (1010000, id, .epochCommit)] epochAtEdge

theorem test_epoch_at_syncin : (epochRun.tb.state, epochRun.tb.maps.head?.map fun m => (m.sn, m.ts)) = (.set, some (39999986, 0x81C000)) ∧
    triggerSample epochRun (1000000 * 2 ^ 24 + 2 ^ 22) = 40999985 ∧ tsOf epochRun 40995889 = 0xF323F81C000 := by decide +kernel

/-- Chapter 7: AS2 with a 96 GB ring of four channels, at sample 40,000,000,000. -/
def retroMem : Mem := { Mem.reset with histChannels := 15, histGb := 96 }
def retroCfg : SeqCfg := { SeqCfg.reset with channels := 15, l := 2 ^ 31, p := 2 ^ 30 }
def retro : State :=
  let d := desc 0x23 [(0x18, 1, 2), (0x20, 12, 23356005824 * 2 ^ 24 + 0x400000)]
  let s := withTb (fun t => { t with maps := [{ sn := 1000000, ts := 0 }] }) (withDesc d { up with mem := retroMem })
  let s := atLc (10 ^ 9) (updAs 2 (fun q => { q with configured := true, cfg := retroCfg }) s)
  { s with mem := advanceHist s.proof.era (commitSample s + 1) s.mem }

theorem test_retro_capture : histO retro.mem = 22820134912 ∧
    after (.retroCapture (.host 0)) retro (fun t => (t.mem.segs.map (cutRow t)).map (·.take 4) == [[22820134912, 24430747647, 536870912, 1073741824]]
      && (t.mem.segs.head?.map (·.kt) == some 23357005824) && pinnedNow t == 393216 && histDepth t.mem - pinnedNow t == 3801088) = true := by
  decide +kernel

/-- Chapter 9: MK5 on CH3 stops AS0 for a violation at sample 500,000,000. -/
def maskStopping : State :=
  let c : SeqCfg := { SeqCfg.reset with channels := 0x0C, l := 16384, p := 4096 }
  let s := updAs 0 (fun q => { q with configured := true, state := .ready, armSample := some 1000, das := 50, cfg := c, fillStart := 1000 }) (regioned up)
  let s := updMask 5 (fun x => { x with cfg := { x.cfg with enable := true, source := 3, actions := 5, stopAs := 1 }, violations := [(500000000, 3)] }) s
  maskStopStart 5 (s.masks[(5 : Fin 64)]).cfg 500000000 (tsOf s 500000000) (atLc 12499990 s)

theorem test_mask_stop :
    after (.maskStop 5) (atLc 12500018 maskStopping) (fun t =>
      t.mem.segs.map (cutRow t) == [[499995904, 500000719, 4096, 720, 0x0810, 0x0117]] && (t.seqs[(0 : Fin 4)]).state == .idle) = true ∧
    after (.maskStop 5) (atLc 12500017 maskStopping) (fun t => t.mem.segs.isEmpty) = true := by decide +kernel

/-- Chapter 4: L17 of SL5 at position 23, L40 out, at lane clock 31 of the ledger. -/
def laneFailing : State := updSlice 5 (fun x => { x with laneMap := (x.laneMap.set 23 (some 17)).set 17 (some 23), outLane := some 40 })
  (atLc (1024031 - 40) (linked up))

/-- The event ring enabled, and every source taken up. -/
def ringAll (s : State) : State := { s with hif := { s.hif with ev := { s.hif.ev with
  enable := true, src := s.hif.ev.src.map fun e => { e with map := 0x80 } } } }

theorem test_lane_failure :
    after (.laneCheckFail 5 17 (.stuck (List.replicate 8 512)) none) (ringAll laneFailing) (fun t =>
      (t.slices[(5 : Fin 8)]).substWin == [(40959960, 40962639)] && (t.slices[(5 : Fin 8)]).outLane.isNone
        && (t.slices[(5 : Fin 8)]).laneMap[23] == some 40
        && ((t.hif.ev.src[(0x34 : Fin 256)]).waiting.any fun e => e.severity == 2 && e.ts == 0x270FE98000000 && e.data.take 4 == [0x11, 0x17, 1, 0])) = true := by
  decide +kernel

/-- A chain with a preset. -/
def chained (preset : Nat) (nco : Bool) : DdcCfg := { DdcCfg.reset with preset := preset, nco := nco }

/-- Chapter 8: represented times of the last WIDE output and the first BROAD ones, and the settling count. -/
theorem test_chain_times : outputTs up (chained 0 false) 1000000036 = BitVec.ofNat 96 (999999930 * 2 ^ 24) ∧
    outputTs up (chained 1 true) 1000000048 = BitVec.ofNat 96 (999999599 * 2 ^ 24 + 2 ^ 23) ∧
    outputTs up (chained 1 true) 1000000976 = BitVec.ofNat 96 (1000000527 * 2 ^ 24 + 2 ^ 23) ∧ chainS (chained 1 true) = 58 := by decide +kernel

/-- SPECTRAL with N = 8,192 on an input. -/
def sp8192 (input : Nat) : SpCfg :=
  { input := input, n := 8192, integ := 256, peak := true, feltEn := false, feltBin0 := 0, feltBpc := 2, feltFloor := 0, feltStep := 1,
    streamBin0 := 0, streamBins := 4096, trigs := [] }

/-- Chapter 10: latencies. -/
theorem test_spectral_latency : outputLatency up (.spectral (sp8192 3)) = 1469 ∧ eventLatency up 3 (.spectral (sp8192 3)) = 1471 ∧
    sourceDelay (updInst 3 (fun x => { x with state := .running, eventLat := 1471 }) up) { TuCfg.reset with source := 0x30 + 12 } = 1473 := by decide +kernel

/-- Chapter 16: the van's module, with some of its instances. -/
def admitting (insts : List (Fin 16 × SvcCfg)) : State :=
  let s : State := { up with mem := { Mem.reset with histChannels := 255, histGb := 160, capSize := #v[96, 96, 0, 0] } }
  let s := { s with hif := { s.hif with linkUp := true, linkGen := 7, linkWidth := 16 } }
  let s := updAs 0 (fun q => { q with configured := true, cfg := { q.cfg with channels := 0x0F } }) s
  let s := updAs 1 (fun q => { q with configured := true, cfg := { q.cfg with channels := 0xF0 } }) s
  let s := updDdc 7 (fun d => { d with cfg := chained 1 false }) (updDdc 2 (fun d => { d with cfg := chained 1 true }) s)
  let s := insts.foldl (fun s x => updInst x.1 (fun y => { y with state := .running, cfg := some x.2 }) s) s
  setStream 0 (some { aStream with kind := .ddc, source := 2, bufBytes := 2 ^ 30, closing := none }) s

def fullSpectral : List (Fin 16 × SvcCfg) := (List.finRange 8).map fun i => (i.castLE (by decide), .spectral (sp8192 i.val))
def fastMeasure : MsCfg := { channel := 0, refChannel := 255, low := 10, mid := 50, high := 90, hyst := 5, maxRate := 10 ^ 9, limits := [] }

theorem test_admission_refuses :
    admission sumBudgets 8 (fun _ => false) (admitting fullSpectral) (admitting (fullSpectral ++ [(8, .measure fastMeasure)])) = some (8, 8) := by
  decide +kernel

theorem test_admission_charges :
    let s := admitting (fullSpectral ++ [(7, .spectral (sp8192 0x17)), (8, .measure fastMeasure)])
    (budgetUsed (fsMilli s) 8 s, budgetUsed (fsMilli s) 9 s, budgetUsed (fsMilli s) 5 s / 1024) = (234, 1923 / 2, 3443 / 16) ∧
    (budgetUsed (fsMilli s) 1 s, budgetUsed (fsMilli s) 2 s, budgetLimit (fsMilli s) 3 s) = (50749 / 16, 23697 / 32, 3465 / 16) := by decide +kernel

/-- Chapter 16: the look-back of the array member and the capture regions of 120 and 121 units. -/
theorem test_region_sizes : (lookBack (2 ^ 29) 5004 4096, ceilDiv (lookBack (2 ^ 29) 5004 4096) 4096) = (537234912, 131161) ∧
    (capBlocks 120 255, capBlocks 121 255) = (655360, 660821) := by decide +kernel

/-- Chapter 2: one clipped sample at a dose factor of 1, on a cartridge whose 400th mating of 500 brings the 80 % level. -/
def dosed : Cart := { Cart.reset with state := .active, factory := bytesOf 48 [(0x18, 2, 500), (0x1C, 4, 65536), (0x20, 8, 1000000)], matings := 400 }

theorem test_cartridge_dose : (((addDose 3 1 0 (updCart 3 (fun _ => dosed) up)).carts[(3 : Fin 8)]).dose,
    ((addDose 3 1 0 (updCart 3 (fun _ => dosed) up)).carts[(3 : Fin 8)]).wear) = (125 / 8, 1) := by decide +kernel

/-- Chapter 13: at 95 °C the policy goes to ENGINE at level 7; 10 ms later it steps to level 6; a quiet second brings it back up. -/
theorem test_thermal_policy :
    ∀ x ∈ [(policed .normal 8 0 0, 9500, Policy.engine, 7), (policed .engine 7 0 9, 9530, .engine, 6), (policed .engine 7 0 8, 9530, .engine, 7),
        (policed .engine 6 0 9, 9460, .engine, 6)],
      after (.tmaxEvaluate (temps (BitVec.ofNat 16 x.2.1))) x.1 (fun t => t.health.policy == x.2.2.1 && t.health.engLevel == x.2.2.2) = true := by
  decide +kernel

/-- Chapter 12: with 16 sites H_deg is 5, so 2,000 ns are too short and 2,500 ns are not; they are 5,000 lc. -/
theorem test_lsys : (let b := { up.brim with ring := .degraded, sites := List.replicate 16 { dark := false, serial := [] } }
    lsysTooShort b 2000 = true ∧ lsysTooShort b 2500 = false) ∧ lsysLc { up with brim := { up.brim with lsysNs := 2500 } } = 5000 := by decide +kernel

/-- Chapter 3: 12 ms of coasting on a 100 MHz reference and a return 99.5 Ts ahead, under REFRET STEP. -/
theorem test_reference_step :
    after (.refReturn 0x63800000) (inRef .measuring true) (fun t => t.clk.refState == .stepPending && t.clk.stepDelta == some 0x63800000
      && !t.clk.phaseAmbig) = true := by decide +kernel

/-- Chapter 7: the intervals of a MEAN with K = 8 that overlap the segment. -/
def meanRecs : RedBank := { RedBank.reset with
  segRed := 2, recs := ((List.range 40).map fun j => { lane := 1, first := 256 * (38 + j), count := 256, value := 0, mode := .mean, qual := 0, isPartial := false, diag := false }).reverse }

theorem test_mean_intervals : let l := redsOver meanRecs 1 10452 18643
    (l.length, l.head?.map (·.first), l.getLast?.map (·.first)) = (33, some 10240, some 18432) := by decide +kernel

end Sys2Proof.Tests
end

section
/-!
SUPPORT and the proof of O18: a 4-byte write of a 32-bit register with an offset of its own is `put32` at that offset (R11, R341, R511).
-/
namespace Sys2Proof.Machine

theorem whenReachable_reachable {s : State} (h : reachable s = true) (k : Host.Outcome State Fault Refusal) :
    whenReachable s k = k := by
  simp [whenReachable, h]

/-! ### Offsets outside the arrays and the 64-bit registers -/

/-- The offset lies in one of the arrays of 32-bit registers that a write can reach. -/
def inArray (off : Nat) : Bool :=
  if off < 0x2000 then (arr 0x0200 4 64 off).isSome || (arr 0x0300 4 64 off).isSome || (arr 0x0810 32 64 off).isSome
  else if off < 0x3000 then within 0x2200 off 0x29FF
  else if off < 0x4000 then (arr 0x3300 4 8 off).isSome || (arr 0x3500 4 8 off).isSome || (arr 0x3600 4 16 off).isSome
    || (arr 0x3700 4 16 off).isSome || (arr 0x3A00 4 64 off).isSome
  else within 0xE000 off 0xE3FF

/-- The aligned offset of a 32-bit register that stands alone: in no array, and no half of a 64-bit register that can be written. -/
def standsAlone (off : Nat) : Bool :=
  off % 4 == 0 && !writable64 off && !(decide (4 ≤ off) && writable64 (off - 4)) && off != 0x421C && !inArray off

/-- Branch for branch, `putArray` answers at the offsets of `inArray` only. -/
theorem putArray_eq_none {off : Nat} (h : inArray off = false) (v : W32) (s : State) : putArray off v s = none := by
  unfold inArray at h
  unfold putArray
  split_ifs at h ⊢ <;> simp_all

theorem writeWord_eq_put32 {off : Nat} (h : standsAlone off = true) (v : W32) (s : State) :
    writeWord off v s = put32 off v s := by
  simp only [standsAlone, Bool.and_eq_true, Bool.not_eq_true', bne_iff_ne, Bool.and_eq_false_imp, decide_eq_true_eq] at h
  obtain ⟨⟨⟨⟨-, hlow⟩, hhigh⟩, hmargin⟩, harray⟩ := h
  have hhigh' : ¬ (4 ≤ off ∧ writable64 (off - 4) = true) := fun ⟨hle, hw⟩ => by simp [hhigh hle] at hw
  simp [writeWord, hlow, hhigh', hmargin, putArray_eq_none harray]

/-- A 4-byte write that the host makes at the offset of a register that stands alone (R11, R341). -/
theorem exec_registerWrite_standsAlone {off : Nat} (h : standsAlone off = true) {s : State} (hs : reachable s = true) (v : W64) :
    exec (.registerWrite off false v) s = .next (put32 off (v.truncate 32) s) := by
  have hoff : off % 4 = 0 := by
    simp only [standsAlone, Bool.and_eq_true, beq_iff_eq] at h
    obtain ⟨⟨⟨⟨hoff, -⟩, -⟩, -⟩, -⟩ := h
    exact hoff
  calc exec (.registerWrite off false v) s
      = whenReachable s (.next (writeReg off false v s)) := rfl
    _ = .next (writeReg off false v s) := whenReachable_reachable hs _
    _ = .next (put32 off (v.truncate 32) s) := by simp [writeReg, hoff, writeWord_eq_put32 h]

/-- An 8-byte write that the host makes of a 64-bit register that can be written (R341, R342). -/
theorem exec_registerWrite_wide {off : Nat} (hoff : off % 8 = 0) (h : writable64 off = true) {s : State} (hs : reachable s = true)
    (v : W64) : exec (.registerWrite off true v) s = .next (put64 off v s) := by
  calc exec (.registerWrite off true v) s
      = whenReachable s (.next (writeReg off true v s)) := rfl
    _ = .next (writeReg off true v s) := whenReachable_reachable hs _
    _ = .next (put64 off v s) := by simp [writeReg, hoff, h]

/-- HIF_EVQ_BASE changes only while its ring is disabled (R367). -/
theorem put64_evqBase (v : W64) (s : State) :
    put64 0x0118 v s = if s.hif.ev.enable then s else { s with hif := { s.hif with ev := { s.hif.ev with base := v } } } := rfl

/-- Settles O18. Every 32-bit register named stands alone, so its write is one arm of `put32`, the last of which leaves the read-only
ones as they are; HIF_EVQ_BASE is written whole. -/
theorem registerWrites : Obligations.RegisterWrites := by
  intro v s hs w
  have hword : ∀ off, standsAlone off = true → exec (.registerWrite off false v) s = .next (put32 off w s) :=
    fun _ h => exec_registerWrite_standsAlone h hs v
  have hbase := exec_registerWrite_wide (off := 0x0118) rfl rfl hs v
  have hbit : ∀ i < 32, w.getLsbD i = v.getLsbD i := fun _ h => by simp [w, h]
  refine ⟨?cmdEn, ?status, ?fsKhz, ?syncDelay, ?mgCause, ?bootRestore, ?readOnly, ?baseFree, ?baseHeld⟩
  case cmdEn => rw [hword _ (by decide), ← hbit 0 (by decide)]; rfl
  case status =>
    rw [hword _ (by decide), ← hbit 1 (by decide), ← hbit 2 (by decide), ← hbit 4 (by decide), ← hbit 5 (by decide)]; rfl
  case fsKhz => exact hword _ (by decide)
  case syncDelay => exact hword _ (by decide)
  case mgCause => exact hword _ (by decide)
  case bootRestore => rw [hword _ (by decide), ← hbit 0 (by decide)]; rfl
  case readOnly =>
    rintro off (rfl | rfl | rfl | rfl | rfl | rfl | rfl)
    all_goals exact hword _ (by decide)
  case baseFree => exact fun h => by rw [hbase, put64_evqBase, h]; rfl
  case baseHeld => exact fun h => by rw [hbase, put64_evqBase, h]; rfl

end Sys2Proof.Machine
end
section
/-!
SUPPORT. The consumers of a slice word (R25) leave every slice alone: streams, chains, masks, felts, reductions, trigger units, sequencers
and the Brim ring write their own parts of the state. One lemma per operation, in the order of the operations' definitions.
-/
namespace Sys2Proof.Machine

/-! ### Branches and loops -/

theorem ite_slices {p : Prop} [Decidable p] {s t : State} (h : t.slices = s.slices) : (if p then t else s).slices = s.slices := by
  split
  · exact h
  · rfl

theorem forAll_slices {n : Nat} {f : Fin n → State → State} (h : ∀ i s, (f i s).slices = s.slices) (s : State) :
    (forAll n f s).slices = s.slices := forAll_frame (·.slices) f s h

theorem foldl_slices {α : Type} {f : State → α → State} (h : ∀ s a, (f s a).slices = s.slices) (l : List α) (s : State) :
    (l.foldl f s).slices = s.slices := foldl_frame (·.slices) f l s h

theorem forStreams_slices {kind : StreamKind} {source : Nat} {f : Fin 64 → Stream → State → State}
    (h : ∀ i st s, (f i st s).slices = s.slices) (s : State) : (forStreams kind source f s).slices = s.slices :=
  forAll_slices (fun i s => by
    split
    · exact ite_slices (h ..)
    · rfl) s

/-! ### Sequencers: stop events and instants -/

@[simp] theorem endStop_slices (a : Fin 4) (s : State) : (endStop a s).slices = s.slices := by
  unfold endStop
  split
  · simp [raiseAs]
  · rfl

@[simp] theorem pushInstant_slices (a : Fin 4) (known : Nat) (t : TS96) (kt : Nat) (kind : InstantKind) (place : PlaceFlags)
    (waiter : Option (Nat × W32)) (s : State) : (pushInstant a known t kt kind place waiter s).slices = s.slices := rfl

/-! ### Streams -/

@[simp] theorem updStream_slices (i : Fin 64) (f : Stream → Stream) (s : State) : (updStream i f s).slices = s.slices := rfl

@[simp] theorem countGap_slices (st : Stream) (s : State) : (countGap st s).slices = s.slices := by
  unfold countGap
  split <;> rfl

@[simp] theorem putGap_slices (i : Fin 64) (g : Gap) (s : State) : (putGap i g s).slices = s.slices := by
  unfold putGap
  split
  · rfl
  · simp

@[simp] theorem resumeStream_slices (i : Fin 64) (s : State) : (resumeStream i s).slices = s.slices := by
  unfold resumeStream
  split
  · split
    · split <;> simp
    · rfl
  · rfl

@[simp] theorem pushUnit_slices (i : Fin 64) (u : StreamUnit) (s : State) : (pushUnit i u s).slices = s.slices := by
  unfold pushUnit
  dsimp only
  split
  · simp
  · split_ifs <;> simp

@[simp] theorem pushGrouped_slices (i : Fin 64) (header record : List Byte) (ts : TS96) (weight : Nat) (s : State) :
    (pushGrouped i header record ts weight s).slices = s.slices := by
  unfold pushGrouped
  dsimp only
  split
  · simp
  · split_ifs <;> simp

@[simp] theorem streamBlock_slices (n : Fin 8) (b : Nat) (s : State) : (streamBlock n b s).slices = s.slices :=
  forStreams_slices (fun i st s => by split <;> simp) s

/-! ### Decimation chains -/

@[simp] theorem closeFrame_slices (i : Fin 64) (s : State) : (closeFrame i s).slices = s.slices := rfl

@[simp] theorem closeFrames_slices (ch : Fin 8) (s : State) : (closeFrames ch s).slices = s.slices :=
  forStreams_slices (fun i _ => closeFrame_slices i) s

@[simp] theorem spRestart_slices (i : Fin 16) (n : Nat) (s : State) : (spRestart i n s).slices = s.slices := by
  unfold spRestart
  split <;> rfl

@[simp] theorem restartOnChain_slices (ch : Fin 8) (n : Nat) (s : State) : (restartOnChain ch n s).slices = s.slices :=
  forAll_slices (fun i s => by
    split
    · split <;> simp
    · rfl) s

@[simp] theorem chainSwitch_slices (ch : Fin 8) (new : DdcCfg) (w : Nat) (s : State) : (chainSwitch ch new w s).slices = s.slices := by
  unfold chainSwitch
  dsimp only
  split_ifs <;> simp

@[simp] theorem chainSwitchDue_slices (ch : Fin 8) (x0 : Nat) (s : State) : (chainSwitchDue ch x0 s).slices = s.slices := by
  unfold chainSwitchDue
  split
  · split <;> simp
  · rfl

@[simp] theorem releaseFrames_slices (ch : Fin 8) (upTo : Nat) (i : Fin 64) (st : Stream) (s : State) :
    (releaseFrames ch upTo i st s).slices = s.slices :=
  foldl_slices (fun _ _ => pushUnit_slices ..) _ _

@[simp] theorem raiseDdc_slices (ch : Fin 8) (cause : Nat) (s : State) : (raiseDdc ch cause s).slices = s.slices :=
  raiseNow_slices ..

@[simp] theorem countClip_slices (ch : Fin 8) (s : State) : (countClip ch s).slices = s.slices := by
  unfold countClip
  dsimp only
  split_ifs <;> simp

@[simp] theorem found_slices (u : Fin 16) (t : TS96) (pos : Int) (place : PlaceFlags) (level : Bool) (due : Nat) (remote : Bool)
    (s : State) : (found u t pos place level due remote s).slices = s.slices := rfl

@[simp] theorem sourceEvent_slices (src : Nat) (t : TS96) (place : PlaceFlags) (remote : Bool) (due : Nat) (s : State) :
    (sourceEvent src t place remote due s).slices = s.slices :=
  forAll_slices (fun u s => by
    split
    · split <;> simp
    · rfl) s

@[simp] theorem raiseThr_slices (ch : Fin 8) (k : Nat) (falling : Bool) (t : TS96) (o : DdcOut) (s : State) :
    (raiseThr ch k falling t o s).slices = s.slices := raise_slices ..

@[simp] theorem detOutput_slices (ch : Fin 8) (o : DdcOut) (k : Fin 2) (s : State) : (detOutput ch o k s).slices = s.slices := by
  unfold detOutput
  dsimp only
  split
  · rfl
  · split
    · split_ifs <;> simp
    · rfl

@[simp] theorem frameOutput_slices (ch : Fin 8) (d : Ddc) (o : DdcOut) (i : Fin 64) (st : Stream) (s : State) :
    (frameOutput ch d o i st s).slices = s.slices := by
  unfold frameOutput
  dsimp only
  split_ifs <;> rfl

@[simp] theorem chainOutput_slices (ch : Fin 8) (g : Nat) (s : State) : (chainOutput ch g s).slices = s.slices := by
  unfold chainOutput
  dsimp only
  rw [updDdc_slices, forStreams_slices fun i => frameOutput_slices _ _ _ i, detOutput_slices, detOutput_slices,
    ite_slices (raiseDdc_slices ..), ite_slices (countClip_slices ..), updDdc_slices, ite_slices (updDdc_slices ..)]

@[simp] theorem chainWord_slices (ch : Fin 8) (x0 : Nat) (s : State) : (chainWord ch x0 s).slices = s.slices := by
  have hreleased : ∀ t, (forStreams .ddc ch.val (releaseFrames ch (x0 + 40)) t).slices = t.slices :=
    forStreams_slices fun i => releaseFrames_slices _ _ i
  unfold chainWord
  dsimp only
  split
  · simp [hreleased]
  · rw [foldl_slices fun s i => by split <;> simp]
    simp [hreleased]

/-! ### Masks -/

@[simp] theorem raiseMask_slices (m : Fin 64) (source cause which count : Nat) (ts : TS96) (s : State) :
    (raiseMask m source cause which count ts s).slices = s.slices := raise_slices ..

@[simp] theorem maskSwitch_slices (m : Fin 64) (n : Nat) (s : State) : (maskSwitch m n s).slices = s.slices := by
  unfold maskSwitch
  split
  · split <;> rfl
  · rfl

@[simp] theorem maskStopStart_slices (m : Fin 64) (c : MaskCfg) (v : Nat) (t : TS96) (s : State) :
    (maskStopStart m c v t s).slices = s.slices := by
  unfold maskStopStart
  split <;> simp

@[simp] theorem maskCapture_slices (m : Fin 64) (c : MaskCfg) (delay : Nat) (t : TS96) (s : State) :
    (maskCapture m c delay t s).slices = s.slices := by
  unfold maskCapture
  split
  · exact foldl_slices (fun s a => by split <;> rfl) _ _
  · rfl

@[simp] theorem maskEpisode_slices (m : Fin 64) (lc n : Nat) (t : TS96) (s : State) : (maskEpisode m lc n t s).slices = s.slices := by
  unfold maskEpisode
  dsimp only
  split_ifs <;> simp

@[simp] theorem maskActions_slices (m : Fin 64) (c : MaskCfg) (late : Bool) (viols : List Nat) (s : State) :
    (maskActions m c late viols s).slices = s.slices := by
  unfold maskActions
  split
  · rfl
  · simp only [maskStopStart_slices, maskCapture_slices]
    split <;> simp

@[simp] theorem maskCount_slices (m : Fin 64) (tested viol : Nat) (s : State) : (maskCount m tested viol s).slices = s.slices := by
  unfold maskCount
  dsimp only
  split_ifs <;> simp

@[simp] theorem maskWord_slices (m : Fin 64) (x : Mask) (late : Bool) (x0 : Nat) (codes : List Int) (s : State) :
    (maskWord m x late x0 codes s).slices = s.slices := by
  unfold maskWord
  rw [maskActions_slices]
  split <;> simp

@[simp] theorem masksWord_slices (ch : Fin 8) (x0 : Nat) (codes : List Int) (s : State) : (masksWord ch x0 codes s).slices = s.slices :=
  forAll_slices (fun m s => by
    dsimp only
    split_ifs <;> simp) s

/-! ### Felts -/

@[simp] theorem genSwitch_slices (f : Fin 16) (s : State) : (genSwitch f s).slices = s.slices := rfl

@[simp] theorem raiseFelt_slices (f : Fin 16) (cause which bin : Nat) (s : State) : (raiseFelt f cause which bin s).slices = s.slices :=
  raiseNow_slices ..

@[simp] theorem feltCount_slices (f : Fin 16) (late : Bool) (hits outside clamp : Nat) (s : State) :
    (feltCount f late hits outside clamp s).slices = s.slices := by
  unfold feltCount
  dsimp only
  split_ifs <;> simp

@[simp] theorem applyWeight_slices (f : Fin 16) (toB : Bool) (bin w : Nat) (s : State) :
    (applyWeight f toB bin w s).slices = s.slices := by
  unfold applyWeight
  dsimp only
  split <;> simp

@[simp] theorem toBaked_slices (f : Fin 16) (bin w : Nat) (s : State) : (toBaked f bin w s).slices = s.slices := by
  unfold toBaked
  dsimp only
  split
  · split <;> simp
  · simp

@[simp] theorem feltHit_slices (f : Fin 16) (bin : Nat) (s : State) : (feltHit f bin s).slices = s.slices := by
  unfold feltHit
  rw [updFelt_slices]
  split <;> simp

@[simp] theorem mapSample_slices (f : Fin 16) (n : Nat) (code : Int) (s : State) : (mapSample f n code s).slices = s.slices := by
  unfold mapSample
  dsimp only
  split <;> simp

@[simp] theorem passSample_slices (f : Fin 16) (ch : Fin 8) (s : State) : (passSample f ch s).slices = s.slices := by
  unfold passSample
  dsimp only
  refine Eq.trans (ite_slices ?_) ?_
  · split
    · rw [mapSample_slices]
    · rfl
  · rw [updFelt_slices, ite_slices (updFelt_slices ..), ite_slices (genSwitch_slices ..)]

@[simp] theorem passUntil_slices (f : Fin 16) (ch : Fin 8) (limit fuel : Nat) (s : State) :
    (passUntil f ch limit fuel s).slices = s.slices := by
  induction fuel generalizing s with
  | zero => rfl
  | succ fuel ih =>
    unfold passUntil
    dsimp only
    split
    · rw [ih, passSample_slices]
    · rfl

@[simp] theorem feltWord_slices (ch : Fin 8) (s : State) : (feltWord ch s).slices = s.slices := passUntil_slices ..

@[simp] theorem feltParity_slices (f : Fin 16) (bins : List Nat) (s : State) : (feltParity f bins s).slices = s.slices := by
  unfold feltParity
  split
  · exact foldl_slices (fun s b => by simp [counterLost]) _ _
  · rfl

/-! ### Reductions -/

@[simp] theorem streamRecord_slices (r : RedRec) (i : Fin 64) (st : Stream) (s : State) : (streamRecord r i st s).slices = s.slices := by
  unfold streamRecord
  dsimp only
  split_ifs <;> simp

@[simp] theorem putRecordRed_slices (ch : Fin 8) (s : State) (r : RedRec) : (putRecordRed ch s r).slices = s.slices :=
  forStreams_slices (streamRecord_slices _) _

@[simp] theorem releaseRecords_slices (ch : Fin 8) (upTo : Nat) (s : State) : (releaseRecords ch upTo s).slices = s.slices :=
  foldl_slices (putRecordRed_slices ch) _ _

@[simp] theorem restartLane_slices (ch : Fin 8) (k : Fin 4) (at_ : Nat) (s : State) : (restartLane ch k at_ s).slices = s.slices := rfl

@[simp] theorem endRecord_slices (ch : Fin 8) (r : RedRec) (s : State) : (endRecord ch r s).slices = s.slices := rfl

@[simp] theorem laneCode_slices (ch : Fin 8) (k : Fin 4) (c : Int) (x : Nat) (s : State) : (laneCode ch k c x s).slices = s.slices := by
  unfold laneCode
  dsimp only
  split_ifs <;> rfl

@[simp] theorem endPartial_slices (ch : Fin 8) (at_ : Nat) (k : Fin 4) (s : State) : (endPartial ch at_ k s).slices = s.slices := by
  unfold endPartial
  rw [restartLane_slices]
  split <;> rfl

@[simp] theorem redSwitch_slices (ch : Fin 8) (at_ : Nat) (f : RedBank → RedBank) (s : State) :
    (redSwitch ch at_ f s).slices = s.slices := by
  rw [redSwitch, updRed_slices, forAll_slices fun k => endPartial_slices ch at_ k]

@[simp] theorem redSwitches_slices (ch : Fin 8) (x0 : Nat) (s : State) : (redSwitches ch x0 s).slices = s.slices := by
  unfold redSwitches
  dsimp only
  split
  · simp
  · split
    · split <;> simp
    · rfl

@[simp] theorem redWord_slices (ch : Fin 8) (x0 : Nat) (codes : List Int) (s : State) : (redWord ch x0 codes s).slices = s.slices := by
  unfold redWord
  rw [releaseRecords_slices, foldl_slices fun s c => forAll_slices (fun k s => laneCode_slices ..) s, redSwitches_slices]

/-! ### Trigger units -/

@[simp] theorem setLevel_slices (u : Fin 16) (t : TS96) (b : Bool) (s : State) : (setLevel u t b s).slices = s.slices := rfl

@[simp] theorem unitSwitch_slices (u : Fin 16) (j : Nat) (s : State) : (unitSwitch u j s).slices = s.slices := by
  unfold unitSwitch
  split
  · split <;> rfl
  · rfl

@[simp] theorem spanStart_slices (u : Fin 16) (c : Crossing) (s : State) : (spanStart u c s).slices = s.slices := rfl

@[simp] theorem spanEnd_slices (u : Fin 16) (c : Crossing) (due : Nat) (s : State) : (spanEnd u c due s).slices = s.slices := by
  unfold spanEnd
  dsimp only
  split
  · split <;> rfl
  · rfl

@[simp] theorem runtCrossing_slices (u : Fin 16) (c : Crossing) (own out : Bool) (due : Nat) (s : State) :
    (runtCrossing u c own out due s).slices = s.slices := by
  unfold runtCrossing spanDrop
  split_ifs <;> simp

@[simp] theorem edgeLike_slices (u : Fin 16) (c : Crossing) (high first : Bool) (due : Nat) (s : State) :
    (edgeLike u c high first due s).slices = s.slices := by
  unfold edgeLike
  dsimp only
  split <;> rfl

@[simp] theorem timeoutCheck_slices (u : Fin 16) (now : TS96) (kt due : Nat) (s : State) :
    (timeoutCheck u now kt due s).slices = s.slices := by
  unfold timeoutCheck
  dsimp only
  split
  · split <;> rfl
  · rfl

@[simp] theorem timeoutCrossing_slices (u : Fin 16) (c : Crossing) (due : Nat) (s : State) :
    (timeoutCrossing u c due s).slices = s.slices := by
  simp [timeoutCrossing]

@[simp] theorem slewCrossing_slices (u : Fin 16) (c : Crossing) (due : Nat) (s : State) : (slewCrossing u c due s).slices = s.slices := by
  unfold slewCrossing
  dsimp only
  split
  · split <;> rfl
  · rfl

@[simp] theorem patChange_slices (u : Fin 16) (c : Crossing) (due : Nat) (s : State) : (patChange u c due s).slices = s.slices := by
  unfold patChange
  dsimp only
  split
  · rfl
  · split
    · rfl
    · split
      · simp
      · simp
      · split
        · rw [ite_slices (found_slices ..), setLevel_slices, updTu_slices, updTu_slices]
        · simp
      · simp

@[simp] theorem takeCrossing_slices (u : Fin 16) (c : Crossing) (due : Nat) (s : State) : (takeCrossing u c due s).slices = s.slices := by
  unfold takeCrossing
  dsimp only
  split
  · rfl
  · split
    · simp
    · simp
    · split <;> simp
    · split <;> simp
    · simp
    · simp
    · simp
    · rfl

@[simp] theorem channelCrossings_slices (u : Fin 16) (ch : Fin 8) (k : Nat) (code : Int) (s : State) :
    (channelCrossings u ch k code s).2.slices = s.slices := rfl

@[simp] theorem patternCrossing_slices (u : Fin 16) (ch : Fin 8) (k : Nat) (s : State) :
    (patternCrossing u ch k s).2.slices = s.slices := by
  unfold patternCrossing
  dsimp only
  split
  · rfl
  · split
    · rfl
    · split
      · split <;> rfl
      · rfl

@[simp] theorem unitSample_slices (u : Fin 16) (j i : Nat) (s : State) : (unitSample u j i s).slices = s.slices := by
  have htaken : ∀ (due : Nat) (l : List Crossing) (t : State), (l.foldl (fun s c => takeCrossing u c due s) t).slices = t.slices :=
    fun due l t => foldl_slices (fun s c => takeCrossing_slices u c due s) l t
  have hdisarmed := ite_slices (p := commitAt s (40 * j + i) = true) (updTu_slices u disarm s)
  unfold unitSample
  dsimp only
  refine Eq.trans (ite_slices (timeoutCheck_slices ..)) ((htaken ..).trans ?_)
  rw [← hdisarmed]
  generalize (if commitAt s (40 * j + i) = true then updTu u disarm s else s) = s'
  split
  · exact foldl_frame (fun acc : List Crossing × State => acc.2.slices) _ _ _ fun acc ch => by split <;> simp
  · split
    · rfl
    · split
      · split
        · split <;> simp
        · rfl
      · rfl

@[simp] theorem seqReset_slices (u : Fin 16) (t : TS96) (s : State) : (seqReset u t s).slices = s.slices := rfl

@[simp] theorem seqArm_slices (u : Fin 16) (t : TS96) (s : State) : (seqArm u t s).slices = s.slices := rfl

@[simp] theorem seqExpire_slices (u : Fin 16) (t : TS96) (s : State) : (seqExpire u t s).slices = s.slices := by
  unfold seqExpire
  dsimp only
  split
  · split <;> simp
  · rfl

@[simp] theorem seqItem_slices (u : Fin 16) (e : SeqInput) (due : Nat) (s : State) : (seqItem u e due s).slices = s.slices := by
  unfold seqItem
  extract_lets v t expired x reset y
  have hreset : reset.slices = s.slices := by
    unfold reset
    split
    · rw [ite_slices (seqReset_slices ..), seqExpire_slices]
    · exact seqExpire_slices ..
  split
  · rw [ite_slices (seqArm_slices ..), hreset]
  · split_ifs <;> simp [hreset]

@[simp] theorem seqJudge_slices (u : Fin 16) (s : State) : (seqJudge u s).slices = s.slices := by
  have hitems : ∀ (d : SeqInput → Nat) (l : List SeqInput) (t : State),
      (l.foldl (fun s e => seqItem u e (d e) s) t).slices = t.slices := fun d l t => foldl_slices (fun s e => seqItem_slices ..) l t
  unfold seqJudge
  dsimp only
  split
  · split <;> simp [hitems]
  · simp [hitems]

@[simp] theorem unitWord_slices (u : Fin 16) (j : Nat) (s : State) : (unitWord u j s).slices = s.slices := by
  unfold unitWord
  dsimp only
  split_ifs
  · simp
  · simp
  · simp
  · rw [foldl_slices fun s i => unitSample_slices .., unitSwitch_slices]

@[simp] theorem triggerWord_slices (s : State) : (triggerWord s).slices = s.slices := by
  unfold triggerWord
  dsimp only
  split
  · rfl
  · rw [forAll_slices fun u => unitWord_slices u _]

/-! ### The Brim ring -/

@[simp] theorem sendOn_slices (p : Fin 4) (f : List Byte) (s : State) : (sendOn p f s).slices = s.slices := by
  unfold sendOn
  split <;> rfl

@[simp] theorem floodSeq_slices (seq : W32) (kind cls : Nat) (t : TS96) (flags : Nat) (body : List Byte) (s : State) :
    (floodSeq seq kind cls t flags body s).slices = s.slices := by
  unfold floodSeq
  dsimp only
  rw [forAll_slices fun p => sendOn_slices p _]
  split <;> rfl

@[simp] theorem stopTick_slices (s : State) : (stopTick s).slices = s.slices := by
  unfold stopTick
  split
  · split
    · simp [raiseStop, flood]
    · rfl
  · rfl

end Sys2Proof.Machine
end
section
/-!
SUPPORT and the proofs of O1 and O2 (the step), and of O51: a slice word joins its own slice's output and opens or extends an overrange
episode (R25, R100, R121), and no other slice changes.
-/
namespace Sys2Proof.Machine

/-! ### The step -/

/-- Settles O1: `step` takes the queue's head, which is its front (log 1), and runs it with the tail. -/
theorem stepRunsTheFrontCommand : Obligations.StepRunsTheFrontCommand := fun _ _ _ => rfl

/-- Settles O2: the other arm of `step` (log 2). -/
theorem emptyQueueIdlesOneCycle : Obligations.EmptyQueueIdlesOneCycle := by
  intro s h
  calc step s = .next (idle s) := by rw [step, h]
    _ = .next { s with aoCycles := s.aoCycles + 1 } := rfl

/-! ### The output of a slice -/

/-- What a slice has put out: its words, their codes, the lane table behind them and the overrange episode (R100, R103, R121). -/
structure SliceOutput where
  words : Nat
  log : List (List Int)
  laneTab : Vector LaneEntry 41
  ovrLast : Option Nat
  ovrOn : Bool
  ovrCount : Nat

/-- The output of a slice. -/
def Slice.output (x : Slice) : SliceOutput :=
  { words := x.words, log := x.log, laneTab := x.laneTab, ovrLast := x.ovrLast, ovrOn := x.ovrOn, ovrCount := x.ovrCount }

/-- In `t` slice `n` has put out `o`, and every other slice is as in `s`. -/
structure PutsOut (n : Fin 8) (s t : State) (o : SliceOutput) : Prop where
  own : (t.slices[n]).output = o
  others : ∀ k : Fin 8, k ≠ n → t.slices[k] = s.slices[k]

section
variable {n : Fin 8} {s t u : State} {o p : SliceOutput}

theorem PutsOut.of_slices (h : u.slices = t.slices) (ht : PutsOut n s t o) : PutsOut n s u o :=
  ⟨by rw [h, ht.own], fun k hk => by rw [h, ht.others k hk]⟩

theorem PutsOut.updSlice_own {f : Slice → Slice} (h : t.slices = s.slices) : PutsOut n s (updSlice n f t) (f s.slices[n]).output :=
  ⟨by rw [updSlice_slices, Fin.getElem_fin, upd_get, h], fun k hk => by
    rw [updSlice_slices, Fin.getElem_fin, upd_get_ne _ _ _ _ hk, h, Fin.getElem_fin]⟩

/-- A slice update that changes every output by `g`. -/
theorem PutsOut.of_updSlice (g : SliceOutput → SliceOutput) {f : Slice → Slice} (h : ∀ x, (f x).output = g x.output)
    (ht : PutsOut n s t o) : PutsOut n s (updSlice n f t) (g o) :=
  ⟨by rw [← ht.own, ← h, updSlice_slices, Fin.getElem_fin, upd_get], fun k hk => by
    rw [updSlice_slices, Fin.getElem_fin, upd_get_ne _ _ _ _ hk]
    exact ht.others k hk⟩

/-! ### Steps of a word that leave the output -/

theorem raiseCorr_slices (n : Fin 8) (src : FirSource) (x : Nat) (s : State) : (raiseCorr n src x s).slices = s.slices :=
  raise_slices ..

theorem firSwap_putsOut (last : Nat) (ht : PutsOut n s t o) : PutsOut n s (firSwap n last t) o := by
  unfold firSwap
  split
  · split
    · exact .of_slices (raiseCorr_slices ..) (.of_updSlice id (fun _ => rfl) ht)
    · exact ht
  · exact ht

theorem reachLevel_slices (n : Fin 8) (b level : Nat) (reached : Bool) (s : State) :
    (reachLevel n b level reached s).slices = s.slices := by
  unfold reachLevel
  exact ite_slices (raiseNow_slices ..)

theorem lifeCheck_putsOut (b : Nat) (ht : PutsOut n s t o) : PutsOut n s (lifeCheck n b t) o := by
  unfold lifeCheck
  extract_lets f half full
  have hfull : PutsOut n s full o := .of_slices (reachLevel_slices ..) (.of_slices (reachLevel_slices ..) ht)
  split
  · exact .of_updSlice id (fun _ => rfl) (.of_slices (updCart_slices ..) hfull)
  · exact hfull

theorem addDose_putsOut (clips b : Nat) (ht : PutsOut n s t o) : PutsOut n s (addDose n clips b t) o := by
  unfold addDose
  dsimp only
  split
  · exact lifeCheck_putsOut _ (.of_slices (updCart_slices ..) ht)
  · exact ht

theorem blockDone_putsOut (b : Nat) (ht : PutsOut n s t o) : PutsOut n s (blockDone n b t) o :=
  .of_slices (streamBlock_slices ..) (addDose_putsOut _ _ (.of_updSlice id (fun _ => rfl) ht))

/-! ### Overrange (R121) -/

theorem raiseOvr_slices (n : Fin 8) (which count : Nat) (ts : TS96) (s : State) : (raiseOvr n which count ts s).slices = s.slices :=
  raise_slices ..

theorem endEpisode_putsOut (ht : PutsOut n s t o) : ∃ on, PutsOut n s (endEpisode n t) { o with ovrOn := on } := by
  unfold endEpisode
  dsimp only
  split
  · exact ⟨false, .of_slices (raiseOvr_slices ..) (.of_updSlice (fun o => { o with ovrOn := false }) (fun _ => rfl) ht)⟩
  · exact ⟨o.ovrOn, ht⟩

/-- A word `w` with clipped codes leaves an episode in progress, with `count` of them in all. -/
def SliceOutput.overrange (w count : Nat) (o : SliceOutput) : SliceOutput := { o with ovrLast := some w, ovrOn := true, ovrCount := count }

theorem countOvr_putsOut (w x k : Nat) (ht : PutsOut n s t o) :
    ∃ count, PutsOut n s (countOvr n w x k t) (o.overrange w count) := by
  unfold countOvr
  dsimp only
  split
  · exact ⟨stick 32 (o.ovrCount + k),
      .of_updSlice (fun o => o.overrange w (stick 32 (o.ovrCount + k))) (fun _ => rfl) ht⟩
  · exact ⟨stick 32 k, .of_slices (raiseOvr_slices ..) (.of_updSlice (.overrange w (stick 32 k)) (fun _ => rfl) ht)⟩

/-! ### A word joins the output (R100, R120, R121) -/

/-- Word `w` with codes `codes` joins an output. -/
def SliceOutput.join (w : Nat) (codes : List Int) (o : SliceOutput) : SliceOutput := { o with words := w + 1, log := codes :: o.log }

/-- A word with codes `codes` takes an output from `o` to `p`: a clipped code opens or extends an overrange episode. -/
structure Joins (codes : List Int) (o p : SliceOutput) : Prop where
  words : p.words = o.words + 1
  log : p.log = codes :: o.log
  laneTab : p.laneTab = o.laneTab
  clipped : codes.any clippedCode = true → p.ovrLast = some o.words ∧ p.ovrOn = true
  clean : codes.any clippedCode = false → p.ovrLast = o.ovrLast ∧ p.ovrOn = o.ovrOn ∧ p.ovrCount = o.ovrCount

/-- The sample numbers of a word's clipped codes are none exactly where no code is clipped. -/
theorem clips_eq_nil (x0 : Nat) (codes : List Int) :
    ((codes.zipIdx.filter fun c => clippedCode c.1).map fun c => x0 + c.2) = [] ↔ codes.any clippedCode = false := by
  have hany : (codes.zipIdx.map Prod.fst).any clippedCode = codes.zipIdx.any fun c => clippedCode c.1 := List.any_map
  rw [List.zipIdx_map_fst] at hany
  rw [List.map_eq_nil_iff, List.filter_eq_nil_iff, hany, List.any_eq_false]

theorem recordWord_putsOut (values codes : List Int) (ht : PutsOut n s t o) :
    ∃ p, PutsOut n s (recordWord n o.words values codes t) p ∧ Joins codes o p := by
  unfold recordWord
  extract_lets x0 swapped clips ended bus joined counted b inBlock blocked
  have hclips : clips = [] ↔ codes.any clippedCode = false := clips_eq_nil x0 codes
  have hswapped : PutsOut n s swapped o := firSwap_putsOut _ ht
  suffices h : ∃ p, PutsOut n s counted p ∧ Joins codes o p by
    obtain ⟨p, hp, hj⟩ := h
    have hblocked : PutsOut n s blocked p := .of_updSlice id (fun _ => rfl) hp
    refine ⟨p, ?_, hj⟩
    split
    · exact .of_updSlice id (fun _ => rfl) (blockDone_putsOut _ hblocked)
    · exact hblocked
  clear_value clips
  cases clips with
  | nil =>
    have hclean : codes.any clippedCode ≠ true := by simp [hclips.mp rfl]
    have hjoined : PutsOut n s joined (o.join o.words codes) := .of_updSlice (.join o.words codes) (fun _ => rfl) hswapped
    exact ⟨_, hjoined, { words := rfl, log := rfl, laneTab := rfl, clipped := (absurd · hclean), clean := fun _ => ⟨rfl, rfl, rfl⟩ }⟩
  | cons x rest =>
    have hclipped : codes.any clippedCode ≠ false := fun h => by simpa using hclips.mpr h
    obtain ⟨on, hended⟩ := endEpisode_putsOut hswapped
    have hjoined : PutsOut n s joined ({ o with ovrOn := on }.join o.words codes) :=
      .of_updSlice (.join o.words codes) (fun _ => rfl) hended
    obtain ⟨count, hcounted⟩ := countOvr_putsOut o.words x (rest.length + 1) hjoined
    exact ⟨_, hcounted, { words := rfl, log := rfl, laneTab := rfl, clipped := fun _ => ⟨rfl, rfl⟩, clean := (absurd · hclipped) }⟩

/-! ### The codes and the lane table of a word (R103, R105) -/

theorem clampCode_mem (c : Int) : -2048 ≤ clampCode c ∧ clampCode c ≤ 2047 := by
  unfold clampCode
  omega

theorem outputWord_mem {w : Nat} {values : List Int} {c : Int} (h : c ∈ outputWord n w values s) : -2048 ≤ c ∧ c ≤ 2047 := by
  obtain ⟨i, -, rfl⟩ := List.mem_map.mp h
  split <;> exact clampCode_mem _

/-- The output stage reads nothing of the state but the slices. -/
theorem outputWord_of_slices (w : Nat) (values : List Int) (h : t.slices = s.slices) :
    outputWord n w values t = outputWord n w values s := by
  unfold outputWord
  rw [h]

/-- A lane in the lane map serves a position. -/
theorem servedPos_ne_none {x : Slice} {l : Nat} (h : some l ∈ x.laneMap.toList) : servedPos x l ≠ none := by
  obtain ⟨p, hp, hl⟩ := List.getElem_of_mem h
  have hp' : p < 40 := by simpa using hp
  intro hnone
  have hfree := List.find?_eq_none.mp hnone p (List.mem_range.mpr hp')
  exact hfree (by simpa [getN, hp'] using hl)

theorem trackLanes_laneTab_of_free (tracked : List (Fin 41 × LaneEntry)) {x : Slice} {l : Fin 41} (h : servedPos x l.val = none) :
    (trackLanes tracked x).laneTab[l] = x.laneTab[l] :=
  foldl_frame (fun t : Vector LaneEntry 41 => t[l]) _ tracked x.laneTab fun t e => by
    split
    · next hserves =>
      have hne : e.1 ≠ l := fun he => servedPos_ne_none (List.contains_iff_mem.mp hserves) (he ▸ h)
      simp [Fin.val_ne_of_ne hne]
    · rfl

/-! ### The slice word and the end of an episode -/

theorem sliceWord_putsOut (x : SliceIn) (h : samplesExist s = true) :
    ∃ p, PutsOut n s (sliceWord n x s) p ∧
      Joins (outputWord n (s.slices[n]).words x.codes s) (trackLanes x.tracked s.slices[n]).output p := by
  unfold sliceWord
  rw [if_neg (by simp [h])]
  extract_lets w x0 stopped codes recorded hist consumed
  have hstopped : stopped.slices = s.slices := ite_slices (forAll_slices endStop_slices s)
  have hcodes : codes = outputWord n w x.codes s := outputWord_of_slices _ _ hstopped
  obtain ⟨p, hp, hjoins⟩ := recordWord_putsOut x.codes codes (.updSlice_own (f := trackLanes x.tracked) hstopped)
  have hrecorded : PutsOut n s recorded p := hp
  clear_value recorded
  have hhist : hist.slices = recorded.slices := ite_slices rfl
  have hconsumed : consumed.slices = recorded.slices := by simp [consumed, hhist]
  exact ⟨p, .of_slices (ite_slices ((stopTick_slices _).trans (triggerWord_slices _))) (.of_slices hconsumed hrecorded), hcodes ▸ hjoins⟩

theorem exec_sliceWord (x : SliceIn) (hlive : live s = true) (hwf : WellFormed.instr (.sliceWord n x) = true) :
    exec (.sliceWord n x) s = .next (sliceWord n x s) := by
  calc exec (.sliceWord n x) s
      = whenLive s (if WellFormed.instr (.sliceWord n x) then .next (sliceWord n x s) else .fault .illFormed) := rfl
    _ = .next (sliceWord n x s) := by rw [whenLive_live hlive, if_pos hwf]

theorem exec_ovrEpisodeEnd (hlive : live s = true) : exec (.ovrEpisodeEnd n) s = .next (endEpisode n s) := by
  calc exec (.ovrEpisodeEnd n) s
      = whenLive s (.next (endEpisode n s)) := rfl
    _ = .next (endEpisode n s) := whenLive_live hlive _

theorem endEpisode_quiet (hon : (s.slices[n]).ovrOn = true) (hgap : 2 ^ 21 ≤ cleanWords s.slices[n]) :
    Safety.Quiet (updSlice n (fun x => { x with ovrOn := false }) s) (endEpisode n s) := by
  have hover : ((s.slices[n]).ovrOn && decide (ovrGap ≤ cleanWords s.slices[n])) = true := by
    rw [hon, Bool.true_and]
    exact decide_eq_true hgap
  unfold endEpisode
  rw [if_pos hover]
  exact raise_quiet ..

theorem endEpisode_of_open (h : (s.slices[n]).ovrOn = false ∨ cleanWords s.slices[n] < 2 ^ 21) : endEpisode n s = s := by
  have hopen : ((s.slices[n]).ovrOn && decide (ovrGap ≤ cleanWords s.slices[n])) ≠ true := by
    rw [Ne, Bool.and_eq_true, decide_eq_true_eq]
    rintro ⟨hon, hgap⟩
    exact h.elim (fun hoff => Bool.noConfusion (hoff.symm.trans hon)) (Nat.not_lt.mpr hgap)
  unfold endEpisode
  exact if_neg hopen

end

/-- Settles O51: a word that exists joins its slice's output (`sliceWord_putsOut`), and the end of an episode is one event
(`endEpisode_quiet`). -/
theorem sliceWordsAndOverrange : Obligations.SliceWordsAndOverrange := by
  intro n s hlive
  refine ⟨fun x hwf => ⟨?noSamples, ?word⟩, ?ends, ?stays⟩
  case noSamples =>
    intro hnone
    rw [exec_sliceWord x hlive hwf, sliceWord, if_pos (by simp [hnone])]
  case word =>
    intro hexist
    obtain ⟨p, ⟨rfl, hothers⟩, hjoins⟩ := sliceWord_putsOut (n := n) x hexist
    refine ⟨_, exec_sliceWord x hlive hwf, fun _ => outputWord_mem, hjoins.words, hjoins.log, hothers, hjoins.laneTab, ?_,
      hjoins.clipped, hjoins.clean⟩
    intro l hfree
    calc ((sliceWord n x s).slices[n]).laneTab[l]
        = (trackLanes x.tracked s.slices[n]).laneTab[l] := congrArg (·[l]) hjoins.laneTab
      _ = (s.slices[n]).laneTab[l] := trackLanes_laneTab_of_free _ hfree
  case ends => exact fun hon hgap => ⟨_, exec_ovrEpisodeEnd hlive, endEpisode_quiet hon hgap⟩
  case stays => exact fun hopen => by rw [exec_ovrEpisodeEnd hlive, endEpisode_of_open hopen]

end Sys2Proof.Machine
end
section
/-!
SUPPORT and the proofs of O3 and O4 (which commands a state takes, and what they answer), and of O6 (the state at reset).
-/
namespace Sys2Proof.Machine

/-! ### What a command answers, and when (R46, R513) -/

/-- A state takes a command: an access of the host once it reaches the device, another command always in the always-on domain and else
while the blocks run (R46, R513). -/
def takes (c : Instr) (s : State) : Bool := if Safety.hostAccess c then reachable s else Safety.alwaysOn c || live s

/-- The answer of a command that is taken, its operand check being `wf`. -/
inductive Answers (wf : Bool) : Host.Outcome State Fault Refusal → Prop where
  | next (t : State) : Answers wf (.next t)
  | illFormed (h : wf = false) : Answers wf (.fault .illFormed)

section
variable {wf : Bool} {a b : Host.Outcome State Fault Refusal}

theorem Answers.ite {p : Prop} [Decidable p] (ha : Answers wf a) (hb : Answers wf b) : Answers wf (if p then a else b) := by
  split
  · exact ha
  · exact hb

theorem Answers.guarded (ha : Answers wf a) : Answers wf (if wf then a else .fault .illFormed) := by
  cases wf with
  | true => exact ha
  | false => exact .illFormed rfl

theorem Answers.completes (h : Answers wf a) (hwf : wf = true) : ∃ t, a = .next t := by
  cases h with
  | next t => exact ⟨t, rfl⟩
  | illFormed hill => exact absurd (hwf.symm.trans hill) (by decide)

theorem Answers.faults (h : Answers wf a) {f : Fault} (hf : a = .fault f) : f = .illFormed ∧ wf = false := by
  cases h with
  | next t => cases hf
  | illFormed hill =>
    cases hf
    exact ⟨rfl, hill⟩

theorem Answers.not_refused (h : Answers wf a) (r : Refusal) : a ≠ .refused r := by
  cases h <;> exact nofun

end

/-- A command that is not taken changes nothing, and one that is taken answers. By the shape of each arm: a next state, behind a
check of its operands where `WellFormed.instr` has one, with the conditions of its effect inside. -/
theorem exec_answers (c : Instr) (s : State) :
    ∃ o, exec c s = (if takes c s then o else .next s) ∧ Answers (WellFormed.instr c) o := by
  cases c
  all_goals refine ⟨_, rfl, ?_⟩
  case setDdc | hifLink | descriptorFetch | telemetryUpdate | tmaxEvaluate | proofingStepEnd | sliceWord | blindEstimatorUpdate
      | cartridgeIdRead | tacCalRunEnd | spectrumDeliver | triggerMessage | stopMessage | epochMessage | statusMessage | delayResp
      | discover | mgmtMessage | updateMessage | ringFormed | istSerdes =>
    exact .guarded (.next _)
  case cartridgeFirDerived | delayReq => exact .guarded (.ite (.next _) (.next _))
  case evqHead | qpDrained | msixSend | standbyDrift | standbyReady | synfReturn | refStartTimeout | proofFail | cartridgeInsert
      | standbyMating | cartridgeReadTimeout | tacIdleCalStart | holdoffEnd | maskLimitError | agingSweepDone | bankSelftestStart
      | reserveRotation | statusSend | delayReqSend | staleCal =>
    exact .ite (.next _) (.next _)
  case sqTail | discoverSend => exact .ite (.ite (.next _) (.next _)) (.next _)
  case cqHead =>
    refine .ite ?_ (.next _)
    split
    · exact .next _
    · exact .next _
  case triggerPresent | updateResumeSend =>
    split
    · exact .next _
    · exact .next _
  case streamIrqTimeout | armStart | violEpisodeEnd | frequencyGateEmpty | trigoutPulseEnd =>
    split
    · exact .ite (.next _) (.next _)
    · exact .next _
  case diagnosticSpanEnd =>
    split
    · exact .next _
    · exact .ite (.next _) (.next _)
    · exact .next _
  all_goals exact .next _

theorem exec_of_not_takes {c : Instr} {s : State} (h : takes c s = false) : exec c s = .next s := by
  obtain ⟨o, hexec, -⟩ := exec_answers c s
  rw [hexec, h]
  rfl

/-- Settles O3: a command answers, or is not taken and leaves the state (`exec_answers`). -/
theorem wellFormedCommandsComplete : Obligations.WellFormedCommandsComplete := by
  intro c s
  have hanswer : Answers (WellFormed.instr c) (exec c s) := by
    obtain ⟨o, hexec, ho⟩ := exec_answers c s
    rw [hexec]
    exact ho.ite (.next s)
  exact ⟨hanswer.completes, fun _ => hanswer.faults, hanswer.not_refused⟩

/-- Settles O4: neither gate of `takes` is open. -/
theorem heldBlocksTakeNoCommand : Obligations.HeldBlocksTakeNoCommand := by
  intro c s
  refine ⟨fun hheld hdomain => exec_of_not_takes ?_, fun hearly haccess => exec_of_not_takes ?_⟩
  · simp [takes, hdomain, reachable, hheld]
  · simp [takes, haccess, reachable, hearly]

/-- Settles O6: host memory lists nothing at reset (`reset_hostMem`, log 6). -/
theorem resetMeetsTheInvariant : Obligations.ResetMeetsTheInvariant := ⟨reset_hostMem, rfl, rfl⟩

end Sys2Proof.Machine
end
section
/-!
SUPPORT and the proof of O54: what a command at a cartridge input changes is the input, its slice and at most an event (R53 to R62).
-/
namespace Sys2Proof.Machine

/-! ### One entry of a vector changed -/

theorem upd_upd {α : Type} {n : Nat} (v : Vector α n) (i : Fin n) (f g : α → α) : upd (upd v i f) i g = upd v i fun a => g (f a) := by
  simp [upd]

/-- An update by a function writes its value. -/
theorem upd_eq_const {α : Type} {n : Nat} (v : Vector α n) (i : Fin n) (f : α → α) : upd v i f = upd v i fun _ => f v[i] := rfl

/-! ### Cartridge events are quiet -/

theorem raiseCart_quiet (n : Fin 8) (removed : Bool) (s : State) : Safety.Quiet s (raiseCart n removed s) :=
  quiet_trans (fresh_quiet s) (raiseNow_quiet ..)

theorem raiseCartFault_quiet (n : Fin 8) (cause : Nat) (s : State) : Safety.Quiet s (raiseCartFault n cause s) := raiseNow_quiet ..

theorem raiseWear_quiet (n : Fin 8) (level : Nat) (s : State) : Safety.Quiet s (raiseWear n level s) := raiseNow_quiet ..

/-! ### An input and its slice -/

/-- `t` is `s` with cartridge input `n` at `c` and its slice at `x`, and at most an event. -/
def InputIs (n : Fin 8) (s t : State) (c : Cart) (x : Slice) : Prop :=
  Safety.Quiet { s with carts := upd s.carts n fun _ => c, slices := upd s.slices n fun _ => x } t

section
variable {n : Fin 8} {s t u : State} {c : Cart} {x : Slice}

theorem InputIs.refl (n : Fin 8) (s : State) : InputIs n s s s.carts[n] s.slices[n] := by
  unfold InputIs
  rw [upd_id _ _ _ rfl, upd_id _ _ _ rfl]
  exact quiet_refl s

theorem InputIs.quiet (h : InputIs n s t c x) (k : Safety.Quiet t u) : InputIs n s u c x := quiet_trans h k

theorem InputIs.carts_eq (h : InputIs n s t c x) : t.carts = upd s.carts n fun _ => c := by rw [h]

theorem InputIs.slices_eq (h : InputIs n s t c x) : t.slices = upd s.slices n fun _ => x := by rw [h]

theorem InputIs.cart (h : InputIs n s t c x) : t.carts[n] = c := by rw [h.carts_eq, Fin.getElem_fin, upd_get]

theorem InputIs.slice (h : InputIs n s t c x) : t.slices[n] = x := by rw [h.slices_eq, Fin.getElem_fin, upd_get]

theorem InputIs.cart_ne (h : InputIs n s t c x) {k : Fin 8} (hk : k ≠ n) : t.carts[k] = s.carts[k] := by
  rw [h.carts_eq, Fin.getElem_fin, upd_get_ne _ _ _ _ hk, Fin.getElem_fin]

theorem InputIs.slice_ne (h : InputIs n s t c x) {k : Fin 8} (hk : k ≠ n) : t.slices[k] = s.slices[k] := by
  rw [h.slices_eq, Fin.getElem_fin, upd_get_ne _ _ _ _ hk, Fin.getElem_fin]

theorem InputIs.updCart (h : InputIs n s t c x) (f : Cart → Cart) : InputIs n s (updCart n f t) (f c) x := by
  have hcart := h.cart
  unfold InputIs Machine.updCart at *
  rw [upd_eq_const t.carts, hcart, h]
  simp only [Safety.Quiet, upd_upd]

theorem InputIs.updSlice (h : InputIs n s t c x) (f : Slice → Slice) : InputIs n s (updSlice n f t) c (f x) := by
  have hslice := h.slice
  unfold InputIs Machine.updSlice at *
  rw [upd_eq_const t.slices, hslice, h]
  simp only [Safety.Quiet, upd_upd]

/-- The frame in the form of an input and slice read back. -/
theorem InputIs.frame (h : InputIs n s t c x) :
    Safety.Quiet { s with carts := upd s.carts n fun _ => t.carts[n], slices := upd s.slices n fun _ => t.slices[n] } t := by
  rw [h.cart, h.slice]
  exact h

/-- The frame where the slice stays. -/
theorem InputIs.frame_cart (h : InputIs n s t c s.slices[n]) : Safety.Quiet { s with carts := upd s.carts n fun _ => t.carts[n] } t := by
  rw [h.cart]
  have hslices : (upd s.slices n fun _ => s.slices[n]) = s.slices := upd_id _ _ _ rfl
  rw [InputIs, hslices] at h
  exact h

/-- The frame with every input and slice as it is afterwards. -/
theorem InputIs.frame_all (h : InputIs n s t c x) : Safety.Quiet { s with carts := t.carts, slices := t.slices, freeCtr := t.freeCtr } t := by
  unfold Safety.Quiet
  rw [h.carts_eq, h.slices_eq]
  exact h

end

/-! ### The cartridge set and the worn flag (R54, R61, R106) -/

/-- The first block of a slice's channel that starts from now on. -/
def Slice.nextBlock (x : Slice) : Nat := (40 * x.words + 4095) / 4096

theorem nextBlock_eq (n : Fin 8) (s : State) : nextBlock n s = (s.slices[n]).nextBlock := rfl

/-- A slice with a set loaded. -/
def Slice.loaded (taps : List Int) (src : FirSource) (x : Slice) : Slice :=
  { x with firNext := some (taps, src, 4096 * x.nextBlock), firInactive := taps }

/-- A slice whose blocks from `b` on carry CARTRIDGE_WORN. -/
def Slice.worn (b : Nat) (x : Slice) : Slice :=
  { x with wornFrom := some (match x.wornFrom with | some a => min a b | none => b) }

section
variable {n : Fin 8} {s t : State} {c : Cart} {x : Slice}

theorem InputIs.loadSet (h : InputIs n s t c x) (taps : List Int) (src : FirSource) :
    InputIs n s (loadSet n taps src t) c (x.loaded taps src) := by
  have hload : Machine.loadSet n taps src t = Machine.updSlice n (Slice.loaded taps src) t := by
    simp only [Machine.loadSet, Machine.updSlice, nextBlock_eq]
    rfl
  rw [hload]
  exact h.updSlice _

theorem InputIs.loadPassThrough (h : InputIs n s t c x) :
    InputIs n s (loadPassThrough n t) { c with deriving_ := false } (x.loaded passThrough .passThrough) :=
  (h.updCart _).loadSet ..

/-- Loading the set of an active cartridge touches, of its input, only whether a derivation runs (R54). -/
theorem InputIs.loadCorrection (h : InputIs n s t c x) :
    ∃ d y, InputIs n s (loadCorrection n t) { c with deriving_ := d } y := by
  unfold Machine.loadCorrection
  split
  · exact ⟨_, _, (h.updCart _).loadSet ..⟩
  · exact ⟨_, _, h.updCart _⟩

theorem InputIs.wornFromBlock (h : InputIs n s t c x) (b : Nat) : InputIs n s (wornFromBlock n b t) c (x.worn b) :=
  h.updSlice (Slice.worn b)

/-- A cartridge that becomes FAULTED (R62). -/
def Cart.faulted (c : Cart) : Cart := { c with state := .faulted, counted := 0, writeDue := false, deriving_ := false }

theorem InputIs.cartFaulted (h : InputIs n s t c x) (cause : Nat) :
    InputIs n s (cartFaulted n cause t) c.faulted ((x.loaded passThrough .passThrough).worn x.nextBlock) := by
  have hblock : nextBlock n t = x.nextBlock := by rw [nextBlock_eq, h.slice]
  unfold Machine.cartFaulted
  rw [hblock]
  exact ((h.updCart _).loadPassThrough.wornFromBlock _).quiet (raiseCartFault_quiet ..)

theorem InputIs.cartAbsent (h : InputIs n s t c x) : InputIs n s (cartAbsent n t) Cart.reset { x with wornFrom := none } :=
  (h.updCart _).updSlice _

/-! ### Life (R59 to R61) -/

/-- What a life check can do to a cartridge: WEAR bits, a write trigger and the end of life are added. -/
structure Aged (c d : Cart) : Prop where
  rest : d = { c with wear := d.wear, writeDue := d.writeDue, pastLife := d.pastLife }
  due : c.writeDue = true → d.writeDue = true

theorem Aged.refl (c : Cart) : Aged c c := ⟨rfl, id⟩

theorem InputIs.reachLevel (h : InputIs n s t c x) (b level : Nat) (reached : Bool) :
    ∃ d, Aged c d ∧ InputIs n s (reachLevel n b level reached t) d x := by
  unfold Machine.reachLevel
  split
  · exact ⟨_, ⟨rfl, fun _ => rfl⟩, (h.updCart _).quiet (raiseWear_quiet ..)⟩
  · exact ⟨c, .refl c, h⟩

theorem Aged.trans {c d e : Cart} (h : Aged c d) (k : Aged d e) : Aged c e :=
  ⟨by rw [k.rest, h.rest], fun hc => k.due (h.due hc)⟩

theorem InputIs.lifeCheck (h : InputIs n s t c x) (b : Nat) : ∃ d y, Aged c d ∧ InputIs n s (lifeCheck n b t) d y := by
  obtain ⟨c80, haged80, h80⟩ := h.reachLevel 0 80 (decide (4 / 5 ≤ lifeFraction t.carts[n]))
  obtain ⟨c100, haged100, h100⟩ := h80.reachLevel 1 100 (decide (1 ≤ lifeFraction t.carts[n]))
  unfold Machine.lifeCheck
  dsimp only
  split
  · have hpast := (h100.updCart fun c => { c with pastLife := true }).wornFromBlock b
    exact ⟨{ c100 with pastLife := true }, _, (haged80.trans haged100).trans ⟨rfl, id⟩, hpast⟩
  · exact ⟨_, _, haged80.trans haged100, h100⟩

/-- A level reached before is not reached again. -/
theorem reachLevel_of_reached {b : Nat} (h : (s.carts[n]).wear.getLsbD b = true) (level : Nat) (reached : Bool) :
    reachLevel n b level reached s = s := by
  unfold reachLevel
  rw [h, Bool.not_true, Bool.and_false]
  rfl

/-- With both levels reached and life past, a life check only marks the blocks. -/
theorem InputIs.lifeCheck_past (h : InputIs n s t c x) (hwear : c.wear = 3) (hpast : c.pastLife = true) (b : Nat) :
    InputIs n s (Machine.lifeCheck n b t) c (x.worn b) := by
  have hlevels : (t.carts[n]).wear = 3 := by rw [h.cart, hwear]
  have hlife : (t.carts[n]).pastLife = true := by rw [h.cart, hpast]
  have hsame : { c with pastLife := true } = c := by rw [← hpast]
  unfold Machine.lifeCheck
  dsimp only
  rw [reachLevel_of_reached (b := 0) (by rw [hlevels]; rfl), reachLevel_of_reached (b := 1) (by rw [hlevels]; rfl), if_pos (.inr hlife),
    ← hsame]
  exact (h.updCart _).wornFromBlock b

end

/-! ### The identity read (R53, R55, R62) -/

/-- A cartridge whose identity has been read, with copy `use` of its wear record in use (R55 to R57). -/
def Cart.readFrom (use : Bool) (c : Cart) : Cart :=
  let w := if use then c.wearB else c.wearA
  { c with state := .active, useB := use, seq := BitVec.ofNat 32 (wearSeq w), matings := fieldAt w 4 4 + c.counted,
           dose := fieldAt w 8 8, doseWritten := fieldAt w 8 8, wear := slice w 16 1 |>.headD 0,
           writeDue := decide (0 < c.counted), pastLife := bit (fieldAt w 16 1) 1, counted := 0 }

/-- A cartridge whose identity has been read without a valid copy of its wear record (R62). -/
def Cart.readBlank (c : Cart) : Cart :=
  { c with state := .active, useB := false, seq := 0, matings := 0, dose := 0, doseWritten := 0, wear := 3, writeDue := true,
           pastLife := true, counted := 0 }

section
variable {n : Fin 8} {s t : State} {c : Cart} {x : Slice}

theorem InputIs.cartActive_some (h : InputIs n s t c x) (use : Bool) :
    ∃ d e y, Aged { c.readFrom use with deriving_ := d } e ∧ InputIs n s (cartActive n (some use) t) e y := by
  have hactive : cartActive n (some use) t = raiseCart n false (Machine.lifeCheck n (nextBlock n (Machine.updCart n (Cart.readFrom use) t))
      (Machine.loadCorrection n (Machine.updCart n (Cart.readFrom use) t))) := by
    cases use <;> rfl
  obtain ⟨d, y, hloaded⟩ := (h.updCart (Cart.readFrom use)).loadCorrection
  obtain ⟨e, z, haged, hlife⟩ := hloaded.lifeCheck (nextBlock n (Machine.updCart n (Cart.readFrom use) t))
  rw [hactive]
  exact ⟨d, e, z, haged, hlife.quiet (raiseCart_quiet ..)⟩

theorem InputIs.cartActive_none (h : InputIs n s t c x) :
    ∃ d y b, InputIs n s (cartActive n none t) { c.readBlank with deriving_ := d } (Slice.worn b y) := by
  have hread : InputIs n s (raiseCartFault n 3 (Machine.updCart n Cart.readBlank t)) c.readBlank x :=
    (h.updCart _).quiet (raiseCartFault_quiet ..)
  obtain ⟨d, y, hloaded⟩ := hread.loadCorrection
  exact ⟨d, y, _, (hloaded.lifeCheck_past rfl rfl _).quiet (raiseCart_quiet ..)⟩

/-! ### Removal (R61, R62) -/

theorem InputIs.raiseCart (h : InputIs n s t c x) (removed : Bool) : InputIs n s (raiseCart n removed t) c x :=
  h.quiet (raiseCart_quiet ..)

/-- A cartridge removed with the rails up: its input is as at reset, no block is worn from now on, and from ACTIVE the pass-through set
is loaded. -/
theorem cartridgeRemove_rails (hrails : s.pwr.railsOn = true) (hstate : (s.carts[n]).state ≠ .absent) :
    ∃ y, InputIs n s (cartridgeRemove n s) Cart.reset { y with wornFrom := none } ∧
      ((s.carts[n]).state = .active → y = (s.slices[n]).loaded passThrough .passThrough) := by
  have hs := InputIs.refl n s
  unfold cartridgeRemove
  rw [hrails]
  cases hc : (s.carts[n]).state with
  | absent => exact absurd hc hstate
  | reading => exact ⟨_, hs.cartAbsent, nofun⟩
  | active => exact ⟨_, (hs.raiseCart true).loadPassThrough.cartAbsent, fun _ => rfl⟩
  | faulted => exact ⟨_, (hs.raiseCart true).cartAbsent, nofun⟩

end

/-! ### The commands -/

section
variable {n : Fin 8} {s : State}

theorem exec_cartridgeIdRead {f a b : List Byte} (hlive : live s = true) (hwf : WellFormed.cartridge f a b = true) :
    exec (.cartridgeIdRead n f a b) s = .next (cartridgeIdRead n f a b s) := by
  calc exec (.cartridgeIdRead n f a b) s
      = whenLive s (if WellFormed.cartridge f a b then .next (cartridgeIdRead n f a b s) else .fault .illFormed) := rfl
    _ = .next (cartridgeIdRead n f a b s) := by rw [whenLive_live hlive, if_pos hwf]

theorem exec_cartridgeReadTimeout (hlive : live s = true) :
    exec (.cartridgeReadTimeout n) s = if (s.carts[n]).state == .reading then .next (cartFaulted n 1 s) else .next s := by
  calc exec (.cartridgeReadTimeout n) s
      = whenLive s (if (s.carts[n]).state == .reading then .next (cartFaulted n 1 s) else .next s) := rfl
    _ = _ := whenLive_live hlive _

theorem exec_cartridgeOvercurrent (hlive : live s = true) :
    exec (.cartridgeOvercurrent n) s = .next (cartridgeOvercurrent n s) := by
  calc exec (.cartridgeOvercurrent n) s
      = whenLive s (.next (cartridgeOvercurrent n s)) := rfl
    _ = .next (cartridgeOvercurrent n s) := whenLive_live hlive _

theorem exec_wearRecordWrite (ok : Bool) (hlive : live s = true) :
    exec (.wearRecordWrite n ok) s = .next (wearRecordWrite n ok s) := by
  calc exec (.wearRecordWrite n ok) s
      = whenLive s (.next (wearRecordWrite n ok s)) := rfl
    _ = .next (wearRecordWrite n ok s) := whenLive_live hlive _

theorem exec_cartridgeFirDerived {up : List Bool} (hlive : live s = true) (hwf : WellFormed.instr (.cartridgeFirDerived n up) = true) :
    exec (.cartridgeFirDerived n up) s = if (s.carts[n]).deriving_ && (s.carts[n]).state == .active then
      .next (loadSet n (derivedSet n up s) .derived (updCart n (fun c => { c with deriving_ := false }) s)) else .next s := by
  calc exec (.cartridgeFirDerived n up) s
      = whenLive s (if WellFormed.instr (.cartridgeFirDerived n up) then
          (if (s.carts[n]).deriving_ && (s.carts[n]).state == .active then
            .next (loadSet n (derivedSet n up s) .derived (updCart n (fun c => { c with deriving_ := false }) s)) else .next s)
          else .fault .illFormed) := rfl
    _ = _ := by rw [whenLive_live hlive, if_pos hwf]

/-- The sticky count of a mating on standby power has one byte (R57). -/
theorem stickyByte_toNat (b : Byte) : (if b = 255 then b else b + 1).toNat = min 255 (b.toNat + 1) := by
  split
  · next h => subst h; rfl
  · bv_omega

/-- The identity that an input reads. -/
def Cart.identified (f a b : List Byte) (c : Cart) : Cart := { c with factory := f, wearA := a, wearB := b }

theorem cartridgeIdRead_good {f a b : List Byte} (h : (s.carts[n]).state = .reading) (hok : factoryOk f = true) :
    cartridgeIdRead n f a b s = cartActive n (wearInUse a b) (updCart n (Cart.identified f a b) s) :=
  (if_pos (by rw [h]; rfl)).trans (if_pos hok)

theorem cartridgeIdRead_bad {f a b : List Byte} (h : (s.carts[n]).state = .reading) (hbad : factoryOk f = false) :
    cartridgeIdRead n f a b s = cartFaulted n 2 s :=
  (if_pos (by rw [h]; rfl)).trans (if_neg (by simp [hbad]))

theorem cartridgeIdRead_of_ne {f a b : List Byte} (h : (s.carts[n]).state ≠ .reading) : cartridgeIdRead n f a b s = s :=
  if_neg (by simpa using h)

/-- A wear record is due (R59). -/
def wearDue (n : Fin 8) (s : State) : Prop :=
  (s.carts[n]).state = .active ∧ ((s.carts[n]).writeDue = true ∨ doseDue s.aoCycles s.carts[n] = true)

theorem wearRecordWrite_due (h : wearDue n s) (ok : Bool) :
    wearRecordWrite n ok s = if ok then writeWear n s
      else if (s.carts[n]).writeFailed = 0 then updCart n (fun c => { c with writeFailed := 1 }) s
      else raiseCartFault n 4 (updCart n (fun c => { c with writeFailed := 0, writeDue := false, lastWrite := some s.aoCycles }) s) := by
  obtain ⟨hactive, hdue⟩ := h
  exact if_pos (by rw [hactive]; simpa using hdue)

theorem wearRecordWrite_notDue (h : ¬ wearDue n s) (ok : Bool) : wearRecordWrite n ok s = s :=
  if_neg (by simpa [wearDue] using h)

end

/-- Settles O54. Each command at an input leaves the state of `InputIs`: the input, its slice and at most an event; a write that failed
twice counts as the last one in time (log 139). -/
theorem cartridgeInputs : Obligations.CartridgeInputs := by
  intro n s c
  have hs := InputIs.refl n s
  refine ⟨?insert, ?noInsert, ?mating, ?noMating, ?remove, ?removeAbsent, ?removeOff, fun hlive => ⟨?read, ?timeout, ?noTimeout, ?overActive,
    ?overReading, ?noOver, ?write, ?noWrite, ?derived⟩⟩
  case insert =>
    intro hrails (hstate : (s.carts[n]).state = .absent)
    exact if_pos (by rw [hrails, hstate]; rfl)
  case noInsert =>
    intro h
    exact if_neg (by simpa [c, imp_iff_not_or] using h)
  case mating =>
    intro hstandby hrails
    refine ⟨_, if_pos (by simp [hstandby, hrails]), ?count, ?present, ?frame⟩
    case count => simpa using stickyByte_toNat _
    case present => simp
    case frame => simp [upd]
  case noMating =>
    intro h
    exact if_neg (by simpa [imp_iff_not_or] using h)
  case remove =>
    intro hrails hstate
    obtain ⟨y, h, hactive⟩ := cartridgeRemove_rails hrails hstate
    refine ⟨_, rfl, h.cart, by rw [h.slice], fun hc => ?_, fun k hk => ⟨h.cart_ne hk, h.slice_ne hk⟩, h.frame_all⟩
    rw [h.slice, hactive hc]
    rfl
  case removeAbsent =>
    intro hrails (hstate : (s.carts[n]).state = .absent)
    calc exec (.cartridgeRemove n) s = .next (cartridgeRemove n s) := rfl
      _ = .next s := by rw [cartridgeRemove, hrails, hstate]; rfl
  case removeOff =>
    intro hrails
    calc exec (.cartridgeRemove n) s = .next (cartridgeRemove n s) := rfl
      _ = _ := by rw [cartridgeRemove, hrails]; rfl
  case read =>
    intro f a b hwf
    rw [exec_cartridgeIdRead hlive hwf]
    refine ⟨?other, ?bad, ?good, ?blank⟩
    case other => exact fun hstate => by rw [cartridgeIdRead_of_ne hstate]
    case bad =>
      intro (hstate : (s.carts[n]).state = .reading) hbad
      have h := hs.cartFaulted 2
      refine ⟨_, by rw [cartridgeIdRead_bad hstate hbad], ?_⟩
      exact ⟨by rw [h.cart]; rfl, by rw [h.slice]; rfl, by rw [h.slice]; rfl, fun k hk => h.cart_ne hk⟩
    case good =>
      intro use (hstate : (s.carts[n]).state = .reading) hok huse
      obtain ⟨d, e, y, haged, h⟩ := (hs.updCart (Cart.identified f a b)).cartActive_some use
      refine ⟨_, by rw [cartridgeIdRead_good hstate hok, huse], ?_⟩
      rw [h.cart]
      have hfields := haged.rest
      refine ⟨by rw [hfields]; rfl, by rw [hfields]; rfl, by rw [hfields]; rfl, by rw [hfields]; rfl, by rw [hfields]; rfl,
        by rw [hfields]; rfl, fun hcounted => haged.due (decide_eq_true hcounted), fun k hk => h.cart_ne hk⟩
    case blank =>
      intro (hstate : (s.carts[n]).state = .reading) hok hnone
      obtain ⟨d, y, b', h⟩ := (hs.updCart (Cart.identified f a b)).cartActive_none
      refine ⟨_, by rw [cartridgeIdRead_good hstate hok, hnone], ?_⟩
      rw [h.cart, h.slice]
      exact ⟨rfl, rfl, rfl, rfl, rfl, rfl, rfl⟩
  case timeout =>
    intro (hstate : (s.carts[n]).state = .reading)
    have h := hs.cartFaulted 1
    exact ⟨_, by rw [exec_cartridgeReadTimeout hlive, hstate]; rfl, h.cart, by rw [h.slice]; rfl, by rw [h.slice]; rfl, h.frame⟩
  case noTimeout =>
    intro hstate
    rw [exec_cartridgeReadTimeout hlive, if_neg (by simpa [c] using hstate)]
  case overActive =>
    intro (hstate : (s.carts[n]).state = .active)
    have h := (hs.updCart fun c => { c with v33 := false }).cartFaulted 0
    refine ⟨_, by rw [exec_cartridgeOvercurrent hlive, cartridgeOvercurrent, hstate], ?_⟩
    exact ⟨by rw [h.cart]; rfl, by rw [h.cart]; rfl, by rw [h.slice]; rfl, by rw [h.slice]; rfl, h.frame⟩
  case overReading =>
    intro (hstate : (s.carts[n]).state = .reading)
    have h := ((hs.updCart fun c => { c with state := .faulted, counted := 0 }).updCart fun c => { c with v33 := false }).quiet
      (raiseCartFault_quiet n 0 _)
    refine ⟨_, by rw [exec_cartridgeOvercurrent hlive, cartridgeOvercurrent, hstate], ?_⟩
    exact ⟨by rw [h.cart], by rw [h.cart], h.frame_cart⟩
  case noOver =>
    rintro (hstate | hstate)
    all_goals rw [exec_cartridgeOvercurrent hlive, cartridgeOvercurrent, show (s.carts[n]).state = _ from hstate]
  case write =>
    intro hactive hdue
    have hwrite := wearRecordWrite_due ⟨hactive, hdue⟩
    simp only [exec_wearRecordWrite _ hlive, hwrite]
    refine ⟨?done, ?once, ?twice⟩
    case done => rfl
    case once => exact fun hfirst => by rw [if_pos hfirst]; rfl
    case twice => exact fun hagain => ⟨_, by rw [if_neg hagain]; rfl, raiseCartFault_quiet ..⟩
  case noWrite =>
    intro hquiet ok
    have hnot : ¬ wearDue n s := by
      rintro ⟨hactive, hdue⟩
      rcases hquiet with hstate | ⟨hwrite, hdose⟩
      · exact hstate hactive
      · simp [c] at hwrite hdose
        simp [hwrite, hdose] at hdue
    rw [exec_wearRecordWrite ok hlive, wearRecordWrite_notDue hnot]
  case derived =>
    intro up hwf
    rw [exec_cartridgeFirDerived hlive hwf]
    refine ⟨fun (hderiving : (s.carts[n]).deriving_ = true) (hactive : (s.carts[n]).state = .active) => ?_, fun h => ?_⟩
    · rw [hderiving, hactive]
      rfl
    · exact if_neg (by simpa [c, imp_iff_not_or] using h)

end Sys2Proof.Machine
end
section
/-!
SUPPORT. What an APPLY and the register writes of a restore leave alone: the boot block, the settings store and the activation record. One
lemma per operation, in the order of the operations' definitions.
-/
namespace Sys2Proof.Machine

/-- The boot block (R409 to R413), the settings store (R471 to R480) and the activation record (R467). -/
structure Control where
  boot : Boot
  cfg : Cfg
  act : Activation

def State.control (s : State) : Control := { boot := s.boot, cfg := s.cfg, act := s.upd.act }

/-! ### Events, branches and loops -/

theorem control_of_quiet {s t : State} (h : Safety.Quiet s t) : t.control = s.control := by
  rw [h]
  rfl

theorem ite_control {p : Prop} [Decidable p] {s t : State} (h : t.control = s.control) : (if p then t else s).control = s.control := by
  split
  · exact h
  · rfl

theorem forAll_control {n : Nat} {f : Fin n → State → State} (h : ∀ i s, (f i s).control = s.control) (s : State) :
    (forAll n f s).control = s.control := forAll_frame State.control f s h

theorem foldl_control {α : Type} {f : State → α → State} (h : ∀ s a, (f s a).control = s.control) (l : List α) (s : State) :
    (l.foldl f s).control = s.control := foldl_frame State.control f l s h

theorem forStreams_control {kind : StreamKind} {source : Nat} {f : Fin 64 → Stream → State → State}
    (h : ∀ i st s, (f i st s).control = s.control) (s : State) : (forStreams kind source f s).control = s.control :=
  forAll_control (fun i s => by
    split
    · exact ite_control (h ..)
    · rfl) s

section
variable (src : Fin 256) (sev : Nat) (ts : TS96) (data : List Byte) (s : State)
@[simp] theorem raise_control : (raise src sev ts data s).control = s.control := control_of_quiet (raise_quiet ..)
@[simp] theorem raiseNow_control : (raiseNow src sev data s).control = s.control := control_of_quiet (raiseNow_quiet ..)
@[simp] theorem raiseBoot_control : (raiseBoot src sev data s).control = s.control := control_of_quiet (raiseBoot_quiet ..)
end

/-! ### Streams and reductions -/

section
variable (s : State)

@[simp] theorem setStream_control (i : Fin 64) (x : Option Stream) : (setStream i x s).control = s.control := rfl

@[simp] theorem updStream_control (i : Fin 64) (f : Stream → Stream) : (updStream i f s).control = s.control := rfl

@[simp] theorem countGap_control (st : Stream) : (countGap st s).control = s.control := by
  unfold countGap
  split <;> rfl

@[simp] theorem putGap_control (i : Fin 64) (g : Gap) : (putGap i g s).control = s.control := by
  unfold putGap
  split
  · rfl
  · simp

@[simp] theorem resumeStream_control (i : Fin 64) : (resumeStream i s).control = s.control := by
  unfold resumeStream
  split
  · split
    · exact ite_control (putGap_control ..)
    · rfl
  · rfl

@[simp] theorem pushGrouped_control (i : Fin 64) (header record : List Byte) (ts : TS96) (weight : Nat) :
    (pushGrouped i header record ts weight s).control = s.control := by
  unfold pushGrouped
  dsimp only
  split
  · simp
  · split_ifs <;> simp

@[simp] theorem streamRecord_control (r : RedRec) (i : Fin 64) (st : Stream) : (streamRecord r i st s).control = s.control := by
  unfold streamRecord
  dsimp only
  split_ifs <;> simp

@[simp] theorem updRed_control (ch : Fin 8) (f : RedBank → RedBank) : (updRed ch f s).control = s.control := rfl

@[simp] theorem putRecordRed_control (ch : Fin 8) (r : RedRec) : (putRecordRed ch s r).control = s.control :=
  forStreams_control (fun _ _ _ => streamRecord_control ..) _

@[simp] theorem flushRecords_control (ch : Fin 8) : (flushRecords ch s).control = s.control :=
  foldl_control (fun s r => putRecordRed_control s ch r) _ _

@[simp] theorem restartLane_control (ch : Fin 8) (k : Fin 4) (at_ : Nat) : (restartLane ch k at_ s).control = s.control := rfl

@[simp] theorem endPartial_control (ch : Fin 8) (at_ : Nat) (k : Fin 4) : (endPartial ch at_ k s).control = s.control := by
  unfold endPartial
  rw [restartLane_control]
  split <;> rfl

@[simp] theorem redSwitch_control (ch : Fin 8) (at_ : Nat) (f : RedBank → RedBank) : (redSwitch ch at_ f s).control = s.control := by
  rw [redSwitch, updRed_control]
  exact forAll_control (fun k s => endPartial_control s ch at_ k) s

/-! ### Segments that end -/

@[simp] theorem updSeg_control (seq : Nat) (f : Segment → Segment) : (updSeg seq f s).control = s.control := rfl

@[simp] theorem updInst_control (i : Fin 16) (f : Inst → Inst) : (updInst i f s).control = s.control := rfl

@[simp] theorem raiseRetro_control (g : Segment) : (raiseRetro g s).control = s.control := ite_control (raiseNow_control ..)

@[simp] theorem streamSegment_control (seq : Nat) (i : Fin 64) (st : Stream) : (streamSegment seq i st s).control = s.control := by
  unfold streamSegment
  split <;> rfl

@[simp] theorem brimCount_control (i : Fin 6) (k : Nat) : (brimCount i k s).control = s.control := by
  unfold brimCount
  dsimp only
  split
  · rw [raiseNow_control]
    rfl
  · rfl

@[simp] theorem enqueueSeg_control (i : Fin 16) (seq : Nat) {report : State → State} (h : ∀ s, (report s).control = s.control) :
    (enqueueSeg i seq report s).1.control = s.control := by
  unfold enqueueSeg countSkips
  dsimp only
  split_ifs <;> simp [h, raiseSvc]

@[simp] theorem queueMeasure_control (g : Segment) : (queueMeasure g s).control = s.control := by
  unfold queueMeasure
  dsimp only
  split_ifs <;> simp [raiseMs]

@[simp] theorem queueAverage_control (g : Segment) : (queueAverage g s).control = s.control := by
  unfold queueAverage
  dsimp only
  split
  · split_ifs <;> simp [raiseRa]
  · rfl

@[simp] theorem finishSegment_control (g : Segment) : (finishSegment g s).control = s.control := by
  unfold finishSegment
  extract_lets done reported
  rw [queueAverage_control, queueMeasure_control, forStreams_control fun i st s => streamSegment_control s done.seq i st]
  exact (raiseRetro_control ..).trans (updSeg_control ..)

@[simp] theorem endSegments_control : (endSegments s).control = s.control :=
  foldl_control (fun s g => by
    split
    · exact finishSegment_control ..
    · rfl) _ s

/-! ### The new era (R100, R122) -/

@[simp] theorem updAs_control (a : Fin 4) (f : Seq → Seq) : (updAs a f s).control = s.control := rfl

@[simp] theorem updTac_control (n : Fin 8) (f : Tac → Tac) : (updTac n f s).control = s.control := rfl

@[simp] theorem updDdc_control (ch : Fin 8) (f : Ddc → Ddc) : (updDdc ch f s).control = s.control := rfl

@[simp] theorem updBrim_control (f : Brim → Brim) : (updBrim f s).control = s.control := rfl

@[simp] theorem endStop_control (a : Fin 4) : (endStop a s).control = s.control := by
  unfold endStop
  split
  · simp [raiseAs]
  · rfl

@[simp] theorem shiftLc_control : (shiftLc s).control = s.control := rfl

@[simp] theorem comeStale_control (n : Fin 8) : (comeStale n s).control = s.control := by
  unfold comeStale
  dsimp only
  split_ifs <;> simp [raiseCal]

@[simp] theorem rebaseNco_control (ch : Fin 8) : (rebaseNco ch s).control = s.control := rfl

@[simp] theorem spRestart_control (i : Fin 16) (n : Nat) : (spRestart i n s).control = s.control := by
  unfold spRestart
  split <;> rfl

@[simp] theorem restartOnChain_control (ch : Fin 8) (n : Nat) : (restartOnChain ch n s).control = s.control :=
  forAll_control (fun i s => by
    split
    · exact ite_control (spRestart_control ..)
    · rfl) s

@[simp] theorem closeFrame_control (i : Fin 64) : (closeFrame i s).control = s.control := updStream_control ..

@[simp] theorem closeFrames_control (ch : Fin 8) : (closeFrames ch s).control = s.control :=
  forStreams_control (fun i _ s => closeFrame_control s i) s

@[simp] theorem chainSwitch_control (ch : Fin 8) (new : DdcCfg) (w : Nat) : (chainSwitch ch new w s).control = s.control := by
  unfold chainSwitch
  dsimp only
  split_ifs <;> simp

@[simp] theorem chainProofing_control (ch : Fin 8) : (chainProofing ch s).control = s.control := by
  unfold chainProofing
  rw [restartOnChain_control, updDdc_control]
  split
  · exact chainSwitch_control ..
  · rfl

@[simp] theorem restartSpectral_control : (restartSpectral s).control = s.control :=
  forAll_control (fun i s => by
    split
    · exact ite_control (spRestart_control ..)
    · rfl) s

@[simp] theorem newEra_control : (newEra s).control = s.control := by
  unfold newEra
  extract_lets rebased
  have hrebased : rebased.control = s.control := by
    rw [forAll_control fun n s => (rebaseNco_control ..).trans (comeStale_control s n), shiftLc_control,
      forAll_control fun a s => endStop_control s a]
  clear_value rebased
  rw [restartSpectral_control, forAll_control fun ch s => chainProofing_control s ch]
  exact hrebased

/-! ### APPLY (R66) -/

@[simp] theorem reportImport_control : (reportImport s).control = s.control := ite_control (raiseNow_control ..)

@[simp] theorem rejectQueued_control : (rejectQueued s).control = s.control := by
  unfold rejectQueued
  dsimp only
  split_ifs <;> simp [importCount]

@[simp] theorem updCart_control (n : Fin 8) (f : Cart → Cart) : (updCart n f s).control = s.control := rfl

@[simp] theorem updSlice_control (n : Fin 8) (f : Slice → Slice) : (updSlice n f s).control = s.control := rfl

@[simp] theorem reachLevel_control (n : Fin 8) (b level : Nat) (reached : Bool) : (reachLevel n b level reached s).control = s.control :=
  ite_control (raiseNow_control ..)

@[simp] theorem lifeCheck_control (n : Fin 8) (b : Nat) : (lifeCheck n b s).control = s.control := by
  unfold lifeCheck
  dsimp only
  split_ifs <;> simp [wornFromBlock]

@[simp] theorem addDose_control (n : Fin 8) (clips b : Nat) : (addDose n clips b s).control = s.control :=
  ite_control (lifeCheck_control ..)

@[simp] theorem cutBlocks_control : (cutBlocks s).control = s.control := forAll_control (fun n s => addDose_control s n _ _) s

@[simp] theorem toBypass_control : (toBypass s).control = s.control := by
  unfold toBypass raiseClk
  split
  · rfl
  · rw [raise_control]
    rfl

@[simp] theorem relock_control : (relock s).control = s.control := toBypass_control s

@[simp] theorem endRetros_control (n : Nat) : (endRetros n s).control = s.control := rfl

@[simp] theorem withClock_control : (withClock s).control = s.control := rfl

@[simp] theorem setBypass_control : (setBypass s).control = s.control := rfl

@[simp] theorem resetTimebase_control : (resetTimebase s).control = s.control := rfl

@[simp] theorem updateMoment_control (n : Nat) : (updateMoment n s).control = s.control := rfl

@[simp] theorem discardHistory_control : (discardHistory s).control = s.control := raiseNow_control ..

@[simp] theorem checkAligned_control : (checkAligned s).control = s.control := by
  unfold checkAligned
  dsimp only
  split
  · rfl
  · split <;> exact raiseNow_control ..

@[simp] theorem acceptApply_control : (acceptApply s).control = s.control := by
  unfold acceptApply
  extract_lets cut n flushed locked
  have hcut : cut.control = s.control := cutBlocks_control s
  clear_value n cut
  have hflushed : flushed.control = s.control := by
    rw [forAll_control fun ch s => (flushRecords_control ..).trans (redSwitch_control s ch n id), endRetros_control, hcut]
  clear_value flushed
  have hlocked : locked.control = s.control := by
    rw [relock_control, setBypass_control, withClock_control, endSegments_control, hflushed]
  clear_value locked
  rw [checkAligned_control, updateMoment_control, discardHistory_control, resetTimebase_control, newEra_control, rejectQueued_control,
    hlocked]

@[simp] theorem applyNow_control : (applyNow s).control = s.control := by
  unfold applyNow
  split
  · rfl
  · split
    · rfl
    · exact acceptApply_control s

/-! ### A restore begins (R477) -/

@[simp] theorem restoreRegister_control (off : Nat) (v : W32) : (restoreRegister off v s).control = s.control := by
  unfold restoreRegister writeLock writeTrigout
  split_ifs <;> rfl

@[simp] theorem restoreRegisters_control (payload : List Byte) : (restoreRegisters payload s).control = s.control :=
  foldl_control (fun s _ => restoreRegister_control s _ _) _ s

@[simp] theorem restoreBand_control (payload : List Byte) : (restoreBand payload s).control = s.control := by
  unfold restoreBand
  dsimp only
  split <;> rfl

@[simp] theorem updCfg_control (f : Cfg → Cfg) : (updCfg f s).control = { s.control with cfg := f s.control.cfg } := rfl

/-- A restore that begins changes, of the boot block, the store and the record, what the restore itself notes in the store. -/
theorem beginRestore_control (items : List CfgItem) :
    (beginRestore items s).control = { s.control with cfg := { s.cfg with
      restoring := true, itemsSkipped := 0, skipped := [], toRestore := (beginRestore items s).cfg.toRestore } } := by
  unfold beginRestore
  extract_lets begun of clock bands applied rest
  have hclock : clock.control = begun.control := foldl_control (fun s (x : CfgItem) => restoreRegisters_control s x.payload) ..
  have hbands : bands.control = clock.control := foldl_control (fun s (x : CfgItem) => restoreBand_control s x.payload) ..
  have happlied : applied.control = bands.control := ite_control (applyNow_control bands)
  have hrest : rest.control = applied.control := foldl_control (fun s (x : CfgItem) => restoreRegisters_control s x.payload) ..
  rw [happlied, hbands, hclock] at hrest
  clear_value rest
  rw [updCfg_control, hrest]
  rfl

end

/-! ### The settings at boot (R476, R477) -/

section
variable {s : State}

/-- The copy in use depends on the copies and the slot only. -/
theorem copyInUse_congr {c d : Cfg} (hslots : c.slots = d.slots) (hslot : c.slot = d.slot) : copyInUse c = copyInUse d := by
  have hcopy : copyOf c = copyOf d := by
    funext b
    simp only [copyOf, hslots, hslot]
  rw [copyInUse, copyInUse, hcopy]

theorem readStore_none (h : copyInUse s.cfg = none) :
    (readStore s).control = { s.control with cfg := { s.cfg with copyB := false, gen := 0, defaulted := true } } := by
  unfold readStore
  rw [h]
  exact raiseBoot_control ..

theorem readStore_some {b : Bool} (h : copyInUse s.cfg = some b) :
    (readStore s).control = { s.control with cfg := { s.cfg with copyB := b, gen := (copyOf s.cfg b).gen, defaulted := false } } := by
  unfold readStore
  rw [h]
  rfl

theorem bootSettings_none (h : copyInUse s.cfg = none) :
    (bootSettings s).control = { s.control with cfg := { s.cfg with copyB := false, gen := 0, defaulted := true } } := by
  have hread := readStore_none h
  have hcfg : (readStore s).cfg = _ := congrArg Control.cfg hread
  have hnone : copyInUse (readStore s).cfg = none := (copyInUse_congr (by rw [hcfg]) (by rw [hcfg])).trans h
  have hboot : bootSettings s = readStore s := by
    unfold bootSettings
    dsimp only
    rw [hnone]
  rw [hboot, hread]

/-- With a copy in use, a restore begins where BOOT_RESTORE is set. -/
theorem bootSettings_some {b : Bool} (h : copyInUse s.cfg = some b) :
    (bootSettings s).boot = s.boot ∧ (bootSettings s).cfg.slot = s.cfg.slot ∧ (bootSettings s).cfg.copyB = b ∧
      (bootSettings s).cfg.defaulted = false ∧ (s.cfg.bootRestore = true → (bootSettings s).cfg.restoring = true) := by
  have hread := readStore_some h
  have hreadBoot : (readStore s).boot = _ := congrArg Control.boot hread
  have hreadCfg : (readStore s).cfg = _ := congrArg Control.cfg hread
  have hsome : copyInUse (readStore s).cfg = some b := (copyInUse_congr (by rw [hreadCfg]) (by rw [hreadCfg])).trans h
  have hflag : (readStore s).cfg.bootRestore = s.cfg.bootRestore := by rw [hreadCfg]
  cases hrestore : s.cfg.bootRestore with
  | true =>
    have hbegin := beginRestore_control (readStore s) (copyOf (readStore s).cfg b).items
    have hboot : bootSettings s = beginRestore (copyOf (readStore s).cfg b).items (readStore s) := by
      unfold bootSettings
      dsimp only
      rw [hsome, hflag, hrestore]
    have hbeginBoot : (beginRestore (copyOf (readStore s).cfg b).items (readStore s)).boot = _ := congrArg Control.boot hbegin
    have hbeginCfg : (beginRestore (copyOf (readStore s).cfg b).items (readStore s)).cfg = _ := congrArg Control.cfg hbegin
    rw [hboot, hbeginBoot, hbeginCfg]
    exact ⟨hreadBoot, by rw [hreadCfg], by rw [hreadCfg], by rw [hreadCfg], fun _ => rfl⟩
  | false =>
    have hboot : bootSettings s = readStore s := by
      unfold bootSettings
      dsimp only
      rw [hsome, hflag, hrestore]
    rw [hboot, hreadBoot, hreadCfg]
    exact ⟨rfl, rfl, rfl, rfl, nofun⟩

end

end Sys2Proof.Machine
end
section
/-!
SUPPORT and the proof of O44: what a reset of the device keeps (R46, R481), the main rails going off (R415), and the supplies.
-/
namespace Sys2Proof.Machine

/-! ### A reset of the device (R46, R481) -/

/-- `t` differs from `s` at most in the update block and the counter of free values. -/
def OnlyUpd (s t : State) : Prop := t = { s with freeCtr := t.freeCtr, upd := t.upd }

theorem dropPartial_onlyUpd (s : State) : OnlyUpd s (dropPartial s) := by
  unfold dropPartial
  split
  · refine forAll_keeps (OnlyUpd s) _ s (fun p t ht => ?_) rfl
    unfold OnlyUpd at *
    dsimp only
    split_ifs
    · exact ht
    · rw [ht]
      rfl
    · rw [ht]
      rfl
  · rfl

/-- What a reset keeps, read from the state before it. -/
theorem deviceReset_eq (s : State) : deviceReset s = { State.reset with
    pending := s.pending, aoCycles := s.aoCycles, freeCtr := (dropPartial s).freeCtr, busRead := s.busRead, hostMem := s.hostMem,
    hif := { Hif.reset with sent := s.hif.sent }, pwr := s.pwr.quiet, health := s.health.kept, tap := s.tap,
    proof := { Proofing.reset with step := 0 }, slices := Vector.ofFn fun n : Fin 8 => (s.slices[n]).kept n.val, carts := s.carts,
    tacs := s.tacs.map fun t => { Tac.reset with table := t.saved, saved := t.saved, quietSince := s.aoCycles },
    eng := { Eng.reset with retired := s.eng.retired },
    brim := { Brim.reset with links := s.brim.links.map fun l => { BrimLink.reset with sent := l.sent } },
    upd := (dropPartial s).upd.kept, cfg := s.cfg.kept, acc := s.acc.kept } := by
  unfold deviceReset
  rw [dropPartial_onlyUpd s]

/-! ### The main rails go off (R415) -/

/-- In `t` the main rails are off, and causes, trips, host memory and the non-volatile store are as in `s`. -/
structure RailsLost (s t : State) : Prop where
  off : t.pwr.railsOn = false
  cause : t.pwr.mgCause = s.pwr.mgCause
  trips : t.health.trips = s.health.trips
  hostMem : t.hostMem = s.hostMem
  slots : t.cfg.slots = s.cfg.slots
  pwHash : t.acc.pwHash = s.acc.pwHash

theorem railsOff_lost (s : State) : RailsLost s (railsOff s) := by
  unfold railsOff
  rw [deviceReset_eq]
  split
  · next hoff => exact ⟨by simpa using hoff, rfl, rfl, rfl, rfl, rfl⟩
  · exact ⟨rfl, rfl, rfl, rfl, rfl, rfl⟩

/-- A protection turns the rails off, notes its cause and holds the sequencer (R417, R425). -/
theorem tripOff_spec (cause : BitVec 4) (s : State) :
    (tripOff cause s).pwr.railsOn = false ∧ (tripOff cause s).pwr.mgCause = s.pwr.mgCause ||| cause ∧
      (tripOff cause s).pwr.trip = some { cause := cause, elapsed := false, restart := false } ∧
      (tripOff cause s).health.trips = s.health.trips ∧ (tripOff cause s).cfg.slots = s.cfg.slots := by
  have hlost := railsOff_lost s
  exact ⟨hlost.off, congrArg (· ||| cause) hlost.cause, rfl, hlost.trips, hlost.slots⟩

/-! ### The ring writer (R369) -/

/-- `t` differs from `s` at most in host memory and the host interface. -/
def OnlyHost (s t : State) : Prop := t = { s with hostMem := t.hostMem, hif := t.hif }

theorem OnlyHost.trans {s t u : State} (h : OnlyHost s t) (k : OnlyHost t u) : OnlyHost s u := by
  unfold OnlyHost at *
  rw [k, h]

theorem hostWrite_onlyHost (addr : Nat) (bytes : List Byte) (s : State) : OnlyHost s (hostWrite addr bytes s) := rfl

theorem putRecord_onlyHost (e : Event) (coalesced : Bool) (s : State) : OnlyHost s (putRecord e coalesced s) := by
  unfold putRecord
  extract_lets r phase addr bytes written advanced hif ringed
  have hwritten : OnlyHost s written := hostWrite_onlyHost ..
  clear_value written
  have hringed : OnlyHost s ringed := hwritten.trans rfl
  clear_value ringed
  split
  · exact hringed.trans rfl
  · exact hringed

theorem putSummary_onlyHost (src : Fin 256) (s : State) : OnlyHost s (putSummary src s) := by
  unfold putSummary
  dsimp only
  split
  · rfl
  · exact OnlyHost.trans (by rfl) (putRecord_onlyHost ..)

theorem leaveOverflow_onlyHost (s : State) : OnlyHost s (leaveOverflow s) := by
  unfold leaveOverflow
  dsimp only
  split
  · exact forAll_keeps (OnlyHost s) putSummary _ (fun src _ h => h.trans (putSummary_onlyHost src _)) rfl
  · rfl

theorem writeEvent_onlyHost (src : Fin 256) (s : State) : OnlyHost s (writeEvent src s) := by
  have hleft := leaveOverflow_onlyHost s
  unfold writeEvent
  extract_lets left e
  have hput : ∀ ev, OnlyHost s (putRecord ev false (updSource src (fun e => { e with waiting := none }) left)) :=
    fun ev => hleft.trans (.trans (by rfl) (putRecord_onlyHost ..))
  split
  · split
    · exact hleft
    · split
      · exact hleft
      · next ev _ =>
        dsimp only
        split
        · exact hput ev
        · exact (hput ev).trans (putSummary_onlyHost ..)
  · rfl

/-- RAIL_FAULT (R417): its record reaches the ring before the rails fall. -/
theorem railFault_spec (r : Fin 22) (u i : BitVec 16) {s : State} (hon : s.pwr.railsOn = true) :
    (railFault r u i s).pwr.railsOn = false ∧ (railFault r u i s).pwr.mgCause = s.pwr.mgCause ||| 2 ∧
      (railFault r u i s).pwr.trip = some { cause := 2, elapsed := false, restart := false } ∧
      (railFault r u i s).cfg.slots = s.cfg.slots := by
  have hwritten := writeEvent_onlyHost 0x03 (raiseNow 0x03 sevCritical (railFaultData r u i) s)
  have hpwr := congrArg State.pwr hwritten
  have hcfg := congrArg State.cfg hwritten
  simp only [raiseNow_pwr, raiseNow_cfg] at hpwr hcfg
  obtain ⟨hoff, hcause, htrip, -, hslots⟩ := tripOff_spec 2 (writeEvent 0x03 (raiseNow 0x03 sevCritical (railFaultData r u i) s))
  have hfault : railFault r u i s = tripOff 2 (writeEvent 0x03 (raiseNow 0x03 sevCritical (railFaultData r u i) s)) := by
    simp [railFault, hon]
  rw [hfault]
  exact ⟨hoff, by rw [hcause, hpwr], htrip, by rw [hslots, hcfg]⟩

/-! ### The main rails start (R415) -/

theorem mainRailsOn_held (present : BitVec 8) {s : State} (h : s.pwr.railsOn = true ∨ railsAllowed s = false) :
    mainRailsOn present s = s := by
  unfold mainRailsOn
  exact if_pos (by simpa using h)

/-- An input as the rails come up (R57, R62): a present cartridge is being read, with its matings on standby power counted. -/
def Cart.started (present : Bool) (matings : Byte) : Cart :=
  if present then { Cart.reset with state := .reading, present := true, v33 := true, counted := matings.toNat } else Cart.reset

/-- What the rails coming up leave of the power block and the inputs. -/
structure RailsStarted (present : BitVec 8) (s t : State) : Prop where
  on : t.pwr.railsOn = true
  group : t.pwr.railGroup = 0
  trip : t.pwr.trip = none
  perst : t.pwr.perst = s.pwr.perst
  cart : ∀ n : Fin 8, t.carts[n] = Cart.started (present.getLsbD n.val) s.pwr.standbyMatings[n]

theorem mainRailsOn_started (present : BitVec 8) {s : State} (hoff : s.pwr.railsOn = false) (hallowed : railsAllowed s = true) :
    RailsStarted present s (mainRailsOn present s) := by
  have hnot : ¬ (s.pwr.railsOn || !railsAllowed s) = true := by simp [hoff, hallowed]
  unfold mainRailsOn
  rw [if_neg hnot]
  exact ⟨rfl, rfl, rfl, rfl, fun n => by simp [Cart.started]; rfl⟩

/-- Settles O44. Without VSTBY the sequencer has no supply, so the main rails are off as well (log 69); the matings counted on standby power
are handed over as the rails come up (log 120). -/
theorem suppliesAndRails : Obligations.SuppliesAndRails := by
  intro s
  refine ⟨rfl, ?vstbyLoss, ?vmainValid, ?vmainLow, ?railsStart, ?railsHeld, ?groupReady, ?shed, ?loopB, ?fault, ?faultOff, ?trip, rfl⟩
  case vstbyLoss =>
    have hlost := railsOff_lost s
    exact ⟨_, rfl, rfl, hlost.off, rfl, rfl, rfl, rfl, hlost.hostMem, hlost.slots, hlost.pwHash⟩
  case vmainValid => exact ⟨_, rfl, rfl, fun h => congrArg (Option.map _) h, fun _ h => congrArg (Option.map _) h⟩
  case vmainLow =>
    have hlost := railsOff_lost s
    exact ⟨_, rfl, rfl, hlost.off, congrArg (fun c => if s.pwr.railsOn then c ||| 8 else c) hlost.cause, hlost.slots⟩
  case railsStart =>
    intro present hoff hallowed
    have hstarted := mainRailsOn_started present hoff hallowed
    refine ⟨_, rfl, hstarted.on, hstarted.group, hstarted.trip, fun n hn => ?_, fun n hn => ?_⟩
    · rw [cart3V3, hstarted.cart, hstarted.on, hstarted.perst, Cart.started, hn]
      exact ⟨rfl, rfl, rfl⟩
    · rw [cart3V3, hstarted.cart, Cart.started, hn]
      exact ⟨rfl, rfl⟩
  case railsHeld =>
    intro present h
    calc exec (.mainRailsOn present) s = .next (mainRailsOn present s) := rfl
      _ = .next s := by rw [mainRailsOn_held present h]
  case groupReady =>
    intro hon hgroup
    calc exec .railGroupReady s = .next (if s.pwr.railsOn && decide (s.pwr.railGroup < 10) then
          updPwr (fun p => { p with railGroup := p.railGroup + 1 }) s else s) := rfl
      _ = _ := by rw [if_pos (by simp [hon, hgroup])]
  case shed =>
    intro r k hon hstage hnew
    refine ⟨_, rfl, ?_⟩
    rw [phaseShed, if_pos (by simpa [hon, hstage] using hnew)]
    exact raiseNow_quiet ..
  case loopB =>
    intro r hon hloop
    refine ⟨_, rfl, ?_⟩
    rw [if_pos (by simpa [hon] using hloop)]
    exact raiseNow_quiet ..
  case fault => exact fun r u i hon => ⟨_, rfl, railFault_spec r u i hon⟩
  case faultOff =>
    intro r u i hoff
    calc exec (.railFault r u i) s = .next (railFault r u i s) := rfl
      _ = .next s := by rw [railFault, hoff]; rfl
  case trip =>
    intro hon
    obtain ⟨hoff, hcause, htrip, htrips, -⟩ := tripOff_spec 1 (updHealth (fun h => { h with trips := h.trips + 1 }) s)
    exact ⟨_, congrArg Host.Outcome.next (if_pos hon), hoff, hcause, htrip, htrips⟩

end Sys2Proof.Machine
end
section
/-!
SUPPORT and the proof of O46: PERST# asserted (R46), the starter and the loader (R409, R410, R460, R464), the settings at boot (R476) and
READY (R488).
-/
namespace Sys2Proof.Machine

/-! ### PERST# is asserted (R46) -/

theorem reportClosed_quiet (levels : List (Fin 2)) (s : State) : Safety.Quiet s (reportClosed levels s) :=
  foldl_keeps (Safety.Quiet s) _ levels s (fun _ _ h => quiet_trans h (raiseBoot_quiet ..)) (quiet_refl s)

/-- The device as PERST# asserted leaves it, but for the reports of levels that it closed. -/
def heldByPerst (s : State) : State := updPwr (fun p => { p with perst := true, perstAt := s.aoCycles }) (deviceReset s)

theorem perstAssert_quiet {s : State} (h : s.pwr.perst = false) : Safety.Quiet (heldByPerst s) (perstAssert s) := by
  have hcycles : (deviceReset s).aoCycles = s.aoCycles := by rw [deviceReset_eq]
  unfold perstAssert heldByPerst
  rw [if_neg (by simp [h]), ← hcycles]
  exact reportClosed_quiet ..

/-! ### What a boot changes (R409, R410, R460, R464) -/

/-- `t` differs from `s` at most in the boot and update blocks and in events. -/
def BootOnly (s t : State) : Prop := Safety.Quiet { s with boot := t.boot, upd := t.upd } t

section
variable {s t u : State}

theorem BootOnly.trans (h : BootOnly s t) (k : BootOnly t u) : BootOnly s u := by
  unfold BootOnly Safety.Quiet at *
  rw [k, h]

theorem bootOnly_of_quiet (h : Safety.Quiet s t) : BootOnly s t := by
  unfold BootOnly
  rw [h]
  rfl

theorem BootOnly.pwr (h : BootOnly s t) : t.pwr = s.pwr := by rw [h]

theorem BootOnly.proof (h : BootOnly s t) : t.proof = s.proof := by rw [h]

theorem updBoot_bootOnly (f : Boot → Boot) (s : State) : BootOnly s (updBoot f s) := rfl

theorem updUpd_bootOnly (f : Upd → Upd) (s : State) : BootOnly s (updUpd f s) := rfl

theorem bootTrial_quiet (cause : Nat) (s : State) : Safety.Quiet s (bootTrial cause s) := raiseBoot_quiet ..

@[simp] theorem bootTrial_boot (cause : Nat) (s : State) : (bootTrial cause s).boot = s.boot := raiseBoot_boot ..

@[simp] theorem bootTrial_upd (cause : Nat) (s : State) : (bootTrial cause s).upd = s.upd := raiseBoot_upd ..

theorem writeRecord_bootOnly (f : Activation → Activation) (s : State) : BootOnly s (writeRecord f s) := updUpd_bootOnly ..

theorem revertRecord_bootOnly (cause : Nat) (s : State) : BootOnly s (revertRecord cause s) :=
  (writeRecord_bootOnly ..).trans (updUpd_bootOnly ..)

/-! ### A trial boot (R460) -/

theorem trialBoot_bootOnly (s : State) : BootOnly s (trialBoot s) := by
  unfold trialBoot
  split_ifs
  · exact (revertRecord_bootOnly ..).trans (bootOnly_of_quiet (bootTrial_quiet ..))
  · exact (writeRecord_bootOnly ..).trans (bootOnly_of_quiet (bootTrial_quiet ..))
  · exact bootOnly_of_quiet (quiet_refl s)

theorem trialBoot_boot (s : State) : (trialBoot s).boot = s.boot := by
  unfold trialBoot
  split_ifs
  · exact bootTrial_boot ..
  · exact bootTrial_boot ..
  · rfl

theorem trialBoot_of_ne (h : s.upd.act.state ≠ .trial) : trialBoot s = s := if_neg (by simpa using h)

theorem trialBoot_counted (h : s.upd.act.state = .trial) (hboots : s.upd.act.trialBoots ≠ 3) :
    (trialBoot s).upd.act = { s.upd.act with trialBoots := s.upd.act.trialBoots + 1, gen := s.upd.act.gen + 1 } := by
  unfold trialBoot
  rw [if_pos (by simp [h]), if_neg hboots, bootTrial_upd]
  rfl

theorem trialBoot_reverted (h : s.upd.act.state = .trial) (hboots : s.upd.act.trialBoots = 3) :
    (trialBoot s).upd.act.state = .reverted := by
  unfold trialBoot
  rw [if_pos (by simp [h]), if_pos hboots, bootTrial_upd]
  rfl

/-! ### The starter's checks (R409, R410, R464, R483) -/

theorem identityCheck_bootOnly (c : BootChecks) (s : State) : BootOnly s (identityCheck c s) := by
  unfold identityCheck
  split
  · exact (updBoot_bootOnly ..).trans (bootOnly_of_quiet (raiseBoot_quiet ..))
  · exact bootOnly_of_quiet (quiet_refl s)

theorem identityCheck_boot (c : BootChecks) (s : State) :
    (identityCheck c s).boot = { s.boot with idnMismatch := s.boot.idnMismatch || c.idn.isSome } := by
  unfold identityCheck
  cases c.idn with
  | some die => simp [updBoot]
  | none => simp

theorem identityCheck_upd (c : BootChecks) (s : State) : (identityCheck c s).upd = s.upd := by
  unfold identityCheck
  split
  · exact raiseBoot_upd ..
  · rfl

/-- The starter's checks done, but for that of the selected set. -/
def starterChecks (c : BootChecks) (s : State) : State :=
  updBoot (fun b => { b with stage := .loader }) (identityCheck c (trialBoot s))

theorem starterChecks_bootOnly (c : BootChecks) (s : State) : BootOnly s (starterChecks c s) :=
  ((trialBoot_bootOnly s).trans (identityCheck_bootOnly ..)).trans (updBoot_bootOnly ..)

theorem starterChecks_boot (c : BootChecks) (s : State) :
    (starterChecks c s).boot = { s.boot with stage := .loader, idnMismatch := s.boot.idnMismatch || c.idn.isSome } := by
  calc (starterChecks c s).boot = { (identityCheck c (trialBoot s)).boot with stage := .loader } := rfl
    _ = _ := by rw [identityCheck_boot, trialBoot_boot]

theorem starterChecks_upd (c : BootChecks) (s : State) : (starterChecks c s).upd = (trialBoot s).upd := identityCheck_upd ..

/-! ### The selected set fails (R410, R464) -/

theorem bootFails_bootOnly (c : BootChecks) (s : State) : BootOnly s (bootFails c s) := by
  have hrescue : ∀ u, BootOnly s u → BootOnly s (updBoot (fun b => { b with stage := .rescue }) u) :=
    fun u h => h.trans (updBoot_bootOnly ..)
  have hrefl : BootOnly s s := bootOnly_of_quiet (quiet_refl s)
  have htrial : BootOnly s (bootTrial 4 (revertRecord 10 s)) :=
    (revertRecord_bootOnly ..).trans (bootOnly_of_quiet (bootTrial_quiet ..))
  unfold bootFails
  dsimp only
  split
  · split
    · exact htrial
    · exact hrescue _ htrial
  · split
    · exact ((writeRecord_bootOnly ..).trans (updUpd_bootOnly ..)).trans (bootOnly_of_quiet (bootTrial_quiet ..))
    · exact hrescue _ hrefl
  · exact hrescue _ hrefl

/-- Without another set that boots, RESCUE is entered and the record stays. -/
theorem bootFails_rescue {c : BootChecks} (htrial : s.upd.act.state ≠ .trial) (h : c.fallbackOk = false ∨ s.upd.act.state = .reverted) :
    bootFails c s = updBoot (fun b => { b with stage := .rescue }) s := by
  unfold bootFails
  cases hstate : s.upd.act.state with
  | trial => exact absurd hstate htrial
  | confirmed =>
    have hnone : c.fallbackOk = false := by simpa [hstate] using h
    exact if_neg (by simp [hnone])
  | reverted => rfl

theorem bootFails_fallback {c : BootChecks} (hstate : s.upd.act.state = .confirmed) (h : c.fallbackOk = true) :
    (bootFails c s).boot = s.boot := by
  unfold bootFails
  rw [hstate, h]
  exact bootTrial_boot ..

theorem bootFails_idnMismatch (c : BootChecks) (s : State) : (bootFails c s).boot.idnMismatch = s.boot.idnMismatch := by
  have htrial : (bootTrial 4 (revertRecord 10 s)).boot.idnMismatch = s.boot.idnMismatch := congrArg _ (bootTrial_boot ..)
  unfold bootFails
  dsimp only
  split
  · split
    · exact htrial
    · exact htrial
  · split
    · exact congrArg _ (bootTrial_boot ..)
    · rfl
  · rfl

/-! ### The starter (R409, R466) -/

theorem Upd.kept_act (u : Upd) : u.kept.act = u.act := by
  unfold Upd.kept
  extract_lets whole received staging held
  have hheld : held.act = u.act := by
    simp only [held]
    split <;> rfl
  exact hheld

theorem bootUpd_act (s : State) : (bootUpd s).upd.act = s.upd.act := Upd.kept_act s.upd

theorem starter_eq (c : BootChecks) (s : State) :
    starter c s = bootUpd (if c.setOk then starterChecks c s else bootFails c (starterChecks c s)) := rfl

theorem starter_bootOnly (c : BootChecks) (s : State) : BootOnly s (starter c s) := by
  have hchecks := starterChecks_bootOnly c s
  rw [starter_eq]
  refine BootOnly.trans ?_ (updUpd_bootOnly ..)
  split
  · exact hchecks
  · exact hchecks.trans (bootFails_bootOnly ..)

theorem starter_idnMismatch (c : BootChecks) (s : State) :
    (starter c s).boot.idnMismatch = (s.boot.idnMismatch || c.idn.isSome) := by
  have hchecks : (starterChecks c s).boot.idnMismatch = (s.boot.idnMismatch || c.idn.isSome) := by rw [starterChecks_boot]
  rw [starter_eq]
  cases c.setOk with
  | true => exact hchecks
  | false => exact (bootFails_idnMismatch ..).trans hchecks

theorem starter_ok {c : BootChecks} (hok : c.setOk = true) (s : State) :
    (starter c s).boot.stage = .loader ∧ (starter c s).upd.act = (trialBoot s).upd.act := by
  have hact : (starterChecks c s).upd.act = (trialBoot s).upd.act := by rw [starterChecks_upd]
  rw [starter_eq, hok]
  exact ⟨congrArg Boot.stage (starterChecks_boot c s), (bootUpd_act _).trans hact⟩

theorem starter_confirmed {c : BootChecks} (hbad : c.setOk = false) (hstate : s.upd.act.state = .confirmed) :
    (starter c s).boot.stage = if c.fallbackOk then .loader else .rescue := by
  have hchecks : (starterChecks c s).upd.act.state = .confirmed := by
    rw [starterChecks_upd, trialBoot_of_ne (by simp [hstate]), hstate]
  rw [starter_eq, hbad]
  cases hfallback : c.fallbackOk with
  | true =>
    calc (bootFails c (starterChecks c s)).boot.stage = (starterChecks c s).boot.stage := by rw [bootFails_fallback hchecks hfallback]
      _ = .loader := by rw [starterChecks_boot]
  | false =>
    calc (bootFails c (starterChecks c s)).boot.stage = .rescue := by rw [bootFails_rescue (by simp [hchecks]) (.inl hfallback)]; rfl

/-- A third trial boot reverts, whatever the set's check says. -/
theorem starter_reverted (c : BootChecks) (hstate : s.upd.act.state = .trial) (hboots : s.upd.act.trialBoots = 3) :
    (starter c s).upd.act.state = .reverted := by
  have hchecks : (starterChecks c s).upd.act.state = .reverted := by rw [starterChecks_upd, trialBoot_reverted hstate hboots]
  rw [starter_eq, bootUpd_act]
  cases c.setOk with
  | true => exact hchecks
  | false =>
    calc (bootFails c (starterChecks c s)).upd.act.state = (starterChecks c s).upd.act.state := by
          rw [bootFails_rescue (by simp [hchecks]) (.inr hchecks)]; rfl
      _ = .reverted := hchecks

/-! ### PERST# is released (R409) -/

/-- The device as PERST# is released and the slices enter proofing, before the starter has run (R122, R425). -/
def releasedFromPerst (s : State) : State :=
  let long := decide (2500000 ≤ s.aoCycles - s.pwr.perstAt)
  { s with pwr := { s.pwr with perst := false, trip := s.pwr.trip.map fun t => { t with restart := t.restart || (t.elapsed && long) } },
           proof := { s.proof with active := true, step := 1 } }

theorem perstRelease_eq (c : BootChecks) (hperst : s.pwr.perst = true) (hrails : s.pwr.railsOn = true) :
    perstRelease c s = starter c (releasedFromPerst s) := by
  unfold perstRelease
  rw [if_neg (by simp [hperst])]
  exact if_pos hrails

/-! ### READY (R488) -/

theorem restartDelays_eq (s : State) : restartDelays s = { s with acc := { s.acc with
    level := s.acc.level.map fun x => { x with delay := delayEnd x.fails s } } } := by
  have hlevel : (restartDelays s).acc.level = s.acc.level.map fun x => { x with delay := delayEnd x.fails s } := by
    ext i hi
    interval_cases i <;> simp [restartDelays, forAll, List.finRange_succ, updLevel, upd, delayEnd]
  rw [← hlevel]
  rfl

end

/-! ### The loader and the firmware (R409, R410, R464, R476) -/

section
variable {s : State}

theorem exec_loaderDone (c : BootChecks) (hlive : live s = true) : exec (.loaderDone c) s = .next (loaderDone c s) := by
  calc exec (.loaderDone c) s = whenLive s (.next (loaderDone c s)) := rfl
    _ = .next (loaderDone c s) := whenLive_live hlive _

theorem loaderDone_ok {c : BootChecks} (hstage : s.boot.stage = .loader) (hok : c.setOk = true) :
    (loaderDone c s).boot = { s.boot with stage := .main } ∧ (loaderDone c s).upd.act = s.upd.act := by
  have hstay : ((bootUpd s).boot.stage == .rescue) = false := by
    calc ((bootUpd s).boot.stage == .rescue) = (s.boot.stage == .rescue) := rfl
      _ = false := by rw [hstage]; rfl
  have hdone : loaderDone c s = takeSvc (fillBands (updBoot (fun b => { b with stage := .main }) (bootUpd s))) := by
    unfold loaderDone
    rw [hstage, hok]
    exact if_neg (by rw [if_pos rfl, hstay]; decide)
  rw [hdone]
  exact ⟨rfl, bootUpd_act s⟩

theorem loaderDone_rescue {c : BootChecks} (hstage : s.boot.stage = .loader) (hbad : c.setOk = false) (hfallback : c.fallbackOk = false)
    (htrial : s.upd.act.state ≠ .trial) : (loaderDone c s).boot.stage = .rescue := by
  have hdone : loaderDone c s = bootUpd (updBoot (fun b => { b with stage := .rescue }) s) := by
    unfold loaderDone
    rw [hstage, hbad, ← bootFails_rescue htrial (.inl hfallback)]
    exact if_pos (by rw [if_neg (by decide), bootFails_rescue htrial (.inl hfallback)]; rfl)
  rw [hdone]
  rfl

theorem loaderDone_main {c : BootChecks} (hstage : s.boot.stage = .main) : loaderDone c s = s := by
  unfold loaderDone
  rw [hstage]

/-- The main firmware running, with the slot that the record names (R476). -/
def firmwareStarted (s : State) : State :=
  updCfg (fun c => { c with slot := s.upd.act.settingsSlot }) (updBoot (fun b => { b with mainRunning := true }) s)

theorem mainFirmwareStart_ok (hstage : s.boot.stage = .main) (hrunning : s.boot.mainRunning = false) (hctrl : s.upd.ctrlNew = false) :
    mainFirmwareStart true s = bootSettings (firmwareStarted s) := by
  unfold mainFirmwareStart
  rw [if_pos (by simp [hstage, hrunning])]
  have hold : ¬ s.upd.ctrlNew = true := by simp [hctrl]
  exact if_neg hold

end

/-- Settles O46. A reset keeps what `deviceReset_eq` lists; a boot changes the boot and update blocks only (`starter_bootOnly`); a restore
that begins leaves the slot and the copy in use (`bootSettings_some`). -/
theorem perstAndBoot : Obligations.PerstAndBoot := by
  intro s
  refine ⟨?asserted, ?assertedAgain, ?released, fun hlive => ⟨?loaded, ?rescued, ?loadedAlready, ?pmc, ?firmware, ?ready, ?readyAlready⟩⟩
  case asserted =>
    intro hperst
    have hquiet := perstAssert_quiet hperst
    rw [heldByPerst, deviceReset_eq] at hquiet
    refine ⟨perstAssert s, rfl, ?_⟩
    rw [hquiet]
    refine ⟨rfl, rfl, ?held, rfl, rfl, rfl, rfl, rfl, rfl, rfl, rfl, ?closed, ?pairs, ?inputs, rfl⟩
    case held => simp [live, updPwr]
    case closed => intro l; simp [updPwr, Acc.kept]; rfl
    case pairs => intro n; simp [updPwr, Hif.reset]
    case inputs => intro n; simp [updPwr, cart3V3]
  case assertedAgain =>
    intro hperst
    calc exec .perstAssert s = .next (perstAssert s) := rfl
      _ = .next s := by rw [perstAssert, if_pos hperst]
  case released =>
    intro c hperst hrails
    have hboot := starter_bootOnly c (releasedFromPerst s)
    refine ⟨starter c (releasedFromPerst s), by rw [← perstRelease_eq c hperst hrails]; rfl, ?_⟩
    rw [hboot.pwr, hboot.proof]
    refine ⟨rfl, rfl, rfl, starter_idnMismatch .., fun hok => (starter_ok hok _).1, fun hbad hstate => starter_confirmed hbad hstate, ?_,
      fun hstate hboots => starter_reverted c hstate hboots⟩
    intro hstate hboots hok
    obtain ⟨-, hact⟩ := starter_ok hok (releasedFromPerst s)
    rw [hact, trialBoot_counted (s := releasedFromPerst s) hstate (Nat.ne_of_lt hboots)]
    exact ⟨hstate, rfl⟩
  case loaded => exact fun c hstage hok => ⟨_, exec_loaderDone c hlive, loaderDone_ok hstage hok⟩
  case rescued =>
    exact fun c hstage hbad hfallback htrial => ⟨_, exec_loaderDone c hlive, loaderDone_rescue hstage hbad hfallback htrial⟩
  case loadedAlready => exact fun c hstage => by rw [exec_loaderDone c hlive, loaderDone_main hstage]
  case pmc =>
    intro hstage
    calc exec .pmcFirmwareStart s
        = whenLive s (.next (if s.boot.stage == .main then updBoot (fun b => { b with pmcRunning := true }) s else s)) := rfl
      _ = _ := by rw [whenLive_live hlive, if_pos (by simp [hstage])]
  case firmware =>
    intro hstage hrunning hctrl
    have hexec : exec (.mainFirmwareStart true) s = .next (bootSettings (firmwareStarted s)) := by
      calc exec (.mainFirmwareStart true) s = whenLive s (.next (mainFirmwareStart true s)) := rfl
        _ = _ := by rw [whenLive_live hlive, mainFirmwareStart_ok hstage hrunning hctrl]
    refine ⟨_, hexec, ?_⟩
    change _ ∧ _ ∧ (copyInUse (firmwareStarted s).cfg = none → _) ∧ ∀ b, copyInUse (firmwareStarted s).cfg = some b → _
    cases huse : copyInUse (firmwareStarted s).cfg with
    | none =>
      have hnone := bootSettings_none huse
      have hboot : (bootSettings (firmwareStarted s)).boot = _ := congrArg Control.boot hnone
      have hcfg : (bootSettings (firmwareStarted s)).cfg = _ := congrArg Control.cfg hnone
      rw [hboot, hcfg]
      exact ⟨rfl, rfl, fun _ => ⟨rfl, rfl⟩, nofun⟩
    | some b =>
      obtain ⟨hboot, hslot, hcopy, hdefaulted, hrestore⟩ := bootSettings_some huse
      exact ⟨hboot, hslot, nofun, fun _ hb => by cases hb; exact ⟨hcopy, hdefaulted, hrestore⟩⟩
  case ready =>
    intro hnot hstage hcc
    have hexec : exec .ready s = .next (restartDelays (updBoot (fun b => { b with ready := true, reached := true }) s)) := by
      calc exec .ready s = whenLive s (.next (if !s.boot.ready && (s.boot.mainRunning || s.boot.stage == .rescue) && !s.boot.ccFailed then
            restartDelays (updBoot (fun b => { b with ready := true, reached := true }) s) else s)) := rfl
        _ = _ := by rw [whenLive_live hlive, if_pos (by simpa [hnot, hcc] using hstage)]
    refine ⟨_, hexec, ?_⟩
    rw [restartDelays_eq]
    exact ⟨rfl, rfl, fun l => by simp [updBoot]; rfl⟩
  case readyAlready =>
    intro hready
    calc exec .ready s = whenLive s (.next (if !s.boot.ready && (s.boot.mainRunning || s.boot.stage == .rescue) && !s.boot.ccFailed then
          restartDelays (updBoot (fun b => { b with ready := true, reached := true }) s) else s)) := rfl
      _ = .next s := by rw [whenLive_live hlive, if_neg (by simp [hready])]

end Sys2Proof.Machine
end
section
/-!
The proof of O22: band selection is `List.argmin` of the distance over the entries that qualify and are not excluded (R73).
-/
namespace Sys2Proof.Machine

/-- An entry that R73 may select. -/
def bandCandidate (target2 : Nat) (table : Vector BandEntry 32) (excluded : List Nat) (i : Fin 32) : Bool :=
  !excluded.contains i.val && bandQualifies target2 table[i]

theorem bandCandidate_iff {target2 : Nat} {table : Vector BandEntry 32} {excluded : List Nat} {i : Fin 32} :
    bandCandidate target2 table excluded i = true ↔ i.val ∉ excluded ∧ bandQualifies target2 table[i] = true := by
  simp [bandCandidate]

theorem bandQualifies_iff {target2 : Nat} {e : BandEntry} :
    bandQualifies target2 e = true ↔ e.valid = true ∧ bandDistance target2 e ≤ 700 * e.kvco.toNat * 10 ^ 6 := by
  simp [bandQualifies]

/-- The loop keeps the first of the nearest candidates. -/
theorem bandChoice_eq_argmin (target2 : Nat) (table : Vector BandEntry 32) (excluded : List Nat) :
    bandChoice target2 table excluded =
      ((List.finRange 32).filter (bandCandidate target2 table excluded)).argmin fun i => bandDistance target2 table[i] := by
  rw [List.argmin, List.foldl_filter]
  refine congrArg (fun f => List.foldl f none (List.finRange 32)) ?_
  funext best i
  have hskip : (excluded.contains i.val || !bandQualifies target2 table[i]) = !bandCandidate target2 table excluded i := by
    simp [bandCandidate]
  cases h : bandCandidate target2 table excluded i with
  | false => exact if_pos (by rw [hskip, h]; rfl)
  | true =>
    rw [if_neg (by rw [hskip, h]; decide), if_pos rfl]
    cases best <;> rfl

/-- In a list in rising order an entry with a smaller index is the smaller one. -/
theorem le_of_idxOf_le {n : Nat} {l : List (Fin n)} (h : l.Pairwise (· < ·)) {i j : Fin n} (hi : i ∈ l) (hj : j ∈ l)
    (hij : l.idxOf i ≤ l.idxOf j) : i ≤ j := by
  have hget := h.sortedLT.strictMono_get.monotone (a := ⟨l.idxOf i, List.idxOf_lt_length_of_mem hi⟩)
    (b := ⟨l.idxOf j, List.idxOf_lt_length_of_mem hj⟩) hij
  simpa using hget

/-- Settles O22: `bandChoice` is an `argmin` (`bandChoice_eq_argmin`), whose order of entries is that of their indexes. -/
theorem bandSelectionIsNearest : Obligations.BandSelectionIsNearest := by
  intro target2 table excluded
  rw [bandChoice_eq_argmin]
  have hmem : ∀ i, i ∈ (List.finRange 32).filter (bandCandidate target2 table excluded) ↔
      i.val ∉ excluded ∧ bandQualifies target2 table[i] = true := fun i => by simp [bandCandidate_iff]
  have hsorted := (List.pairwise_lt_finRange 32).filter (bandCandidate target2 table excluded)
  refine ⟨fun i hi => ?_, fun hnone j hj => ?_⟩
  · obtain ⟨hi, hleast, hfirst⟩ := List.argmin_eq_some_iff.mp hi
    obtain ⟨hfree, hqualifies⟩ := (hmem i).mp hi
    obtain ⟨hvalid, hdist⟩ := bandQualifies_iff.mp hqualifies
    refine ⟨hvalid, hdist, hfree, fun j hj hjfree => ?_⟩
    have hjmem := (hmem j).mpr ⟨hjfree, hj⟩
    rcases (hleast j hjmem).lt_or_eq with hlt | heq
    · exact .inl hlt
    · exact .inr ⟨heq, le_of_idxOf_le hsorted hi hjmem (hfirst j hjmem heq.ge)⟩
  · by_contra hjfree
    have hempty := List.argmin_eq_none.mp hnone
    exact List.not_mem_nil (hempty ▸ (hmem j).mpr ⟨hjfree, hj⟩)

end Sys2Proof.Machine
end
section
/-!
SUPPORT and the proof of O19: writes of the band tables (R71, R512), of the clearing registers (R164, R405) and of the diagnostic window
(R343, R485).
-/
namespace Sys2Proof.Machine

/-! ### Band tables -/

section
variable {s : State}

theorem exec_bandTableWrite (off : Nat) (v : W64) (hs : reachable s = true) :
    exec (.bandTableWrite off false v) s = .next (if within 0x2200 off 0x29FF then writeReg off false v s else s) := by
  calc exec (.bandTableWrite off false v) s
      = whenReachable s (.next (if within 0x2200 off 0x29FF then writeReg off false v s else s)) := rfl
    _ = _ := whenReachable_reachable hs _

/-- A 4-byte write in the band tables is `writeBand`: no 64-bit register lies there. -/
theorem exec_bandTableWrite_inside {off : Nat} (hlow : 0x2200 ≤ off) (hhigh : off ≤ 0x29FF) (hword : off % 4 = 0) (v : W64)
    (hs : reachable s = true) : exec (.bandTableWrite off false v) s = .next (writeBand off (v.truncate 32) s) := by
  have hinside : within 0x2200 off 0x29FF = true := by simp [within, hlow, hhigh]
  have hnarrow : ∀ o, 0x1000 ≤ o → writable64 o = false := fun o ho => by
    simp [writable64, arr]
    omega
  have harray : putArray off (v.truncate 32) s = some (writeBand off (v.truncate 32) s) := by
    unfold putArray
    rw [if_neg (by omega), if_pos (by omega), if_pos hinside]
  have hwrite : writeWord off (v.truncate 32) s = writeBand off (v.truncate 32) s := by
    unfold writeWord
    rw [hnarrow off (by omega), hnarrow (off - 4) (by omega), if_neg (by simp), if_neg (by simp), if_neg (by omega), harray, Option.getD_some]
  rw [exec_bandTableWrite off v hs, if_pos hinside, writeReg, if_neg (by simpa using hword), if_pos (show (!false) = true from rfl), hwrite]

theorem exec_bandTableWrite_outside {off : Nat} (h : off < 0x2200 ∨ 0x29FF < off) (v : W64) (hs : reachable s = true) :
    exec (.bandTableWrite off false v) s = .next s := by
  rw [exec_bandTableWrite off v hs, if_neg (by simp [within]; omega)]

/-- Word `k` of entry `i` of the SYN-F table. -/
theorem exec_bandTableWrite_synf (i : Fin 32) {k off : Nat} (hk : k < 4) (hoff : off = 0x2600 + 16 * i.val + 4 * k) (v : W64)
    (hs : reachable s = true) : exec (.bandTableWrite off false v) s = .next (updBand 2 i (putBand k (v.truncate 32)) s) := by
  have hw : (off - 0x2200) / 4 = 256 + 4 * i.val + k := by omega
  have htable : (256 + 4 * i.val + k) / 128 = 2 := by omega
  have hentry : Fin.ofNat 32 ((256 + 4 * i.val + k) / 4 % 32) = i := Fin.ext (by simp; omega)
  have hfield : (256 + 4 * i.val + k) % 4 = k := by omega
  rw [exec_bandTableWrite_inside (by omega) (by omega) (by omega) v hs]
  simp only [writeBand, hw, htable, hentry, hfield]

/-- Word `k` of entry `i` of the SYN-S table, which both cores share. -/
theorem exec_bandTableWrite_syns (i : Fin 32) {k off : Nat} (hk : k < 4) (hoff : off = 0x2200 + 16 * i.val + 4 * k) (v : W64)
    (hs : reachable s = true) : exec (.bandTableWrite off false v) s =
      .next (updBand 1 i (putBand k (v.truncate 32)) (updBand 0 i (putBand k (v.truncate 32)) s)) := by
  have hw : (off - 0x2200) / 4 = 4 * i.val + k := by omega
  have htable : (4 * i.val + k) / 128 = 0 := by omega
  have hentry : Fin.ofNat 32 ((4 * i.val + k) / 4 % 32) = i := Fin.ext (by simp; omega)
  have hfield : (4 * i.val + k) % 4 = k := by omega
  rw [exec_bandTableWrite_inside (by omega) (by omega) (by omega) v hs]
  simp only [writeBand, hw, htable, hentry, hfield]

/-- The whole CAP_CODE word, taken from the low half of a write. -/
theorem putBand_one (v : W64) (e : BandEntry) : putBand 1 (v.truncate 32) e =
    { e with kvco := v.extractLsb' 0 16, capCode := v.extractLsb' 16 8, valid := v.getLsbD 24, edited := true } := by
  have hkvco : (v.truncate 32).extractLsb' 0 16 = v.extractLsb' 0 16 := by ext i hi; simp; omega
  have hcap : (v.truncate 32).extractLsb' 16 8 = v.extractLsb' 16 8 := by ext i hi; simp; omega
  simp [putBand, hkvco, hcap]

end

/-! ### Registers that a write clears -/

section
variable {s : State}

/-- DEAD_CLR is bit 5 of the word; the rest of it stays. -/
theorem exec_deadClr (n : Fin 8) (v : W32) (hs : reachable s = true) :
    exec (.deadClr n v) s = .next (updTac n (fun t => { t with deadOvf := t.deadOvf && !v.getLsbD 4, deadCount := 0 }) s) := by
  have hovf : (v ||| 0x20#32).getLsbD 4 = v.getLsbD 4 := by simp
  have hclr : (v ||| 0x20#32).getLsbD 5 = true := by simp
  calc exec (.deadClr n v) s
      = whenReachable s (.next (writeTacStatus n (v ||| 0x20#32) s)) := rfl
    _ = .next (writeTacStatus n (v ||| 0x20#32) s) := whenReachable_reachable hs _
    _ = _ := by simp only [writeTacStatus, hovf, hclr, if_true]

theorem exec_marginClr (v : W32) (hs : reachable s = true) : exec (.marginClr v) s =
    .next (if v.getLsbD 0 then { s with brim := { s.brim with marginMin := 0x7FFFFFFF } } else s) := by
  calc exec (.marginClr v) s
      = whenReachable s (.next (clearMargin v s)) := rfl
    _ = .next (clearMargin v s) := whenReachable_reachable hs _

end

/-! ### The diagnostic window -/

section
variable {s : State}

theorem exec_diagnosticWindowWrite (off : Nat) (v : W64) (hs : reachable s = true) :
    exec (.diagnosticWindowWrite off false v) s = .next (diagWord off (v.truncate 32) s) := by
  calc exec (.diagnosticWindowWrite off false v) s
      = whenReachable s (.next (diagWrite off false v s)) := rfl
    _ = .next (diagWrite off false v s) := whenReachable_reachable hs _

theorem diagWord_closed (h : ownerRight s.acc = false) (off : Nat) (v : W32) : diagWord off v s = s := by
  simp [diagWord, h]

theorem diagWord_beyond (h : ownerRight s.acc = true) {off : Nat} (hoff : 0x120000 ≤ off) (v : W32) :
    diagWord off v s = { s with hif := { s.hif with badAccess := true } } := by
  unfold diagWord
  rw [if_neg (by simp [h]), if_neg (by omega), if_neg (by omega)]

/-- Entry `k` of the table of TAC `n`. -/
theorem diagWord_tac (h : ownerRight s.acc = true) (n : Fin 8) {k : Nat} (hk : k < 4096) (v : W32) :
    diagWord (0x100000 + 0x4000 * n.val + 4 * k) v s =
      if (s.acc.level[1]).isOpen then edited (putTacEntry n k v s) else { s with hif := { s.hif with badAccess := true } } := by
  have htac : Fin.ofNat 8 ((0x100000 + 0x4000 * n.val + 4 * k - 0x100000) / 0x4000) = n := Fin.ext (by simp; omega)
  have hentry : (0x100000 + 0x4000 * n.val + 4 * k) % 0x4000 / 4 = k := by omega
  unfold diagWord
  rw [if_neg (by simp [h]), if_neg (by omega), if_pos (by omega), htac, hentry]

/-- An entry written into a TAC table, the nominal one where there is none (R150). -/
theorem putTacEntry_table (n : Fin 8) (k : Nat) (v : W32) :
    ∃ l, ((putTacEntry n k v s).tacs[n]).table = some l ∧ (k < l.length → l[k]? = some v.toNat) ∧
      ((s.tacs[n]).table = none → l.length = 4096) := by
  refine ⟨_, by rw [putTacEntry, updTac_tacs, Fin.getElem_fin, upd_get], fun hk => ?_, fun hnone => ?_⟩
  · rw [List.length_set] at hk
    rw [List.getElem?_set_self hk]
  · simp only [Fin.getElem_fin] at hnone ⊢
    simp [hnone]

end

/-- Settles O19. A band-table write is `writeBand` at its entry, a clearing write has one arm, and a write of the window is `diagWord`. -/
theorem namedWrites : Obligations.NamedWrites := by
  refine ⟨fun i v s hs => ⟨?centre, ?cap, ?both, fun off hoff => exec_bandTableWrite_outside hoff v hs⟩,
    fun n v s hs => ⟨exec_deadClr n v hs, fun hclr => ?margin, fun hclr => ?marginKept⟩,
    fun n k v s hs hk => ⟨fun hclosed off => ?closed, fun hvendor => ?vendor, fun hvendor howner => ?owner, fun howner off hoff => ?beyond⟩⟩
  case centre =>
    refine ⟨_, exec_bandTableWrite_synf i (k := 0) (by decide) (by omega) v hs, ?_, fun j hj => ?_, ?_⟩
    · simp [updBand, putBand, upd]
    · have hne : i.val ≠ j.val := fun e => hj (Fin.ext e.symm)
      simp [updBand, upd, hne]
    · simp [updBand, upd]
  case cap =>
    refine ⟨_, exec_bandTableWrite_synf i (k := 1) (by decide) (by omega) v hs, ?_⟩
    rw [← putBand_one]
    simp [updBand, upd]
  case both =>
    refine ⟨_, exec_bandTableWrite_syns i (k := 0) (by decide) (by omega) v hs, ?_, ?_⟩
    · simp [updBand, putBand, upd]
    · simp [updBand, putBand, upd]
  case margin => rw [exec_marginClr v hs, if_pos hclr]
  case marginKept => rw [exec_marginClr v hs, hclr]; rfl
  case closed => rw [exec_diagnosticWindowWrite off v hs, diagWord_closed hclosed]
  case vendor =>
    have howner : ownerRight s.acc = true := by simp [ownerRight, hvendor]
    have hvalue : (v.truncate 32).toNat = v.toNat % 2 ^ 32 := by simp
    refine ⟨edited (putTacEntry n k (v.truncate 32) s), ?_, rfl, hvalue ▸ putTacEntry_table n k (v.truncate 32), fun m hm => ?_, rfl⟩
    · rw [exec_diagnosticWindowWrite _ v hs, diagWord_tac howner n hk, if_pos hvendor]
    · exact upd_get_ne _ _ _ _ hm
  case owner => rw [exec_diagnosticWindowWrite _ v hs, diagWord_tac howner n hk, if_neg (by simp [hvendor])]
  case beyond => rw [exec_diagnosticWindowWrite off v hs, diagWord_beyond howner hoff]

end Sys2Proof.Machine
end
section
/-!
SUPPORT. The clock tile: what each operation of chapter 3 makes of it, and that it touches nothing else but events.
-/
namespace Sys2Proof.Machine

/-- A command of the device's own work, while the blocks run, is the body behind its power gate (R46). -/
theorem exec_live {c : Instr} {s : State} {o : Host.Outcome State Fault Refusal} (hlive : live s = true)
    (h : exec c s = whenLive s o) : exec c s = o := h.trans (whenLive_live hlive o)

section
variable (s : State)

/-! ### What each operation makes of the clock tile -/

section
variable (src : Fin 256) (sev : Nat) (data : List Byte)

theorem raiseClk_quiet : Safety.Quiet s (raiseClk src sev data s) := raise_quiet ..

@[simp] theorem raiseClk_clk : (raiseClk src sev data s).clk = s.clk := raise_clk ..

end

@[simp] theorem updBand_clk (c : Fin 4) (i : Fin 32) (f : BandEntry → BandEntry) :
    (updBand c i f s).clk = { s.clk with bands := upd s.clk.bands c fun t => upd t i f } := rfl

@[simp] theorem setCore_clk (c : Fin 2) (x : CoreState) : (setCore c x s).clk = { s.clk with core := s.clk.core.set c x } := rfl

@[simp] theorem setLock_clk (c : Fin 4) (x : Bool) : (setLock c x s).clk = { s.clk with lock := s.clk.lock.set c x } := rfl

@[simp] theorem setHeld_clk (c : Fin 4) (x : Bool) : (setHeld c x s).clk = { s.clk with held := s.clk.held.set c x } := rfl

@[simp] theorem clearLocks_clk : (clearLocks s).clk =
    { s.clk with lock := Vector.replicate 4 false, held := Vector.replicate 4 false } := rfl

@[simp] theorem toRef_clk (r : RefState) : (toRef r s).clk = { s.clk with refState := r } := by
  unfold toRef
  dsimp only
  split <;> rfl

@[simp] theorem coastFrom_clk (back : Nat) : (coastFrom back s).clk = { s.clk with
    coast := if s.clk.coast.any fun x => x.2.isNone then s.clk.coast else (takenSample s - back, none) :: s.clk.coast } := by
  unfold coastFrom
  split <;> rfl

@[simp] theorem coastTo_clk (last : Nat) : (coastTo last s).clk =
    { s.clk with coast := s.clk.coast.map fun x => (x.1, some (x.2.getD last)) } := rfl

@[simp] theorem markSwitch_clk : (markSwitch s).clk = { s.clk with
    csw := if samplesExist s then (takenSample s + 120 - 1280, takenSample s + 120 + 1280 + 39) :: s.clk.csw else s.clk.csw } := by
  unfold markSwitch
  split <;> rfl

@[simp] theorem toBypass_clk : (toBypass s).clk = { s.clk with fBypass := true } := by
  unfold toBypass
  split
  · next h => rw [← h]
  · exact raiseClk_clk ..

/-- ALIGNED follows the clock tile and the peers; a change is one event (R390). -/
theorem checkAligned_quiet : Safety.Quiet { s with brim := { s.brim with aligned := isAligned s } } (checkAligned s) := by
  unfold checkAligned
  dsimp only
  split
  · next h =>
    rw [beq_iff_eq] at h
    rw [h]
    exact quiet_refl s
  · split
    · exact raiseNow_quiet ..
    · exact quiet_trans (fresh_quiet _) (raiseNow_quiet ..)

section
@[simp] theorem checkAligned_clk : (checkAligned s).clk = s.clk := by rw [checkAligned_quiet s]
@[simp] theorem checkAligned_tb : (checkAligned s).tb = s.tb := by rw [checkAligned_quiet s]
@[simp] theorem checkAligned_proof : (checkAligned s).proof = s.proof := by rw [checkAligned_quiet s]
@[simp] theorem checkAligned_slices : (checkAligned s).slices = s.slices := by rw [checkAligned_quiet s]
@[simp] theorem checkAligned_mem : (checkAligned s).mem = s.mem := by rw [checkAligned_quiet s]
@[simp] theorem checkAligned_seqs : (checkAligned s).seqs = s.seqs := by rw [checkAligned_quiet s]
@[simp] theorem checkAligned_tacs : (checkAligned s).tacs = s.tacs := by rw [checkAligned_quiet s]
end

@[simp] theorem reachLocked_clk (last : Nat) : (reachLocked last s).clk = { s.clk with
    refState := .locked, refCoast := false, stepDelta := none, relockAt := none, lossAt := none
    coast := if s.clk.coreCoast then s.clk.coast else s.clk.coast.map fun x => (x.1, some (x.2.getD last)) } := by
  unfold reachLocked
  simp only [toRef_clk]
  split <;> simp

/-- A core switch (R82): `a` was the active core. -/
theorem switchCore_core {s : State} {a : Fin 2} (ha : activeCore s = a) (cause : Nat) :
    (switchCore cause s).clk.core = (s.clk.core.set a .bad).set (otherCore a) .active := by
  simp [switchCore, ha]

@[simp] theorem switchCore_lock (cause : Nat) : (switchCore cause s).clk.lock = s.clk.lock := by simp [switchCore]

@[simp] theorem switchCore_refState (cause : Nat) : (switchCore cause s).clk.refState = s.clk.refState := by simp [switchCore]

@[simp] theorem switchCore_reband (cause : Nat) : (switchCore cause s).clk.reband = s.clk.reband := by simp [switchCore]

theorem activeCore_zero {s : State} (h : s.clk.core[0] = .active) : activeCore s = 0 := by simp [activeCore, h]

end

/-! ### Nothing but the clock tile and events -/

/-- `t` differs from `s` at most in the clock tile and events. -/
def OnlyClk (s t : State) : Prop := Safety.Quiet { s with clk := t.clk } t

section
variable {s t u : State}

theorem OnlyClk.refl (s : State) : OnlyClk s s := rfl

theorem OnlyClk.trans (h : OnlyClk s t) (k : OnlyClk t u) : OnlyClk s u := by
  unfold OnlyClk Safety.Quiet at *
  rw [k, h]

theorem OnlyClk.raiseClk (h : OnlyClk s t) (src : Fin 256) (sev : Nat) (data : List Byte) : OnlyClk s (raiseClk src sev data t) := by
  refine h.trans ?_
  unfold OnlyClk
  rw [raiseClk_clk]
  exact raiseClk_quiet ..

theorem OnlyClk.coastFrom (h : OnlyClk s t) (back : Nat) : OnlyClk s (coastFrom back t) := by
  unfold Machine.coastFrom
  split
  · exact h
  · exact h.trans rfl

theorem OnlyClk.coastTo (h : OnlyClk s t) (last : Nat) : OnlyClk s (coastTo last t) := h.trans rfl

theorem OnlyClk.toRef (h : OnlyClk s t) (hstate : t.clk.refState ≠ .measuring) (r : RefState) : OnlyClk s (toRef r t) := by
  unfold Machine.toRef
  rw [if_neg (by simpa using hstate)]
  exact h.trans rfl

theorem OnlyClk.reachLocked (h : OnlyClk s t) (hstate : t.clk.refState ≠ .measuring) (last : Nat) : OnlyClk s (reachLocked last t) := by
  have href := h.toRef hstate .locked
  unfold Machine.reachLocked
  dsimp only
  split
  · exact href.trans rfl
  · exact (href.coastTo last).trans rfl

/-- What is done to the clock tile shows in ALIGNED at once (R390). -/
theorem OnlyClk.checkAligned (h : OnlyClk s t) : Safety.Quiet
    { s with clk := (checkAligned t).clk, brim := { s.brim with aligned := (checkAligned t).brim.aligned } } (checkAligned t) := by
  have haligned := checkAligned_quiet t
  generalize Machine.checkAligned t = u at *
  unfold OnlyClk Safety.Quiet at *
  rw [haligned, h]

theorem OnlyClk.selectBandN (h : OnlyClk s t) (core : Fin 4) (pass : List Nat) (fuel : Nat) (excluded : List Nat) :
    OnlyClk s (selectBandN core pass fuel excluded t) := by
  induction fuel generalizing t excluded with
  | zero => exact h
  | succ fuel ih =>
    unfold Machine.selectBandN
    split
    · dsimp only
      split
      · exact h.trans rfl
      · exact ih (.raiseClk (h.trans (by rfl)) ..) _
    · exact .raiseClk (h.trans (by rfl)) ..

end

end Sys2Proof.Machine
end
section
/-!
SUPPORT and the proof of O20: a loop that declares unlock or lock (R78, R82, R83, R87, R88, R93).
-/
namespace Sys2Proof.Machine

/-! ### Unlock -/

section
variable {s : State}

theorem exec_unlockDeclared (run : PhaseRun) (both : Bool) (hlive : live s = true) : exec (.unlockDeclared run both) s =
    .next (if unlockMet run s then checkAligned (unlockDeclared run.core both s) else s) := exec_live hlive rfl

/-- The active core gives way to a locked standby (R82). -/
theorem coreUnlock_standby (hactive : s.clk.core[0] = .active) (hother : s.clk.core[1] = .standby) (hlock : s.clk.lock[1] = true) :
    (coreUnlock 0 s).clk.core = (s.clk.core.set 0 .bad).set 1 .active ∧ (coreUnlock 0 s).clk.lock = s.clk.lock.set 0 false ∧
      (coreUnlock 0 s).clk.refState = s.clk.refState := by
  simp [coreUnlock, hactive, standbyReady, activeCore, otherCore, asCore, hother, hlock, switchCore]

/-- Without a standby the active core coasts (R82). -/
theorem coreUnlock_alone (hactive : s.clk.core[0] = .active) (hother : s.clk.core[1] = .bad) :
    (coreUnlock 0 s).clk.core = s.clk.core ∧ (coreUnlock 0 s).clk.lock = s.clk.lock.set 0 false ∧ (coreUnlock 0 s).clk.coreCoast = true := by
  simp [coreUnlock, hactive, standbyReady, activeCore, otherCore, asCore, hother]

/-- A standby core becomes BAD (R83). -/
theorem coreUnlock_of_standby (hother : s.clk.core[1] = .standby) :
    (coreUnlock 1 s).clk.core = s.clk.core.set 1 .bad ∧ (coreUnlock 1 s).clk.lock = s.clk.lock.set 1 false := by
  simp [coreUnlock, hother, asCore]

/-- Reference loss in LOCKED (R90, R93). -/
theorem refLost_locked (h : s.clk.refState = .locked) (cause : Nat) :
    (refLost cause s).clk.refState = .coasting ∧ (refLost cause s).clk.core = s.clk.core ∧ (refLost cause s).clk.refCoast = true ∧
      (refLost cause s).clk.lock = Vector.replicate 4 false ∧ (refLost cause s).clk.lossAt = some (takenSample s) := by
  simp [refLost, h]

theorem unlockDeclared_one (h : loopsClosed s = true) {core : Fin 4} {c : Fin 2} (hc : core = asCore c) :
    unlockDeclared core false s = coreUnlock c s := by
  match c with
  | 0 => subst hc; simp [unlockDeclared, h, asCore]
  | 1 => subst hc; simp [unlockDeclared, h, asCore]

theorem unlockDeclared_both (h : loopsClosed s = true) {core : Fin 4} (hcore : core = 0 ∨ core = 1) :
    unlockDeclared core true s = refLost 2 s := by
  rcases hcore with rfl | rfl <;> simp [unlockDeclared, h]

theorem unlockDeclared_synf (h : loopsClosed s = true) (both : Bool) : unlockDeclared 2 both s = toBypass (setLock 2 false s) := by
  simp [unlockDeclared, h]

theorem unlockDeclared_synt (h : loopsClosed s = true) (both : Bool) :
    (unlockDeclared 3 both s).clk.lock = s.clk.lock.set 3 false ∧ (unlockDeclared 3 both s).clk.tCoast = true := by
  simp [unlockDeclared, h]

end

/-! ### Lock -/

/-- The coasting of a core or of SYN-T by itself ends with its lock (R82, R88); `isActive` says that the core is the active one. -/
def endOwnCoast (core : Fin 4) (isActive : Bool) (s : State) : State :=
  let s := if isActive && s.clk.coreCoast then
      let s := { s with clk := { s.clk with coreCoast := false } }
      if s.clk.refCoast then s else coastTo (takenSample s) s
    else s
  if core = 3 then { s with clk := { s.clk with tCoast := false } } else s

/-- What a lock means to the reference state machine (R93, R94). -/
def lockReference (isActive : Bool) (s : State) : State :=
  match s.clk.refState with
  | .locking | .slewing => if allLocked s then reachLocked (takenSample s) s else s
  | .stepPending =>
    if isActive && s.clk.relockAt.isNone then
      { s with clk := { s.clk with relockAt := some (takenSample s) } }
    else s
  | _ => s

section
variable {s t : State} {core : Fin 4}

theorem exec_lockDeclared (run : PhaseRun) (hlive : live s = true) : exec (.lockDeclared run) s =
    .next (if lockMet run s then checkAligned (lockDeclared run.core s) else s) := exec_live hlive rfl

/-- A loop that can declare lock does so (R78). -/
theorem lockDeclared_eq (hband : s.clk.noBand[core] = false) (hcoasting : s.clk.refState ≠ .coasting)
    (hmeasuring : s.clk.refState ≠ .measuring) (ht : finishReband (setHeld core false (setLock core true s)) = t) :
    lockDeclared core s =
      lockReference (asCore (activeCore t) == core) (endOwnCoast core (asCore (activeCore t) == core) t) := by
  subst ht
  unfold lockDeclared
  rw [if_neg (by simp [hband, hcoasting, hmeasuring])]
  rfl

theorem finishReband_none (h : s.clk.reband = none) : finishReband s = s := by simp [finishReband, h]

/-- The end of a coasting touches the marks and extents of coasting only. -/
theorem endOwnCoast_clk (core : Fin 4) (isActive : Bool) (s : State) : ∃ own coast, (endOwnCoast core isActive s).clk =
    { s.clk with coreCoast := own, coast := coast, tCoast := if core = 3 then false else s.clk.tCoast } := by
  unfold endOwnCoast
  dsimp only
  split_ifs <;> exact ⟨_, _, rfl⟩

theorem endOwnCoast_onlyClk (core : Fin 4) (isActive : Bool) (s : State) : OnlyClk s (endOwnCoast core isActive s) := by
  unfold endOwnCoast
  dsimp only
  split_ifs <;> rfl

/-- In `t` the loop of `core` is locked; the other loops and the bands are as in `s`, and only the clock tile and events differ. -/
structure LockSet (core : Fin 4) (s t : State) : Prop where
  only : OnlyClk s t
  lock : t.clk.lock = s.clk.lock.set core true
  noBand : t.clk.noBand = s.clk.noBand

/-- Whatever the reference state, a lock stays. -/
theorem LockSet.lockReference (h : LockSet core s t) (hmeasuring : t.clk.refState ≠ .measuring) (isActive : Bool) :
    LockSet core s (lockReference isActive t) ∧ (lockReference isActive t).clk.tCoast = t.clk.tCoast := by
  have hreached : LockSet core s (reachLocked (takenSample t) t) :=
    ⟨h.only.reachLocked hmeasuring _, by simp [h.lock], by simp [h.noBand]⟩
  unfold Machine.lockReference
  split
  · split
    · exact ⟨hreached, by simp⟩
    · exact ⟨h, rfl⟩
  · split
    · exact ⟨hreached, by simp⟩
    · exact ⟨h, rfl⟩
  · split
    · exact ⟨⟨h.only.trans rfl, h.lock, h.noBand⟩, rfl⟩
    · exact ⟨h, rfl⟩
  · exact ⟨h, rfl⟩

/-- With the last loop that has a band, LOCKING ends in LOCKED (R93). -/
theorem LockSet.allLocked (h : LockSet core s t) (hothers : ∀ c : Fin 4, c ≠ core → s.clk.lock[c] = true ∨ s.clk.noBand[c] = true) :
    allLocked t = true := by
  unfold Machine.allLocked
  rw [List.all_eq_true]
  intro c _
  rw [Bool.or_eq_true, h.lock, h.noBand]
  by_cases hc : c = core
  · exact .inl (by simp [hc])
  · have hne : core.val ≠ c.val := fun e => hc (Fin.ext e.symm)
    simpa [hne] using hothers c hc

/-- A loop with a band declares lock while no reband waits (R78, R88, R93). -/
theorem lockDeclared_lockSet (hband : s.clk.noBand[core] = false) (hreband : s.clk.reband = none)
    (hcoasting : s.clk.refState ≠ .coasting) (hmeasuring : s.clk.refState ≠ .measuring) :
    LockSet core s (lockDeclared core s) ∧ (core = 3 → (lockDeclared core s).clk.tCoast = false) ∧
      (s.clk.refState = .locking → (∀ c : Fin 4, c ≠ core → s.clk.lock[c] = true ∨ s.clk.noBand[c] = true) →
        (lockDeclared core s).clk.refState = .locked ∧ (lockDeclared core s).clk.refCoast = false) := by
  rw [lockDeclared_eq hband hcoasting hmeasuring (finishReband_none hreband)]
  generalize (asCore (activeCore (setHeld core false (setLock core true s))) == core) = isActive
  obtain ⟨own, coast, hclk⟩ := endOwnCoast_clk core isActive (setHeld core false (setLock core true s))
  have hset : LockSet core s (endOwnCoast core isActive (setHeld core false (setLock core true s))) :=
    ⟨OnlyClk.trans (by rfl) (endOwnCoast_onlyClk ..), by rw [hclk]; rfl, by rw [hclk]; rfl⟩
  generalize endOwnCoast core isActive (setHeld core false (setLock core true s)) = t at *
  have href : t.clk.refState = s.clk.refState := by rw [hclk]; rfl
  obtain ⟨hlocked, hcoast⟩ := hset.lockReference (href ▸ hmeasuring) isActive
  refine ⟨hlocked, fun hcore => ?_, fun hlocking hothers => ?_⟩
  · rw [hcoast, hclk]
    exact if_pos hcore
  · simp [lockReference, href, hlocking, hset.allLocked hothers]

end

/-- Settles O20: the unlock rule leads to one arm of `unlockDeclared` for each loop, the lock rule to `LockSet`. No band, no part in
LOCKED: log 28. -/
theorem lockLostAndRegained : Obligations.LockLostAndRegained := by
  refine ⟨fun run s hlive href hmet => ?unlock, fun run both s hlive => ⟨fun hmet => ?noUnlock, fun hmet => ?noLock⟩,
    fun run s hlive hband hreband hcoasting hmeasuring hmet => ?lock⟩
  case unlock =>
    have hclosed : loopsClosed s = true := by simp [loopsClosed, href]
    have hexec : ∀ both, exec (.unlockDeclared run both) s = .next (checkAligned (unlockDeclared run.core both s)) :=
      fun both => by rw [exec_unlockDeclared run both hlive, if_pos hmet]
    refine ⟨fun hcore hactive hother hlock => ⟨_, hexec false, ?switch⟩, fun hcore hactive hother => ⟨_, hexec false, ?alone⟩,
      fun hcore hactive hother => ⟨_, hexec false, ?standby⟩, fun hcore => ⟨_, hexec true, ?both⟩,
      fun hcore both => ⟨_, hexec both, ?synf⟩, fun hcore both => ⟨_, hexec both, ?synt⟩⟩
    case switch =>
      obtain ⟨hcores, hlocks, hstate⟩ := coreUnlock_standby hactive hother hlock
      rw [checkAligned_clk, unlockDeclared_one hclosed (c := 0) hcore, hcores, hlocks, hstate, href]
      simp
    case alone =>
      obtain ⟨hcores, hlocks, hcoast⟩ := coreUnlock_alone hactive hother
      rw [checkAligned_clk, unlockDeclared_one hclosed (c := 0) hcore, hcores, hlocks, hcoast]
      simp
    case standby =>
      obtain ⟨hcores, hlocks⟩ := coreUnlock_of_standby hother
      rw [checkAligned_clk, unlockDeclared_one hclosed (c := 1) hcore, hcores, hlocks]
      simp [hactive]
    case both =>
      obtain ⟨hstate, hcores, -, -, -⟩ := refLost_locked href 2
      rw [checkAligned_clk, unlockDeclared_both hclosed hcore]
      exact ⟨hcores, hstate⟩
    case synf =>
      rw [checkAligned_clk, hcore, unlockDeclared_synf hclosed]
      simp
    case synt =>
      obtain ⟨hlocks, hcoast⟩ := unlockDeclared_synt hclosed both
      rw [checkAligned_clk, hcore, hlocks, hcoast]
      simp
  case noUnlock => rw [exec_unlockDeclared run both hlive, hmet]; rfl
  case noLock => rw [exec_lockDeclared run hlive, hmet]; rfl
  case lock =>
    obtain ⟨hset, hcoast, hlocked⟩ := lockDeclared_lockSet hband hreband hcoasting hmeasuring
    refine ⟨checkAligned (lockDeclared run.core s), by rw [exec_lockDeclared run hlive, if_pos hmet], ?_, hset.only.checkAligned, ?_, ?_⟩
    · rw [checkAligned_clk, hset.lock]
      simp
    · rw [checkAligned_clk]
      exact hlocked
    · rw [checkAligned_clk]
      exact hcoast

end Sys2Proof.Machine
end
section
/-!
SUPPORT and the proof of O21: the standby core (R82), the return from the bypass clock (R87), and rebands (R73 to R75).
-/
namespace Sys2Proof.Machine

/-! ### The band that is selected (R73, R74) -/

/-- Clock tiles that differ at most in the bands of their loops. -/
def OnlyBands (c d : Clk) : Prop :=
  d = { c with bands := d.bands, selected := d.selected, noBand := d.noBand, bandFault := d.bandFault }

theorem OnlyBands.trans {c d e : Clk} (h : OnlyBands c d) (k : OnlyBands d e) : OnlyBands c e := by
  unfold OnlyBands at *
  rw [k, h]

section
variable {s : State} {core : Fin 4} {pass : List Nat}

theorem selectBandN_onlyBands (fuel : Nat) (excluded : List Nat) : OnlyBands s.clk (selectBandN core pass fuel excluded s).clk := by
  induction fuel generalizing s excluded with
  | zero => rfl
  | succ fuel ih =>
    unfold selectBandN
    split
    · dsimp only
      split
      · rfl
      · refine .trans ?_ (ih _)
        rw [raiseClk_clk]
        rfl
    · dsimp only
      rw [raiseClk_clk]
      rfl

theorem selectBand_onlyBands : OnlyBands s.clk (selectBand core pass s).clk := selectBandN_onlyBands ..

/-- The entry that R73 selects passes verification (R74). -/
theorem selectBand_some {i : Fin 32} (h : bandChoice (targetTwice core.val s) s.clk.bands[core] [] = some i) (hi : i.val ∈ pass) :
    (selectBand core pass s).clk = { s.clk with
      bands := upd s.clk.bands core fun t => upd t i fun e => { e with verified := true },
      selected := s.clk.selected.set core (some i.val), noBand := s.clk.noBand.set core false } := by
  rw [selectBand, selectBandN, h]
  simp [hi]

/-- No entry qualifies (R74). -/
theorem selectBand_none (h : bandChoice (targetTwice core.val s) s.clk.bands[core] [] = none) :
    (selectBand core pass s).clk = { s.clk with
      selected := s.clk.selected.set core none, noBand := s.clk.noBand.set core true } := by
  rw [selectBand, selectBandN, h]
  simp [fresh]

end

/-! ### The commands -/

section
variable {s : State}

theorem otherCore_one (h : s.clk.core[0] = .active) : otherCore (activeCore s) = 1 := by
  rw [activeCore_zero h]
  rfl

theorem exec_standbyDrift (hlive : live s = true) {o : Fin 2} (ho : otherCore (activeCore s) = o) : exec .standbyDrift s =
    if s.clk.core[o] == .standby then .next (raiseClk 0x12 sevWarning [BitVec.ofNat 8 o.val, 1] (setCore o .bad s)) else .next s := by
  subst ho
  exact exec_live hlive rfl

theorem exec_standbyReady (hlive : live s = true) {o : Fin 2} (ho : otherCore (activeCore s) = o) : exec .standbyReady s =
    if s.clk.core[o] == .bad && s.clk.lock[asCore o] && !s.clk.noBand[asCore o] then
      .next (finishReband (raiseClk 0x13 sevInfo [BitVec.ofNat 8 o.val] (setCore o .standby s))) else .next s := by
  subst ho
  exact exec_live hlive rfl

theorem exec_synfReturn (hlive : live s = true) : exec .synfReturn s =
    if s.clk.fBypass && s.clk.lock[2] then
      .next (raiseClk 0x14 sevNotice [1] { s with clk := { s.clk with fBypass := false } }) else .next s := exec_live hlive rfl

theorem exec_reband (core : Fin 4) (pass : List Nat) (hlive : live s = true) :
    exec (.reband core pass) s = .next (rebandCore core pass s) := exec_live hlive rfl

/-- SYN-F takes its new band on the bypass clock (R75). -/
theorem rebandCore_synf {pass : List Nat} {i : Fin 32} (hlock : s.clk.lock[2] = true)
    (h : bandChoice (targetTwice 2 s) s.clk.bands[2] [] = some i) (hi : i.val ∈ pass) :
    (rebandCore 2 pass s).clk = { s.clk with
      fBypass := true, lock := s.clk.lock.set 2 false,
      bands := upd s.clk.bands 2 fun t => upd t i fun e => { e with verified := true },
      selected := s.clk.selected.set 2 (some i.val), noBand := s.clk.noBand.set 2 false } := by
  have hreband : rebandCore 2 pass s = selectBand 2 pass (setLock 2 false (toBypass s)) := by simp [rebandCore, hlock]
  rw [hreband, selectBand_some (i := i) (by simpa [targetTwice] using h) hi]
  simp

/-- A locked SYN-S core: the other one is rebanded first (R75). -/
theorem rebandCore_syns (pass : List Nat) (hlock : s.clk.lock[0] = true) (hactive : s.clk.core[0] = .active) :
    rebandCore 0 pass s =
      if (selectBand 1 pass (setLock 1 false s)).clk.noBand[1] then setCore 1 .bad (selectBand 1 pass (setLock 1 false s))
      else { selectBand 1 pass (setLock 1 false s) with clk := { (selectBand 1 pass (setLock 1 false s)).clk with reband := some pass } } := by
  simp [rebandCore, hlock, otherCore_one hactive, asCore]

/-- The planned switch of a reband, once the rebanded core stands by (R75). -/
theorem finishReband_standby {pass : List Nat} (hreband : s.clk.reband = some pass) (hactive : s.clk.core[0] = .active)
    (hother : s.clk.core[1] = .standby) (hlock : s.clk.lock[1] = true) :
    (finishReband s).clk.core = (s.clk.core.set 0 .bad).set 1 .active ∧ (finishReband s).clk.lock = s.clk.lock.set 0 false ∧
      (finishReband s).clk.reband = none ∧ (finishReband s).clk.refState = s.clk.refState := by
  have hready : standbyReady s = true := by simp [standbyReady, otherCore_one hactive, asCore, hother, hlock]
  have hfinish : finishReband s =
      selectBand 0 pass (setLock 0 false (switchCore 1 { s with clk := { s.clk with reband := none } })) := by
    simp [finishReband, hreband, hready, activeCore_zero hactive, asCore]
  have hswitched := switchCore_core (s := { s with clk := { s.clk with reband := none } }) (activeCore_zero hactive) 1
  rw [hfinish, selectBand_onlyBands]
  exact ⟨hswitched, by simp, by simp, by simp⟩

theorem rebandCore_stays {core : Fin 4} (h : s.clk.lock[core] = false ∨ core = 3) (pass : List Nat) : rebandCore core pass s = s :=
  if_pos (by rcases h with h | h <;> simp_all)

/-- The rebanded core locks and stands by, so that the planned switch to it is made (R75). -/
theorem lockDeclared_reband {pass : List Nat} (href : s.clk.refState = .locked) (hband : s.clk.noBand[1] = false)
    (hactive : s.clk.core[0] = .active) (hother : s.clk.core[1] = .standby) (hreband : s.clk.reband = some pass) :
    (lockDeclared 1 s).clk.core = (s.clk.core.set 0 .bad).set 1 .active ∧
      (lockDeclared 1 s).clk.lock = (s.clk.lock.set 1 true).set 0 false ∧ (lockDeclared 1 s).clk.reband = none := by
  obtain ⟨hcores, hlocks, hdone, hstate⟩ := finishReband_standby (s := setHeld 1 false (setLock 1 true s)) hreband hactive hother (by simp)
  rw [lockDeclared_eq (core := 1) hband (by simp [href]) (by simp [href]) rfl]
  generalize finishReband (setHeld 1 false (setLock 1 true s)) = t at *
  obtain ⟨own, coast, hclk⟩ := endOwnCoast_clk 1 (asCore (activeCore t) == 1) t
  have hsame : lockReference (asCore (activeCore t) == 1) (endOwnCoast 1 (asCore (activeCore t) == 1) t) =
      endOwnCoast 1 (asCore (activeCore t) == 1) t := by
    have hlocked : (endOwnCoast 1 (asCore (activeCore t) == 1) t).clk.refState = .locked := by rw [hclk]; exact hstate.trans href
    simp [lockReference, hlocked]
  rw [hsame, hclk]
  exact ⟨hcores, hlocks, hdone⟩

end

/-- Settles O21: the standby core's commands are read off at `otherCore_one`; a reband is `selectBand` on one core, and its second half is
`finishReband` at the lock of that core (`lockDeclared_reband`). -/
theorem standbyBypassReband : Obligations.StandbyBypassReband := by
  refine ⟨fun s hlive hactive => ⟨fun hother => ?drift, fun hother => ?noDrift, fun hother hlock hband hreband => ?ready,
      fun hother => ?notReady, fun hbypass hlock => ?back, fun hbypass => ?noBack⟩,
    fun pass i s hlive => ⟨fun hlock hchoice hi => ?synf, fun hlock hactive => ⟨fun hchoice hi => ?syns, fun hchoice => ?synsNone⟩,
      fun run hcore hmet href hband hactive hother hreband => ?switch, ?synt, fun core hlock => ?unlocked⟩⟩
  case drift =>
    have hexec := exec_standbyDrift hlive (otherCore_one hactive)
    rw [if_pos (by simp [hother])] at hexec
    exact ⟨_, hexec, raiseClk_quiet ..⟩
  case noDrift => rw [exec_standbyDrift hlive (otherCore_one hactive), if_neg (by simpa using hother)]
  case ready =>
    have hexec := exec_standbyReady hlive (otherCore_one hactive)
    rw [if_pos (by simp [hother, asCore, hlock, hband]), finishReband_none (by simpa using hreband)] at hexec
    exact ⟨_, hexec, raiseClk_quiet ..⟩
  case notReady => rw [exec_standbyReady hlive (otherCore_one hactive), if_neg (by simp [hother])]
  case back =>
    have hexec := exec_synfReturn hlive
    rw [if_pos (by simp [hbypass, hlock])] at hexec
    exact ⟨_, hexec, raiseClk_quiet ..⟩
  case noBack => rw [exec_synfReturn hlive, if_neg (by simp [hbypass])]
  case synf =>
    refine ⟨_, exec_reband 2 pass hlive, ?_⟩
    rw [rebandCore_synf hlock hchoice hi]
    simp [upd]
  case syns =>
    have hselected := selectBand_some (s := setLock 1 false s) (core := 1) hchoice hi
    refine ⟨_, exec_reband 0 pass hlive, ?_⟩
    rw [rebandCore_syns pass hlock hactive, if_neg (by simp [hselected])]
    simp [hselected, hlock]
  case synsNone =>
    have hselected := selectBand_none (s := setLock 1 false s) (core := 1) (pass := pass) hchoice
    refine ⟨_, exec_reband 0 pass hlive, ?_⟩
    rw [rebandCore_syns pass hlock hactive, if_pos (by simp [hselected])]
    simp [hselected, hlock, hactive]
  case switch =>
    obtain ⟨hcores, hlocks, hdone⟩ := lockDeclared_reband href hband hactive hother hreband
    refine ⟨_, by rw [exec_lockDeclared run hlive, if_pos hmet, hcore], ?_⟩
    rw [checkAligned_clk, hcores, hlocks, hdone]
    simp
  case synt => rw [exec_reband 3 pass hlive, rebandCore_stays (.inr rfl)]
  case unlocked => rw [exec_reband core pass hlive, rebandCore_stays (.inl hlock)]

end Sys2Proof.Machine
end
section
/-!
The proof of O23: the reference state machine (R89 to R93), the measured phase difference (R92) and the timebase step (R94).
-/
namespace Sys2Proof.Machine

/-- Some entry of a vector passes a test. -/
theorem toList_any_iff {α : Type} {n : Nat} {v : Vector α n} {p : α → Bool} : v.toList.any p = true ↔ ∃ i : Fin n, p v[i] = true := by
  rw [List.any_eq_true]
  constructor
  · rintro ⟨x, hx, hp⟩
    obtain ⟨i, hi, rfl⟩ := Vector.mem_iff_getElem.mp (Vector.mem_toList_iff.mp hx)
    exact ⟨⟨i, hi⟩, hp⟩
  · exact fun ⟨i, hp⟩ => ⟨v[i], Vector.mem_toList_iff.mpr (Vector.getElem_mem i.isLt), hp⟩

section
variable {s : State}

theorem exec_refLoss (seen : RefFault) (hlive : live s = true) : exec (.refLoss seen) s =
    .next (match lossCause seen s with | some cause => checkAligned (refLost cause s) | none => s) := exec_live hlive rfl

theorem exec_refQualify (hlive : live s = true) : exec .refQualify s = .next (refQualify s) := exec_live hlive rfl

theorem exec_refStartTimeout (hlive : live s = true) : exec .refStartTimeout s =
    if s.clk.refState == .start then .next (toFree 0 (raiseClk 0x16 sevError [3] s)) else .next s := exec_live hlive rfl

theorem exec_coastSteer (hlive : live s = true) : exec .coastSteer s = .next
    (if s.clk.held.toList.any id then { s with clk := { s.clk with steers := s.clk.steers + 1 } } else s) := exec_live hlive rfl

theorem exec_refReturn (d : Int) (hlive : live s = true) : exec (.refReturn d) s = .next (checkAligned (refReturned d s)) :=
  exec_live hlive rfl

theorem exec_stepInstant (hlive : live s = true) : exec .stepInstant s = .next (stepInstant s) := exec_live hlive rfl

@[simp] theorem toFree_clk (back : Nat) (s : State) : (toFree back s).clk = { s.clk with
    lock := Vector.replicate 4 false, held := Vector.replicate 4 false, refState := .free, refCoast := true, coreCoast := false,
    reband := none, coast := (coastFrom back (toRef .free (clearLocks s))).clk.coast } := by
  simp [toFree]

/-! ### Δ (R92, R93) -/

/-- Δ is noted and reported, and no loop counts as locked before it locks anew (R92, R93). -/
def returnNoted (d : Int) (s : State) : State :=
  let noted := { s with clk := { s.clk with refJump := BitVec.ofInt 64 d, phaseAmbig := ambiguous s } }
  clearLocks (raiseClk 0x17 (if ambiguous s then sevWarning else sevNotice)
    (refReturnData noted false (ambiguous s) s.clk.refretNow) noted)

@[simp] theorem returnNoted_clk (d : Int) (s : State) : (returnNoted d s).clk = { s.clk with
    refJump := BitVec.ofInt 64 d, phaseAmbig := ambiguous s, lock := Vector.replicate 4 false, held := Vector.replicate 4 false } := by
  simp [returnNoted]

theorem deltaInW_returnNoted (d e : Int) (s : State) : deltaInW (returnNoted e s) d = deltaInW s d := by
  unfold deltaInW fsMilli
  rw [returnNoted_clk]

/-- A measured Δ within W is locked to; beyond W the timebase steps, or slews (R93). -/
theorem refReturned_eq {d : Int} (h : s.clk.refState = .measuring) (hd : deltaInRange s d = true) :
    refReturned d s =
      if deltaInW s d then toRef .locking (returnNoted d s)
      else if s.clk.refretNow then
        toRef .stepPending { returnNoted d s with clk := { (returnNoted d s).clk with stepDelta := some d, relockAt := none } }
      else toRef .slewing (returnNoted d s) := by
  have hret : (returnNoted d s).clk.refretNow = s.clk.refretNow := by rw [returnNoted_clk]
  unfold refReturned
  rw [if_pos (by simp [h, hd]), ← deltaInW_returnNoted d d s, ← hret]
  rfl

/-! ### The step instant (R94) -/

/-- The timebase steps by `d` at sample `n` (R94, R133, R162). -/
def stepped (n : Nat) (d : Int) (s : State) : State := { s with
  tb := { s.tb with maps := { sn := n, ts := tsAdd (tsOf s n) d, acts := n, step := true } :: s.tb.maps,
                    stepCount := s.tb.stepCount + 1, moments := n :: s.tb.moments },
  clk := { s.clk with steps := (n, d) :: s.clk.steps } }

theorem stepInstant_eq {d : Int} {n : Nat} (h : s.clk.refState = .stepPending) (hd : s.clk.stepDelta = some d)
    (hn : stepInstantOf s = some n) (htaken : n ≤ takenSample s + 39) :
    ∃ ts data, stepInstant s = checkAligned (reachLocked n (raise 0x41 sevWarning ts data (stepped n d s))) := by
  unfold stepInstant
  rw [h, hd, hn]
  exact ⟨_, _, if_pos htaken⟩

end

/-- Settles O23: each transition is the arm of its state, Δ is `refReturned_clk`, and the step instant is `stepped` and `reachLocked`. -/
theorem referenceAndTimebaseSteps : Obligations.ReferenceAndTimebaseSteps := by
  refine ⟨fun s hlive => ⟨fun seen cause hcause => ⟨fun href => ?lostLocked, fun href => ?lostLocking⟩, fun seen hnone => ?noLoss,
      fun href => ?fromStart, fun href => ?fromFree, fun href => ?fromCoasting, fun href => ?timeout, fun href => ?noTimeout,
      fun hclosed => ?notHeld, fun c hheld => ?held⟩,
    fun d s hlive href hrange => ?returned, fun d n s hlive href hdelta hn htaken => ?step⟩
  case lostLocked =>
    obtain ⟨hstate, -, hcoast, hlock, hat⟩ := refLost_locked href cause
    refine ⟨checkAligned (refLost cause s), by rw [exec_refLoss seen hlive, hcause], ?_⟩
    rw [checkAligned_clk, hstate, hcoast, hlock, hat]
    simp
  case lostLocking =>
    refine ⟨checkAligned (refLost cause s), by rw [exec_refLoss seen hlive, hcause], ?_⟩
    simp [refLost, href]
  case noLoss => rw [exec_refLoss seen hlive, hnone]
  case fromStart =>
    refine ⟨_, exec_refQualify hlive, ?_⟩
    simp [refQualify, href, toRef, clearLocks]
  case fromFree =>
    refine ⟨_, exec_refQualify hlive, ?_⟩
    simp [refQualify, href]
  case fromCoasting =>
    refine ⟨_, exec_refQualify hlive, ?_⟩
    simp [refQualify, href]
  case timeout =>
    have hexec := exec_refStartTimeout hlive
    rw [if_pos (by simp [href])] at hexec
    exact ⟨_, hexec, by simp⟩
  case noTimeout => rw [exec_refStartTimeout hlive, if_neg (by simpa using href)]
  case notHeld =>
    have hnone : ¬ s.clk.held.toList.any id = true := fun hany => by
      obtain ⟨c, hc⟩ := toList_any_iff.mp hany
      exact Bool.noConfusion ((hclosed c).symm.trans hc)
    rw [exec_coastSteer hlive, if_neg hnone]
  case held => rw [exec_coastSteer hlive, if_pos (toList_any_iff.mpr ⟨c, hheld⟩)]
  case returned =>
    refine ⟨_, (exec_refReturn d hlive).trans (by rw [refReturned_eq href hrange]), ?_⟩
    rw [checkAligned_clk]
    cases hw : deltaInW s d with
    | true => simp
    | false => cases hret : s.clk.refretNow <;> simp
  case step =>
    obtain ⟨ts, data, heq⟩ := stepInstant_eq href hdelta hn htaken
    have honly : OnlyClk (raise 0x41 sevWarning ts data (stepped n d s))
        (reachLocked n (raise 0x41 sevWarning ts data (stepped n d s))) :=
      (OnlyClk.refl _).reachLocked (by simp [stepped, href]) n
    refine ⟨_, (exec_stepInstant hlive).trans (congrArg _ heq), ?_⟩
    rw [checkAligned_clk, reachLocked_clk, checkAligned_tb, checkAligned_slices, checkAligned_mem, checkAligned_seqs, checkAligned_tacs, honly]
    simp [stepped]

end Sys2Proof.Machine
end
section
/-!
SUPPORT. Loops over the slices of which each turn touches its own slice, and the lanes of a slice (R99, R113 to R119).
-/
namespace Sys2Proof.Machine

/-! ### A loop whose turns touch one entry each -/

theorem foldl_frame_mem {α β σ : Type} (p : σ → β) (f : σ → α → σ) (l : List α) (s : σ)
    (h : ∀ s, ∀ a ∈ l, p (f s a) = p s) : p (l.foldl f s) = p s := by
  induction l generalizing s with
  | nil => rfl
  | cons a l ih =>
    rw [List.foldl_cons, ih _ fun s b hb => h s b (List.mem_cons_of_mem _ hb), h s a (List.mem_cons_self ..)]

/-- What only turn `n` changes, the loop makes of it what turn `n` makes of it, in a state `t` that the turns before have left. -/
theorem forAll_turn {β : Type} {m : Nat} {n : Fin m} (p : State → β) (q : State → Prop) {f : Fin m → State → State} {s : State}
    (hother : ∀ i t, i ≠ n → p (f i t) = p t) (hkeep : ∀ i t, q t → q (f i t)) (hs : q s) :
    ∃ t, q t ∧ p t = p s ∧ p (forAll m f s) = p (f n t) := by
  obtain ⟨before, after, hsplit⟩ := List.append_of_mem (List.mem_finRange n)
  have hnodup := List.nodup_finRange m
  rw [hsplit, List.nodup_append, List.nodup_cons] at hnodup
  obtain ⟨-, ⟨hafter, -⟩, hbefore⟩ := hnodup
  refine ⟨before.foldl (fun s i => f i s) s, foldl_keeps q _ _ _ (fun t i => hkeep i t) hs,
    foldl_frame_mem p _ _ _ fun t i hi => hother i t (hbefore i hi n (List.mem_cons_self ..)), ?_⟩
  rw [forAll, hsplit, List.foldl_append, List.foldl_cons]
  exact foldl_frame_mem p _ _ _ fun t i hi => hother i t fun e => hafter (e ▸ hi)

/-- Turns that change their own slice by a function that may read a free value. -/
theorem forAll_updSlice {n : Fin 8} {s : State} (g : Nat → Fin 8 → Slice → Slice) :
    ∃ k, (forAll 8 (fun i s => updSlice i (g (fresh s).1 i) (fresh s).2) s).slices[n] = g k n s.slices[n] := by
  obtain ⟨t, -, hslice, hturn⟩ := forAll_turn (n := n) (s := s) (f := fun i s => updSlice i (g (fresh s).1 i) (fresh s).2)
    (fun s => s.slices[n]) (fun _ => True) (fun i t hi => upd_get_ne _ _ _ _ (Ne.symm hi)) (fun _ _ _ => trivial) trivial
  refine ⟨(fresh t).1, hturn.trans ?_⟩
  rw [← hslice]
  exact upd_get ..

/-- `t` differs from `s` at most in the slices and the counter of free values. -/
def OnlySlices (s t : State) : Prop := t = { s with slices := t.slices, freeCtr := t.freeCtr }

theorem forAll_updSlice_only {s : State} (g : Nat → Fin 8 → Slice → Slice) :
    OnlySlices s (forAll 8 (fun i s => updSlice i (g (fresh s).1 i) (fresh s).2) s) := by
  refine forAll_keeps (OnlySlices s) _ _ (fun i t h => ?_) rfl
  unfold OnlySlices at *
  rw [h]
  rfl

/-! ### The lanes of a slice -/

/-- `t` differs from `s` at most in the slices, the in-service test and events. -/
def OnlyLanes (s t : State) : Prop := Safety.Quiet { s with slices := t.slices, health := t.health } t

/-- The same, and of the slices at most slice `n`. -/
structure LaneWork (n : Fin 8) (s t : State) : Prop where
  only : OnlyLanes s t
  others : ∀ k : Fin 8, k ≠ n → t.slices[k] = s.slices[k]

section
variable {n : Fin 8} {s t u : State}

theorem OnlyLanes.trans (h : OnlyLanes s t) (k : OnlyLanes t u) : OnlyLanes s u := by
  unfold OnlyLanes Safety.Quiet at *
  rw [k, h]

theorem LaneWork.refl (n : Fin 8) (s : State) : LaneWork n s s := ⟨rfl, fun _ _ => rfl⟩

theorem LaneWork.trans (h : LaneWork n s t) (k : LaneWork n t u) : LaneWork n s u :=
  ⟨h.only.trans k.only, fun i hi => (k.others i hi).trans (h.others i hi)⟩

theorem LaneWork.updSlice (h : LaneWork n s t) (f : Slice → Slice) : LaneWork n s (updSlice n f t) :=
  h.trans ⟨rfl, fun _ hk => upd_get_ne _ _ _ _ hk⟩

theorem raiseNow_onlyLanes (src : Fin 256) (sev : Nat) (data : List Byte) (s : State) : OnlyLanes s (raiseNow src sev data s) := by
  unfold OnlyLanes
  rw [raiseNow_slices, raiseNow_health]
  exact raiseNow_quiet ..

@[simp] theorem raiseLane_slices (n : Fin 8) (lane pos cause action : Nat) (s : State) :
    (raiseLane n lane pos cause action s).slices = s.slices := raiseNow_slices ..

theorem LaneWork.raiseLane (h : LaneWork n s t) (lane pos cause action : Nat) : LaneWork n s (raiseLane n lane pos cause action t) :=
  h.trans ⟨.trans (by rfl) (raiseNow_onlyLanes ..), fun _ _ => by rw [raiseLane_slices]⟩

@[simp] theorem raiseProof_slices (n : Fin 8) (sev step outcome lane : Nat) (s : State) :
    (raiseProof n sev step outcome lane s).slices = s.slices := raiseNow_slices ..

theorem raiseProof_quiet (n : Fin 8) (sev step outcome lane : Nat) (s : State) : Safety.Quiet s (raiseProof n sev step outcome lane s) :=
  raiseNow_quiet ..

theorem LaneWork.raiseProof (h : LaneWork n s t) (sev step outcome lane : Nat) : LaneWork n s (raiseProof n sev step outcome lane t) :=
  h.trans ⟨raiseNow_onlyLanes .., fun _ _ => by rw [raiseProof_slices]⟩

theorem LaneWork.settleOut (h : LaneWork n s t) (u : Nat) : LaneWork n s (settleOut n u t) := h.updSlice _

/-- The lane map rebuilt (R99). -/
theorem rebuildSlice_spec (n : Fin 8) (s : State) :
    LaneWork n s (rebuildSlice n s) ∧ (rebuildSlice n s).slices[n] = (rebuildMap s.slices[n]).1 := by
  unfold rebuildSlice
  dsimp only
  constructor
  · exact foldl_keeps (LaneWork n s) _ _ _ (fun t p h => h.raiseLane ..) ((LaneWork.refl n s).updSlice _)
  · rw [foldl_frame State.slices _ _ _ fun t p => raiseLane_slices ..]
    exact upd_get ..

/-- A lane that fails in service is retired, whoever takes its position (R114, R115). -/
theorem serviceFail_eq (n : Fin 8) (lane p check : Nat) (mayTake : Bool) (s : State) :
    ∃ action f, serviceFail n lane p check mayTake s = raiseLane n lane p check action (updSlice n f s) ∧
      ∀ x, (f x).retired = (retireLane lane x).retired := by
  unfold serviceFail
  dsimp only
  split
  · exact ⟨0, _, rfl, fun _ => rfl⟩
  · exact ⟨2, _, rfl, fun _ => rfl⟩

theorem laneFails_laneWork (n : Fin 8) (lane check : Nat) (mayTake : Bool) (s : State) :
    LaneWork n s (laneFails n lane check mayTake s) := by
  have hwork : ∀ f p cause action, LaneWork n s (raiseLane n lane p cause action (updSlice n f s)) :=
    fun f p cause action => ((LaneWork.refl n s).updSlice f).raiseLane ..
  unfold laneFails
  dsimp only
  split
  · exact .refl n s
  · split
    · next p _ =>
      split
      · exact hwork ..
      · obtain ⟨action, f, heq, -⟩ := serviceFail_eq n lane p check mayTake s
        exact heq ▸ hwork ..
    · exact hwork ..

/-- A lane retired is retired (R118). -/
theorem retireLane_retired (l : Fin 41) (x : Slice) : (retireLane l.val x).retired.getLsbD l.val = true := by
  simp only [retireLane, BitVec.getLsbD_or, BitVec.getLsbD_ofNat, Nat.testBit_two_pow_self, l.isLt, decide_true, Bool.and_self, Bool.or_true]

theorem refillOut_retired (lc : Nat) (run : Bool) (x : Slice) : (refillOut lc run x).retired = x.retired := by
  unfold refillOut
  split
  · rfl
  · split <;> rfl

/-- With no substitution to look back on, a lane that fails is retired (R114 to R118). -/
theorem laneFails_retires (lane : Fin 41) (h : (s.slices[n]).substs = []) (hlane : (s.slices[n]).retired.getLsbD lane.val = false)
    (check : Nat) (mayTake : Bool) : ((laneFails n lane.val check mayTake s).slices[n]).retired.getLsbD lane.val = true := by
  have hnone : ∀ p, positionFaulty s.slices[n] lane.val p (takenLc s) = none := fun p => by
    simp only [positionFaulty, h, List.find?_nil]
  have hretired : ∀ (f : Slice → Slice), (∀ x, (f x).retired = (retireLane lane.val x).retired) → ∀ p cause action,
      ((raiseLane n lane.val p cause action (updSlice n f s)).slices[n]).retired.getLsbD lane.val = true := fun f hf p cause action => by
    rw [raiseLane_slices, updSlice_slices, Fin.getElem_fin, upd_get, hf, retireLane_retired]
  unfold laneFails
  dsimp only
  rw [hlane, if_neg (by decide)]
  split
  · next p _ =>
    obtain ⟨action, f, heq, hf⟩ := serviceFail_eq n lane.val p check mayTake s
    rw [hnone]
    dsimp only
    rw [heq]
    exact hretired f hf ..
  · unfold spareFail
    refine hretired _ ?_ _ _ _
    exact fun _ => rfl

end

end Sys2Proof.Machine
end
section
/-!
SUPPORT. The work of the first steps of proofing: bands in PF1, lane maps in PF2, lane tables and retired lanes in PF3 (R122).
-/
namespace Sys2Proof.Machine

/-! ### PF1 and PF2 -/

theorem OnlyClk.selectBand {s t : State} (h : OnlyClk s t) (core : Fin 4) (pass : List Nat) : OnlyClk s (selectBand core pass t) :=
  h.selectBandN ..

theorem OnlyClk.setCore {s t : State} (h : OnlyClk s t) (core : Fin 2) (x : CoreState) : OnlyClk s (setCore core x t) :=
  h.trans rfl

theorem selectBands_onlyClk (pass : List (List Nat)) (s : State) : OnlyClk s (selectBands pass s) := by
  have hselected : OnlyClk s (forAll 4 (fun c s => selectBand c (pass.getD c.val []) s) s) :=
    forAll_keeps (OnlyClk s) _ s (fun _ _ h => h.selectBand ..) (.refl s)
  unfold selectBands
  extract_lets selected a
  split
  · exact (hselected.setCore ..).setCore ..
  · exact hselected

/-- The lane maps of all slices rebuilt (R99). -/
theorem rebuildSlices_spec (s : State) : OnlyLanes s (forAll 8 rebuildSlice s) ∧
    ∀ n : Fin 8, (forAll 8 rebuildSlice s).slices[n] = (rebuildMap s.slices[n]).1 := by
  refine ⟨forAll_keeps (OnlyLanes s) _ s (fun i t h => h.trans (rebuildSlice_spec i t).1.only) rfl, fun n => ?_⟩
  obtain ⟨t, -, hslice, hturn⟩ := forAll_turn (s := s) (fun s => s.slices[n]) (fun _ => True)
    (fun i t hi => (rebuildSlice_spec i t).1.others n (Ne.symm hi)) (fun _ _ _ => trivial) trivial
  rw [hturn, (rebuildSlice_spec n t).2, hslice]

/-! ### PF3 -/

section
variable {s : State}

theorem fitFails_laneWork (s : State) (x : Fin 8 × Fin 41) : LaneWork x.1 s (fitFails s x) := by
  unfold fitFails
  split
  · exact .refl ..
  · exact (laneFails_laneWork ..).raiseProof ..

theorem fitFails_of_retired {x : Fin 8 × Fin 41} (h : (s.slices[x.1]).retired.getLsbD x.2.val = true) : fitFails s x = s := if_pos h

theorem foldl_fitFails_of_retired {x : Fin 8 × Fin 41} (h : (s.slices[x.1]).retired.getLsbD x.2.val = true) (l : List (Fin 8 × Fin 41))
    (hl : ∀ y ∈ l, y = x) : l.foldl fitFails s = s := by
  induction l with
  | nil => rfl
  | cons y l ih =>
    rw [List.foldl_cons, hl y (List.mem_cons_self ..), fitFails_of_retired h]
    exact ih fun z hz => hl z (List.mem_cons_of_mem _ hz)

theorem fitFails_retires {x : Fin 8 × Fin 41} (h : (s.slices[x.1]).substs = []) :
    ((fitFails s x).slices[x.1]).retired.getLsbD x.2.val = true := by
  cases hx : (s.slices[x.1]).retired.getLsbD x.2.val with
  | true => rw [fitFails_of_retired hx, hx]
  | false =>
    unfold fitFails
    rw [hx, if_neg (by decide), raiseProof_slices]
    exact laneFails_retires x.2 h hx 6 true

theorem settleOut_retired (n k : Fin 8) (u : Nat) (s : State) : ((settleOut n u s).slices[k]).retired = (s.slices[k]).retired := by
  unfold settleOut
  rw [updSlice_slices]
  by_cases h : k = n
  · subst h
    rw [Fin.getElem_fin, upd_get, refillOut_retired]
  · exact congrArg Slice.retired (upd_get_ne _ _ _ _ h)

/-- A lane serves one of the 40 positions. -/
theorem servedPos_lt {x : Slice} {l p : Nat} (h : servedPos x l = some p) : p < 40 :=
  List.mem_range.mp (List.mem_of_find?_eq_some h)

theorem fitsFail_onlyLanes (failed : List (Fin 8 × Fin 41)) (s : State) : OnlyLanes s (fitsFail failed s) := by
  unfold fitsFail
  refine forAll_keeps (OnlyLanes s) _ _ (fun n t h => ?_) (foldl_keeps (OnlyLanes s) _ _ _
    (fun t x h => h.trans (fitFails_laneWork t x).only) (foldl_keeps (OnlyLanes s) _ _ _
      (fun t x h => h.trans ((fitFails_laneWork t x).settleOut _).only) rfl))
  split
  · exact h.trans ((LaneWork.refl n t).settleOut _).only
  · exact h

/-- A slice without a lane that fails its fit. -/
theorem fitsFail_other {failed : List (Fin 8 × Fin 41)} {n : Fin 8} (h : ∀ x ∈ failed, x.1 ≠ n) :
    (fitsFail failed s).slices[n] = s.slices[n] := by
  unfold fitsFail
  extract_lets u at_ served spared
  have hserved : ∀ x ∈ served, x.1 ≠ n := fun x hx => by
    obtain ⟨p, -, hx⟩ := List.mem_flatMap.mp hx
    exact h x (List.mem_of_mem_filter hx)
  have hspared : spared.slices[n] = s.slices[n] := foldl_frame_mem (fun s : State => s.slices[n]) _ _ _ fun t x hx =>
    ((fitFails_laneWork t x).settleOut u).others n (h x (List.mem_of_mem_filter hx)).symm
  rw [← hspared, ← foldl_frame_mem (fun s : State => s.slices[n]) fitFails served spared fun t x hx =>
    (fitFails_laneWork t x).others n (hserved x hx).symm]
  refine forAll_frame (fun s : State => s.slices[n]) _ _ fun i t => ?_
  split
  · next hany =>
    obtain ⟨x, hx, hi⟩ := List.any_eq_true.mp hany
    have hne : i ≠ n := beq_iff_eq.mp hi ▸ hserved x hx
    exact ((LaneWork.refl i t).settleOut u).others n hne.symm
  · rfl

/-- A single lane that fails its fit is retired, whether it serves a position or not (R119). -/
theorem fitsFail_single {x : Fin 8 × Fin 41} (h : (s.slices[x.1]).substs = []) :
    ((fitsFail [x] s).slices[x.1]).retired.getLsbD x.2.val = true := by
  unfold fitsFail
  extract_lets u at_ served spared
  have hserved : ∀ y ∈ served, y = x := fun y hy => by
    obtain ⟨p, -, hy⟩ := List.mem_flatMap.mp hy
    exact List.mem_singleton.mp (List.mem_of_mem_filter hy)
  suffices hfailed : ((served.foldl fitFails spared).slices[x.1]).retired.getLsbD x.2.val = true by
    refine forAll_keeps (fun t => (t.slices[x.1]).retired.getLsbD x.2.val = true) _ _ (fun n t ht => ?_) hfailed
    split
    · rw [settleOut_retired, ht]
    · exact ht
  cases hat : at_ x with
  | none =>
    have hspared : spared = settleOut x.1 u (fitFails s x) := by simp [spared, hat]
    have hretired : (spared.slices[x.1]).retired.getLsbD x.2.val = true := by
      rw [hspared, settleOut_retired, fitFails_retires h]
    rw [foldl_fitFails_of_retired hretired served hserved, hretired]
  | some p =>
    have hspared : spared = s := by simp [spared, hat]
    have hmem : x ∈ served := List.mem_flatMap.mpr ⟨p, List.mem_range.mpr (servedPos_lt hat), by simp [hat]⟩
    rw [hspared]
    clear_value served
    cases served with
    | nil => exact absurd hmem List.not_mem_nil
    | cons y l =>
      have hretired := fitFails_retires h
      rw [List.foldl_cons, hserved y (List.mem_cons_self ..),
        foldl_fitFails_of_retired hretired l fun z hz => hserved z (List.mem_cons_of_mem _ hz), hretired]

/-- A slice with its lane table fitted, to values that depend on a free value. -/
def lanesFitted (k : Nat) (_ : Fin 8) (x : Slice) : Slice :=
  { x with laneTab := Vector.ofFn fun l : Fin 41 => factoryLane (8 + k) l.val }

theorem lanesFitted_substs (k : Nat) (n : Fin 8) (x : Slice) : (lanesFitted k n x).substs = x.substs := by rw [lanesFitted]

/-- PF3 fits every lane table; what else it changes of a slice is the retirement of the lanes that failed. -/
theorem lanesDone_spec (failed : List (Fin 8 × Fin 41)) (s : State) :
    (lanesDone failed s).proof = s.proof ∧
      (∀ x, failed = [x] → (s.slices[x.1]).substs = [] → ((lanesDone failed s).slices[x.1]).retired.getLsbD x.2.val = true) ∧
      ∀ n : Fin 8, (∀ x ∈ failed, x.1 ≠ n) →
        (lanesDone failed s).slices[n] = { s.slices[n] with laneTab := ((lanesDone failed s).slices[n]).laneTab } := by
  have hfitted := forAll_updSlice_only (s := s) lanesFitted
  have hslice := fun n => forAll_updSlice (n := n) (s := s) lanesFitted
  have hdone : lanesDone failed s =
      fitsFail failed (forAll 8 (fun i s => updSlice i (lanesFitted (fresh s).1 i) (fresh s).2) s) := rfl
  rw [hdone]
  generalize forAll 8 (fun i s => updSlice i (lanesFitted (fresh s).1 i) (fresh s).2) s = t at *
  refine ⟨?_, fun x hx hsubsts => ?_, fun n hn => ?_⟩
  · rw [fitsFail_onlyLanes failed t, hfitted]
  · obtain ⟨k, hk⟩ := hslice x.1
    rw [hx]
    exact fitsFail_single (by rw [hk, lanesFitted_substs, hsubsts])
  · obtain ⟨k, hk⟩ := hslice n
    rw [fitsFail_other hn, hk]
    rfl

end

end Sys2Proof.Machine
end
section
/-!
SUPPORT and the proof of O50: the steps of proofing (R122), each with its work and what it leaves alone.
-/
namespace Sys2Proof.Machine

/-- Proofing at step `k`. -/
def atProofStep (k : Nat) (s : State) : State := { s with proof := { s.proof with step := k } }

section
variable {s : State} {d : ProofData}

/-! ### What a step's end does (R122) -/

theorem exec_proofingStepEnd (hlive : live s = true) (hd : WellFormed.instr (.proofingStepEnd d) = true) :
    exec (.proofingStepEnd d) s = .next (proofingStepEnd d s) :=
  (exec_live hlive rfl).trans (if_pos hd)

theorem proofingStepEnd_inactive (h : s.proof.active = false) : proofingStepEnd d s = s := by
  simp only [proofingStepEnd, h, Bool.not_false, if_true]

section
variable (hactive : s.proof.active = true)
include hactive

theorem proofingStepEnd_one (h : s.proof.step = 1) : proofingStepEnd d s = atProofStep 2 (selectBands d.bandPass s) := by
  simp only [proofingStepEnd, hactive, h, Bool.not_true, Bool.false_eq_true, if_false, atProofStep]

theorem proofingStepEnd_two (h : s.proof.step = 2) : proofingStepEnd d s = if clocksDone s then
    startQuick (forAll 8 rebuildSlice (atProofStep 3 { s with clk := { s.clk with applyBusy := false } })) else s := by
  simp only [proofingStepEnd, hactive, h, Bool.not_true, Bool.false_eq_true, if_false, atProofStep]

theorem proofingStepEnd_three (h : s.proof.step = 3) : proofingStepEnd d s = atProofStep 4 (lanesDone d.retired s) := by
  simp only [proofingStepEnd, hactive, h, Bool.not_true, Bool.false_eq_true, if_false, atProofStep]

theorem proofingStepEnd_four (h : s.proof.step = 4) : proofingStepEnd d s = atProofStep 5 (positionsDone s) := by
  simp only [proofingStepEnd, hactive, h, Bool.not_true, Bool.false_eq_true, if_false, atProofStep]

theorem proofingStepEnd_five (h : s.proof.step = 5) :
    proofingStepEnd d s = loadCartridges (atProofStep 6 (slicesAligned d.tacOffsets d.delays s)) := by
  simp only [proofingStepEnd, hactive, h, Bool.not_true, Bool.false_eq_true, if_false, atProofStep]

theorem proofingStepEnd_six (h : s.proof.step = 6) : proofingStepEnd d s =
    if s.carts.toList.any (fun c => c.deriving_ && c.state == .active) then s else atProofStep 7 s := by
  simp only [proofingStepEnd, hactive, h, Bool.not_true, Bool.false_eq_true, if_false, atProofStep]

theorem proofingStepEnd_seven (h : s.proof.step = 7) : proofingStepEnd d s = proofingEnds s := by
  simp only [proofingStepEnd, hactive, h, Bool.not_true, Bool.false_eq_true, if_false]

end

/-! ### PF2 and PF4 -/

theorem startQuick_tacs_of_noBand (h : s.clk.noBand[(3 : Fin 4)] = true) : startQuick s = s := if_pos h

theorem startQuick_tacs (h : s.clk.noBand[(3 : Fin 4)] = false) {i : Fin 8} (hi : i.val ≤ 6) :
    (startQuick s).tacs[i] = { s.tacs[i] with calRun := some .quick, hits := 0 } := by
  unfold startQuick
  rw [if_neg (by simpa using h), Fin.getElem_fin, Vector.getElem_ofFn, if_pos hi]

theorem startQuick_only (s : State) : startQuick s = { s with tacs := (startQuick s).tacs } := by
  unfold startQuick
  split <;> rfl

/-- A slice with its position table and reconstruction coefficients fitted. -/
def positionsFitted (k : Nat) (_ : Fin 8) (x : Slice) : Slice :=
  { x with posTab := Vector.ofFn (fun p : Fin 40 => factoryPos (8 + k) p.val), reconFit := 8 + k }

theorem positionsDone_only (s : State) : OnlySlices s (positionsDone s) := forAll_updSlice_only positionsFitted

theorem positionsDone_slice (n : Fin 8) (s : State) : (positionsDone s).slices[n] = { s.slices[n] with
    posTab := ((positionsDone s).slices[n]).posTab, reconFit := ((positionsDone s).slices[n]).reconFit } := by
  obtain ⟨k, hk⟩ := forAll_updSlice (n := n) (s := s) positionsFitted
  have hslice : (positionsDone s).slices[n] = positionsFitted k n s.slices[n] := hk
  rw [hslice]
  rfl

/-! ### PF5 -/

theorem slicesAligned_only (offsets : List W32) (delays : List (Nat × Int)) (s : State) : slicesAligned offsets delays s = { s with
    slices := (slicesAligned offsets delays s).slices
    freeCtr := (slicesAligned offsets delays s).freeCtr
    clk := { s.clk with outs := (slicesAligned offsets delays s).clk.outs }
    tacs := Vector.ofFn fun i : Fin 8 => { s.tacs[i] with offset := Config.landDelay i.val + offsets.getD i.val 0 } } := by
  have hfrac : OnlySlices s _ := forAll_updSlice_only fun k _ x => { x with fracDelay := Config.freeInt k }
  unfold slicesAligned setDelays
  dsimp only
  rw [hfrac]

theorem slicesAligned_slice (offsets : List W32) (delays : List (Nat × Int)) (n : Fin 8) (s : State) :
    (slicesAligned offsets delays s).slices[n] =
      { s.slices[n] with fracDelay := ((slicesAligned offsets delays s).slices[n]).fracDelay } := by
  obtain ⟨k, hk⟩ := forAll_updSlice (n := n) (s := s) fun k _ x => { x with fracDelay := Config.freeInt k }
  unfold slicesAligned setDelays
  dsimp only
  rw [hk]

/-- The turn of one input in the loop over the cartridges. -/
def loadTurn (n : Fin 8) (s : State) : State := if (s.carts[n]).state == .active then loadCorrection n s else s

theorem loadTurn_inputIs (n : Fin 8) (s : State) : ∃ d x, InputIs n s (loadTurn n s) { s.carts[n] with deriving_ := d } x := by
  unfold loadTurn
  split
  · exact (InputIs.refl n s).loadCorrection
  · exact ⟨_, _, .refl n s⟩

/-- `t` differs from `s` at most in the cartridges and slices, and events. -/
def OnlyInputs (s t : State) : Prop := Safety.Quiet { s with carts := t.carts, slices := t.slices } t

theorem OnlyInputs.refl (s : State) : OnlyInputs s s := rfl

theorem OnlyInputs.loadTurn {t : State} (h : OnlyInputs s t) (n : Fin 8) : OnlyInputs s (loadTurn n t) := by
  obtain ⟨d, x, hturn⟩ := loadTurn_inputIs n t
  have hframe := hturn.frame_all
  generalize Machine.loadTurn n t = u at *
  unfold OnlyInputs Safety.Quiet at *
  rw [hframe, h]

theorem loadCartridges_eq (s : State) : loadCartridges s = forAll 8 loadTurn s := rfl

theorem loadCartridges_only (s : State) : OnlyInputs s (loadCartridges s) :=
  forAll_keeps (OnlyInputs s) loadTurn s (fun n _ h => h.loadTurn n) (.refl s)

/-- What the loop over the cartridges makes of an input is what its own turn makes of it. -/
theorem loadCartridges_turn (n : Fin 8) (s : State) : ∃ t, OnlyInputs s t ∧ t.carts[n] = s.carts[n] ∧ t.slices[n] = s.slices[n] ∧
    (loadCartridges s).carts[n] = (loadTurn n t).carts[n] ∧ (loadCartridges s).slices[n] = (loadTurn n t).slices[n] := by
  have hother : ∀ (i : Fin 8) (t : State), i ≠ n →
      ((loadTurn i t).carts[n], (loadTurn i t).slices[n]) = (t.carts[n], t.slices[n]) := fun i t hi => by
    obtain ⟨d, x, hturn⟩ := loadTurn_inputIs i t
    rw [hturn.cart_ne hi.symm, hturn.slice_ne hi.symm]
  obtain ⟨t, honly, hbefore, hturn⟩ := forAll_turn (fun s : State => (s.carts[n], s.slices[n])) (OnlyInputs s) hother
    (fun i _ h => h.loadTurn i) (.refl s)
  rw [Prod.mk.injEq] at hbefore hturn
  rw [loadCartridges_eq]
  exact ⟨t, honly, hbefore.1, hbefore.2, hturn.1, hturn.2⟩

theorem loadCartridges_inactive {n : Fin 8} (h : (s.carts[n]).state ≠ .active) :
    (loadCartridges s).carts[n] = s.carts[n] ∧ (loadCartridges s).slices[n] = s.slices[n] := by
  obtain ⟨t, -, hcart, hslice, hcarts, hslices⟩ := loadCartridges_turn n s
  have hturn : loadTurn n t = t := if_neg (by rw [hcart, beq_iff_eq]; exact h)
  rw [hcarts, hslices, hturn]
  exact ⟨hcart, hslice⟩

/-- At 80 GS/s exactly the cartridge's own coefficients are loaded (R54). -/
theorem loadCartridges_firCoef {n : Fin 8} (h : (s.carts[n]).state = .active) (hfs : fsMilli s = 80000000000000) :
    ((loadCartridges s).slices[n]).firNext = some (firCoef (s.carts[n]).factory, .firCoef, 4096 * nextBlock n s) := by
  obtain ⟨t, ht, hcart, hslice, -, hslices⟩ := loadCartridges_turn n s
  have hclk : t.clk = s.clk := by rw [ht]
  have hload : loadTurn n t = loadSet n (firCoef (t.carts[n]).factory) .firCoef (updCart n (fun c => { c with deriving_ := false }) t) :=
    (if_pos (by rw [hcart, h]; rfl)).trans (if_pos (by rw [fsMilli, hclk]; exact hfs))
  rw [hslices, hload, (((InputIs.refl n t).updCart _).loadSet ..).slice, hcart, hslice, nextBlock_eq]
  rfl

/-- At another rate its set is to be derived (R54, R107). -/
theorem loadCartridges_derives {n : Fin 8} (h : (s.carts[n]).state = .active) (hfs : fsMilli s ≠ 80000000000000) :
    ((loadCartridges s).carts[n]).deriving_ = true ∧ (loadCartridges s).slices[n] = s.slices[n] := by
  obtain ⟨t, ht, hcart, hslice, hcarts, hslices⟩ := loadCartridges_turn n s
  have hclk : t.clk = s.clk := by rw [ht]
  have hload : loadTurn n t = updCart n (fun c => { c with deriving_ := true }) t :=
    (if_pos (by rw [hcart, h]; rfl)).trans (if_neg (by rw [fsMilli, hclk]; exact hfs))
  have hinput := (InputIs.refl n t).updCart fun c => { c with deriving_ := true }
  rw [hcarts, hslices, hload, hinput.cart, hinput.slice, hslice]
  exact ⟨rfl, rfl⟩

/-! ### PF7 -/

theorem proofed_saves (lc : Nat) (x : Slice) : (x.proofed lc).savedLane = x.laneTab ∧ (x.proofed lc).savedPos = x.posTab ∧
    (x.proofed lc).rotBase = lc ∧ (x.proofed lc).rotK = 0 ∧ (x.proofed lc).laneMap = x.laneMap := by
  unfold Slice.proofed
  dsimp only
  split <;> exact ⟨rfl, rfl, rfl, rfl, rfl⟩

/-- Rotation starts where there is an out lane (R110, R111). -/
theorem proofed_rotates {lc : Nat} {x : Slice} (h : x.outLane.isSome = true) : (x.proofed lc).rotRun = true ∧
    (x.proofed lc).shadowPos = stepPosition x 0 ∧ (x.proofed lc).shadowSince = lc := by
  unfold Slice.proofed
  dsimp only
  rw [if_pos h]
  exact ⟨rfl, rfl, rfl⟩

theorem forAll_raiseProof_quiet (sev step outcome lane : Nat) (s : State) :
    Safety.Quiet s (forAll 8 (fun n s => raiseProof n sev step outcome lane s) s) :=
  forAll_keeps (Safety.Quiet s) _ s (fun _ _ h => quiet_trans h (raiseProof_quiet ..)) (quiet_refl s)

/-- An engine that is not assigned does not serve. -/
theorem notMem_engines_of_not_assigned {e : Nat} (h : assigned s e = false) (i : Fin 16) : e ∉ (s.insts[i]).engines := by
  unfold assigned servedBy at h
  rw [Bool.or_eq_false_iff, Option.isSome_eq_false_iff, Option.isNone_iff_eq_none, List.find?_eq_none] at h
  exact fun hmem => h.1 i (List.mem_finRange i) (List.contains_iff_mem.mpr hmem)

/-- A reserve is an engine of its pair, neither retired nor in use (R305). -/
theorem designateReserves_free {p : Fin 8} {e : Nat} (h : (designateReserves s).eng.reserve[p] = some e) :
    e / 32 = p.val ∧ e ∉ s.eng.retired ∧ ∀ i : Fin 16, e ∉ (s.insts[i]).engines := by
  unfold designateReserves updEng at h
  rw [Fin.getElem_fin, Vector.getElem_ofFn] at h
  obtain ⟨i, hi, rfl⟩ := List.mem_map.mp (List.mem_of_find?_eq_some h)
  have hfree := List.find?_some h
  rw [Bool.and_eq_true, Bool.not_eq_true', Bool.not_eq_true', List.contains_eq_mem, decide_eq_false_iff_not] at hfree
  rw [List.mem_range] at hi
  exact ⟨by dsimp only; omega, hfree.1, notMem_engines_of_not_assigned hfree.2⟩

/-- The state in which proofing has ended, before events and the choice of reserves. -/
def proofed (s : State) : State := { s with
  proof := { s.proof with active := false, step := 0, fail := false, endSample := some (takenSample s) }
  tacs := s.tacs.map fun t => { t with saved := t.table }
  slices := s.slices.map (Slice.proofed (takenSample s / 40)) }

/-- `t` differs from `s` at most in the designated reserves and in events. -/
def OnlyReserve (s t : State) : Prop := Safety.Quiet { s with eng := { s.eng with reserve := t.eng.reserve } } t

theorem proofingEnds_spec (s : State) : OnlyReserve (proofed s) (proofingEnds s) ∧
    ∀ (p : Fin 8) (e : Nat), (proofingEnds s).eng.reserve[p] = some e →
      e / 32 = p.val ∧ e ∉ s.eng.retired ∧ ∀ i : Fin 16, e ∉ (s.insts[i]).engines := by
  have hraised := forAll_raiseProof_quiet sevNotice 7 0 0 (proofed s)
  have hends : proofingEnds s = designateReserves (forAll 8 (fun n s => raiseProof n sevNotice 7 0 0 s) (proofed s)) := rfl
  rw [hends]
  generalize forAll 8 (fun n s => raiseProof n sevNotice 7 0 0 s) (proofed s) = t at *
  refine ⟨?_, fun p e h => ?_⟩
  · unfold OnlyReserve Safety.Quiet designateReserves updEng at *
    rw [hraised]
  · have hfree := designateReserves_free h
    rw [hraised] at hfree
    exact hfree

/-! ### The steps' effects together -/

theorem proofing_clocks (hlive : live s = true) (hd : WellFormed.instr (.proofingStepEnd d) = true) (hactive : s.proof.active = true)
    (hstep : s.proof.step = 2) (hdone : clocksDone s = true) : ∃ t, exec (.proofingStepEnd d) s = .next t ∧
      t.proof = { s.proof with step := 3 } ∧ t.clk = { s.clk with applyBusy := false } ∧
      (∀ n : Fin 8, t.slices[n] = (rebuildMap s.slices[n]).1) ∧
      (s.clk.noBand[(3 : Fin 4)] = true → t.tacs = s.tacs) ∧
      (∀ i : Fin 8, s.clk.noBand[(3 : Fin 4)] = false → i.val ≤ 6 → t.tacs[i] = { s.tacs[i] with calRun := some .quick, hits := 0 }) := by
  refine ⟨_, exec_proofingStepEnd hlive hd, ?_⟩
  rw [proofingStepEnd_two hactive hstep, if_pos hdone]
  obtain ⟨honly, hslices⟩ := rebuildSlices_spec (atProofStep 3 { s with clk := { s.clk with applyBusy := false } })
  generalize forAll 8 rebuildSlice _ = t at *
  have hclk : t.clk = { s.clk with applyBusy := false } := by rw [honly]; rfl
  have htacs : t.tacs = s.tacs := by rw [honly]; rfl
  refine ⟨?_, ?_, fun n => ?_, fun h => ?_, fun i h hi => ?_⟩
  · rw [startQuick_only, honly]
    rfl
  · rw [startQuick_only, hclk]
  · rw [startQuick_only]
    exact hslices n
  · rw [startQuick_tacs_of_noBand (by rw [hclk]; exact h), htacs]
  · rw [startQuick_tacs (by rw [hclk]; exact h) hi, htacs]

theorem proofing_aligned (hlive : live s = true) (hd : WellFormed.instr (.proofingStepEnd d) = true) (hactive : s.proof.active = true)
    (hstep : s.proof.step = 5) : ∃ t, exec (.proofingStepEnd d) s = .next t ∧ t.proof = { s.proof with step := 6 } ∧
      (∀ i : Fin 8, t.tacs[i] = { s.tacs[i] with offset := Config.landDelay i.val + d.tacOffsets.getD i.val 0 }) ∧
      t.clk = { s.clk with outs := t.clk.outs } ∧
      (∀ n : Fin 8, (s.carts[n]).state ≠ .active → t.carts[n] = s.carts[n] ∧ (t.slices[n]).firNext = (s.slices[n]).firNext) ∧
      (∀ n : Fin 8, (s.carts[n]).state = .active → fsMilli s = 80000000000000 →
        (t.slices[n]).firNext = some (firCoef (s.carts[n]).factory, .firCoef, 4096 * nextBlock n s)) ∧
      (∀ n : Fin 8, (s.carts[n]).state = .active → fsMilli s ≠ 80000000000000 →
        (t.carts[n]).deriving_ = true ∧ (t.slices[n]).firNext = (s.slices[n]).firNext) := by
  refine ⟨_, exec_proofingStepEnd hlive hd, ?_⟩
  rw [proofingStepEnd_five hactive hstep]
  have hslice := fun n => slicesAligned_slice d.tacOffsets d.delays n s
  have haligned := slicesAligned_only d.tacOffsets d.delays s
  generalize slicesAligned d.tacOffsets d.delays s = u at *
  have hloaded := loadCartridges_only (atProofStep 6 u)
  have hcarts : (atProofStep 6 u).carts = s.carts := by rw [haligned]; rfl
  have hfir : ∀ n : Fin 8, ((atProofStep 6 u).slices[n]).firNext = (s.slices[n]).firNext := fun n => (congrArg Slice.firNext (hslice n) :)
  have hnext : ∀ n : Fin 8, nextBlock n (atProofStep 6 u) = nextBlock n s := fun n => (congrArg Slice.nextBlock (hslice n) :)
  have hfs : fsMilli (atProofStep 6 u) = fsMilli s := by rw [haligned]; rfl
  refine ⟨?_, fun i => ?_, ?_, fun n hn => ?_, fun n hn hrate => ?_, fun n hn hrate => ?_⟩
  · rw [hloaded, haligned]
    rfl
  · rw [hloaded, haligned]
    exact Vector.getElem_ofFn ..
  · have hclk : (loadCartridges (atProofStep 6 u)).clk = u.clk := by rw [hloaded]; rfl
    rw [hclk, haligned]
  · obtain ⟨hcart, hkept⟩ := loadCartridges_inactive (s := atProofStep 6 u) (by rw [hcarts]; exact hn)
    exact ⟨hcart.trans (by rw [hcarts]), by rw [hkept, hfir]⟩
  · rw [loadCartridges_firCoef (by rw [hcarts]; exact hn) (hfs.trans hrate), hcarts, hnext]
  · obtain ⟨hderives, hkept⟩ := loadCartridges_derives (s := atProofStep 6 u) (by rw [hcarts]; exact hn) (by rw [hfs]; exact hrate)
    exact ⟨hderives, by rw [hkept, hfir]⟩

theorem proofing_waits_iff : s.carts.toList.any (fun c => c.deriving_ && c.state == .active) = true ↔
    ∃ n : Fin 8, (s.carts[n]).deriving_ = true ∧ (s.carts[n]).state = .active := by
  simp only [toList_any_iff, Bool.and_eq_true, beq_iff_eq]

theorem proofing_ends (hlive : live s = true) (hd : WellFormed.instr (.proofingStepEnd d) = true) (hactive : s.proof.active = true)
    (hstep : s.proof.step = 7) : ∃ t, exec (.proofingStepEnd d) s = .next t ∧
      t.proof = { s.proof with active := false, step := 0, fail := false, endSample := some (takenSample s) } ∧
      (∀ i : Fin 8, t.tacs[i] = { s.tacs[i] with saved := (s.tacs[i]).table }) ∧
      (∀ n : Fin 8, (t.slices[n]).savedLane = (s.slices[n]).laneTab ∧ (t.slices[n]).savedPos = (s.slices[n]).posTab ∧
        (t.slices[n]).rotBase = takenSample s / 40 ∧ (t.slices[n]).rotK = 0 ∧ (t.slices[n]).laneMap = (s.slices[n]).laneMap ∧
        ((s.slices[n]).outLane.isSome = true → (t.slices[n]).rotRun = true ∧ (t.slices[n]).shadowPos = stepPosition s.slices[n] 0 ∧
          (t.slices[n]).shadowSince = takenSample s / 40)) ∧
      (∀ (p : Fin 8) (e : Nat), t.eng.reserve[p] = some e → e / 32 = p.val ∧ e ∉ s.eng.retired ∧
        ∀ i : Fin 16, e ∉ (s.insts[i]).engines) := by
  refine ⟨_, exec_proofingStepEnd hlive hd, ?_⟩
  rw [proofingStepEnd_seven hactive hstep]
  obtain ⟨honly, hreserve⟩ := proofingEnds_spec s
  generalize proofingEnds s = t at *
  have hslice : ∀ n : Fin 8, t.slices[n] = (s.slices[n]).proofed (takenSample s / 40) := fun n => by
    rw [honly]
    exact Vector.getElem_map ..
  refine ⟨by rw [honly]; rfl, fun i => ?_, fun n => ?_, hreserve⟩
  · rw [honly]
    exact Vector.getElem_map ..
  · rw [hslice]
    obtain ⟨hlane, hpos, hbase, hk, hmap⟩ := proofed_saves (takenSample s / 40) s.slices[n]
    exact ⟨hlane, hpos, hbase, hk, hmap, proofed_rotates⟩

/-- PF2 takes too long (R124). -/
theorem exec_proofFail (hlive : live s = true) : exec .proofFail s =
    if s.proof.active && s.proof.step == 2 && !s.proof.overrun then
      .next (forAll 8 (fun n s => raiseProof n sevError 2 2 0 s) { s with proof := { s.proof with fail := true, overrun := true } })
    else .next s := exec_live hlive rfl

end

/-- Settles O50: the equation of each step's end, with the rule of the operation that does the step's work. -/
theorem proofingSteps : Obligations.ProofingSteps := by
  unfold Obligations.ProofingSteps
  refine fun s hlive => ⟨fun d hd => ⟨fun hactive => ?_, fun hactive => ⟨fun hstep => ?_, fun hstep hdone => ?_,
    proofing_clocks hlive hd hactive, fun hstep => ?_, fun hstep => ?_, proofing_aligned hlive hd hactive, fun hstep hwait => ?_,
    fun hstep hready => ?_, proofing_ends hlive hd hactive⟩⟩, fun hactive hstep hoverrun => ?_, fun hidle => ?_⟩
  · rw [exec_proofingStepEnd hlive hd, proofingStepEnd_inactive hactive]
  · have honly := selectBands_onlyClk d.bandPass s
    refine ⟨_, exec_proofingStepEnd hlive hd, ?_⟩
    rw [proofingStepEnd_one hactive hstep]
    generalize selectBands d.bandPass s = t at *
    rw [honly]
    exact ⟨rfl, rfl, rfl⟩
  · rw [exec_proofingStepEnd hlive hd, proofingStepEnd_two hactive hstep, if_neg (by rw [hdone]; decide)]
  · obtain ⟨hproof, hretired, hother⟩ := lanesDone_spec d.retired s
    refine ⟨_, exec_proofingStepEnd hlive hd, ?_⟩
    rw [proofingStepEnd_three hactive hstep]
    exact ⟨congrArg (fun p : Proofing => { p with step := 4 }) hproof, hretired, hother⟩
  · refine ⟨_, exec_proofingStepEnd hlive hd, ?_⟩
    rw [proofingStepEnd_four hactive hstep]
    have honly := positionsDone_only s
    have hslice := fun n => positionsDone_slice n s
    generalize positionsDone s = t at *
    exact ⟨by rw [honly]; rfl, hslice, by rw [honly]; rfl⟩
  · rw [exec_proofingStepEnd hlive hd, proofingStepEnd_six hactive hstep, if_pos (proofing_waits_iff.mpr hwait)]
  · rw [exec_proofingStepEnd hlive hd, proofingStepEnd_six hactive hstep, if_neg]
    · rfl
    · rw [proofing_waits_iff]
      rintro ⟨n, hderiving, hstate⟩
      exact (hready n).elim (fun h => by rw [h] at hderiving; cases hderiving) (fun h => h hstate)
  · refine ⟨_, (exec_proofFail hlive).trans (if_pos ?_), forAll_raiseProof_quiet ..⟩
    rw [hactive, hstep, hoverrun]
    rfl
  · refine (exec_proofFail hlive).trans (if_neg ?_)
    rw [Bool.and_eq_true, Bool.and_eq_true, beq_iff_eq, Bool.not_eq_true']
    rintro ⟨⟨hactive, hstep⟩, hoverrun⟩
    rw [hactive, hoverrun] at hidle
    exact hidle.elim Bool.noConfusion fun h => h.elim (fun h => h hstep) Bool.noConfusion

end Sys2Proof.Machine
end
section
/-!
SUPPORT. The part of the state that the units' own work leaves alone, the clock tile, the timebase and proofing among it: one lemma per
operation of which an APPLY makes use, in the order of the operations' definitions.
-/
namespace Sys2Proof.Machine

/-- The state without what the units of the data path, the cartridges, the streams and the events hold. -/
def State.withoutUnits (s : State) : State :=
  { s with
    freeCtr := 0, hif := State.reset.hif, carts := State.reset.carts, slices := State.reset.slices, tacs := State.reset.tacs,
    seqs := State.reset.seqs, trigouts := State.reset.trigouts, mem := State.reset.mem, reds := State.reset.reds,
    ddcs := State.reset.ddcs, insts := State.reset.insts, brim := State.reset.brim }

/-! ### What follows for a field, and events, branches and loops -/

section
variable {s t : State}

theorem clk_of_withoutUnits (h : t.withoutUnits = s.withoutUnits) : t.clk = s.clk := (congrArg State.clk h :)

theorem tb_of_withoutUnits (h : t.withoutUnits = s.withoutUnits) : t.tb = s.tb := (congrArg State.tb h :)

theorem proof_of_withoutUnits (h : t.withoutUnits = s.withoutUnits) : t.proof = s.proof := (congrArg State.proof h :)

theorem withoutUnits_of_quiet (h : Safety.Quiet s t) : t.withoutUnits = s.withoutUnits := by
  rw [h]
  rfl

theorem ite_withoutUnits {p : Prop} [Decidable p] (h : t.withoutUnits = s.withoutUnits) :
    (if p then t else s).withoutUnits = s.withoutUnits := by
  split
  · exact h
  · rfl

end

theorem forAll_withoutUnits {n : Nat} {f : Fin n → State → State} (h : ∀ i s, (f i s).withoutUnits = s.withoutUnits) (s : State) :
    (forAll n f s).withoutUnits = s.withoutUnits := forAll_frame State.withoutUnits f s h

theorem foldl_withoutUnits {α : Type} {f : State → α → State} (h : ∀ s a, (f s a).withoutUnits = s.withoutUnits) (l : List α)
    (s : State) : (l.foldl f s).withoutUnits = s.withoutUnits := foldl_frame State.withoutUnits f l s h

theorem forStreams_withoutUnits {kind : StreamKind} {source : Nat} {f : Fin 64 → Stream → State → State}
    (h : ∀ i st s, (f i st s).withoutUnits = s.withoutUnits) (s : State) :
    (forStreams kind source f s).withoutUnits = s.withoutUnits :=
  forAll_withoutUnits (fun i s => by
    split
    · exact ite_withoutUnits (h ..)
    · rfl) s

section
variable (s : State)

@[simp] theorem raise_withoutUnits (src : Fin 256) (sev : Nat) (ts : TS96) (data : List Byte) :
    (raise src sev ts data s).withoutUnits = s.withoutUnits := withoutUnits_of_quiet (raise_quiet ..)

@[simp] theorem raiseNow_withoutUnits (src : Fin 256) (sev : Nat) (data : List Byte) :
    (raiseNow src sev data s).withoutUnits = s.withoutUnits := withoutUnits_of_quiet (raiseNow_quiet ..)

/-! ### One unit's entry changed -/

@[simp] theorem updStream_withoutUnits (i : Fin 64) (f : Stream → Stream) : (updStream i f s).withoutUnits = s.withoutUnits := rfl

@[simp] theorem setStream_withoutUnits (i : Fin 64) (x : Option Stream) : (setStream i x s).withoutUnits = s.withoutUnits := rfl

@[simp] theorem updRed_withoutUnits (ch : Fin 8) (f : RedBank → RedBank) : (updRed ch f s).withoutUnits = s.withoutUnits := rfl

@[simp] theorem updSeg_withoutUnits (seq : Nat) (f : Segment → Segment) : (updSeg seq f s).withoutUnits = s.withoutUnits := rfl

@[simp] theorem updInst_withoutUnits (i : Fin 16) (f : Inst → Inst) : (updInst i f s).withoutUnits = s.withoutUnits := rfl

@[simp] theorem updAs_withoutUnits (a : Fin 4) (f : Seq → Seq) : (updAs a f s).withoutUnits = s.withoutUnits := rfl

@[simp] theorem updDdc_withoutUnits (ch : Fin 8) (f : Ddc → Ddc) : (updDdc ch f s).withoutUnits = s.withoutUnits := rfl

@[simp] theorem updBrim_withoutUnits (f : Brim → Brim) : (updBrim f s).withoutUnits = s.withoutUnits := rfl

@[simp] theorem rebaseNco_withoutUnits (ch : Fin 8) : (rebaseNco ch s).withoutUnits = s.withoutUnits := rfl

@[simp] theorem shiftLc_withoutUnits : (shiftLc s).withoutUnits = s.withoutUnits := rfl

@[simp] theorem endRetros_withoutUnits (n : Nat) : (endRetros n s).withoutUnits = s.withoutUnits := rfl

/-! ### Streams and reductions (R232, R366) -/

@[simp] theorem putGap_withoutUnits (i : Fin 64) (g : Gap) : (putGap i g s).withoutUnits = s.withoutUnits := by
  unfold putGap countGap
  split
  · rfl
  · rw [raise_withoutUnits]
    split <;> rfl

@[simp] theorem resumeStream_withoutUnits (i : Fin 64) : (resumeStream i s).withoutUnits = s.withoutUnits := by
  unfold resumeStream
  split
  · split
    · exact ite_withoutUnits (putGap_withoutUnits ..)
    · rfl
  · rfl

@[simp] theorem pushGrouped_withoutUnits (i : Fin 64) (header record : List Byte) (ts : TS96) (weight : Nat) :
    (pushGrouped i header record ts weight s).withoutUnits = s.withoutUnits := by
  have hresumed := resumeStream_withoutUnits s i
  unfold pushGrouped
  dsimp only
  split
  · exact hresumed
  · split
    · exact hresumed
    · rw [apply_ite State.withoutUnits, setStream_withoutUnits, setStream_withoutUnits, ite_self, hresumed]

@[simp] theorem streamRecord_withoutUnits (r : RedRec) (i : Fin 64) (st : Stream) :
    (streamRecord r i st s).withoutUnits = s.withoutUnits := by
  unfold streamRecord
  refine ite_withoutUnits ?_
  rw [updStream_withoutUnits, pushGrouped_withoutUnits]
  exact ite_withoutUnits (updStream_withoutUnits ..)

@[simp] theorem putRecordRed_withoutUnits (ch : Fin 8) (r : RedRec) : (putRecordRed ch s r).withoutUnits = s.withoutUnits :=
  forStreams_withoutUnits (fun _ _ _ => streamRecord_withoutUnits ..) _

@[simp] theorem flushRecords_withoutUnits (ch : Fin 8) : (flushRecords ch s).withoutUnits = s.withoutUnits :=
  foldl_withoutUnits (fun s r => putRecordRed_withoutUnits s ch r) _ _

@[simp] theorem endPartial_withoutUnits (ch : Fin 8) (at_ : Nat) (k : Fin 4) : (endPartial ch at_ k s).withoutUnits = s.withoutUnits := by
  unfold endPartial restartLane
  rw [updRed_withoutUnits]
  split
  · rfl
  · exact updRed_withoutUnits ..

@[simp] theorem redSwitch_withoutUnits (ch : Fin 8) (at_ : Nat) (f : RedBank → RedBank) :
    (redSwitch ch at_ f s).withoutUnits = s.withoutUnits := by
  rw [redSwitch, updRed_withoutUnits]
  exact forAll_withoutUnits (fun k s => endPartial_withoutUnits s ch at_ k) s

/-! ### Segments that end (R216, R230) -/

@[simp] theorem streamSegment_withoutUnits (seq : Nat) (i : Fin 64) (st : Stream) :
    (streamSegment seq i st s).withoutUnits = s.withoutUnits := by
  unfold streamSegment
  split <;> rfl

@[simp] theorem countSkips_withoutUnits (i : Fin 16) (k : Nat) : (countSkips i k s).withoutUnits = s.withoutUnits :=
  (ite_withoutUnits (raiseNow_withoutUnits ..)).trans (updInst_withoutUnits ..)

/-- A segment handed to an engine's queue, whose report of a full queue is an event. -/
theorem enqueueSeg_withoutUnits (i : Fin 16) (seq : Nat) {report : State → State}
    (h : ∀ s, (report s).withoutUnits = s.withoutUnits) : (enqueueSeg i seq report s).1.withoutUnits = s.withoutUnits := by
  have hskip : (countSkips i 1 (updInst i (fun x => { x with skipping := true }) s)).withoutUnits = s.withoutUnits :=
    countSkips_withoutUnits ..
  unfold enqueueSeg
  dsimp only
  split
  · rfl
  · split
    · exact hskip
    · exact (h _).trans hskip

@[simp] theorem queueMeasure_withoutUnits (g : Segment) : (queueMeasure g s).withoutUnits = s.withoutUnits := by
  have hqueued := enqueueSeg_withoutUnits s (Fin.ofNat 16 (8 + g.sequencer)) g.seq
    (report := raiseMs (Fin.ofNat 16 (8 + g.sequencer)).val 0 g.seq) fun _ => raiseNow_withoutUnits ..
  unfold queueMeasure
  refine ite_withoutUnits ?_
  dsimp only
  split
  · exact (updSeg_withoutUnits ..).trans hqueued
  · exact hqueued

@[simp] theorem queueAverage_withoutUnits (g : Segment) : (queueAverage g s).withoutUnits = s.withoutUnits := by
  unfold queueAverage
  dsimp only
  split
  · refine ite_withoutUnits ?_
    split
    · exact enqueueSeg_withoutUnits _ _ _ fun s => raiseNow_withoutUnits ..
    · exact updInst_withoutUnits ..
  · rfl

@[simp] theorem finishSegment_withoutUnits (g : Segment) : (finishSegment g s).withoutUnits = s.withoutUnits := by
  unfold finishSegment
  rw [queueAverage_withoutUnits, queueMeasure_withoutUnits, forStreams_withoutUnits fun i st s => streamSegment_withoutUnits s _ i st]
  exact (ite_withoutUnits (raiseNow_withoutUnits ..)).trans (updSeg_withoutUnits ..)

@[simp] theorem endSegments_withoutUnits : (endSegments s).withoutUnits = s.withoutUnits :=
  foldl_withoutUnits (fun s g => by
    split
    · exact finishSegment_withoutUnits ..
    · rfl) _ s

/-! ### Cartridges (R58) -/

@[simp] theorem addDose_withoutUnits (n : Fin 8) (clips b : Nat) : (addDose n clips b s).withoutUnits = s.withoutUnits := by
  unfold addDose
  refine ite_withoutUnits ?_
  obtain ⟨c, x, -, hlife⟩ := ((InputIs.refl n s).updCart fun c =>
    { c with dose := c.dose + clips * doseFactor s.carts[n] * (1250000000000000 : Rat) / fsMilli s }).lifeCheck (b + 1)
  exact (withoutUnits_of_quiet hlife).trans rfl

@[simp] theorem cutBlocks_withoutUnits : (cutBlocks s).withoutUnits = s.withoutUnits :=
  forAll_withoutUnits (fun n s => addDose_withoutUnits s n _ _) s

/-! ### Imports (R394) -/

@[simp] theorem brimCount_withoutUnits (i : Fin 6) (k : Nat) : (brimCount i k s).withoutUnits = s.withoutUnits := by
  unfold brimCount
  dsimp only
  split
  · exact raiseNow_withoutUnits ..
  · rfl

@[simp] theorem reportImport_withoutUnits : (reportImport s).withoutUnits = s.withoutUnits := ite_withoutUnits (raiseNow_withoutUnits ..)

@[simp] theorem rejectQueued_withoutUnits : (rejectQueued s).withoutUnits = s.withoutUnits := by
  unfold rejectQueued importCount
  dsimp only
  split
  · rfl
  · rw [reportImport_withoutUnits, brimCount_withoutUnits, updBrim_withoutUnits]

/-! ### The new era (R100, R122) -/

@[simp] theorem endStop_withoutUnits (a : Fin 4) : (endStop a s).withoutUnits = s.withoutUnits := by
  unfold endStop raiseAs
  split
  · simp
  · rfl

@[simp] theorem comeStale_withoutUnits (n : Fin 8) : (comeStale n s).withoutUnits = s.withoutUnits := by
  unfold comeStale
  dsimp only
  split
  · rfl
  · split
    · exact raiseNow_withoutUnits ..
    · rfl

@[simp] theorem spRestart_withoutUnits (i : Fin 16) (n : Nat) : (spRestart i n s).withoutUnits = s.withoutUnits := by
  unfold spRestart
  split <;> rfl

@[simp] theorem restartOnChain_withoutUnits (ch : Fin 8) (n : Nat) : (restartOnChain ch n s).withoutUnits = s.withoutUnits :=
  forAll_withoutUnits (fun i s => by
    split
    · exact ite_withoutUnits (spRestart_withoutUnits ..)
    · rfl) s

@[simp] theorem restartSpectral_withoutUnits : (restartSpectral s).withoutUnits = s.withoutUnits :=
  forAll_withoutUnits (fun i s => by
    split
    · exact ite_withoutUnits (spRestart_withoutUnits ..)
    · rfl) s

@[simp] theorem chainSwitch_withoutUnits (ch : Fin 8) (new : DdcCfg) (w : Nat) : (chainSwitch ch new w s).withoutUnits = s.withoutUnits := by
  have hclosed : (if (s.ddcs[ch]).cfg.preset != new.preset then closeFrames ch s else s).withoutUnits = s.withoutUnits :=
    ite_withoutUnits (forStreams_withoutUnits (fun i _ s => updStream_withoutUnits s i _) s)
  unfold chainSwitch
  dsimp only
  split
  · rw [restartOnChain_withoutUnits, updDdc_withoutUnits, hclosed]
  · rw [updDdc_withoutUnits, hclosed]

@[simp] theorem chainProofing_withoutUnits (ch : Fin 8) : (chainProofing ch s).withoutUnits = s.withoutUnits := by
  unfold chainProofing
  rw [restartOnChain_withoutUnits, updDdc_withoutUnits]
  split
  · exact chainSwitch_withoutUnits ..
  · rfl

@[simp] theorem chainProofing_slices (ch : Fin 8) : (chainProofing ch s).slices = s.slices := by
  unfold chainProofing
  rw [restartOnChain_slices, updDdc_slices]
  split
  · exact chainSwitch_slices ..
  · rfl

@[simp] theorem restartSpectral_slices : (restartSpectral s).slices = s.slices :=
  forAll_frame State.slices _ s fun i s => by
    split
    · split
      · exact spRestart_slices ..
      · rfl
    · rfl

end

end Sys2Proof.Machine
end
section
/-!
SUPPORT and the proof of O24: what an APPLY makes of the clock tile, the timebase and proofing (R66, R93, R122, R133).
-/
namespace Sys2Proof.Machine

section
variable (s : State)

/-! ### The clock as it is set and unlocked -/

theorem withClock_clk : (withClock s).clk = { s.clk with
    condNow := s.clk.cond, refKhzNow := s.clk.refKhz.toNat, fsKhzNow := s.clk.fsKhz.toNat
    ni := (withClock s).clk.ni, nf := (withClock s).clk.nf, fsActual := (withClock s).clk.fsActual } := rfl

theorem setBypass_clk : (setBypass s).clk = { s.clk with outs := (setBypass s).clk.outs } := rfl

/-- Every loop is unlocked and every SYN-F domain on the bypass clock, with the reference in START (R66, R87, R93). -/
theorem relock_clk : (relock s).clk = { s.clk with
    fBypass := true, lock := Vector.replicate 4 false, held := Vector.replicate 4 false, core := (relock s).clk.core
    refState := .start, applyBusy := true, applyRefused := false, bandFault := false, coreCoast := false,
    refCoast := false, tCoast := false, steers := 0, reband := none, stepDelta := none, relockAt := none, lossAt := none,
    selected := Vector.replicate 4 none, noBand := Vector.replicate 4 false, csw := [], coast := [], steps := [] } := by
  simp only [relock, setCore_clk, clearLocks_clk, toBypass_clk]

theorem relock_onlyClk : OnlyClk s (relock s) := by
  have hbypass : OnlyClk s (toBypass s) := by
    unfold toBypass
    split
    · exact .refl s
    · exact .raiseClk (by rfl) ..
  unfold relock
  generalize toBypass s = t at *
  exact hbypass.trans rfl

/-! ### The new era -/

theorem newEra_spec : (newEra s).clk = s.clk ∧ (newEra s).tb = s.tb ∧ lcNow (newEra s) = 0 ∧
    (newEra s).proof = { active := true, step := 1, fail := s.proof.fail, era := s.proof.era + 1, endSample := none, overrun := false } := by
  unfold newEra
  extract_lets rebased begun
  have hrebased : rebased.withoutUnits = s.withoutUnits := by
    rw [forAll_withoutUnits fun n s => (rebaseNco_withoutUnits ..).trans (comeStale_withoutUnits s n), shiftLc_withoutUnits,
      forAll_withoutUnits fun a s => endStop_withoutUnits s a]
  clear_value rebased
  have hrestarted : (restartSpectral (forAll 8 chainProofing begun)).withoutUnits = begun.withoutUnits :=
    (restartSpectral_withoutUnits _).trans (forAll_withoutUnits (fun ch s => chainProofing_withoutUnits s ch) begun)
  have hslices : (restartSpectral (forAll 8 chainProofing begun)).slices = rebased.slices.map Slice.newEra :=
    (restartSpectral_slices _).trans (forAll_frame State.slices _ _ fun ch s => chainProofing_slices s ch)
  rw [clk_of_withoutUnits hrestarted, tb_of_withoutUnits hrestarted, proof_of_withoutUnits hrestarted, lcNow, hslices]
  refine ⟨(clk_of_withoutUnits hrebased :), (tb_of_withoutUnits hrebased :), ?_, ?_⟩
  · rw [Vector.getElem_map]
    rfl
  · rw [← proof_of_withoutUnits hrebased]

/-! ### APPLY -/

/-- What follows the new era is seen in the history ring, the update block and ALIGNED alone. -/
theorem settled_spec : (checkAligned (updateMoment 0 (discardHistory s))).clk = s.clk ∧
    (checkAligned (updateMoment 0 (discardHistory s))).tb = s.tb ∧ (checkAligned (updateMoment 0 (discardHistory s))).proof = s.proof ∧
    (checkAligned (updateMoment 0 (discardHistory s))).slices = s.slices := by
  rw [checkAligned_clk, checkAligned_tb, checkAligned_proof, checkAligned_slices]
  exact ⟨raiseNow_clk .., raiseNow_tb .., raiseNow_proof .., raiseNow_slices ..⟩

/-- The state in which an accepted APPLY sets the clock: the units have ended what they held of the old era. -/
def beforeApply (s : State) : State :=
  endSegments (forAll 8 (fun ch t => flushRecords ch (redSwitch ch (commitSample (cutBlocks s)) id t))
    (endRetros (commitSample (cutBlocks s)) (cutBlocks s)))

theorem acceptApply_eq : acceptApply s = checkAligned (updateMoment 0 (discardHistory (resetTimebase (newEra (rejectQueued
    (relock (setBypass (withClock (beforeApply s))))))))) := rfl

theorem beforeApply_withoutUnits : (beforeApply s).withoutUnits = s.withoutUnits := by
  unfold beforeApply
  rw [endSegments_withoutUnits, forAll_withoutUnits fun ch s => (flushRecords_withoutUnits ..).trans (redSwitch_withoutUnits s ch _ id),
    endRetros_withoutUnits, cutBlocks_withoutUnits]

theorem relocked_keeps : (relock (setBypass (withClock s))).proof = s.proof ∧ (relock (setBypass (withClock s))).tb = s.tb := by
  have honly := relock_onlyClk (setBypass (withClock s))
  generalize relock (setBypass (withClock s)) = t at *
  rw [honly]
  exact ⟨rfl, rfl⟩

/-- The clock tile after an accepted APPLY is the settings taken into force and relocked. -/
theorem acceptApply_spec : (acceptApply s).clk = (relock (setBypass (withClock (beforeApply s)))).clk ∧
    (acceptApply s).proof = { active := true, step := 1, fail := s.proof.fail, era := s.proof.era + 1, endSample := none, overrun := false } ∧
    (acceptApply s).tb.state = .unset ∧ (acceptApply s).tb.maps = [{ sn := 0, ts := 0 }] ∧
    (acceptApply s).tb.epochGen = s.tb.epochGen + 1 ∧ lcNow (acceptApply s) = 0 := by
  have hbefore := beforeApply_withoutUnits s
  rw [acceptApply_eq]
  generalize beforeApply s = b at *
  obtain ⟨hrelockedProof, hrelockedTb⟩ := relocked_keeps b
  generalize relock (setBypass (withClock b)) = t at *
  have hrejected := rejectQueued_withoutUnits t
  obtain ⟨heraClk, heraTb, hnow, heraProof⟩ := newEra_spec (rejectQueued t)
  generalize newEra (rejectQueued t) = u at *
  obtain ⟨hclk, htimebase, hproofing, hslices⟩ := settled_spec (resetTimebase u)
  generalize checkAligned (updateMoment 0 (discardHistory (resetTimebase u))) = v at *
  rw [hclk, hproofing, htimebase]
  refine ⟨heraClk.trans (clk_of_withoutUnits hrejected), heraProof.trans ?_, rfl, rfl, ?_, ?_⟩
  · rw [proof_of_withoutUnits hrejected, hrelockedProof, proof_of_withoutUnits hbefore]
  · have htb : u.tb = s.tb := by rw [heraTb, tb_of_withoutUnits hrejected, hrelockedTb, tb_of_withoutUnits hbefore]
    rw [← htb]
    rfl
  · rw [lcNow, hslices]
    exact hnow

/-- The host's write of CLK_CTRL (R69). -/
theorem exec_apply {s : State} (v : W32) (h : reachable s = true) : exec (.apply v) s = .next (writeClkCtrl v s) :=
  whenReachable_reachable h _

theorem writeClkCtrl_apply {v : W32} {s : State} (hv : v.getLsbD 0 = true) (hrestoring : s.cfg.restoring = false) :
    writeClkCtrl v s = applyNow s := (if_pos hv).trans (if_neg (by rw [hrestoring]; decide))

theorem writeClkCtrl_none {v : W32} {s : State} (hv : v.getLsbD 0 = false) : writeClkCtrl v s = s := if_neg (by rw [hv]; decide)

theorem applyNow_refused {s : State} (h : applyAllowed s = false) : applyNow s = refuseApply s := if_pos (by rw [h]; decide)

theorem applyNow_accepted {s : State} (hallowed : applyAllowed s = true) (hbudget : applyBudget (withClock s) = none) :
    applyNow s = acceptApply s := by
  rw [applyNow, if_neg (by rw [hallowed]; decide), hbudget]

end

/-- Settles O24: the settings of the clock tile, the new era and the reset timebase, past units that touch none of them. -/
theorem applyRelocksOrIsRefused : Obligations.ApplyRelocksOrIsRefused := by
  unfold Obligations.ApplyRelocksOrIsRefused
  refine fun v s hreach hrestoring => ⟨fun hv hallowed hbudget => ?_, fun hv hallowed => ?_, fun hv => ?_⟩
  · obtain ⟨hclk, hproof, hstate, hmaps, hgen, hnow⟩ := acceptApply_spec s
    have hset := clk_of_withoutUnits (beforeApply_withoutUnits s)
    refine ⟨acceptApply s, by rw [exec_apply v hreach, writeClkCtrl_apply hv hrestoring, applyNow_accepted hallowed hbudget], ?_⟩
    rw [hclk, hproof, relock_clk, setBypass_clk, withClock_clk, hset]
    exact ⟨rfl, rfl, rfl, rfl, fun c => Vector.getElem_replicate .., rfl, rfl, rfl, rfl, rfl, hstate, hmaps, hgen, hnow⟩
  · rw [exec_apply v hreach, writeClkCtrl_apply hv hrestoring, applyNow_refused hallowed]
    rfl
  · rw [exec_apply v hreach, writeClkCtrl_none hv]

end Sys2Proof.Machine
end
section
/-!
SUPPORT. What a failed lane and the out lane that is filled again make of a slice (R99, R113 to R119).
-/
namespace Sys2Proof.Machine

/-! ### The slice that lane work changes -/

/-- An entry that is there, overwritten. -/
theorem updN_const {α : Type} {n : Nat} (v : Vector α n) (i : Fin n) (a : α) : (updN v i.val fun _ => a) = v.set i.val a := updN_fin ..

section
variable {n : Fin 8} {s t : State} {f g : Slice → Slice}

theorem updSlice_get : (updSlice n f s).slices[n] = f s.slices[n] := upd_get ..

/-- Only what the function makes of the slice that is there counts. -/
theorem updSlice_congr (h : f s.slices[n] = g s.slices[n]) : updSlice n f s = updSlice n g s := by
  rw [updSlice, upd_eq_const, h]
  rfl

theorem settleOut_get (u : Nat) : (settleOut n u s).slices[n] = refillOut u (rotating s) s.slices[n] := upd_get ..

theorem LaneWork.slices_eq (h : LaneWork n s t) : t.slices = upd s.slices n fun _ => t.slices[n] := by
  ext1 i hi
  by_cases heq : i = n.val
  · subst heq
    exact (upd_get s.slices n fun _ => t.slices[n]).symm
  · exact (h.others ⟨i, hi⟩ (Fin.ne_of_val_ne heq)).trans (upd_get_ne s.slices n ⟨i, hi⟩ _ (Fin.ne_of_val_ne heq)).symm

/-- The frame of lane work in the form of its own slice and the in-service test read back. -/
theorem LaneWork.frame (h : LaneWork n s t) :
    Safety.Quiet { s with slices := upd s.slices n fun _ => t.slices[n], health := t.health } t := by
  rw [← h.slices_eq]
  exact h.only

/-- Lane work leaves the lc being sampled, unless it changes the words of its slice. -/
theorem LaneWork.takenLc (h : LaneWork n s t) (hwords : (t.slices[n]).words = (s.slices[n]).words) : takenLc t = takenLc s := by
  have hnow : lcNow t = lcNow s := by
    by_cases hn : n = 0
    · subst hn
      exact hwords
    · exact congrArg Slice.words (h.others 0 (Ne.symm hn))
  have hproof : t.proof = s.proof := by rw [h.only]
  unfold Machine.takenLc takenSample samplesExist commitSample
  rw [hnow, hproof]

theorem raiseLane_health (lane pos cause action : Nat) (s : State) :
    (raiseLane n lane pos cause action s).health = { s.health with istFailed := s.health.istFailed ||| 1 } := raiseNow_health ..

end

/-! ### The out lane filled again (R99, R114) -/

section
variable (lc : Nat) (run : Bool) (x : Slice)

theorem refillOut_frame : refillOut lc run x = { x with
    outLane := (refillOut lc run x).outLane, standby := (refillOut lc run x).standby, rotRun := (refillOut lc run x).rotRun
    shadowPos := (refillOut lc run x).shadowPos, shadowSince := (refillOut lc run x).shadowSince } := by
  unfold refillOut
  split
  · rfl
  · split <;> rfl

@[simp] theorem refillOut_laneMap : (refillOut lc run x).laneMap = x.laneMap := by rw [refillOut_frame]
@[simp] theorem refillOut_interp : (refillOut lc run x).interp = x.interp := by rw [refillOut_frame]
@[simp] theorem refillOut_substWin : (refillOut lc run x).substWin = x.substWin := by rw [refillOut_frame]
@[simp] theorem refillOut_repairs : (refillOut lc run x).repairs = x.repairs := by rw [refillOut_frame]
@[simp] theorem refillOut_substs : (refillOut lc run x).substs = x.substs := by rw [refillOut_frame]
@[simp] theorem refillOut_mismatch : (refillOut lc run x).mismatch = x.mismatch := by rw [refillOut_frame]
@[simp] theorem refillOut_rotK : (refillOut lc run x).rotK = x.rotK := by rw [refillOut_frame]

end

section
variable {lc : Nat} {run : Bool} {x : Slice}

/-- An out lane that there is stays. -/
theorem refillOut_of_out {o : Nat} (h : x.outLane = some o) : refillOut lc run x = { x with rotRun := run } := by
  unfold refillOut
  rw [h]

/-- With no out lane the highest-numbered standby lane becomes it and shadows from `lc` on; with none either, rotation stops. -/
theorem refillOut_of_none (h : x.outLane = none) : (refillOut lc run x).outLane = x.standby.max? ∧
    ((refillOut lc run x).outLane = none → (refillOut lc run x).rotRun = false) ∧
    ((refillOut lc run x).outLane.isSome = true → (refillOut lc run x).shadowSince = lc) := by
  unfold refillOut
  split
  · next o hout => exact nomatch h.symm.trans hout
  · split
    · next l hmax => exact ⟨hmax.symm, fun hnone => absurd hnone (Option.some_ne_none l), fun _ => rfl⟩
    · next hmax => exact ⟨h.trans hmax.symm, fun _ => rfl, fun hsome => absurd (hsome : x.outLane.isSome = true) (by simp [h])⟩

end

/-! ### A failed lane (R114 to R117) -/

/-- A slice whose lane out of service failed (R116). -/
def Slice.spared (lane : Nat) (x : Slice) : Slice :=
  { retireLane lane x with
    standby := x.standby.filter (· != lane), mismatch := if x.outLane = some lane then none else x.mismatch
    outLane := if x.outLane = some lane then none else x.outLane }

/-- A slice in which lane `out` replaced the lane that failed at position `p` (R114, R115). -/
def Slice.substituted (lane p out d : Nat) (x : Slice) : Slice :=
  substWindow (d - 32) (d + 34) (repair p (d - 32) (some (d + 2)) (substitute p lane out (d + 2) x))

/-- A slice in which nothing replaced the lane that failed at position `p` (R115). -/
def Slice.interpolated (lane p d : Nat) (x : Slice) : Slice :=
  substWindow (d - 32) (d + 34) (interpolate p (d - 32) (40 * (d + 2)) (retireLane lane x))

/-- A slice whose position switch `p` was judged faulty, with its first lane given back (R117). -/
def Slice.givenBack (lane p first d : Nat) (x : Slice) : Slice :=
  shadowNext d { substWindow (d - 32) (d + 34) (interpolate p (d - 32) (40 * d) x) with
    retired := x.retired &&& ~~~(BitVec.ofNat 41 (2 ^ first)), substs := x.substs.filter (·.pos != p), mismatch := none
    outLane := some first
    standby := lane :: (match x.outLane with | some o => o :: x.standby | none => x.standby) }

/-- A slice one of whose lanes failed at lc `d`. -/
def Slice.failed (lane d : Nat) (x : Slice) : Slice :=
  match servedPos x lane with
  | none => x.spared lane
  | some p => match positionFaulty x lane p d with
    | some b => x.givenBack lane p b.failed d
    | none => match x.outLane with
      | some o => x.substituted lane p o d
      | none => x.interpolated lane p d

section
variable {n : Fin 8} {s : State} {lane : Nat}

theorem LaneWork.spareFail {t : State} (h : LaneWork n s t) (lane check : Nat) : LaneWork n s (spareFail n lane check t) :=
  (h.updSlice _).raiseLane ..

theorem spareFail_get (lane check : Nat) (s : State) : (spareFail n lane check s).slices[n] = (s.slices[n]).spared lane := by
  unfold spareFail
  rw [raiseLane_slices]
  exact upd_get ..

/-! Each case of a failed lane. -/

section
variable {x : Slice} {d p : Nat}

theorem failed_of_spare (h : servedPos x lane = none) : x.failed lane d = x.spared lane := by rw [Slice.failed, h]

theorem failed_of_faulty {b : Substitution} (h : servedPos x lane = some p) (hfaulty : positionFaulty x lane p d = some b) :
    x.failed lane d = x.givenBack lane p b.failed d := by
  unfold Slice.failed
  simp only [h, hfaulty]

theorem failed_of_out {o : Nat} (h : servedPos x lane = some p) (hsound : positionFaulty x lane p d = none)
    (hout : x.outLane = some o) : x.failed lane d = x.substituted lane p o d := by
  unfold Slice.failed
  simp only [h, hsound, hout]

theorem failed_of_none (h : servedPos x lane = some p) (hsound : positionFaulty x lane p d = none) (hout : x.outLane = none) :
    x.failed lane d = x.interpolated lane p d := by
  unfold Slice.failed
  simp only [h, hsound, hout]

theorem failed_words : (x.failed lane d).words = x.words := by
  unfold Slice.failed
  split
  · rfl
  · split
    · rfl
    · split <;> rfl

end

/-- A lane that fails changes its slice and raises one event, whatever the case (R114 to R117). -/
theorem laneFails_eq (h : (s.slices[n]).retired.getLsbD lane = false) (check : Nat) : ∃ pos action,
    laneFails n lane check true s = raiseLane n lane pos check action (updSlice n (Slice.failed lane (takenLc s)) s) := by
  have hslice : ∀ pos action (f : Slice → Slice), (s.slices[n]).failed lane (takenLc s) = f s.slices[n] → ∃ pos' action',
      raiseLane n lane pos check action (updSlice n f s) =
        raiseLane n lane pos' check action' (updSlice n (Slice.failed lane (takenLc s)) s) := fun pos action f hf =>
    ⟨pos, action, by rw [updSlice_congr hf]⟩
  unfold laneFails
  dsimp only
  rw [h, if_neg (by decide)]
  split
  · next p hserved =>
    split
    · next b hfaulty => exact hslice p 2 _ (failed_of_faulty hserved hfaulty)
    · next hsound =>
      unfold serviceFail
      dsimp only
      split
      · next o hout _ => exact hslice p 0 _ (failed_of_out hserved hsound hout)
      · next hout =>
        exact hslice p 2 _ (failed_of_none hserved hsound (Option.eq_none_iff_forall_ne_some.mpr fun o ho => hout o ho rfl))
  · next hspare => exact hslice 0xFF 1 _ (failed_of_spare hspare)

end

end Sys2Proof.Machine
end
section
/-!
SUPPORT and the proof of O52: lane checks, rotation steps and the blind estimator, each by the slice that its case leaves (R104, R110 to R119).
-/
namespace Sys2Proof.Machine

/-! ### A declared check (R113 to R117) -/

section
variable {n : Fin 8} {s : State} {lane : Nat}

theorem laneCheckFail_single (check : Nat) : laneCheckFail n lane check none s =
    settleOut n (takenLc (laneFails n lane check true s) + 2) (laneFails n lane check true s) := rfl

/-- The lane fails at D, the out lane is filled again at D + 2 lc, and the in-service test collects the failure (R114, R432). -/
theorem laneCheckFail_spec (h : (s.slices[n]).retired.getLsbD lane = false) (check : Nat) :
    ((laneCheckFail n lane check none s).slices[n] =
      refillOut (takenLc s + 2) (rotating s) ((s.slices[n]).failed lane (takenLc s))) ∧
    Safety.Quiet { s with
      slices := upd s.slices n fun _ => (laneCheckFail n lane check none s).slices[n]
      health := { s.health with istFailed := s.health.istFailed ||| 1 } } (laneCheckFail n lane check none s) := by
  rw [laneCheckFail_single]
  have hwork := laneFails_laneWork n lane check true s
  obtain ⟨pos, action, heq⟩ := laneFails_eq h check
  have hslice : (laneFails n lane check true s).slices[n] = (s.slices[n]).failed lane (takenLc s) := by
    rw [heq, raiseLane_slices]
    exact updSlice_get
  have hhealth : (laneFails n lane check true s).health = { s.health with istFailed := s.health.istFailed ||| 1 } := by
    rw [heq, raiseLane_health, updSlice_health]
  generalize laneFails n lane check true s = t at *
  have hrotating : rotating t = rotating s := congrArg (fun x : Proofing => !x.active) (show t.proof = s.proof by rw [hwork.only])
  constructor
  · rw [settleOut_get, hslice, hrotating, hwork.takenLc (by rw [hslice, failed_words])]
  · rw [← hhealth]
    exact (hwork.settleOut _).frame

theorem exec_laneCheckFail_passed {lane : Fin 41} {check : LaneCheck} (hlive : live s = true) (h : checkOf n (lane, check) s = none) :
    exec (.laneCheckFail n lane check none) s = .next s :=
  (exec_live hlive rfl).trans (by rw [h]; rfl)

theorem exec_laneCheckFail_failed {lane : Fin 41} {check : LaneCheck} (hlive : live s = true)
    (h : (checkOf n (lane, check) s).isSome = true) :
    exec (.laneCheckFail n lane check none) s = .next (laneCheckFail n lane.val (LaneCheck.code check) none s) := by
  have hcheck : checkOf n (lane, check) s = some (lane.val, (LaneCheck.code check)) := by
    unfold checkOf at *
    split at h
    · next hfails => rw [if_pos hfails]
    · exact nomatch h
  exact (exec_live hlive rfl).trans (by rw [hcheck]; rfl)

/-- What the substitution looked back on says (R117). -/
theorem positionFaulty_spec {x : Slice} {p d : Nat} {b : Substitution} (h : positionFaulty x lane p d = some b) :
    b.replacing = lane ∧ b.pos = p ∧ d ≤ b.at_ + 65536 := by
  have hb := List.find?_some h
  simp only [Bool.and_eq_true, beq_iff_eq, decide_eq_true_eq] at hb
  obtain ⟨⟨hreplacing, hpos⟩, hwithin⟩ := hb
  exact ⟨hreplacing, hpos, hwithin⟩

end

/-! ### A step of the rotation grid (R110 to R112, R116) -/

@[simp] theorem istCycle_slices (s : State) : (istCycle s).slices = s.slices := by
  unfold istCycle
  exact ite_slices (raiseNow_slices ..)

@[simp] theorem istPart_slices (item : Fin 8) (part : Nat) (s : State) : (istPart item part s).slices = s.slices := by
  unfold istPart
  dsimp only
  split
  · exact istCycle_slices _
  · rfl

/-- A slice whose step of the grid is counted. -/
def Slice.counted (x : Slice) : Slice := { x with rotK := x.rotK + 1 }

/-- A slice whose step is counted, with the entry fitted to its out lane (R111). -/
def Slice.fitted (out : Nat) (fit : LaneEntry) (x : Slice) : Slice :=
  { x.counted with laneTab := updN x.laneTab out fun _ => fit }

/-- A slice in which the out lane takes position `p` from the lane that is judged failed there (R116). -/
def Slice.judged (p failed out lc : Nat) (x : Slice) : Slice :=
  substWindow (lc - 34) (lc + 32) (repair p (lc - 34) (some lc) (substitute p failed out lc x))

section
variable {n : Fin 8} {s : State}

/-- The state in which a step that can be made is judged: it is counted, and the out lane has its fitted entry. -/
def stepFitted (n : Fin 8) (out : Nat) (fit : LaneEntry) (s : State) : State := fitOut n out fit (updSlice n Slice.counted s)

theorem stepFitted_get (out : Nat) (fit : LaneEntry) : (stepFitted n out fit s).slices[n] = (s.slices[n]).fitted out fit := by
  unfold stepFitted fitOut
  rw [updSlice_get, updSlice_get]
  rfl

theorem stepFitted_laneWork (out : Nat) (fit : LaneEntry) : LaneWork n s (stepFitted n out fit s) :=
  ((LaneWork.refl n s).updSlice _).updSlice _

variable (m : Rat) (fit : LaneEntry)

theorem exec_rotationStep (hlive : live s = true) : exec (.rotationStep n m fit) s = .next (rotationStep n m fit s) := exec_live hlive rfl

theorem rotationStep_of_not_due (h : s.proof.active = true ∨ takenLc s < stepLc s.slices[n]) : rotationStep n m fit s = s := by
  unfold rotationStep
  rw [if_pos (by rwa [Bool.or_eq_true, decide_eq_true_eq])]

section
variable (hrun : s.proof.active = false) (hdue : stepLc s.slices[n] ≤ takenLc s)
include hrun hdue

theorem stepDue : ¬ (s.proof.active || decide (takenLc s < stepLc s.slices[n])) = true := by
  rw [hrun, Bool.false_or, decide_eq_true_eq]
  exact Nat.not_lt.mpr hdue

theorem rotationStep_of_none (hout : (s.slices[n]).outLane = none) : rotationStep n m fit s = updSlice n Slice.counted s := by
  unfold rotationStep
  rw [if_neg (stepDue hrun hdue)]
  simp only [hout]
  rfl

/-- A step for which the out lane has not shadowed long enough is counted only (R110). -/
theorem rotationStep_of_short {o : Nat} (hout : (s.slices[n]).outLane = some o)
    (h : (s.slices[n]).shadowPos ≠ stepPosition s.slices[n] (s.slices[n]).rotK ∨ takenLc s < (s.slices[n]).shadowSince + 2 ^ 20) :
    rotationStep n m fit s = updSlice n (shadowNext (takenLc s)) (updSlice n Slice.counted s) := by
  unfold rotationStep
  rw [if_neg (stepDue hrun hdue)]
  simp only [hout]
  rw [if_pos h]
  rfl

end

/-- A step of the grid is due, and out lane `o` has shadowed its position long enough (R110). -/
structure Shadowed (n : Fin 8) (o : Nat) (s : State) : Prop where
  running : s.proof.active = false
  due : stepLc s.slices[n] ≤ takenLc s
  out : (s.slices[n]).outLane = some o
  pos : (s.slices[n]).shadowPos = stepPosition s.slices[n] (s.slices[n]).rotK
  long : (s.slices[n]).shadowSince + 2 ^ 20 ≤ takenLc s

section
variable {o : Nat} (h : Shadowed n o s)
include h

/-- A step that can be made counts, fits the out lane's entry, and is judged: by the entry's range, the comparison, and whether a
mismatch is unresolved (R110, R113, R116). -/
theorem rotationStep_of_shadowed : rotationStep n m fit s =
    let settled := fun check => settleOut n (takenLc s) (spareFail n o check (stepFitted n o fit s))
    let stepped := updSlice n (makeStep (s.slices[n]).shadowPos o (takenLc s)) (stepFitted n o fit s)
    if inRange fit = false then settled 6
    else (s.slices[n]).mismatch.elim
      (if shadowFails m then
        updSlice n (fun x => shadowNext (takenLc s) { x with mismatch := some (s.slices[n]).shadowPos }) (stepFitted n o fit s)
      else if (stepped.slices[n]).rotK % 41 = 0 then istPart 0 n.val stepped else stepped)
      fun p => if shadowFails m then settled 5
        else settleOut n (takenLc s) (raiseLane n (((getN (s.slices[n]).laneMap p).getD none).getD 0) p 5 0
          (updSlice n (Slice.judged p (((getN (s.slices[n]).laneMap p).getD none).getD 0) o (takenLc s)) (stepFitted n o fit s))) := by
  unfold rotationStep
  rw [if_neg (stepDue h.running h.due)]
  simp only [h.out]
  rw [if_neg (by rw [not_or, not_not, not_lt]; exact ⟨h.pos, h.long⟩), ← h.pos]
  cases (s.slices[n]).mismatch <;> cases inRange fit <;> rfl

/-- The out lane is retired where its entry is out of range, or where the two still disagree (R116). -/
theorem rotationStep_retires (hbad : inRange fit = false ∨ shadowFails m = true ∧ (s.slices[n]).mismatch.isSome = true) :
    (∀ k : Fin 8, k ≠ n → (rotationStep n m fit s).slices[k] = s.slices[k]) ∧ ∃ run,
      (rotationStep n m fit s).slices[n] = refillOut (takenLc s) run (((s.slices[n]).fitted o fit).spared o) := by
  obtain ⟨check, heq⟩ : ∃ check,
      rotationStep n m fit s = settleOut n (takenLc s) (spareFail n o check (stepFitted n o fit s)) := by
    rw [rotationStep_of_shadowed m fit h]
    cases hfit : inRange fit with
    | false => exact ⟨6, rfl⟩
    | true =>
      obtain ⟨hfails, hmismatch⟩ := hbad.resolve_left (by simp [hfit])
      obtain ⟨p, hp⟩ := Option.isSome_iff_exists.mp hmismatch
      exact ⟨5, by simp only [hp, hfails]; rfl⟩
  rw [heq, settleOut_get, spareFail_get, stepFitted_get]
  exact ⟨(((stepFitted_laneWork o fit).spareFail o check).settleOut _).others, _, rfl⟩

variable (hfit : inRange fit = true)
include hfit

/-- A first mismatch: the out lane shadows the position of the next step instead (R116). -/
theorem rotationStep_marks (hfails : shadowFails m = true) (hmismatch : (s.slices[n]).mismatch = none) :
    (rotationStep n m fit s).slices[n] =
      shadowNext (takenLc s) { (s.slices[n]).fitted o fit with mismatch := some (s.slices[n]).shadowPos } := by
  rw [rotationStep_of_shadowed m fit h]
  simp only [hfit, hfails, hmismatch]
  rw [← stepFitted_get]
  exact updSlice_get

variable (hpasses : shadowFails m = false)
include hpasses

/-- After a mismatch elsewhere, the lane of the first position is judged failed (R116). -/
theorem rotationStep_judges {p : Fin 40} {failed : Nat} (hmismatch : (s.slices[n]).mismatch = some p.val)
    (hfailed : (s.slices[n]).laneMap[p] = some failed) : ∃ run, (rotationStep n m fit s).slices[n] =
      refillOut (takenLc s) run (((s.slices[n]).fitted o fit).judged p.val failed o (takenLc s)) := by
  rw [rotationStep_of_shadowed m fit h]
  simp only [hfit, hpasses, hmismatch]
  refine ⟨_, (settleOut_get _).trans (congrArg (refillOut _ _) ?_)⟩
  rw [raiseLane_slices, updSlice_get, stepFitted_get, getN_fin, hfailed]
  rfl

/-- The step is made (R112). -/
theorem rotationStep_moves (hmismatch : (s.slices[n]).mismatch = none) :
    (∀ k : Fin 8, k ≠ n → (rotationStep n m fit s).slices[k] = s.slices[k]) ∧
    (rotationStep n m fit s).slices[n] = makeStep (s.slices[n]).shadowPos o (takenLc s) ((s.slices[n]).fitted o fit) := by
  have hslices : (rotationStep n m fit s).slices =
      (updSlice n (makeStep (s.slices[n]).shadowPos o (takenLc s)) (stepFitted n o fit s)).slices := by
    rw [rotationStep_of_shadowed m fit h]
    simp only [hfit, hpasses, hmismatch]
    exact ite_slices (istPart_slices ..)
  rw [hslices, updSlice_get, stepFitted_get]
  exact ⟨((stepFitted_laneWork o fit).updSlice _).others, rfl⟩

end

end

/-! ### The blind estimator (R104) -/

section
variable {n : Fin 8} {s : State} {taps : List (List Int)} (quiet : Bool)

theorem exec_blindEstimatorUpdate (hlive : live s = true) (hwf : WellFormed.posTaps taps = true) :
    exec (.blindEstimatorUpdate n quiet taps) s = .next (blindUpdate n quiet taps s) :=
  (exec_live hlive rfl).trans (if_pos hwf)

theorem blindUpdate_of_not_due (h : blindDue n s = false) : blindUpdate n quiet taps s = s := if_pos (by rw [h]; rfl)

theorem blindUpdate_of_due (h : blindDue n s = true) : blindUpdate n quiet taps s = updSlice n (fun x =>
    if quiet then { x with blindK := x.blindK + 1 }
    else { x with
      blindK := x.blindK + 1
      posTab := Vector.ofFn fun p : Fin 40 =>
        { skew := moveTaps (x.posTab[p]).skew ((taps.getD p.val []).take 16)
          eq := moveTaps (x.posTab[p]).eq ((taps.getD p.val []).drop 16) } }) s :=
  if_neg (by rw [h]; decide)

end

/-- Settles O52. A lane that fails makes `Slice.failed` of its slice, whose out lane is filled again; a step of the grid is not due, is
counted only, or retires the out lane, marks a mismatch, judges the lane of the first position, or moves the out lane. -/
theorem lanesAndRotation : Obligations.LanesAndRotation := by
  intro n s hlive x d
  refine ⟨fun _ _ => exec_laneCheckFail_passed hlive, ?failed, ?idle, ?due, ?blind⟩
  case failed =>
    intro lane check hcheck hretired
    obtain ⟨hslice, hquiet⟩ := laneCheckFail_spec hretired (LaneCheck.code check)
    refine ⟨_, exec_laneCheckFail_failed hlive hcheck, hquiet, ?_⟩
    rw [hslice]
    refine ⟨fun hspare => ?spare, fun p o hserved hsound hout => ?out, fun p hserved hsound hout => ?none,
      fun p b hserved hfaulty => ?faulty⟩
    case spare =>
      rw [failed_of_spare hspare, refillOut_retired]
      exact ⟨retireLane_retired .., refillOut_laneMap .., refillOut_interp .., refillOut_substWin ..⟩
    case out =>
      rw [failed_of_out hserved hsound hout, refillOut_retired, ← updN_const]
      obtain ⟨hmax, hstops, hshadows⟩ := refillOut_of_none (lc := takenLc s + 2) (run := rotating s)
        (x := x.substituted lane.val p.val o d) rfl
      exact ⟨retireLane_retired .., refillOut_laneMap .., refillOut_interp .., refillOut_substWin .., refillOut_repairs ..,
        refillOut_substs .., hmax, hstops, hshadows⟩
    case none =>
      rw [failed_of_none hserved hsound hout, refillOut_retired, ← updN_const]
      exact ⟨retireLane_retired .., refillOut_laneMap .., refillOut_interp .., refillOut_substWin ..⟩
    case faulty =>
      obtain ⟨hreplacing, hpos, hwithin⟩ := positionFaulty_spec hfaulty
      rw [failed_of_faulty hserved hfaulty, refillOut_of_out (o := b.failed) rfl, ← updN_const]
      exact ⟨hreplacing, hpos, hwithin, rfl, rfl, rfl, rfl, rfl, rfl⟩
  case idle => exact fun h m fit => (exec_rotationStep m fit hlive).trans (congrArg _ (rotationStep_of_not_due m fit h))
  case due =>
    intro hrun hdue
    refine ⟨fun hout m fit => ?_, fun o hout hpos hlong => ?shadowed, fun o hout hshort m fit => ?_⟩
    · rw [exec_rotationStep m fit hlive, rotationStep_of_none m fit hrun hdue hout]
      rfl
    case shadowed =>
      have h : Shadowed n o s := ⟨hrun, hdue, hout, hpos, hlong⟩
      refine ⟨fun m fit hfit => ?range, fun m fit hfit hpasses hmismatch => ?moves, fun m fit hfit hfails hmismatch => ?marks,
        fun m fit p hfit hfails hmismatch => ?again, fun m fit hfit hpasses p f hmismatch hfailed => ?judges⟩
      all_goals refine ⟨_, exec_rotationStep m fit hlive, ?_⟩
      case range =>
        obtain ⟨hothers, run, hslice⟩ := rotationStep_retires m fit h (.inl hfit)
        rw [hslice, refillOut_retired]
        exact ⟨refillOut_rotK .., refillOut_laneMap .., rfl, hothers⟩
      case moves =>
        obtain ⟨hothers, hslice⟩ := rotationStep_moves m fit h hfit hpasses hmismatch
        rw [hslice]
        exact ⟨rfl, rfl, rfl, rfl, rfl, rfl, rfl, hothers⟩
      case marks =>
        rw [rotationStep_marks m fit h hfit hfails hmismatch]
        exact ⟨rfl, rfl, hout, rfl⟩
      case again =>
        obtain ⟨-, run, hslice⟩ := rotationStep_retires m fit h (.inr ⟨hfails, by rw [hmismatch]; rfl⟩)
        rw [hslice, refillOut_retired]
        exact ⟨refillOut_laneMap .., rfl⟩
      case judges =>
        obtain ⟨run, hslice⟩ := rotationStep_judges m fit h hfit hpasses hmismatch hfailed
        rw [hslice, refillOut_retired, ← updN_const]
        exact ⟨refillOut_laneMap .., rfl, refillOut_mismatch ..⟩
    · refine ⟨_, exec_rotationStep m fit hlive, ?_⟩
      rw [rotationStep_of_short m fit hrun hdue hout hshort, updSlice_get, updSlice_get]
      exact ⟨rfl, hout, rfl, rfl⟩
  case blind =>
    refine fun taps hwf => ⟨fun hnot quiet => ?_, fun hdue => ⟨?_, ?_⟩⟩
    · rw [exec_blindEstimatorUpdate quiet hlive hwf, blindUpdate_of_not_due quiet hnot]
    all_goals
      rw [exec_blindEstimatorUpdate _ hlive hwf, blindUpdate_of_due _ hdue]
      rfl

end Sys2Proof.Machine
end
section
/-!
SUPPORT. One converter or timer changed, and the records of a timer (R155, R160): a record becomes its timer's latest and goes to the
timer's streams, and touches nothing else but events.
-/
namespace Sys2Proof.Machine

/-! ### One converter changed -/

theorem updTac_get (n : Fin 8) (f : Tac → Tac) (s : State) : (updTac n f s).tacs[n] = f s.tacs[n] := upd_get ..

theorem updTac_get_ne {n m : Fin 8} (h : m ≠ n) (f : Tac → Tac) (s : State) : (updTac n f s).tacs[m] = s.tacs[m] := upd_get_ne _ _ _ _ h

theorem updTac_updTac (n : Fin 8) (f g : Tac → Tac) (s : State) : updTac n g (updTac n f s) = updTac n (fun t => g (f t)) s := by
  unfold updTac
  rw [upd_upd]

theorem updTac_id {n : Fin 8} {f : Tac → Tac} {s : State} (h : f s.tacs[n] = s.tacs[n]) : updTac n f s = s := by
  unfold updTac
  rw [upd_id _ _ _ h]

section
variable {s t u : State}

/-! ### The streams of a timer (R234) -/

/-- `t` differs from `s` at most in the streams and events. -/
def OnlyStreams (s t : State) : Prop := Safety.Quiet { s with hif := { s.hif with streams := t.hif.streams } } t

theorem OnlyStreams.trans (h : OnlyStreams s t) (k : OnlyStreams t u) : OnlyStreams s u := by
  unfold OnlyStreams Safety.Quiet at *
  rw [k, h]

theorem OnlyStreams.setStream (h : OnlyStreams s t) (i : Fin 64) (x : Option Stream) : OnlyStreams s (setStream i x t) := h.trans rfl

theorem OnlyStreams.raise (h : OnlyStreams s t) (src : Fin 256) (sev : Nat) (ts : TS96) (data : List Byte) :
    OnlyStreams s (raise src sev ts data t) := h.trans (by
  unfold OnlyStreams
  rw [raise_hif_streams]
  exact raise_quiet ..)

/-- Gaps of a timer's stream are no sequencer's (R223). -/
theorem countGap_of_timer {st : Stream} (h : st.kind = .timer) (s : State) : countGap st s = s := by
  unfold countGap gapChannel
  rw [h]

variable {i : Fin 64} (hkind : ∀ st, s.hif.streams[i] = some st → st.kind = .timer)
include hkind

theorem putGap_onlyStreams (g : Gap) : OnlyStreams s (putGap i g s) := by
  unfold putGap
  split
  · rfl
  · next st hst =>
    dsimp only
    rw [countGap_of_timer (hkind st hst)]
    exact .raise (.setStream (by rfl) ..) ..

theorem resumeStream_onlyStreams : OnlyStreams s (resumeStream i s) := by
  unfold resumeStream
  split
  · split
    · split
      · exact putGap_onlyStreams hkind _
      · rfl
    · rfl
  · rfl

theorem pushUnit_onlyStreams (x : StreamUnit) : OnlyStreams s (pushUnit i x s) := by
  have hresumed := resumeStream_onlyStreams hkind
  unfold pushUnit
  dsimp only
  split
  · exact hresumed
  · split_ifs
    · exact hresumed
    · exact hresumed.setStream ..
    · exact hresumed.setStream ..

end

theorem forStreams_timer_onlyStreams {source : Nat} (x : Fin 64 → StreamUnit) (s : State) :
    OnlyStreams s (forStreams .timer source (fun i _ t => pushUnit i (x i) t) s) := by
  refine forAll_keeps (OnlyStreams s) _ s (fun i t h => ?_) rfl
  split
  · next st hst =>
    split
    · next hmatch =>
      have hkind : st.kind = .timer := by simp only [Bool.and_eq_true, beq_iff_eq] at hmatch; exact hmatch.1
      exact h.trans (pushUnit_onlyStreams (fun st' hst' => by rw [hst] at hst'; exact Option.some.inj hst' ▸ hkind) _)
    · exact h
  · exact h

/-! ### Work on one timer -/

/-- `t` differs from `s` at most in the timers, the streams and events. -/
def OnlyTimers (s t : State) : Prop :=
  Safety.Quiet { s with timers := t.timers, hif := { s.hif with streams := t.hif.streams } } t

/-- The same, and of the timers at most timer `k`. -/
structure TimerWork (k : Fin 8) (s t : State) : Prop where
  only : OnlyTimers s t
  others : ∀ j : Fin 8, j ≠ k → t.timers[j] = s.timers[j]

section
variable {k : Fin 8} {s t u : State}

theorem OnlyTimers.trans (h : OnlyTimers s t) (k : OnlyTimers t u) : OnlyTimers s u := by
  unfold OnlyTimers Safety.Quiet at *
  rw [k, h]

theorem OnlyStreams.timers (h : OnlyStreams s t) : t.timers = s.timers := by rw [h]

theorem OnlyStreams.onlyTimers (h : OnlyStreams s t) : OnlyTimers s t := by
  unfold OnlyTimers
  rw [h.timers]
  exact h

theorem TimerWork.refl (k : Fin 8) (s : State) : TimerWork k s s := ⟨rfl, fun _ _ => rfl⟩

theorem TimerWork.trans (h : TimerWork k s t) (w : TimerWork k t u) : TimerWork k s u :=
  ⟨h.only.trans w.only, fun j hj => (w.others j hj).trans (h.others j hj)⟩

theorem updTimer_get (f : Timer → Timer) : (updTimer k f s).timers[k] = f s.timers[k] := upd_get ..

theorem TimerWork.updTimer (h : TimerWork k s t) (f : Timer → Timer) : TimerWork k s (updTimer k f t) :=
  h.trans ⟨rfl, fun _ hj => upd_get_ne _ _ _ _ hj⟩

/-! ### Records (R155, R160) -/

/-- A timer whose latest record is a new one. -/
def Timer.recorded (type : Nat) (flags : W32) (tA value : TS96) (count : Nat) (x : Timer) : Timer :=
  { x with seq := x.seq + 1, latest := some { type := BitVec.ofNat 16 type, flags := flags, tA := tA, value := value,
                                              count := BitVec.ofNat 64 count, seq := x.seq } }

variable (type : Nat) (flags : W32) (tA value : TS96) (count : Nat)

theorem emitRecord_of_noBand (h : s.clk.noBand[3] = true) : emitRecord k type flags tA value count s = s := if_pos h

/-- Beyond the timer itself a record goes to its streams. -/
theorem emitRecord_onlyStreams (h : s.clk.noBand[3] = false) :
    OnlyStreams (updTimer k (Timer.recorded type flags tA value count) s) (emitRecord k type flags tA value count s) := by
  unfold emitRecord
  rw [if_neg (by rw [h]; decide)]
  exact .trans (by rfl) (forStreams_timer_onlyStreams ..)

theorem emitRecord_get (h : s.clk.noBand[3] = false) :
    (emitRecord k type flags tA value count s).timers[k] = (s.timers[k]).recorded type flags tA value count := by
  rw [(emitRecord_onlyStreams type flags tA value count h).timers]
  exact updTimer_get _

theorem TimerWork.emitRecord (h : TimerWork k s t) : TimerWork k s (emitRecord k type flags tA value count t) := by
  cases hband : t.clk.noBand[3] with
  | true => rwa [emitRecord_of_noBand _ _ _ _ _ hband]
  | false =>
    have hstreams := emitRecord_onlyStreams (k := k) type flags tA value count hband
    exact (h.updTimer _).trans ⟨hstreams.onlyTimers, fun j _ => by rw [hstreams.timers]⟩

end

end Sys2Proof.Machine
end
section
/-!
SUPPORT. What a stamp makes of the timers (R155 to R159): every step of the work of one timer is its own work.
-/
namespace Sys2Proof.Machine

section
variable {k : Fin 8} {s t : State} (h : TimerWork k s t)
include h

/-! ### Interval pairing (R157) -/

theorem TimerWork.emitInterval (a b : Stamp) : TimerWork k s (emitInterval k a b t) := (h.updTimer _).emitRecord ..

theorem TimerWork.firstStop (b : Stamp) : TimerWork k s (firstStop k b t) := by
  unfold Machine.firstStop
  dsimp only
  split
  · split_ifs
    · exact h.updTimer _
    · exact (h.updTimer _).emitInterval ..
    · exact h.updTimer _
  · exact h.updTimer _

theorem TimerWork.firstStart (a : Stamp) (own : Option Stamp) : TimerWork k s (firstStart k a own t) := by
  unfold Machine.firstStart
  dsimp only
  split
  · exact ((h.updTimer _).updTimer _).emitInterval ..
  · exact (h.updTimer _).updTimer _

theorem TimerWork.decideNearest : TimerWork k s (decideNearest k t) := by
  unfold Machine.decideNearest
  dsimp only
  split
  · exact h
  · split
    · exact (h.updTimer _).emitInterval ..
    · exact h.updTimer _

theorem TimerWork.decideUntil (now : TS96) (fuel : Nat) : TimerWork k s (decideUntil k now fuel t) := by
  induction fuel generalizing t with
  | zero => exact h
  | succ fuel ih =>
    unfold Machine.decideUntil
    split
    · split
      · exact ih h.decideNearest
      · exact h
    · exact h

theorem TimerWork.intervalStamp (isStart isStop : Bool) (x : Stamp) : TimerWork k s (intervalStamp k isStart isStop x t) := by
  unfold Machine.intervalStamp
  extract_lets near stopped
  have hstop : TimerWork k s stopped := by
    unfold stopped
    split_ifs
    · exact (h.updTimer _).decideUntil ..
    · exact h.firstStop x
    · exact h
  split
  · split
    · exact hstop.updTimer _
    · exact hstop.firstStart ..
  · exact hstop

/-! ### Frequency gates (R159) -/

theorem TimerWork.gateStamp (x : Stamp) : TimerWork k s (gateStamp k x t) := by
  unfold Machine.gateStamp
  dsimp only
  split
  · exact h.updTimer _
  · split
    · exact (h.updTimer _).emitRecord ..
    · exact h.updTimer _

/-! ### Stamps and epochs (R155, R158) -/

theorem TimerWork.timerTakes (src : Nat) (falling : Option Bool) (x : Stamp) : TimerWork k s (timerTakes src falling x k t) := by
  unfold Machine.timerTakes
  dsimp only
  split
  case h_1 => exact h
  case h_2 =>
    split
    · exact (h.updTimer _).emitRecord ..
    · exact h
  case h_3 => exact h.intervalStamp ..
  case h_4 =>
    split
    · exact h.gateStamp x
    · exact h

theorem TimerWork.timerEpoch : TimerWork k s (timerEpoch k t) := by
  unfold Machine.timerEpoch
  dsimp only
  split
  · exact ((h.updTimer _).updTimer _).emitRecord ..
  · exact h.updTimer _

end

section
variable (s : State)

theorem timerStamp_onlyTimers (src : Nat) (falling : Option Bool) (x : Stamp) : OnlyTimers s (timerStamp src falling x s) :=
  forAll_keeps (OnlyTimers s) _ s (fun k t h => h.trans ((TimerWork.refl k t).timerTakes src falling x).only) rfl

theorem timerEpochs_onlyTimers : OnlyTimers s (forAll 8 timerEpoch s) :=
  forAll_keeps (OnlyTimers s) _ s (fun k t h => h.trans (TimerWork.refl k t).timerEpoch.only) rfl

/-- Stamps that waited for a commit wait no more (R137, R158). -/
theorem releaseStamps_onlyTimers (map : Nat → Mapping) (clear : W32) :
    OnlyTimers { s with tb := { s.tb with held := [] } } (releaseStamps map clear s) :=
  foldl_keeps (OnlyTimers _) _ _ _ (fun t _ h => h.trans (timerStamp_onlyTimers t ..)) rfl

theorem releaseStamps_nil (h : s.tb.held = []) (map : Nat → Mapping) (clear : W32) :
    releaseStamps map clear s = { s with tb := { s.tb with held := [] } } := by
  rw [releaseStamps, h]
  rfl

end

section
variable {s : State} {k : Fin 8} {src : Nat} {falling : Option Bool}

/-- A stamp of a STAMP timer's source and polarity is its record (R155, R160). -/
theorem timerTakes_stamp (hband : s.clk.noBand[3] = false) (hmode : (s.timers[k]).mode = .stamp) (hsrc : (s.timers[k]).startSrc = src)
    (hpol : polTakes (s.timers[k]).startPol falling = true) (x : Stamp) : (timerTakes src falling x k s).timers[k] =
      ({ s.timers[k] with lost := 0 } : Timer).recorded 1 x.flags x.ts 0 (s.timers[k]).lost := by
  have htakes : timerTakes src falling x k s =
      emitRecord k 1 x.flags x.ts 0 (s.timers[k]).lost (updTimer k (fun y => { y with lost := 0 }) s) := by
    simp only [timerTakes, hmode, hsrc, hpol, beq_self_eq_true, Bool.and_self, if_true]
  rw [htakes, emitRecord_get _ _ _ _ _ (by exact hband), updTimer_get]

theorem timerStamp_stamp (hband : s.clk.noBand[3] = false) (hmode : (s.timers[k]).mode = .stamp) (hsrc : (s.timers[k]).startSrc = src)
    (hpol : polTakes (s.timers[k]).startPol falling = true) (x : Stamp) : (timerStamp src falling x s).timers[k] =
      ({ s.timers[k] with lost := 0 } : Timer).recorded 1 x.flags x.ts 0 (s.timers[k]).lost := by
  obtain ⟨t, hclk, htimer, hturn⟩ := forAll_turn (n := k) (s := s) (f := timerTakes src falling x) (fun s => s.timers[k])
    (fun t => t.clk = s.clk) (fun i t hi => ((TimerWork.refl i t).timerTakes src falling x).others k hi.symm)
    (fun i t h => by rw [((TimerWork.refl i t).timerTakes src falling x).only]; exact h) rfl
  rw [← htimer] at hmode hsrc hpol ⊢
  exact hturn.trans (timerTakes_stamp (by rw [hclk]; exact hband) hmode hsrc hpol x)

end

end Sys2Proof.Machine
end
section
/-!
SUPPORT and the proof of O29: an edge at a TAC's input is lost to dead time, or its stamp reaches the epoch, the timers and the trigger
units (R143 to R149).
-/
namespace Sys2Proof.Machine

/-! ### Where the edge goes (R137, R148, R149) -/

section
variable {n : Fin 8} {falling coarse dead : Bool} {pos : Int} {x : Stamp} {s : State}

theorem presentAux_only : presentAux n falling coarse dead pos s = { s with
    auxEdges := (presentAux n falling coarse dead pos s).auxEdges } := by
  unfold presentAux
  split <;> rfl

theorem presentAux_timers : (presentAux n falling coarse dead pos s).timers = s.timers := by rw [presentAux_only]

theorem presentAux_auxEdges (h : n.val ≤ 3) : (presentAux n falling coarse dead pos s).auxEdges = s.auxEdges ++
    [{ input := n.val, falling := falling, t := edgeTs s pos, pos := pos, place := { PlaceFlags.none with coarse := coarse },
       dead := dead }] := by rw [presentAux, if_pos h]

theorem presentAux_of_other (h : 3 < n.val) : presentAux n falling coarse dead pos s = s := if_neg (by omega)

theorem countDead_timers : (countDead n s).timers = s.timers := by
  unfold countDead
  dsimp only
  split
  · exact raiseNow_timers ..
  · rfl

theorem countDead_get : ∃ ovf, (countDead n s).tacs[n] = { s.tacs[n] with
    deadCount := statAdd (s.tacs[n]).deadCount 1, deadBefore := true, deadOvf := ovf } := by
  refine ⟨(s.tacs[n]).deadOvf || statSticks (s.tacs[n]).deadCount 1, ?_⟩
  unfold countDead
  dsimp only
  split
  · exact (congrArg (·[n]) (raiseNow_tacs ..)).trans (updTac_get ..)
  · exact updTac_get ..

theorem timerLost_latest (src : Nat) (k : Fin 8) : ((timerLost src falling s).timers[k]).latest = (s.timers[k]).latest := by
  simp only [timerLost, Fin.getElem_fin, Vector.getElem_map]
  split
  · split <;> rfl
  · rfl

theorem loseEdge_only (until_ : Option Int) : loseEdge n falling until_ s = { timerLost (tacSource n) falling (countDead n s) with
    auxEdges := (loseEdge n falling until_ s).auxEdges } := by
  unfold loseEdge
  dsimp only
  split
  · rw [presentAux_only]
  · rfl

/-- A lost edge is counted and leaves no record (R148, R160). -/
theorem loseEdge_spec (until_ : Option Int) :
    ((loseEdge n falling until_ s).tacs[n]).deadCount = statAdd (s.tacs[n]).deadCount 1 ∧
    ((loseEdge n falling until_ s).tacs[n]).busy = (s.tacs[n]).busy ∧
    ∀ k : Fin 8, ((loseEdge n falling until_ s).timers[k]).latest = (s.timers[k]).latest := by
  obtain ⟨ovf, htac⟩ := countDead_get (n := n) (s := s)
  have hlost : (loseEdge n falling until_ s).tacs[n] = (countDead n s).tacs[n] := by rw [loseEdge_only]; rfl
  rw [hlost, htac]
  refine ⟨rfl, rfl, fun k => ?_⟩
  rw [loseEdge_only, ← countDead_timers (n := n) (s := s)]
  exact timerLost_latest ..

/-- A stamp goes to the timers and the trigger units (R149, R155). -/
def presentStamp (n : Fin 8) (falling coarse : Bool) (pos : Int) (x : Stamp) (s : State) : State :=
  presentAux n falling coarse false pos (timerStamp (tacSource n) (some falling) x s)

theorem presentStamp_tacs : (presentStamp n falling coarse pos x s).tacs = s.tacs := by
  rw [presentStamp, presentAux_only, timerStamp_onlyTimers s]

theorem presentStamp_timer {k : Fin 8} (hband : s.clk.noBand[3] = false) (hmode : (s.timers[k]).mode = .stamp)
    (hsrc : (s.timers[k]).startSrc = tacSource n) (hpol : polTakes (s.timers[k]).startPol (some falling) = true) :
    (presentStamp n falling coarse pos x s).timers[k] =
      ({ s.timers[k] with lost := 0 } : Timer).recorded 1 x.flags x.ts 0 (s.timers[k]).lost := by
  rw [presentStamp, presentAux_timers, timerStamp_stamp hband hmode hsrc hpol]

theorem presentStamp_auxEdges (h : n.val ≤ 3) : (presentStamp n falling coarse pos x s).auxEdges = s.auxEdges ++
    [{ input := n.val, falling := falling, t := edgeTs s pos, pos := pos, place := { PlaceFlags.none with coarse := coarse },
       dead := false }] := by
  have honly := timerStamp_onlyTimers s (tacSource n) (some falling) x
  rw [presentStamp, presentAux_auxEdges h]
  generalize timerStamp (tacSource n) (some falling) x s = t at *
  rw [honly]
  rfl

theorem presentStamp_auxEdges_of_other (h : 3 < n.val) : (presentStamp n falling coarse pos x s).auxEdges = s.auxEdges := by
  rw [presentStamp, presentAux_of_other h, timerStamp_onlyTimers s]

theorem deliverEdge_armed {a : Arming} (hsync : syncNeeds n s falling = true) (harming : s.tb.arming = some a) :
    deliverEdge n falling coarse pos x s = armedEdge pos falling x.flags a.v (updTac n (fun t => { t with deadBefore := false }) s) := by
  have hsync' : syncNeeds n (updTac n (fun t => { t with deadBefore := false }) s) falling = true := hsync
  have harming' : (updTac n (fun t => { t with deadBefore := false }) s).tb.arming = some a := harming
  unfold deliverEdge
  dsimp only
  rw [hsync', harming']

theorem deliverEdge_stamps (hsync : syncNeeds n s falling = false) (hcommit : afterCommit pos s = false) :
    deliverEdge n falling coarse pos x s =
      presentStamp n falling coarse pos x (updTac n (fun t => { t with deadBefore := false }) s) := by
  have hsync' : syncNeeds n (updTac n (fun t => { t with deadBefore := false }) s) falling = false := hsync
  have hcommit' : afterCommit pos (updTac n (fun t => { t with deadBefore := false }) s) = false := hcommit
  unfold deliverEdge
  dsimp only
  rw [hsync', hcommit']
  rfl

end

theorem deadUntil_none {x : Tac} {pos : Int} (h : ∀ e, x.busy = some e → e ≤ pos) : deadUntil x pos = none := by
  rw [deadUntil, Option.filter_eq_none_iff]
  exact fun e he => by have := h e he; simpa using this

theorem deadUntil_some {x : Tac} {pos e : Int} (hbusy : x.busy = some e) (h : pos < e) : deadUntil x pos = some e := by
  rw [deadUntil, hbusy, Option.filter_some, if_pos (by simpa using h)]

/-! ### An edge that something needs (R143 to R148) -/

section
variable {n : Fin 8} {falling : Bool} {coarse fine : Nat} {s : State}

/-- The TAC as an edge at `pos` that something needs leaves it. -/
def Tac.reached (falling : Bool) (pos : Int) (now : Nat) (x : Tac) : Tac :=
  { x with level := !falling, levels := (pos, !falling) :: x.levels, quietSince := now }

/-- The TAC as the conversion of that edge leaves it, with the capacitor held until `dead` (R148). -/
def Tac.converted (falling : Bool) (pos : Int) (now : Nat) (dead : Int) (x : Tac) : Tac :=
  { x.reached falling pos now with busy := some dead, deadBefore := false }

theorem exec_tacEdge {fine : Fin 4096} (hlive : live s = true) (cal : Bool) :
    exec (.tacEdge n falling coarse fine cal) s = .next (tacEdge n falling coarse fine.val cal s) := exec_live hlive rfl

theorem tacNeeds_of_syncNeeds {n : Fin 8} {s : State} {falling : Bool} (h : syncNeeds n s falling = true) :
    tacNeeds n s falling = true := by
  rw [tacNeeds, h, Bool.or_true]

theorem tacEdge_unneeded (h : n = 7 ∨ tacNeeds n s falling = false) (cal : Bool) : tacEdge n falling coarse fine cal s =
    updTac n (fun t => { t with level := !falling, levels := (edgePos n coarse fine false s, !falling) :: t.levels }) s := by
  refine if_pos ?_
  rcases h with rfl | h
  · rfl
  · change (decide (n = 7) || !tacNeeds n s falling) = true
    rw [h, Bool.not_false, Bool.or_true]

theorem stampOf_reached (pos : Int) (now : Nat) :
    stampOf n coarse fine false (updTac n (Tac.reached falling pos now) s) = stampOf n coarse fine false s := by
  have hpos : edgePos n coarse fine false (updTac n (Tac.reached falling pos now) s) = edgePos n coarse fine false s := by
    unfold edgePos
    rw [updTac_get]
    rfl
  unfold stampOf
  rw [hpos, updTac_get]
  rfl

theorem stopIdle_of_none {x : Tac} (h : x.calRun = none) : stopIdle x = x := if_neg (by rw [h]; decide)

variable (h7 : n ≠ 7) (hneeds : tacNeeds n s falling = true) (hband : s.clk.noBand[3] = false) (hrun : (s.tacs[n]).calRun = none)
include h7 hneeds hband hrun

/-- With no calibration run, what holds the capacitor decides. -/
theorem tacEdge_needed : tacEdge n falling coarse fine false s =
    (deadUntil s.tacs[n] (edgePos n coarse fine false s)).elim
      (deliverEdge n falling false (edgePos n coarse fine false s) (stampOf n coarse fine false s) (updTac n (fun t =>
        { t.reached falling (edgePos n coarse fine false s) s.aoCycles with
          busy := some (edgePos n coarse fine false s + fsToUnits s 4000000) }) s))
      fun e => loseEdge n falling (some e) (updTac n (Tac.reached falling (edgePos n coarse fine false s) s.aoCycles) s) := by
  unfold tacEdge
  extract_lets pos byDetector levelled tac byCal stopped
  have hneeded : ¬ (decide (n = 7) || !tacNeeds n levelled falling) = true := by
    rw [show tacNeeds n levelled falling = true from hneeds]
    simpa using h7
  have htac : tac = { s.tacs[n] with level := !falling, levels := (pos, !falling) :: (s.tacs[n]).levels } := updTac_get ..
  have hforced : ¬ (tac.calRun == some .forced && calRunning n levelled) = true := by rw [htac, hrun]; simp
  have hdead : deadUntil tac pos = deadUntil s.tacs[n] pos := by rw [htac]; rfl
  have hreached : notIdle n levelled = updTac n (Tac.reached falling pos s.aoCycles) s := updTac_updTac ..
  have hstopped : stopped = updTac n (Tac.reached falling pos s.aoCycles) s :=
    (updTac_id (stopIdle_of_none (by rw [hreached, updTac_get]; exact hrun))).trans hreached
  refine (if_neg hneeded).trans ((if_neg (Bool.eq_false_iff.mp hband)).trans ((if_neg hforced).trans ?_))
  rw [hdead, hstopped, hreached, stampOf_reached, updTac_updTac]
  cases deadUntil s.tacs[n] pos with
  | some e => rfl
  | none => rfl

theorem tacEdge_lost {e : Int} (hbusy : (s.tacs[n]).busy = some e) (h : edgePos n coarse fine false s < e) :
    tacEdge n falling coarse fine false s =
      loseEdge n falling (some e) (updTac n (Tac.reached falling (edgePos n coarse fine false s) s.aoCycles) s) := by
  rw [tacEdge_needed h7 hneeds hband hrun, deadUntil_some hbusy h, Option.elim_some]

variable (hfree : ∀ e, (s.tacs[n]).busy = some e → e ≤ edgePos n coarse fine false s)
include hfree

theorem tacEdge_stamped (hsync : syncNeeds n s falling = false) (hcommit : afterCommit (edgePos n coarse fine false s) s = false) :
    tacEdge n falling coarse fine false s = presentStamp n falling false (edgePos n coarse fine false s) (stampOf n coarse fine false s)
      (updTac n (Tac.converted falling (edgePos n coarse fine false s) s.aoCycles
        (edgePos n coarse fine false s + fsToUnits s 4000000)) s) := by
  rw [tacEdge_needed h7 hneeds hband hrun, deadUntil_none hfree, Option.elim_none]
  refine Eq.trans (deliverEdge_stamps hsync hcommit) ?_
  rw [updTac_updTac]
  rfl

theorem tacEdge_armed {a : Arming} (hsync : syncNeeds n s falling = true) (harming : s.tb.arming = some a) :
    tacEdge n falling coarse fine false s = armedEdge (edgePos n coarse fine false s) falling (stampOf n coarse fine false s).flags a.v
      (updTac n (Tac.converted falling (edgePos n coarse fine false s) s.aoCycles
        (edgePos n coarse fine false s + fsToUnits s 4000000)) s) := by
  rw [tacEdge_needed h7 hneeds hband hrun, deadUntil_none hfree, Option.elim_none]
  refine Eq.trans (deliverEdge_armed hsync harming) ?_
  rw [updTac_updTac]
  rfl

end

/-- Settles O29: the capacitor decides whether a needed edge is lost or converted, and the stamp of a converted one goes to the epoch that
waits for it, or to the timers, each in its own turn, and the trigger units. -/
theorem tacEdges : Obligations.TacEdges := by
  unfold Obligations.TacEdges
  intro n falling coarse fine s hlive pos stamp
  refine ⟨fun h cal => ?unneeded, fun h7 hneeds hband hrun hsync hfree hcommit => ?stamped,
    fun e h7 hneeds hband hrun hbusy hlt => ?lost, fun a hn harming hsync hband hrun hfree => ?armed⟩
  case unneeded => rw [exec_tacEdge hlive, tacEdge_unneeded h]
  case stamped =>
    refine ⟨_, exec_tacEdge hlive false, ?_⟩
    rw [tacEdge_stamped h7 hneeds hband hrun hfree hsync hcommit, presentStamp_tacs, updTac_get]
    refine ⟨rfl, rfl, rfl, fun m hm => updTac_get_ne hm _ s, fun k hmode hsrc hpol => ?_,
      fun h => ⟨_, presentStamp_auxEdges h, rfl, rfl, rfl, rfl, rfl⟩, fun h => presentStamp_auxEdges_of_other h⟩
    rw [presentStamp_timer (by exact hband) (by exact hmode) (by exact hsrc) (by exact hpol)]
    exact ⟨_, rfl, rfl, rfl, rfl, rfl, rfl⟩
  case lost =>
    refine ⟨_, exec_tacEdge hlive false, ?_⟩
    obtain ⟨hcount, hstays, hlatest⟩ :=
      loseEdge_spec (n := n) (falling := falling) (s := updTac n (Tac.reached falling pos s.aoCycles) s) (some e)
    rw [updTac_get] at hcount hstays
    rw [tacEdge_lost h7 hneeds hband hrun hbusy hlt]
    exact ⟨hcount, hstays, hlatest⟩
  case armed =>
    refine ⟨_, exec_tacEdge hlive false, ?_⟩
    rw [tacEdge_armed (by rw [hn]; decide) (tacNeeds_of_syncNeeds hsync) hband hrun hfree hsync harming]
    exact ⟨fun _ => rfl, rfl, rfl⟩

end Sys2Proof.Machine
end
section
/-!
SUPPORT and the proof of O30: calibration runs end in a new table or a rejection (R150 to R154), and the timers' own clocks end a wait and
a gate (R157, R159).
-/
namespace Sys2Proof.Machine

section
variable {n : Fin 8} {s : State}

/-! ### STALE and the in-service test (R154, R431) -/

@[simp] theorem raiseCal_tacs (sev cause : Nat) : (raiseCal n sev cause s).tacs = s.tacs := raiseNow_tacs ..

theorem raiseCal_quiet (sev cause : Nat) : Safety.Quiet s (raiseCal n sev cause s) := raiseNow_quiet ..

theorem comeStale_quiet : ∃ told, Safety.Quiet (updTac n (fun t => { t with stale := true, staleTold := told }) s) (comeStale n s) := by
  unfold comeStale
  dsimp only
  split
  · next h =>
    refine ⟨(s.tacs[n]).staleTold, ?_⟩
    rw [updTac_id (by rw [← h])]
    exact quiet_refl s
  · refine ⟨(s.tacs[n]).staleTold || (s.tacs[n]).calValid, ?_⟩
    split
    · exact raiseCal_quiet ..
    · exact quiet_refl _

@[simp] theorem istCycle_tacs : (istCycle s).tacs = s.tacs := by
  unfold istCycle
  dsimp only
  split_ifs
  · exact raiseNow_tacs ..
  · rfl

@[simp] theorem istPart_tacs (item : Fin 8) (part : Nat) : (istPart item part s).tacs = s.tacs := by
  unfold istPart
  dsimp only
  split
  · exact istCycle_tacs
  · rfl

theorem tacs_of_quiet {t : State} (h : Safety.Quiet s t) : t.tacs = s.tacs := by rw [h]

theorem idleCounted_tacs {idle : Prop} [Decidable idle] : (if idle then istPart 1 n.val s else s).tacs = s.tacs := by
  split
  · exact istPart_tacs ..
  · rfl

/-! ### The end of a calibration run (R150, R153) -/

/-- The converter with an accepted table, which applies from a coarse count on. -/
def Tac.calibrated (hist : List Nat) (temp : BitVec 16) (first : Nat) (t : Tac) : Tac :=
  { t with calValid := true, calRun := none, stale := false, staleTold := false, fault := false, calTemp := temp, temp := temp,
           oldTable := t.table, table := some (midTable hist.sum 0 hist), tableFrom := first, savedTable := false, hits := 0, rejects := 0 }

/-- The converter after a rejected run. -/
def Tac.rejected (temp : BitVec 16) (t : Tac) : Tac := { t with calRun := none, temp := temp, hits := 0, rejects := t.rejects + 1 }

variable {hist : List Nat} {temp : BitVec 16} {kind : CalKind} (hrun : (s.tacs[n]).calRun = some kind) (hgoes : calSuspended n s = false)
include hrun hgoes

theorem runGoes : ¬ ((s.tacs[n]).calRun.isNone || calSuspended n s) = true := by
  rw [hrun, hgoes]
  exact Bool.false_ne_true

theorem calRunEnd_accepted (h : tableAccepted hist = true) :
    ∃ first, (calRunEnd n hist temp s).tacs = upd s.tacs n (Tac.calibrated hist temp first) := by
  unfold calRunEnd
  extract_lets tac counted
  have htacs : counted.tacs = s.tacs := idleCounted_tacs
  rw [if_neg (runGoes hrun hgoes), if_pos h, raiseCal_tacs, ← htacs]
  exact ⟨_, rfl⟩

/-- The state in which a run has been rejected (R153). -/
theorem calRunEnd_rejected (h : tableAccepted hist = false) : ∃ u, u.tacs = upd s.tacs n (Tac.rejected temp) ∧
    calRunEnd n hist temp s = if (u.tacs[n]).rejects = 3 then
      comeStale n (raiseCal n sevError 2 (updTac n (fun t => { t with fault := true }) u)) else u := by
  unfold calRunEnd
  extract_lets tac counted rejected
  have htacs : counted.tacs = s.tacs := idleCounted_tacs
  refine ⟨rejected, ?_, ?_⟩
  · rw [← htacs]
    exact raiseCal_tacs ..
  · rw [if_neg (runGoes hrun hgoes), if_neg (by rw [h]; decide)]

theorem calRunEnd_rejected_other (h : tableAccepted hist = false) (hcount : (s.tacs[n]).rejects ≠ 2) :
    (calRunEnd n hist temp s).tacs = upd s.tacs n (Tac.rejected temp) := by
  obtain ⟨u, htacs, heq⟩ := calRunEnd_rejected (temp := temp) hrun hgoes h
  have hrejects : (u.tacs[n]).rejects = (s.tacs[n]).rejects + 1 := by rw [htacs, Fin.getElem_fin, upd_get]; rfl
  rw [heq, if_neg (by omega), htacs]

/-- The third rejection in a row (R153). -/
theorem calRunEnd_rejected_third (h : tableAccepted hist = false) (hcount : (s.tacs[n]).rejects = 2) :
    ∃ told, (calRunEnd n hist temp s).tacs =
      upd s.tacs n fun t => { t.rejected temp with fault := true, stale := true, staleTold := told } := by
  obtain ⟨u, htacs, heq⟩ := calRunEnd_rejected (temp := temp) hrun hgoes h
  have hrejects : (u.tacs[n]).rejects = (s.tacs[n]).rejects + 1 := by rw [htacs, Fin.getElem_fin, upd_get]; rfl
  obtain ⟨told, hquiet⟩ := comeStale_quiet (n := n) (s := raiseCal n sevError 2 (updTac n (fun t => { t with fault := true }) u))
  refine ⟨told, ?_⟩
  rw [heq, if_pos (by omega), tacs_of_quiet hquiet]
  simp only [updTac, raiseCal_tacs, htacs, upd_upd]

end

/-! ### Starts that wait (R157) -/

section
variable {k : Fin 8} {s : State} {a b : Stamp}

theorem decideUntil_nil (h : (s.timers[k]).waiting = []) (now : TS96) (fuel : Nat) : decideUntil k now fuel s = s := by
  cases fuel with
  | zero => rfl
  | succ fuel => rw [decideUntil, h]

theorem winExpiry_nearest (hmode : (s.timers[k]).mode = .interval) (hnearest : (s.timers[k]).nearest = true) :
    winExpiry k s = decideUntil k (tsNow s) 64 s := by
  unfold winExpiry
  dsimp only
  rw [hmode, hnearest]
  exact (if_pos rfl).trans (if_pos rfl)

theorem winExpiry_first (hmode : (s.timers[k]).mode = .interval) (hnearest : (s.timers[k]).nearest = false)
    (hwaiting : (s.timers[k]).waiting = [a]) (hpast : winUnits s.timers[k] < tsDiff (tsNow s) a.ts) :
    winExpiry k s = updTimer k (fun x => addUnpaired 1 { x with waiting := [] }) s := by
  unfold winExpiry
  dsimp only
  rw [hmode, hnearest, hwaiting]
  exact (if_pos rfl).trans ((if_neg Bool.false_ne_true).trans (if_pos hpast))

theorem winExpiry_of_ne (h : (s.timers[k]).mode ≠ .interval) : winExpiry k s = s := if_neg (by simpa using h)

theorem emitInterval_get (h : s.clk.noBand[3] = false) : ∃ flags, (emitInterval k a b s).timers[k] =
    ({ s.timers[k] with unpaired := 0 } : Timer).recorded 2 flags a.ts (b.ts - a.ts) (s.timers[k]).unpaired := by
  unfold emitInterval
  dsimp only
  rw [emitRecord_get _ _ _ _ _ (show (updTimer k _ s).clk.noBand[3] = false from h), updTimer_get]
  exact ⟨_, rfl⟩

variable (hwaiting : (s.timers[k]).waiting = [a])
include hwaiting

theorem decideNearest_none (h : nearestStop s.timers[k] a = none) :
    decideNearest k s = updTimer k (fun x => addUnpaired 1 { x with waiting := [] }) s := by
  unfold decideNearest
  dsimp only
  rw [hwaiting]
  dsimp only
  rw [h]

theorem decideNearest_some (h : nearestStop s.timers[k] a = some b) : decideNearest k s =
    emitInterval k a b (updTimer k (fun x => { x with waiting := [], unused := x.unused.erase b }) s) := by
  unfold decideNearest
  dsimp only
  rw [hwaiting]
  dsimp only
  rw [h]

variable (hpast : winUnits s.timers[k] < tsDiff (tsNow s) a.ts)
include hpast

/-- Once the one start that waits is decided, none is left to decide. -/
theorem decideUntil_one (h : ((decideNearest k s).timers[k]).waiting = []) (fuel : Nat) :
    decideUntil k (tsNow s) (fuel + 1) s = decideNearest k s := by
  rw [decideUntil, hwaiting]
  exact (if_pos hpast).trans (decideUntil_nil h ..)

end

/-! ### The commands -/

section
variable {n k : Fin 8} {temp : BitVec 16} {s : State} (hlive : live s = true)
include hlive

/-- The converter as an idle run starts on it, with the hits of the run before kept or not (R152). -/
def Tac.idleStarted (keep : Bool) (temp : BitVec 16) (now : Nat) (t : Tac) : Tac :=
  { t with calRun := some .idle, temp := temp, hits := if keep then t.hits else 0, quietSince := now,
           runTemp := if keep then t.runTemp else temp }

theorem exec_tacIdleCalStart_starts (hrun : (s.tacs[n]).calRun = none) (hidle : idleEnough n temp s = true)
    (hband : s.clk.noBand[3] = false) :
    ∃ keep, exec (.tacIdleCalStart n temp) s = .next (updTac n (Tac.idleStarted keep temp s.aoCycles) s) :=
  ⟨_, (exec_live hlive rfl).trans (if_neg (by rw [hrun, hidle, hband]; decide))⟩

theorem exec_tacIdleCalStart_stays (h : (s.tacs[n]).calRun.isSome = true ∨ idleEnough n temp s = false) :
    exec (.tacIdleCalStart n temp) s = .next s := by
  refine (exec_live hlive rfl).trans (if_pos ?_)
  rcases h with h | h <;> simp only [h, Bool.not_false, Bool.true_or, Bool.or_true]

theorem exec_tacCalRunEnd {hist : List Nat} (hwf : WellFormed.histogram hist = true) :
    exec (.tacCalRunEnd n hist temp) s = .next (calRunEnd n hist temp s) := (exec_live hlive rfl).trans (if_pos hwf)

theorem exec_staleCal_far (h : 200 < (temp.toInt - (s.tacs[n]).calTemp.toInt).natAbs) :
    exec (.staleCal n temp) s = .next (comeStale n (updTac n (fun t => { t with temp := temp }) s)) := by
  refine (exec_live hlive rfl).trans (if_pos ?_)
  rw [updTac_get]
  exact decide_eq_true h

theorem exec_staleCal_near (h : (temp.toInt - (s.tacs[n]).calTemp.toInt).natAbs ≤ 200) : exec (.staleCal n temp) s =
    .next (updTac n (fun t => { t with temp := temp, stale := t.savedTable || t.fault }) s) := by
  refine (exec_live hlive rfl).trans ((if_neg ?_).trans ?_)
  · rw [updTac_get]
    simpa [tempFar] using h
  · rw [updTac_updTac]

theorem exec_intervalWinExpiry : exec (.intervalWinExpiry k) s = .next (winExpiry k s) := exec_live hlive rfl

section
variable {g : Gate} (hmode : (s.timers[k]).mode = .frequency) (hgate : (s.timers[k]).gate = some g)
include hmode hgate

theorem exec_frequencyGateEmpty_empty (hcount : g.count = 0)
    (hpassed : (nsToTicks s (s.timers[k]).gateNs : Int) * tick ≤ tsDiff (tsNow s) g.opening.ts) :
    ∃ span, exec (.frequencyGateEmpty k) s = .next (emitRecord k 3 (g.opening.flags ||| 0x400#32) g.opening.ts span 0
      (updTimer k (fun y => { y with gate := none, last := none }) (fresh s).2)) := by
  refine ⟨BitVec.ofNat 96 (unle (Config.freeBlob (fresh s).1)), (exec_live hlive rfl).trans ?_⟩
  dsimp only
  rw [hmode, hgate]
  exact if_pos ⟨hcount, hpassed⟩

theorem exec_frequencyGateEmpty_stays
    (h : 0 < g.count ∨ tsDiff (tsNow s) g.opening.ts < (nsToTicks s (s.timers[k]).gateNs : Int) * tick) :
    exec (.frequencyGateEmpty k) s = .next s := by
  refine (exec_live hlive rfl).trans ?_
  dsimp only
  rw [hmode, hgate]
  exact if_neg (by omega)

end

end

/-- Settles O30: a run's end as the converters see it, STALE as an event beside the converter, and each of the timers' clocks as the work of
one timer. -/
theorem calibrationAndGates : Obligations.CalibrationAndGates := by
  unfold Obligations.CalibrationAndGates
  refine ⟨fun n temp s hlive => ⟨fun hrun hidle hband => ?starts, fun h => ?tooSoon, fun kind hrun => ?runs,
      fun hist kind hwf hrun hgoes => ⟨fun h => ?accepted, fun h => ?rejected⟩, fun hfar => ?far, fun hnear => ?near⟩,
    fun k s hlive => ⟨fun a hmode hwaiting hpast => ⟨fun h => ?dropped, fun b hnearest hstop hband => ?decided⟩, fun hmode => ?noInterval,
      fun g hmode hgate hcount hband hpassed => ?empty, fun g hmode hgate h => ?counting⟩⟩
  case starts =>
    obtain ⟨keep, hexec⟩ := exec_tacIdleCalStart_starts hlive hrun hidle hband
    refine ⟨_, hexec, ?_⟩
    rw [updTac_get]
    exact ⟨rfl, rfl, rfl, rfl⟩
  case tooSoon => exact exec_tacIdleCalStart_stays hlive (.inr h)
  case runs => exact exec_tacIdleCalStart_stays hlive (.inl (by rw [hrun]; rfl))
  case accepted =>
    obtain ⟨first, htacs⟩ := calRunEnd_accepted (temp := temp) hrun hgoes h
    refine ⟨_, exec_tacCalRunEnd hlive hwf, ?_⟩
    rw [htacs, Fin.getElem_fin, upd_get]
    exact ⟨rfl, rfl, rfl, rfl, rfl, rfl, rfl, rfl, fun m hm => upd_get_ne _ _ _ _ hm⟩
  case rejected =>
    refine ⟨_, exec_tacCalRunEnd hlive hwf, ?_⟩
    by_cases hcount : (s.tacs[n]).rejects = 2
    · obtain ⟨told, htacs⟩ := calRunEnd_rejected_third (temp := temp) hrun hgoes h hcount
      rw [htacs, Fin.getElem_fin, upd_get]
      exact ⟨rfl, rfl, rfl, fun _ => ⟨rfl, rfl⟩, fun hne => absurd hcount hne⟩
    · rw [calRunEnd_rejected_other hrun hgoes h hcount, Fin.getElem_fin, upd_get]
      exact ⟨rfl, rfl, rfl, fun heq => absurd heq hcount, fun _ => rfl⟩
  case far =>
    obtain ⟨told, hquiet⟩ := comeStale_quiet (n := n) (s := updTac n (fun t => { t with temp := temp }) s)
    refine ⟨_, exec_staleCal_far hlive hfar, ?_⟩
    rw [updTac_updTac] at hquiet
    rw [tacs_of_quiet hquiet, updTac_get]
    exact ⟨rfl, rfl, hquiet⟩
  case near => exact exec_staleCal_near hlive hnear
  case dropped =>
    rw [exec_intervalWinExpiry hlive]
    cases hnearest : (s.timers[k]).nearest with
    | false => rw [winExpiry_first hmode hnearest hwaiting hpast]; rfl
    | true =>
      have hnone := decideNearest_none hwaiting (h.resolve_left (by rw [hnearest]; decide))
      rw [winExpiry_nearest hmode hnearest, decideUntil_one hwaiting hpast (by rw [hnone, updTimer_get]; rfl), hnone]
      rfl
  case decided =>
    have hsome := decideNearest_some hwaiting hstop
    obtain ⟨flags, hget⟩ := emitInterval_get (k := k) (a := a) (b := b)
      (s := updTimer k (fun x => { x with waiting := [], unused := x.unused.erase b }) s) hband
    rw [updTimer_get, ← hsome] at hget
    rw [exec_intervalWinExpiry hlive, winExpiry_nearest hmode hnearest, decideUntil_one hwaiting hpast (by rw [hget]; rfl)]
    refine ⟨decideNearest k s, ?_⟩
    rw [hget]
    exact ⟨_, rfl, rfl, rfl, rfl, rfl, rfl, rfl⟩
  case noInterval => rw [exec_intervalWinExpiry hlive, winExpiry_of_ne hmode]
  case empty =>
    obtain ⟨span, hexec⟩ := exec_frequencyGateEmpty_empty hlive hmode hgate hcount hpassed
    have hwork := ((TimerWork.refl k (fresh s).2).updTimer fun y => { y with gate := none, last := none }).emitRecord 3
      (g.opening.flags ||| 0x400#32) g.opening.ts span 0
    have hget := emitRecord_get (k := k) (s := updTimer k (fun y => { y with gate := none, last := none }) (fresh s).2) 3
      (g.opening.flags ||| 0x400#32) g.opening.ts span 0 hband
    rw [updTimer_get] at hget
    rw [hexec]
    generalize emitRecord k 3 _ _ _ _ _ = t at *
    refine ⟨t, ?_⟩
    rw [hget]
    exact ⟨_, rfl, rfl, rfl, rfl, rfl, rfl, by simp, rfl, hwork.others⟩
  case counting => exact exec_frequencyGateEmpty_stays hlive hmode hgate h

end Sys2Proof.Machine
end
section
/-!
SUPPORT and the proof of O28: EPOCH_SET, the epoch commit and TIMER_READ (R134 to R137, R155, R520).
-/
namespace Sys2Proof.Machine

/-! ### The Brim ring's part of an epoch (R391, R396) -/

/-- `t` differs from `s` at most in the Brim block and events. -/
def OnlyBrim (s t : State) : Prop := Safety.Quiet { s with brim := t.brim } t

section
variable {s t u : State}

theorem OnlyBrim.trans (h : OnlyBrim s t) (k : OnlyBrim t u) : OnlyBrim s u := by
  unfold OnlyBrim Safety.Quiet at *
  rw [k, h]

theorem OnlyBrim.raiseNow (h : OnlyBrim s t) (src : Fin 256) (sev : Nat) (data : List Byte) : OnlyBrim s (raiseNow src sev data t) :=
  h.trans (by
    unfold OnlyBrim
    rw [raiseNow_brim]
    exact raiseNow_quiet ..)

theorem OnlyBrim.updBrim (h : OnlyBrim s t) (f : Brim → Brim) : OnlyBrim s (updBrim f t) := h.trans rfl

theorem OnlyBrim.brimCount (h : OnlyBrim s t) (i : Fin 6) (k : Nat) : OnlyBrim s (brimCount i k t) := by
  unfold Machine.brimCount
  dsimp only
  split
  · exact (h.updBrim _).raiseNow ..
  · exact h.updBrim _

theorem OnlyBrim.reportImport (h : OnlyBrim s t) : OnlyBrim s (reportImport t) := by
  unfold Machine.reportImport
  extract_lets due now
  split
  · exact (h.updBrim _).raiseNow ..
  · exact h

variable (s)

theorem rejectQueued_onlyBrim : OnlyBrim s (rejectQueued s) := by
  unfold rejectQueued
  dsimp only
  split
  · rfl
  · exact .reportImport (.brimCount (.updBrim (by rfl) _) ..)

theorem floodSeq_onlyBrim (seq : W32) (kind cls : Nat) (ts : TS96) (flags : Nat) (body : List Byte) :
    OnlyBrim s (floodSeq seq kind cls ts flags body s) := by
  unfold floodSeq
  dsimp only
  refine forAll_keeps (OnlyBrim s) _ _ (fun p t h => ?_) ?_
  · unfold sendOn
    split
    · exact h.trans rfl
    · exact h
  · split <;> rfl

theorem sendEpoch_onlyBrim (v : BitVec 72) : OnlyBrim s (sendEpoch v s) := by
  unfold sendEpoch
  split
  · exact .trans (by rfl) (floodSeq_onlyBrim ..)
  · rfl

theorem checkAligned_onlyBrim : OnlyBrim s (checkAligned s) := by
  have haligned := checkAligned_quiet s
  generalize checkAligned s = t at *
  unfold OnlyBrim Safety.Quiet at *
  rw [haligned]

end

/-! ### What gives samples their TS96 (R131, R133) -/

/-- Timebase and sample counts: what the TS96 of samples depends on. -/
def State.timed (s : State) : Timebase × Vector Slice 8 := (s.tb, s.slices)

section
variable {s t : State}

theorem of_timed_eq {b : Timebase} {x : Vector Slice 8} (h : s.timed = (b, x)) : s.tb = b ∧ s.slices = x := Prod.ext_iff.mp h

theorem timed_of_quiet (h : Safety.Quiet s t) : t.timed = s.timed := by
  rw [h]
  rfl

theorem OnlyTimers.timed (h : OnlyTimers s t) : t.timed = s.timed := by
  rw [h]
  rfl

theorem OnlyBrim.timed (h : OnlyBrim s t) : t.timed = s.timed := by
  rw [h]
  rfl

/-- An epoch's mapping after every other is the newest one. -/
theorem insertEpoch_newest {w : Mapping} {maps : List Mapping} (h : ∀ m ∈ maps, m.sn ≤ w.sn) : insertEpoch w maps = w :: maps := by
  have hafter : (maps.filter fun m => decide (w.sn < m.sn)) = [] :=
    List.filter_eq_nil_iff.mpr fun m hm => by have := h m hm; simpa using this
  have hbefore : (maps.filter fun m => decide (m.sn ≤ w.sn)) = maps := List.filter_eq_self.mpr fun m hm => decide_eq_true (h m hm)
  rw [insertEpoch, hafter, hbefore]
  rfl

/-- From its sample on an epoch's mapping is in force. -/
theorem tsIn_insertEpoch (w : Mapping) (maps : List Mapping) : tsIn (insertEpoch w maps) w.sn = w.ts := by
  have hmap : mappingOf (insertEpoch w maps) w.sn = w := by
    unfold mappingOf insertEpoch
    rw [List.find?_append, List.find?_eq_none.mpr, Option.none_or]
    · simp
    · intro m hm
      obtain ⟨m', hm', rfl⟩ := List.mem_map.mp hm
      simpa using (List.mem_filter.mp hm').2
  simp [tsIn, hmap]

/-! ### The epoch commit (R137, R520) -/

theorem releaseStamps_timed (map : Nat → Mapping) (clear : W32) :
    (releaseStamps map clear s).timed = ({ s.tb with held := [] }, s.slices) := (releaseStamps_onlyTimers s map clear).timed

theorem endRetros_timed (n : Nat) (s : State) : (endRetros n s).timed = s.timed := rfl

theorem updateMoment_timed (n : Nat) (s : State) : (updateMoment n s).timed = s.timed := rfl

/-- The timebase after the commit of an epoch. -/
def Timebase.committed (w : EpochWait) (v : BitVec 72) (b : Timebase) : Timebase :=
  { b with state := .set, epochGen := b.epochGen + 1, maps := insertEpoch w.map b.maps, arming := none, wait := none, epochV := v,
           moments := w.commit :: b.moments, held := [] }

theorem commitEpoch_timed (w : EpochWait) (v : BitVec 72) : (commitEpoch w v s).timed = (s.tb.committed w v, s.slices) := by
  unfold commitEpoch
  extract_lets base committed raised cut ended reported released moved
  have hraised : raised.timed = committed.timed := timed_of_quiet (raise_quiet ..)
  have hcut : cut.timed = raised.timed := (timed_of_quiet (raiseNow_quiet ..)).trans rfl
  have hreported : reported.timed = cut.timed := (timerEpochs_onlyTimers ended).timed.trans (endRetros_timed ..)
  have hreleased : released.timed = ({ reported.tb with held := [] }, reported.slices) := releaseStamps_timed ..
  have hmoved : moved.timed = released.timed := (updateMoment_timed ..).trans (rejectQueued_onlyBrim released).timed
  rw [((sendEpoch_onlyBrim moved v).trans (checkAligned_onlyBrim _)).timed, hmoved, hreleased]
  obtain ⟨htb, hslices⟩ := Prod.ext_iff.mp (hreported.trans (hcut.trans hraised))
  clear_value reported
  rw [show reported.tb = committed.tb from htb, show reported.slices = s.slices from hslices]
  rfl

@[simp] theorem commitEpoch_tb (w : EpochWait) (v : BitVec 72) : (commitEpoch w v s).tb = s.tb.committed w v :=
  (of_timed_eq (commitEpoch_timed w v)).1

@[simp] theorem commitEpoch_slices (w : EpochWait) (v : BitVec 72) : (commitEpoch w v s).slices = s.slices :=
  (of_timed_eq (commitEpoch_timed w v)).2

theorem knownEpoch_none (h : s.tb.arming = none) : knownEpoch s = none := by rw [knownEpoch, h]

theorem knownEpoch_atTick {a : Arming} (h : s.tb.arming = some a) (htick : a.atTick = true) : knownEpoch s =
    some ({ map := { sn := firstFrom s a.since (ticksTs a.x), ts := ticksTs a.v, acts := firstFrom s a.since (ticksTs a.x) },
            commit := firstFrom s a.since (ticksTs a.x), atTick := true }, a.v) := by
  rw [knownEpoch, h]
  exact if_pos htick

theorem knownEpoch_edge {a : Arming} {w : EpochWait} (h : s.tb.arming = some a) (hedge : a.atTick = false) (hwait : s.tb.wait = some w) :
    knownEpoch s = some (w, a.v) := by
  rw [knownEpoch, h]
  refine (if_neg (by rw [hedge]; decide)).trans ?_
  rw [hwait]
  rfl

variable (hlive : live s = true)
include hlive

theorem exec_epochCommit_none (h : knownEpoch s = none) : exec .epochCommit s = .next s := by
  refine (exec_live hlive rfl).trans ?_
  rw [epochCommit, h]

theorem exec_epochCommit_now {w : EpochWait} {v : BitVec 72} (h : knownEpoch s = some (w, v))
    (hcommit : w.commit < commitSample s + 40) : exec .epochCommit s = .next (commitEpoch w v s) := by
  refine (exec_live hlive rfl).trans ?_
  rw [epochCommit, h]
  exact congrArg _ (if_pos hcommit)

theorem exec_epochCommit_later {w : EpochWait} {v : BitVec 72} (h : knownEpoch s = some (w, v))
    (hcommit : commitSample s + 40 ≤ w.commit) : exec .epochCommit s = .next s := by
  refine (exec_live hlive rfl).trans ?_
  rw [epochCommit, h]
  exact congrArg _ (if_neg (by omega))

end

/-! ### EPOCH_SET (R136, R361, R362) -/

/-- The state in which an epoch is armed: the stamps that waited for an arming before it have gone to the timers, and retro-captures know
of the timebase that ends (R136, R220). -/
def beforeArming (s : State) : State :=
  let released := releaseStamps (fun n => arrivalMap s n) 0#32 (if s.tb.state == .armed then notIdle 4 s else s)
  if released.tb.state == .set then unsetRetros released else released

section
variable {s : State}

theorem beforeArming_spec : (beforeArming s).tb = { s.tb with held := [] } ∧ (beforeArming s).slices = s.slices ∧
    (beforeArming s).seqs = s.seqs ∧ (beforeArming s).tus = s.tus ∧ (beforeArming s).masks = s.masks ∧
    (beforeArming s).felts = s.felts := by
  have hnoted : ∃ tacs, (if s.tb.state == .armed then notIdle 4 s else s) = { s with tacs := tacs } := by
    split
    · exact ⟨_, rfl⟩
    · exact ⟨_, rfl⟩
  obtain ⟨tacs, htacs⟩ := hnoted
  unfold beforeArming
  rw [htacs]
  extract_lets released
  have hreleased := releaseStamps_onlyTimers { s with tacs := tacs } (fun n => arrivalMap s n) 0#32
  change OnlyTimers _ released at hreleased
  clear_value released
  split
  · rw [hreleased]
    exact ⟨rfl, rfl, rfl, rfl, rfl, rfl⟩
  · rw [hreleased]
    exact ⟨rfl, rfl, rfl, rfl, rfl, rfl⟩

/-- With no stamps that wait, and no arming or epoch before it, nothing else happens. -/
theorem beforeArming_of_unset (hheld : s.tb.held = []) (harmed : s.tb.state ≠ .armed) (hset : s.tb.state ≠ .set) :
    beforeArming s = { s with tb := { s.tb with held := [] } } := by
  have hnoted : (if s.tb.state == .armed then notIdle 4 s else s) = s := if_neg (by simpa using harmed)
  unfold beforeArming
  rw [hnoted, releaseStamps_nil s hheld]
  exact if_neg (by simpa using hset)

/-- The state in which EPOCH_SET has armed an epoch. -/
def epochArmed (c : Call) (s : State) : State :=
  let s := beforeArming s
  { s with tb := { s.tb with
    state := if arg1 c 0x18 = 0 then .armed else .pending, wait := none,
    unsetFrom := if s.tb.state == .set then commitSample s else s.tb.unsetFrom,
    arming := some { atTick := arg1 c 0x18 = 1, falling := arg1 c 0x19 = 1, v := BitVec.ofNat 72 (argN c 0x20 9),
                     x := BitVec.ofNat 72 (argN c 0x30 9), since := commitSample s } } }

section
variable {c : Call} (hpol : arg1 c 0x19 ≤ 1)
include hpol

/-- X comes too early (R362). -/
theorem epochSet_early (h : arg1 c 0x18 = 1)
    (hearly : tsDiff (ticksTs (BitVec.ofNat 72 (argN c 0x30 9))) (tsNow s) < (40 * 2 ^ 21 * tick : Nat)) :
    epochSet c s = refuse stInvalid 0x30 :=
  (if_neg (by omega)).trans ((if_neg (by omega)).trans (if_pos ⟨h, hearly⟩))

theorem epochSet_ok (hseqs : s.seqs.toList.any armed = false) (hstreams : streamOpenNow s = false)
    (hmeasuring : s.clk.refState ≠ .measuring) (hstep : s.clk.refState ≠ .stepPending)
    (h : arg1 c 0x18 = 0 ∧ (s.tacs[(4 : Fin 8)]).calValid = true ∨ arg1 c 0x18 = 1 ∧
      (40 * 2 ^ 21 * tick : Nat) ≤ tsDiff (ticksTs (BitVec.ofNat 72 (argN c 0x30 9))) (tsNow s)) :
    epochSet c s = .ok (checkAligned (epochArmed c s)) [] := by
  refine (if_neg (by omega)).trans ((if_neg (by omega)).trans ((if_neg (by omega)).trans (if_neg ?_)))
  have hmeasuring' : (s.clk.refState == .measuring) = false := by simpa using hmeasuring
  have hstep' : (s.clk.refState == .stepPending) = false := by simpa using hstep
  have hcal : (decide (arg1 c 0x18 = 0) && !(s.tacs[4]).calValid) = false := by
    rcases h with ⟨-, hvalid⟩ | ⟨htick, -⟩
    · rw [show (s.tacs[4]).calValid = true from hvalid]
      simp
    · rw [htick]
      rfl
  rw [hseqs, hstreams, hmeasuring', hstep']
  simpa using hcal

end

theorem epochArmed_tb (c : Call) : (epochArmed c s).tb = { s.tb with
    state := if arg1 c 0x18 = 0 then .armed else .pending, wait := none, held := [],
    unsetFrom := if s.tb.state = .set then commitSample s else s.tb.unsetFrom,
    arming := some { atTick := arg1 c 0x18 = 1, falling := arg1 c 0x19 = 1, v := BitVec.ofNat 72 (argN c 0x20 9),
                     x := BitVec.ofNat 72 (argN c 0x30 9), since := commitSample s } } := by
  obtain ⟨htb, hslices, -⟩ := beforeArming_spec (s := s)
  have hsample : commitSample (beforeArming s) = commitSample s := by rw [commitSample, lcNow, hslices]; rfl
  unfold epochArmed
  dsimp only
  rw [htb, hsample]
  simp only [beq_iff_eq]

theorem epochArmed_keeps (c : Call) : (epochArmed c s).slices = s.slices ∧ (epochArmed c s).seqs = s.seqs ∧
    (epochArmed c s).tus = s.tus ∧ (epochArmed c s).masks = s.masks ∧ (epochArmed c s).felts = s.felts :=
  (beforeArming_spec (s := s)).2

theorem epochArmed_of_unset (hheld : s.tb.held = []) (harmed : s.tb.state ≠ .armed) (hset : s.tb.state ≠ .set) (c : Call) :
    epochArmed c s = { s with tb := (epochArmed c s).tb } := by
  unfold epochArmed
  rw [beforeArming_of_unset hheld harmed hset]

end

section
variable (s : State)
@[simp] theorem checkAligned_tus : (checkAligned s).tus = s.tus := by rw [checkAligned_quiet s]
@[simp] theorem checkAligned_masks : (checkAligned s).masks = s.masks := by rw [checkAligned_quiet s]
@[simp] theorem checkAligned_felts : (checkAligned s).felts = s.felts := by rw [checkAligned_quiet s]
end

/-- A change of the timebase shows in ALIGNED at once (R390). -/
theorem quiet_checkAligned_of_tb {s t : State} (h : t = { s with tb := t.tb }) : Safety.Quiet
    { s with tb := (checkAligned t).tb, brim := { s.brim with aligned := (checkAligned t).brim.aligned } } (checkAligned t) := by
  have haligned := checkAligned_quiet t
  generalize checkAligned t = u at *
  unfold Safety.Quiet at *
  rw [haligned, h]

/-! ### TIMER_READ (R155, R160) -/

section
variable {l new : List Byte}

theorem pad_take {m k : Nat} (hk : k ≤ l.length) (hm : l.length ≤ m) : (pad m l).take k = l.take k := by
  rw [pad, List.take_take, min_eq_left (by omega), List.take_append_of_le_length hk]

theorem patch_length {off : Nat} (h : off + new.length ≤ l.length) : (patch l off new).length = l.length := by
  simp [patch]
  omega

theorem patch_take {off : Nat} (h : off + new.length ≤ l.length) : (patch l off new).take off = l.take off := by
  rw [patch, List.take_take, min_eq_left (by omega), List.append_assoc,
    List.take_append_of_le_length (by rw [List.length_take]; omega), List.take_take, min_self]

theorem timerBytes_length (k : Nat) (r : TimerRec) : (timerBytes k r).length = 48 := by
  simp [timerBytes, tsBytes]

end

section
variable {c : Call} {k : Fin 8} {s : State} (hk : arg1 c 0x18 = k.val) (hdest : destFault c 64 = none)
include hk hdest

theorem timerRead_none (h : (s.timers[k]).latest = none) : timerRead c s = .ok s [] := by
  unfold timerRead
  rw [hk, getN_fin]
  dsimp only
  rw [hdest]
  dsimp only
  rw [h]

/-- The bytes that TIMER_READ writes are the record's but for its VALID (R160; log 32). -/
theorem timerRead_some {r : TimerRec} (h : (s.timers[k]).latest = some r) : ∃ bytes,
    timerRead c s = .start { s with freeCtr := s.freeCtr + 1 } (.toHost (paramAddr c.desc) bytes) (le 4 r.seq.toNat ++ [1]) ∧
    bytes.length = 64 ∧ bytes.take 44 = (timerBytes k.val r).take 44 := by
  let valid := le 4 (flag (Config.freeBit (fresh s).1) 0)
  have hvalid : 0x2C + valid.length ≤ (timerBytes k.val r).length := by rw [le_length, timerBytes_length]
  have hlength : (patch (timerBytes k.val r) 0x2C valid).length = 48 := (patch_length hvalid).trans (timerBytes_length ..)
  refine ⟨pad 64 (patch (timerBytes k.val r) 0x2C valid), ?_, pad_length .., ?_⟩
  · unfold timerRead
    rw [hk, getN_fin]
    dsimp only
    rw [hdest]
    dsimp only
    rw [h]
    rfl
  · rw [pad_take (by omega) (by omega), patch_take hvalid]

end

/-- Settles O28: the arming and the commit as the timebase sees them, past timers and a Brim block that touch it no further, and the
bytes of a timer's latest record. -/
theorem epochAndTimerRead : Obligations.EpochAndTimerRead := by
  unfold Obligations.EpochAndTimerRead
  refine ⟨fun n g s hcommits _ hpol => ⟨fun hseqs hstreams hmeasuring hstep h => ?arms, fun htick hearly => ?early⟩,
    fun s hlive => ⟨fun harming => ?unarmed, fun a x harming htick hx hnow => ?atTick, fun a harming htick hlater => ?later,
      fun a w harming hedge hwait hnow => ?atEdge⟩,
    fun n g k s hcommits hk hdest => ⟨fun hlatest => ?noRecord, fun r hlatest => ?record⟩⟩
  case arms =>
    refine ⟨checkAligned (epochArmed (Safety.callOf g []) s), (exec_live hcommits.runs rfl).trans
      (congrArg _ (runCmd_ok hcommits noDeps (epochSet_ok hpol hseqs hstreams hmeasuring hstep h))), ?_, ?_⟩
    · rw [checkAligned_tb, epochArmed_tb]
    · obtain ⟨hslices, hothers, htus, hmasks, hfelts⟩ := epochArmed_keeps (s := s) (Safety.callOf g [])
      rw [checkAligned_slices, checkAligned_seqs, checkAligned_tus, checkAligned_masks, checkAligned_felts]
      exact ⟨hslices, hothers, htus, hmasks, hfelts, fun hheld harmed hset => quiet_checkAligned_of_tb
        (epochArmed_of_unset hheld harmed hset _)⟩
  case early =>
    exact (exec_live hcommits.runs rfl).trans (congrArg _ (runCmd_refuse hcommits noDeps (epochSet_early hpol htick hearly) (by decide)))
  case unarmed => exact exec_epochCommit_none hlive (knownEpoch_none harming)
  case atTick =>
    subst hx
    refine ⟨_, exec_epochCommit_now hlive (knownEpoch_atTick harming htick) hnow, ?_⟩
    rw [tsOf, commitEpoch_tb]
    exact ⟨rfl, rfl, rfl, rfl, fun hnewest => insertEpoch_newest hnewest, tsIn_insertEpoch .., rfl, commitEpoch_slices ..⟩
  case later => exact exec_epochCommit_later hlive (knownEpoch_atTick harming htick) hlater
  case atEdge =>
    refine ⟨_, exec_epochCommit_now hlive (knownEpoch_edge harming hedge hwait) hnow, ?_⟩
    rw [commitEpoch_tb]
    exact ⟨rfl, rfl, rfl, rfl, rfl, commitEpoch_slices ..⟩
  case noRecord =>
    exact (exec_live hcommits.runs rfl).trans (congrArg _ (runCmd_ok hcommits noDeps (timerRead_none hk hdest hlatest)))
  case record =>
    obtain ⟨bytes, hread, hlength, htake⟩ := timerRead_some hk hdest hlatest
    exact ⟨bytes, (exec_live hcommits.runs rfl).trans (congrArg _ (runCmd_start hcommits noDeps hread)), hlength, htake⟩

end Sys2Proof.Machine
end
section
/-!
SUPPORT. What a firing and a cut segment tell the rest of the device (R155, R178, R199, R393).
-/
namespace Sys2Proof.Machine

/-! ### One entry of a vector changed, and one turn of a loop -/

/-- A field that an update keeps is the same in every entry. -/
theorem upd_field {α β : Type} {n : Nat} (p : α → β) {v : Vector α n} {i : Fin n} {f : α → α} (h : p (f v[i]) = p v[i]) (j : Fin n) :
    p (upd v i f)[j] = p v[j] := by
  by_cases hji : j = i
  · subst hji
    exact (congrArg p (upd_get ..)).trans h
  · exact congrArg p (upd_get_ne _ _ _ _ hji)

/-- What only turn `n` of a loop changes, the loop makes of it what turn `n` makes of it, between turns that `r` describes. -/
theorem foldl_turn {α β : Type} {p : State → β} {r : State → State → Prop} (hrefl : ∀ s, r s s)
    (htrans : ∀ {s t u}, r s t → r t u → r s u) {f : State → α → State} {l : List α} (hnodup : l.Nodup) {n : α} (hn : n ∈ l)
    (hother : ∀ t i, i ≠ n → p (f t i) = p t) (hr : ∀ t i, r t (f t i)) (s : State) :
    ∃ t, r s t ∧ p t = p s ∧ p (l.foldl f s) = p (f t n) ∧ r (f t n) (l.foldl f s) := by
  have hloop : ∀ (k : List α) (s : State), r s (k.foldl f s) := fun k => by
    induction k with
    | nil => exact hrefl
    | cons i k ih => exact fun s => htrans (hr s i) (ih (f s i))
  obtain ⟨before, after, rfl⟩ := List.append_of_mem hn
  rw [List.nodup_append, List.nodup_cons] at hnodup
  obtain ⟨-, ⟨hafter, -⟩, hbefore⟩ := hnodup
  refine ⟨before.foldl f s, hloop _ _, foldl_frame_mem p _ _ _ fun t i hi => hother t i (hbefore i hi n (List.mem_cons_self ..)), ?_⟩
  rw [List.foldl_append, List.foldl_cons]
  exact ⟨foldl_frame_mem p _ _ _ fun t i hi => hother t i fun e => hafter (e ▸ hi), hloop _ _⟩

/-! ### Triggers told of -/

/-- `t` differs from `s` at most in what is told of a firing or a cut: trigger outputs, timers and their streams, the Brim block, events,
and what trigger units have found, of which no firing is known yet (R178). -/
structure Told (s t : State) : Prop where
  only : Safety.Quiet { s with
    trigouts := t.trigouts, timers := t.timers, brim := t.brim, tus := t.tus, hif := { s.hif with streams := t.hif.streams } } t
  known : ∀ u : Fin 16, (t.tus[u]).known = (s.tus[u]).known

section
variable {s t u : State}

theorem Told.refl (s : State) : Told s s := ⟨rfl, fun _ => rfl⟩

theorem Told.trans (h : Told s t) (k : Told t u) : Told s u :=
  ⟨by
    have hst := h.only
    have htu := k.only
    unfold Safety.Quiet at *
    rw [htu, hst], fun v => (k.known v).trans (h.known v)⟩

theorem told_of_quiet (h : Safety.Quiet s t) : Told s t :=
  ⟨by unfold Safety.Quiet at *; rw [h], fun v => by rw [h]⟩

theorem OnlyTimers.told (h : OnlyTimers s t) : Told s t :=
  ⟨by unfold OnlyTimers Safety.Quiet at *; rw [h], fun v => by rw [h]⟩

theorem OnlyBrim.told (h : OnlyBrim s t) : Told s t :=
  ⟨by unfold OnlyBrim Safety.Quiet at *; rw [h], fun v => by rw [h]⟩

theorem Told.seqs (h : Told s t) : t.seqs = s.seqs := by rw [h.only]

theorem Told.seq (h : Told s t) (a : Fin 4) : t.seqs[a] = s.seqs[a] := by rw [h.seqs]

theorem seq_of_quiet (h : Safety.Quiet s t) (a : Fin 4) : t.seqs[a] = s.seqs[a] := (told_of_quiet h).seq a

theorem Told.mem (h : Told s t) : t.mem = s.mem := by rw [h.only]

end

section
variable (s : State)

theorem timerTrigger_onlyTimers (src : Nat) (x : TS96) (n : Nat) (coarse : Bool) : OnlyTimers s (timerTrigger src x n coarse s) :=
  timerStamp_onlyTimers ..

theorem flood_onlyBrim (kind cls : Nat) (x : TS96) (flags : Nat) (body : List Byte) : OnlyBrim s (flood kind cls x flags body s) :=
  .trans (by rfl) (floodSeq_onlyBrim ..)

theorem found_told (u : Fin 16) (x : TS96) (pos : Int) (place : PlaceFlags) (level : Bool) (due : Nat) (remote : Bool) :
    Told s (found u x pos place level due remote s) := by
  refine ⟨rfl, fun v => ?_⟩
  rw [found, Fin.getElem_fin, Vector.getElem_map]
  split
  all_goals exact upd_field Tu.known (by rfl) v

theorem sourceEvent_told (src : Nat) (x : TS96) (place : PlaceFlags) (remote : Bool) (due : Nat) :
    Told s (sourceEvent src x place remote due s) := by
  refine forAll_keeps (Told s) _ _ (fun u t h => ?_) (.refl s)
  split
  · split
    · exact h.trans (found_told ..)
    · exact h
  · exact h

theorem importCount_onlyBrim (i : Fin 6) (k : Nat) : OnlyBrim s (importCount i k s) := .reportImport (.brimCount (by rfl) ..)

theorem importTrigger_told (cls : Nat) (x arrival : TS96) (tbSet sameFs : Bool) :
    Told s (importTrigger cls x arrival tbSet sameFs s) := by
  unfold importTrigger
  extract_lets margin ns s1
  have hmargin : Told s s1 := OnlyBrim.told (by rfl)
  split_ifs
  · exact .refl s
  · exact (importCount_onlyBrim ..).told
  · exact hmargin.trans (importCount_onlyBrim ..).told
  · exact hmargin.trans (OnlyBrim.told (by rfl))
  · exact hmargin.trans (importCount_onlyBrim ..).told
  · exact hmargin.trans ((importCount_onlyBrim ..).told.trans (sourceEvent_told ..))

theorem suppressExport_onlyBrim : OnlyBrim s (suppressExport s) := by
  unfold suppressExport
  extract_lets s1 due
  have hcount : OnlyBrim s s1 := .brimCount (.updBrim (by rfl) _) ..
  split
  · exact (hcount.updBrim _).raiseNow ..
  · exact hcount

theorem exportClass_told (cls : Fin 16) (x : TS96) (flags : Nat) : Told s (exportClass cls x flags s) := by
  unfold exportClass
  split_ifs
  · exact .refl s
  · exact (OnlyBrim.told (by rfl)).trans ((flood_onlyBrim ..).told.trans (importTrigger_told ..))
  · exact (suppressExport_onlyBrim s).told

theorem exportTrigger_told (source : Nat) (remote : Bool) (x : TS96) (flags : Nat) : Told s (exportTrigger source remote x flags s) := by
  refine forAll_keeps (Told s) _ _ (fun c t h => ?_) (.refl s)
  split_ifs
  · exact h.trans (suppressExport_onlyBrim t).told
  · exact h.trans (exportClass_told ..)
  · exact h

/-- What is exported on no class is not exported (R393). -/
theorem exportTrigger_of_not_exported {source : Nat} (h : ∀ c : Fin 16, s.brim.exports[c] ≠ source) (remote : Bool) (x : TS96) (flags : Nat) :
    exportTrigger source remote x flags s = s :=
  forAll_keeps (· = s) _ _ (fun c t ht => by rw [ht, if_neg (h c)]) rfl

/-- Triggers for the outputs are queued in them. -/
theorem queueTrigout_only (src : Nat) (pos : Int) (late : Bool) :
    queueTrigout src pos late s = { s with trigouts := (queueTrigout src pos late s).trigouts } :=
  forAll_keeps (fun t => t = { s with trigouts := t.trigouts }) _ _ (fun o t h => by
    split
    · rw [h]; rfl
    · exact h) rfl

theorem queueTrigout_told (src : Nat) (pos : Int) (late : Bool) : Told s (queueTrigout src pos late s) :=
  ⟨by rw [queueTrigout_only]; rfl, fun v => by rw [queueTrigout_only]⟩

end

end Sys2Proof.Machine
end
section
/-!
SUPPORT. What an operation of one sequencer leaves alone, and what a cut makes of its sequencer and of memory (R188 to R193, R210 to R214).
-/
namespace Sys2Proof.Machine

section
variable {a b : Fin 4} {s t u : State}

/-! ### One sequencer changed -/

theorem updAs_get (f : Seq → Seq) : (updAs a f s).seqs[a] = f s.seqs[a] := upd_get ..

theorem updAs_get_ne (h : b ≠ a) (f : Seq → Seq) : (updAs a f s).seqs[b] = s.seqs[b] := upd_get_ne _ _ _ _ h

theorem updAs_updAs (f g : Seq → Seq) : updAs a g (updAs a f s) = updAs a (fun q => g (f q)) s := by
  unfold updAs
  rw [upd_upd]

/-- An update writes the function's value at the sequencer. -/
theorem updAs_congr {f g : Seq → Seq} (h : f s.seqs[a] = g s.seqs[a]) : updAs a f s = updAs a g s := by
  unfold updAs upd
  rw [h]

theorem updAs_eq_const (f : Seq → Seq) : updAs a f s = updAs a (fun _ => (updAs a f s).seqs[a]) s := updAs_congr (updAs_get f).symm

theorem updAs_id {f : Seq → Seq} (h : f s.seqs[a] = s.seqs[a]) : updAs a f s = s := by
  unfold updAs
  rw [upd_id _ _ _ h]

/-! ### The work of one sequencer -/

/-- `t` differs from `s` at most in sequencers, memory, what is told of a cut, and events. -/
def OnlyCuts (s t : State) : Prop :=
  Safety.Quiet { s with
    seqs := t.seqs, mem := t.mem, trigouts := t.trigouts, timers := t.timers, brim := t.brim, tus := t.tus,
    hif := { s.hif with streams := t.hif.streams } } t

theorem OnlyCuts.refl (s : State) : OnlyCuts s s := rfl

theorem OnlyCuts.trans (h : OnlyCuts s t) (k : OnlyCuts t u) : OnlyCuts s u := by
  unfold OnlyCuts Safety.Quiet at *
  rw [k, h]

theorem Told.onlyCuts (h : Told s t) : OnlyCuts s t := by
  have honly := h.only
  unfold OnlyCuts Safety.Quiet at *
  rw [honly]

/-- The same, and of the sequencers at most sequencer `a`. -/
structure SeqWork (a : Fin 4) (s t : State) : Prop where
  only : OnlyCuts s t
  others : ∀ b : Fin 4, b ≠ a → t.seqs[b] = s.seqs[b]

theorem SeqWork.refl (a : Fin 4) (s : State) : SeqWork a s s := ⟨rfl, fun _ _ => rfl⟩

theorem SeqWork.trans (h : SeqWork a s t) (k : SeqWork a t u) : SeqWork a s u :=
  ⟨h.only.trans k.only, fun b hb => (k.others b hb).trans (h.others b hb)⟩

theorem SeqWork.updAs (h : SeqWork a s t) (f : Seq → Seq) : SeqWork a s (updAs a f t) :=
  h.trans ⟨rfl, fun _ hb => updAs_get_ne hb f⟩

theorem SeqWork.told (h : SeqWork a s t) (k : Told t u) : SeqWork a s u :=
  h.trans ⟨k.onlyCuts, fun b _ => k.seq b⟩

theorem SeqWork.quiet (h : SeqWork a s t) (k : Safety.Quiet t u) : SeqWork a s u := h.told (told_of_quiet k)

/-- Memory changed. -/
theorem SeqWork.mem (h : SeqWork a s t) (m : Mem) : SeqWork a s { t with mem := m } := h.trans ⟨rfl, fun _ _ => rfl⟩

end

/-! ### A cut -/

theorem seq_of_seqs {s t : State} (h : t.seqs = s.seqs) (a : Fin 4) : t.seqs[a] = s.seqs[a] := by rw [h]

/-- What a cut `c` under number `n` makes of its sequencer, the reference for the felts apart (R183, R187, R188, R193). -/
def Seq.afterCut (c : Cut) (n : Nat) (q : Seq) : Seq :=
  { q with state := .post, openSeg := some n, lastT := some c.t, segments := statAdd q.segments 1, cutSinceArm := q.cutSinceArm + 1,
           fullSeen := false, gapCount := 0, holdSeen := 0, holdEnd := 0, fillStart := max (c.last + 1) c.first,
           counts := { SeqCounts.zero with afterStop := q.counts.afterStop } }

section
variable (a : Fin 4) (c : Cut) (s : State)

theorem missCut_seq : ∃ counts seen, (missCut a s).seqs[a] = { s.seqs[a] with counts := counts, fullSeen := seen } := by
  unfold missCut
  extract_lets s1
  have hs1 : s1.seqs[a] = { s.seqs[a] with counts := { (s.seqs[a]).counts with fullMissed := (s.seqs[a]).counts.fullMissed + 1 } } :=
    updAs_get _
  split
  · exact ⟨_, _, hs1⟩
  · exact ⟨_, true, (seq_of_quiet (raiseNow_quiet ..) a).trans ((updAs_get _).trans (by rw [hs1]))⟩

theorem missCut_work : SeqWork a s (missCut a s) := by
  have hcount : SeqWork a s (fullMissed a s) := (SeqWork.refl a s).updAs _
  unfold missCut
  extract_lets s1
  split
  · exact hcount
  · exact (hcount.updAs _).quiet (raiseNow_quiet ..)

theorem overwriteSegs_seqs (l : List Nat) : (overwriteSegs a l s).seqs = s.seqs := by
  cases l with
  | nil => rfl
  | cons n l => exact raiseNow_seqs ..

theorem overwriteSegs_next (l : List Nat) : (overwriteSegs a l s).mem.next = s.mem.next := by
  cases l with
  | nil => rfl
  | cons n l => rw [overwriteSegs, raiseMem, raiseNow_mem]; rfl

theorem overwriteSegs_work (l : List Nat) : SeqWork a s (overwriteSegs a l s) := by
  cases l with
  | nil => exact .refl a s
  | cons n l => exact ((SeqWork.refl a s).mem _).quiet (raiseNow_quiet ..)

theorem raiseCut_quiet (g : Segment) : Safety.Quiet s (raiseCut a g s) := by
  unfold raiseCut
  split
  · exact raise_quiet ..
  · exact quiet_refl s

/-- A cut is told of, and its sequencer keeps a reference for the TRIGGERED felts (R276). -/
theorem announceCut_told (g : Segment) : ∃ x, Told (updAs a (fun q => { q with refs := x :: q.refs }) s) (announceCut a g s) := by
  have hcut := told_of_quiet (raiseCut_quiet a s g)
  unfold announceCut
  extract_lets s1 s2 s3
  have hqueue := queueTrigout_told s1 (0x10 + a.val) ((g.kt * tick : Nat) + g.off) false
  have hseqs : ∀ {v w : State} (f : Seq → Seq), Told v w → Told (updAs a f v) (updAs a f w) := fun f h =>
    ⟨by
      have hw := h.only
      unfold Safety.Quiet at *
      rw [updAs, updAs, hw], h.known⟩
  exact ⟨_, (hseqs _ (hcut.trans hqueue)).trans ((timerTrigger_onlyTimers ..).told.trans (exportTrigger_told ..))⟩

/-- The segment of a cut has joined memory, and its sequencer is in POST (R187, R214). -/
def placeCut : State := updAs a (Seq.afterCut c s.mem.next)
  (addSegment (makeSegment a c (s.seqs[a]).counts s).1 (makeSegment a c (s.seqs[a]).counts s).2)

theorem placeCut_work : SeqWork a s (placeCut a c s) := (((SeqWork.refl a s).quiet (fresh_quiet s)).mem _).updAs _

theorem placeCut_get : (placeCut a c s).seqs[a] = (s.seqs[a]).afterCut c s.mem.next := updAs_get _

variable {a c s}

/-- A cut that the slot and R212 allow, some segments `l` overwritten for it. -/
theorem cutSegment_eq_announceCut (hslot : slotBlocked s.mem s.mem.next = none) {l : List Nat}
    (hroom : cutDecision (s.mem.overwrite.getLsbD a.val) (cutFits a c s) s.mem a.val = some l) {v : State} (hv : overwriteSegs a l s = v) :
    (cutSegment a c s).1 = announceCut a (makeSegment a c (v.seqs[a]).counts v).1 (placeCut a c v) := by
  unfold cutSegment
  rw [hslot]
  simp only [hroom, hv]
  rfl

/-- The segment of a cut joins memory, and its sequencer is in POST with a reference for the felts (R187, R214, R276). -/
theorem announceCut_placeCut (g : Segment) :
    (announceCut a g (placeCut a c s)).mem = (placeCut a c s).mem ∧ SeqWork a s (announceCut a g (placeCut a c s)) ∧
    ∃ refs, (announceCut a g (placeCut a c s)).seqs[a] = { (s.seqs[a]).afterCut c s.mem.next with refs := refs } := by
  obtain ⟨x, htold⟩ := announceCut_told a (placeCut a c s) g
  exact ⟨htold.mem, ((placeCut_work a c s).updAs _).told htold, x :: (s.seqs[a]).refs,
    (htold.seq a).trans ((updAs_get _).trans (by rw [placeCut_get]; rfl))⟩

/-- A cut for which nothing has to be overwritten (R212, R214). -/
theorem cutSegment_of_fits (hslot : slotBlocked s.mem s.mem.next = none) (hfits : cutFits a c s s.mem = true) :
    (cutSegment a c s).1.mem = { s.mem with
      segs := (makeSegment a c (s.seqs[a]).counts s).1 :: s.mem.segs, next := s.mem.next + 1 } ∧
    SeqWork a s (cutSegment a c s).1 ∧
    ∃ refs, (cutSegment a c s).1.seqs[a] = { (s.seqs[a]).afterCut c s.mem.next with refs := refs } := by
  rw [cutSegment_eq_announceCut (l := []) (v := s) hslot (if_pos hfits) rfl]
  exact announceCut_placeCut (a := a) (c := c) (s := s) (makeSegment a c (s.seqs[a]).counts s).1

/-- What an attempt to cut makes of its sequencer `q`, the segment being number `n`: a trigger is counted as missed, or a segment is cut. -/
inductive CutOutcome (c : Cut) (n : Nat) (q : Seq) : Seq → Prop where
  | missed (counts : SeqCounts) (seen : Bool) : CutOutcome c n q { q with counts := counts, fullSeen := seen }
  | cut (refs : List (TS96 × Nat × Bool)) : CutOutcome c n q { q.afterCut c n with refs := refs }

theorem cutSegment_outcome (a : Fin 4) (c : Cut) (s : State) :
    SeqWork a s (cutSegment a c s).1 ∧ CutOutcome c s.mem.next s.seqs[a] (cutSegment a c s).1.seqs[a] := by
  have hcount : SeqWork a s (fullMissed a s) := (SeqWork.refl a s).updAs _
  cases hslot : slotBlocked s.mem s.mem.next with
  | some n =>
    have hmiss : (cutSegment a c s).1 = raiseSlot a.val n (fullMissed a s) := by
      unfold cutSegment
      rw [hslot]
    have hquiet : Safety.Quiet (fullMissed a s) (raiseSlot a.val n (fullMissed a s)) := raiseNow_quiet ..
    rw [hmiss]
    refine ⟨hcount.quiet hquiet, ?_⟩
    rw [seq_of_quiet hquiet, fullMissed, updCounts, updAs_get]
    exact .missed _ _
  | none =>
    cases hroom : cutDecision (s.mem.overwrite.getLsbD a.val) (cutFits a c s) s.mem a.val with
    | none =>
      have hmiss : (cutSegment a c s).1 = missCut a s := by
        unfold cutSegment
        rw [hslot]
        simp only [hroom]
      obtain ⟨counts, seen, hseq⟩ := missCut_seq a s
      rw [hmiss]
      refine ⟨missCut_work a s, ?_⟩
      rw [hseq]
      exact .missed counts seen
    | some l =>
      have hbefore := overwriteSegs_work a s l
      have hseqs := seq_of_seqs (overwriteSegs_seqs a s l) a
      have hnext := overwriteSegs_next a s l
      generalize hv : overwriteSegs a l s = v at *
      rw [cutSegment_eq_announceCut hslot hroom hv]
      obtain ⟨-, hwork, refs, hseq⟩ := announceCut_placeCut (a := a) (c := c) (s := v) (makeSegment a c (v.seqs[a]).counts v).1
      refine ⟨hbefore.trans hwork, ?_⟩
      rw [hseq, hseqs, hnext]
      exact .cut refs

end

end Sys2Proof.Machine
end
section
/-!
SUPPORT. A firing becomes known: to its unit, the sequencers, the timers, TRIGOUT and the ring (R178, R181).
-/
namespace Sys2Proof.Machine

/-! ### A firing becomes known -/

/-- The instant that joins a sequencer's queue (R181, R182). -/
def instantFor (q : Seq) (known : Nat) (t : TS96) (kt : Nat) (kind : InstantKind) (place : PlaceFlags) (waiter : Option (Nat × W32)) :
    Instant :=
  { t := t, kt := kt, kind := kind, place := place, due := max (dueOf kt q.das) known, late := decide (dueOf kt q.das < known),
    waiter := waiter }

/-- Instants that join a sequencer's queue. -/
def Seq.pushed (l : List Instant) (q : Seq) : Seq := { q with queue := q.queue ++ l }

theorem Seq.pushed_nil (q : Seq) : q.pushed [] = q := by rw [Seq.pushed, List.append_nil]

theorem Seq.pushed_pushed (k l : List Instant) (q : Seq) : (q.pushed k).pushed l = q.pushed (k ++ l) := by
  simp only [Seq.pushed, List.append_assoc]

section
variable (u : Fin 16) (f : Firing) {q : Seq}

/-- The instants that a firing of unit `u` brings a sequencer: one for each term on the unit (R181). -/
def firingInstants (u : Fin 16) (f : Firing) (q : Seq) : List Instant :=
  if q.configured then
    (termsOf q u.val).map fun i => instantFor q f.due f.t (posSample f.pos) (.trigger i) f.place none
  else []

theorem firingInstants_unconfigured (h : q.configured = false) : firingInstants u f q = [] := by simp [firingInstants, h]

theorem firingInstants_kinds (h : q.configured = true) : (firingInstants u f q).map (·.kind) = (termsOf q u.val).map .trigger := by
  simp [firingInstants, h, instantFor]

theorem firingInstants_placed {i : Instant} (hi : i ∈ firingInstants u f q) : i.t = f.t ∧ i.kt = posSample f.pos ∧ i.place = f.place := by
  unfold firingInstants at hi
  split at hi
  · obtain ⟨k, -, rfl⟩ := List.mem_map.1 hi
    exact ⟨rfl, rfl, rfl⟩
  · cases hi

end

section
variable (a : Fin 4) (s : State)

theorem pushInstant_eq (known : Nat) (t : TS96) (kt : Nat) (kind : InstantKind) (place : PlaceFlags) (waiter : Option (Nat × W32)) :
    pushInstant a known t kt kind place waiter s = updAs a (Seq.pushed [instantFor s.seqs[a] known t kt kind place waiter]) s := rfl

theorem foldl_pushInstant (known : Nat) (t : TS96) (kt : Nat) (place : PlaceFlags) (terms : List Nat) :
    terms.foldl (fun s i => pushInstant a known t kt (.trigger i) place none s) s =
      updAs a (fun q => q.pushed (terms.map fun i => instantFor q known t kt (.trigger i) place none)) s := by
  induction terms generalizing s with
  | nil => exact (updAs_id (Seq.pushed_nil _)).symm
  | cons i terms ih =>
    rw [List.foldl_cons, ih, pushInstant_eq, updAs_updAs]
    exact updAs_congr (Seq.pushed_pushed ..)

/-- The firing of a unit stands in the queue of sequencer `a` (R181). -/
def tellSeq (u : Fin 16) (f : Firing) : State :=
  if (s.seqs[a]).configured then
    (termsOf s.seqs[a] u.val).foldl (fun s i => pushInstant a f.due f.t (posSample f.pos) (.trigger i) f.place none s) s
  else s

variable {a s}

theorem tellSeq_eq (u : Fin 16) (f : Firing) : tellSeq a s u f = updAs a (fun q => q.pushed (firingInstants u f q)) s := by
  unfold tellSeq
  split
  next h => exact (foldl_pushInstant ..).trans (updAs_congr (by rw [firingInstants, if_pos h]))
  next h => exact (updAs_id (by rw [firingInstants, if_neg h, Seq.pushed_nil])).symm

end

/-- The firing leaves the unit's queue and joins those known (R178). -/
def Tu.knowing (f : Firing) (x : Tu) : Tu := { x with queue := x.queue.erase f, known := f.t :: x.known }

theorem updTu_get {u : Fin 16} {s : State} (f : Tu → Tu) : (updTu u f s).tus[u] = f s.tus[u] := upd_get ..

theorem updTu_get_ne {u v : Fin 16} {s : State} (h : v ≠ u) (f : Tu → Tu) : (updTu u f s).tus[v] = s.tus[v] := upd_get_ne _ _ _ _ h

section
variable (u : Fin 16) (f : Firing) (s : State)

/-- Unit `u` knows the firing, and with EVENT_EN the host is told (R178). -/
def knownFiring : State :=
  let s := updTu u (Tu.knowing f) s
  if (s.tus[u]).cfg.eventEn then raiseFire u f s else s

/-- The sequencers, the timers and TRIGOUT know of the firing as well (R178). -/
def toldFiring : State :=
  let s := timerTrigger (0x20 + u.val) f.t (posSample f.pos) f.place.coarse (forAll 4 (fun a s => tellSeq a s u f) (knownFiring u f s))
  queueTrigout u.val f.pos (lateSource (s.tus[u]).cfg) s

variable {u f s}

theorem tuFire_eq (h : ripeFiring s s.tus[u] = some f) : tuFire u s = exportTrigger u.val f.remote f.t 0 (toldFiring u f s) := by
  unfold tuFire
  rw [h]
  rfl

theorem knownFiring_quiet :
    Safety.Quiet (updTu u (Tu.knowing f) s) (knownFiring u f s) := by
  unfold knownFiring
  extract_lets s1
  split
  · exact raise_quiet ..
  · exact quiet_refl _

/-- Telling the sequencers changes their queues only. -/
theorem tellSeqs_only : forAll 4 (fun a s => tellSeq a s u f) s = { s with seqs := (forAll 4 (fun a s => tellSeq a s u f) s).seqs } :=
  forAll_keeps (fun t => t = { s with seqs := t.seqs }) _ _ (fun a t h => by rw [tellSeq_eq, updAs, h]) rfl

theorem tellSeqs_seq (a : Fin 4) : (forAll 4 (fun a s => tellSeq a s u f) s).seqs[a] = (s.seqs[a]).pushed (firingInstants u f s.seqs[a]) := by
  obtain ⟨t, -, hbefore, hturn⟩ := forAll_turn (n := a) (s := s) (f := fun a s => tellSeq a s u f) (fun s => s.seqs[a]) (fun _ => True)
    (fun b t hb => by rw [tellSeq_eq, updAs_get_ne (Ne.symm hb)]) (fun _ _ _ => trivial) trivial
  rw [hturn, tellSeq_eq, updAs_get, hbefore]

theorem toldFiring_spec :
    (toldFiring u f s).tus = (updTu u (Tu.knowing f) s).tus ∧
    (toldFiring u f s).brim = s.brim ∧ (toldFiring u f s).mem = s.mem ∧
    ∀ a : Fin 4, (toldFiring u f s).seqs[a] = (s.seqs[a]).pushed (firingInstants u f s.seqs[a]) := by
  have hknown := knownFiring_quiet (u := u) (f := f) (s := s)
  have htell := tellSeqs_only (u := u) (f := f) (s := knownFiring u f s)
  have hseq := tellSeqs_seq (u := u) (f := f) (s := knownFiring u f s)
  unfold toldFiring
  generalize knownFiring u f s = v at *
  generalize forAll 4 (fun a s => tellSeq a s u f) v = w at *
  have htimer := timerTrigger_onlyTimers w (0x20 + u.val) f.t (posSample f.pos) f.place.coarse
  generalize timerTrigger (0x20 + u.val) f.t (posSample f.pos) f.place.coarse w = x at *
  have hout := queueTrigout_only x u.val f.pos (lateSource (x.tus[u]).cfg)
  dsimp only
  generalize queueTrigout u.val f.pos (lateSource (x.tus[u]).cfg) x = y at *
  refine ⟨by rw [hout, htimer, htell, hknown], by rw [hout, htimer, htell, hknown]; rfl, by rw [hout, htimer, htell, hknown]; rfl, fun a => ?_⟩
  have hv : v.seqs[a] = s.seqs[a] := seq_of_quiet hknown a
  exact (seq_of_seqs (by rw [hout, htimer]) a).trans ((hseq a).trans (by rw [hv]))

end

/-- The firing's part of O33 (R178, R181). -/
theorem exec_triggerUnitFire {u : Fin 16} {f : Firing} {s : State} (hlive : live s = true) (h : ripeFiring s s.tus[u] = some f) :
    ∃ t, exec (.triggerUnitFire u) s = .next t ∧
      (t.tus[u]).known = f.t :: (s.tus[u]).known ∧ t.mem = s.mem ∧
      ((∀ c : Fin 16, s.brim.exports[c] ≠ u.val) → t.tus = (updTu u (Tu.knowing f) s).tus) ∧
      ∀ a : Fin 4, t.seqs[a] = (s.seqs[a]).pushed (firingInstants u f s.seqs[a]) := by
  obtain ⟨htus, hbrim, hmem, hseq⟩ := toldFiring_spec (u := u) (f := f) (s := s)
  have htold := exportTrigger_told (toldFiring u f s) u.val f.remote f.t 0
  refine ⟨_, (exec_live hlive rfl).trans (congrArg _ (tuFire_eq h)), ?_, htold.mem.trans hmem, fun hexports => ?_,
    fun a => (htold.seq a).trans (hseq a)⟩
  · exact (htold.known u).trans (congrArg Tu.known ((congrArg (·[u]) htus).trans (updTu_get _)))
  · rw [exportTrigger_of_not_exported _ (by rwa [hbrim]), htus]

end Sys2Proof.Machine
end
section
/-!
SUPPORT and the proof of O33: a sequencer decides an instant (R187 to R190), and the pulses of the trigger outputs (R199, R200).
-/
namespace Sys2Proof.Machine

/-! ### A decision -/

/-- A trigger at sample `kt` is suppressed by the holdoff, and counts toward its end (R190). -/
def Seq.suppressing (kt : Nat) (q : Seq) : Seq := { q with
  counts := { q.counts with holdoffSuppressed := q.counts.holdoffSuppressed + 1 }, holdSeen := q.holdSeen + 1,
  holdEnd := if q.holdSeen + 1 = q.cfg.holdCount then kt + 1 else q.holdEnd }

section
variable {a : Fin 4} {s : State} {t : TS96} {kt flags : Nat}

theorem classify_ready (h : stateAt s.seqs[a] s kt = .ready) :
    classify a t kt flags s = (cutSegment a (cutAt s.seqs[a] t kt (s.seqs[a]).cfg.p flags false) s).1 := by
  unfold classify
  simp only [h]

theorem classify_fill (h : stateAt s.seqs[a] s kt = .fill) (haccept : (s.seqs[a]).cfg.accept = false) :
    classify a t kt flags s = updCounts a (fun c => { c with prefillWait := c.prefillWait + 1 }) s := by
  unfold classify
  simp only [h, haccept]
  rfl

theorem classify_holdoff (h : stateAt s.seqs[a] s kt = .holdoff) : classify a t kt flags s = updAs a (Seq.suppressing kt) s := by
  unfold classify
  simp only [h]
  rfl

theorem classify_post (h : stateAt s.seqs[a] s kt = .post) : classify a t kt flags s = logPost a t kt false s := by
  unfold classify
  simp only [h]

theorem classify_idle (h : stateAt s.seqs[a] s kt = .idle) : classify a t kt flags s = s := by
  unfold classify
  simp only [h]

/-- The log of an instant is kept in a segment that holds it, or the instant is counted; no segment comes or goes (R189, R213). -/
theorem logPost_spec (forced : Bool) : ∃ segs f, segs.length = s.mem.segs.length ∧
    logPost a t kt forced s = { updCounts a f s with mem := { s.mem with segs := segs } } := by
  unfold logPost
  split
  · exact ⟨_, id, List.length_map _, by rw [updCounts, updAs_id (by rfl)]; rfl⟩
  · exact ⟨s.mem.segs, fun c => { c with fullMissed := c.fullMissed + 1 }, rfl, rfl⟩

/-- What R212 asks of a cut rests on the settings of its sequencer, its D_AS, the banks and the era. -/
theorem cutFits_congr {v : State} (hcfg : (v.seqs[a]).cfg = (s.seqs[a]).cfg) (hdas : (v.seqs[a]).das = (s.seqs[a]).das)
    (hreds : v.reds = s.reds) (hproof : v.proof = s.proof) (c : Cut) (m : Mem) : cutFits a c v m = cutFits a c s m := by
  simp only [cutFits, sideNeed, spanBlocks, regionFits, hcfg, hdas, hreds, hproof]
  rfl

theorem cutFits_updAs {f : Seq → Seq} (hcfg : (f s.seqs[a]).cfg = (s.seqs[a]).cfg) (hdas : (f s.seqs[a]).das = (s.seqs[a]).das) (c : Cut)
    (m : Mem) : cutFits a c (updAs a f s) m = cutFits a c s m :=
  cutFits_congr ((congrArg Seq.cfg (updAs_get f)).trans hcfg) ((congrArg Seq.das (updAs_get f)).trans hdas) rfl rfl c m

end

/-- The queue of a sequencer that has decided its only instant. -/
def Seq.emptied (q : Seq) : Seq := { q with queue := [] }

/-- The only instant of a queue, a trigger on time whose levels hold: it leaves the queue and is classified (R180, R181). -/
theorem seqDecide_single {a : Fin 4} {i : Instant} {k : Nat} {s : State} (hqueue : (s.seqs[a]).queue = [i]) (hkind : i.kind = .trigger k)
    (hlate : i.late = false) (hdue : i.due ≤ lcNow s) (hholds : instantHolds s s.seqs[a] i = true)
    (hstop : afterStopInstant s.seqs[a] i.kt = false) (hexpiry : expiryFirst s.seqs[a] (some i.kt) s = false) :
    seqDecide a s = classify a i.t i.kt (placeFlagBits i.place) (updAs a Seq.emptied s) := by
  have hterm : isTermAt i.kt i.late i = true := by simp [isTermAt, hkind]
  have hnext : firstInstant ((s.seqs[a]).queue.filter fun i => decide (i.due ≤ lcNow s)) = some i := by
    rw [hqueue]
    simp [hdue, firstInstant]
  have hgroup : firstInstant (((s.seqs[a]).queue.filter (isTermAt i.kt i.late)).filter
      (instantHolds (updAs a Seq.emptied s) s.seqs[a])) = some i := by
    have hlevels : instantHolds (updAs a Seq.emptied s) s.seqs[a] i = true := hholds
    rw [hqueue, List.filter_singleton, hterm, cond_true, List.filter_singleton, hlevels]
    rfl
  have hrest : updAs a (fun q => { q with queue := q.queue.filter fun x => !isTermAt i.kt i.late x }) s =
      updAs a Seq.emptied s := updAs_congr (by rw [hqueue, List.filter_singleton, hterm]; rfl)
  have hstop' : afterStopInstant (updAs a Seq.emptied s).seqs[a] i.kt = false := by
    rw [updAs_get]
    exact hstop
  unfold seqDecide
  simp only [hnext, hexpiry, hkind, Bool.false_eq_true, if_false, hgroup, hrest]
  simp only [decideTrigger, hstop', hlate, Bool.false_eq_true, if_false]

/-- The decision's part of O33 (R187, R189, R190). -/
theorem exec_sequencerDecision {a : Fin 4} {i : Instant} {k : Nat} {s : State} (hlive : live s = true) (hqueue : (s.seqs[a]).queue = [i])
    (hkind : i.kind = .trigger k) (hlate : i.late = false) (hdue : i.due ≤ lcNow s) (hholds : instantHolds s s.seqs[a] i = true)
    (hstop : afterStopInstant s.seqs[a] i.kt = false) (hexpiry : expiryFirst s.seqs[a] (some i.kt) s = false) :
    let v := updAs a Seq.emptied s
    exec (.sequencerDecision a) s = .next (classify a i.t i.kt (placeFlagBits i.place) v) ∧ v.seqs[a] = (s.seqs[a]).emptied ∧
      stateAt v.seqs[a] v i.kt = stateAt s.seqs[a] s i.kt := by
  refine ⟨(exec_live hlive rfl).trans (congrArg _ (seqDecide_single hqueue hkind hlate hdue hholds hstop hexpiry)), updAs_get _, ?_⟩
  rw [updAs_get]
  rfl

/-! ### Trigger outputs -/

section
variable {o : Fin 2} {s : State}

theorem updOut_get (f : TrigOut → TrigOut) : (updOut o f s).trigouts[o] = f s.trigouts[o] := upd_get ..

theorem updOut_updOut (f g : TrigOut → TrigOut) : updOut o g (updOut o f s) = updOut o (fun x => g (f x)) s := by
  unfold updOut
  rw [upd_upd]

theorem raiseTrigout_quiet (cause : Nat) : Safety.Quiet s (raiseTrigout o cause s) := raiseNow_quiet ..

variable {e : OutTrigger} {rest : List OutTrigger}

/-- The edge does not fall in the present lc yet. -/
theorem trigoutPulse_early (hqueue : (s.trigouts[o]).queue = e :: rest) (hearly : landNow s + lcUnits ≤ (trigEdge e).1) :
    trigoutPulse o s = s := by
  unfold trigoutPulse
  simp only [hqueue, if_pos hearly]

/-- The oldest trigger's pulse begins (R199). -/
def TrigOut.pulsed (e : OutTrigger) (rest : List OutTrigger) (width : Nat) (pol : Bool) (x : TrigOut) : TrigOut :=
  { x with queue := rest, activeUntil := some ((trigEdge e).1 + width * lcUnits), level := !pol, late := x.late || (trigEdge e).2 }

/-- The oldest trigger is merged (R200). -/
def TrigOut.mergedWith (rest : List OutTrigger) (x : TrigOut) : TrigOut :=
  { x with queue := rest, merged := true, mergedCount := x.mergedCount + 1 }

theorem trigoutPulse_goes (hqueue : (s.trigouts[o]).queue = e :: rest) (hdue : (trigEdge e).1 < landNow s + lcUnits)
    (hfree : outBusy s.trigouts[o] (trigEdge e).1 = false) :
    Safety.Quiet (notIdle (loopTac o) (updOut o (TrigOut.pulsed e rest (trigWidth s o) (trigPol s o)) s)) (trigoutPulse o s) := by
  unfold trigoutPulse
  simp only [hqueue, if_neg (not_le.2 hdue), hfree, Bool.false_eq_true, if_false]
  rw [updOut_updOut]
  split
  · exact raiseTrigout_quiet 1
  · exact quiet_refl _

theorem trigoutPulse_merges (hqueue : (s.trigouts[o]).queue = e :: rest) (hdue : (trigEdge e).1 < landNow s + lcUnits)
    (hbusy : outBusy s.trigouts[o] (trigEdge e).1 = true) :
    Safety.Quiet (updOut o (TrigOut.mergedWith rest) s) (trigoutPulse o s) := by
  unfold trigoutPulse
  simp only [hqueue, if_neg (not_le.2 hdue), hbusy, if_true]
  rw [updOut_updOut]
  split
  · exact quiet_refl _
  · exact raiseTrigout_quiet 0

end

/-- Settles O33, by what `exec_triggerUnitFire`, `exec_sequencerDecision` with the cases of `classify`, and the lemmas on `trigoutPulse` say. -/
theorem decisionsAndTrigouts : Obligations.DecisionsAndTrigouts := by
  refine ⟨⟨?fire, ?decide⟩, ?trigout⟩
  case fire =>
    intro u f s hlive hripe
    obtain ⟨t, hexec, hknown, hmem, htus, hseq⟩ := exec_triggerUnitFire hlive hripe
    refine ⟨t, hexec, hknown, hmem, fun hexports => ?_, fun a => ⟨_, hseq a, firingInstants_unconfigured u f, firingInstants_kinds u f,
      fun i => firingInstants_placed u f⟩⟩
    rw [htus hexports]
    exact ⟨fun v hv => updTu_get_ne hv _, updTu_get _⟩
  case decide =>
    intro a i k s hlive q hqueue hkind hlate hdue hholds hstop hexpiry
    obtain ⟨hexec, hq, hstate⟩ := exec_sequencerDecision hlive hqueue hkind hlate hdue hholds hstop hexpiry
    rw [hexec, ← hstate]
    refine ⟨fun hready hslot hfits => ?ready, fun hfill haccept => ?fill, fun hhold => ?holdoff, fun hpost => ?post, fun hidle => ?idle⟩
    case ready =>
      have hroom : cutFits a (cutAt q i.t i.kt q.cfg.p (placeFlagBits i.place) false) (updAs a Seq.emptied s) s.mem = true := by
        rw [cutFits_updAs (by rfl) (by rfl)]
        exact hfits
      obtain ⟨hmem, hwork, refs, hseq⟩ := cutSegment_of_fits (a := a) (s := updAs a Seq.emptied s) hslot hroom
      rw [hq] at hseq
      have hcut : classify a i.t i.kt (placeFlagBits i.place) (updAs a Seq.emptied s) =
          (cutSegment a (cutAt q i.t i.kt q.cfg.p (placeFlagBits i.place) false) (updAs a Seq.emptied s)).1 :=
        (classify_ready hready).trans (by rw [hq]; rfl)
      exact ⟨_, _, congrArg _ hcut, congrArg Mem.segs hmem, congrArg Mem.next hmem, rfl, rfl, rfl, rfl,
        rfl, rfl, congrArg (·.cfg.channels) hq, rfl, rfl, congrArg Seq.state hseq, congrArg Seq.openSeg hseq, congrArg Seq.cutSinceArm hseq,
        congrArg Seq.queue hseq, fun b hb => (hwork.others b hb).trans (updAs_get_ne hb _)⟩
    case fill =>
      rw [classify_fill hfill (by rw [hq]; exact haccept), updCounts, updAs_updAs]
      rfl
    case holdoff =>
      rw [classify_holdoff hhold, updAs_updAs]
      refine ⟨_, rfl, updAs_eq_const _, ?_, ?_, ?_⟩
      all_goals
        rw [updAs_get]
        rfl
    case post =>
      obtain ⟨segs, f, hlen, hlog⟩ := logPost_spec (a := a) (s := updAs a Seq.emptied s) (t := i.t) (kt := i.kt) false
      rw [classify_post hpost, hlog]
      exact ⟨_, rfl, congrArg Seq.queue ((updAs_get _).trans (by rw [hq])), hlen, rfl, rfl⟩
    case idle =>
      rw [classify_idle hidle]
      rfl
  case trigout =>
    intro o s hlive
    have hpulse : exec (.trigoutPulse o) s = .next (trigoutPulse o s) := exec_live hlive rfl
    have hend := exec_live (c := .trigoutPulseEnd o) hlive rfl
    refine ⟨fun e rest hqueue => ⟨fun hearly => ?early, fun hdue hfree => ?goes, fun hdue hbusy => ?merges⟩,
      fun u hu => ⟨fun hover => ?ends, fun hlasts => ?lasts⟩, fun hnone => ?none⟩
    case early => rw [hpulse, trigoutPulse_early hqueue hearly]
    case goes =>
      have hquiet := trigoutPulse_goes hqueue hdue hfree
      have hout : (trigoutPulse o s).trigouts[o] = (s.trigouts[o]).pulsed e rest (trigWidth s o) (trigPol s o) := by
        rw [hquiet]
        exact updOut_get _
      refine ⟨_, hpulse, hout, ?_⟩
      rw [hout]
      exact hquiet
    case merges =>
      have hquiet := trigoutPulse_merges hqueue hdue hbusy
      have hout : (trigoutPulse o s).trigouts[o] = (s.trigouts[o]).mergedWith rest := by
        rw [hquiet]
        exact updOut_get _
      refine ⟨_, hpulse, hout, ?_⟩
      rw [hout]
      exact hquiet
    case ends =>
      rw [hend]
      simp only [hu, if_pos hover]
    case lasts =>
      rw [hend]
      simp only [hu, if_neg (not_lt.2 hlasts)]
    case none =>
      rw [hend]
      simp only [hnone]

end Sys2Proof.Machine
end
section
/-!
SUPPORT and the proof of O32: a sequencer is filled, leaves POST and cuts at the end of AUTO_TIMEOUT (R186, R187, R190, R193).
-/
namespace Sys2Proof.Machine

/-! ### A fill starts -/

/-- A sequencer that fills from sample `n` on (R187). -/
def Seq.filling (n : Nat) (q : Seq) : Seq :=
  { q with state := .fill, armSample := some n, startAt := none, fillStart := n, readyAt := n, openSeg := none, lastSeg := none, holdEnd := 0,
           holdSeen := 0, nextOpen := none }

/-- A sequencer in CONTINUOUS from sample `n` on (R185, R187). -/
def Seq.streaming (n : Nat) (q : Seq) : Seq := { q.filling n with state := .post, nextOpen := some (n + q.cfg.l) }

section
variable {a : Fin 4} {c : Cut} {n k : Nat} {s : State} {q r : Seq}

theorem CutOutcome.armSample (h : CutOutcome c k q r) : r.armSample = q.armSample := by cases h <;> rfl

theorem CutOutcome.startAt (h : CutOutcome c k q r) : r.startAt = q.startAt := by cases h <;> rfl

theorem CutOutcome.post (h : CutOutcome c k q r) (hpost : q.state = .post) : r.state = .post := by
  cases h with
  | missed => exact hpost
  | cut => rfl

theorem CutOutcome.le_fillStart (h : CutOutcome c k q r) (hfirst : n ≤ c.first) (hfill : n ≤ q.fillStart) : n ≤ r.fillStart := by
  cases h with
  | missed => exact hfill
  | cut => exact le_max_of_le_right hfirst

/-- CONTINUOUS opens a segment at a grid boundary, where R212 allows it (R213). -/
theorem openContinuous_outcome (a : Fin 4) (n : Nat) (s : State) : SeqWork a s (openContinuous a n s) ∧
    ∃ c k, c.first = n ∧ CutOutcome c k { s.seqs[a] with nextOpen := some (n + (s.seqs[a]).cfg.l) } (openContinuous a n s).seqs[a] := by
  have hopened := updAs_get (a := a) (s := s) fun q => { q with nextOpen := some (n + (s.seqs[a]).cfg.l) }
  have hbefore := (SeqWork.refl a s).updAs fun q => { q with nextOpen := some (n + (s.seqs[a]).cfg.l) }
  unfold openContinuous
  extract_lets q v
  obtain ⟨hwork, hout⟩ := cutSegment_outcome a { t := tsOf v n, kt := n, first := n, last := n + q.cfg.l - 1, flags := 0, ring := false } v
  exact ⟨hbefore.trans hwork, _, _, rfl, hopened ▸ hout⟩

theorem startFill_of_ne (hmode : (s.seqs[a]).cfg.mode ≠ .continuous) : startFill n a s = updAs a (Seq.filling n) s := by
  have hget : (updAs a (Seq.filling n) s).seqs[a] = (s.seqs[a]).filling n := updAs_get _
  refine if_neg (?_ : ¬ ((updAs a (Seq.filling n) s).seqs[a].cfg.mode == .continuous) = true)
  rw [hget]
  exact fun h => hmode (beq_iff_eq.1 h)

theorem startFill_of_continuous (hmode : (s.seqs[a]).cfg.mode = .continuous) : SeqWork a s (startFill n a s) ∧
    ∃ c k, c.first = n ∧ CutOutcome c k ((s.seqs[a]).streaming n) (startFill n a s).seqs[a] := by
  have hget : (updAs a (Seq.filling n) s).seqs[a] = (s.seqs[a]).filling n := updAs_get _
  have hopen : startFill n a s = openContinuous a n (updAs a (fun q => { q with state := .post }) (updAs a (Seq.filling n) s)) := by
    refine if_pos (?_ : ((updAs a (Seq.filling n) s).seqs[a].cfg.mode == .continuous) = true)
    rw [hget]
    exact beq_iff_eq.2 hmode
  rw [hopen]
  obtain ⟨hwork, c, k, hfirst, hout⟩ :=
    openContinuous_outcome a n (updAs a (fun q => { q with state := .post }) (updAs a (Seq.filling n) s))
  refine ⟨(((SeqWork.refl a s).updAs _).updAs _).trans hwork, c, k, hfirst, ?_⟩
  rw [updAs_get, hget] at hout
  exact hout

/-! ### POST ends -/

/-- The open segment `k` has ended (R187). -/
def Seq.closing (k : Nat) (q : Seq) : Seq := { q with openSeg := none, lastSeg := some k }

theorem segmentEnd_leaves {g : Segment} (hopen : (s.seqs[a]).openSeg = some k) (hseg : findSeg s k = some g)
    (hleave : mayLeave s.seqs[a] g.last s = true) : segmentEnd a s = leavePost a (updAs a (Seq.closing k) s) := by
  unfold segmentEnd
  simp only [hopen, hseg, if_pos hleave]
  rfl

/-- An event takes up the counts (R203). -/
theorem raiseAs_eq (cause low : Nat) : ∃ t, Safety.Quiet s t ∧ raiseAs a cause low s = updAs a (fun q => { q with counts := SeqCounts.zero }) t :=
  ⟨_, raiseNow_quiet .., rfl⟩

theorem raiseAs_get (cause low : Nat) : (raiseAs a cause low s).seqs[a] = { s.seqs[a] with counts := SeqCounts.zero } := by
  obtain ⟨t, hquiet, hraise⟩ := raiseAs_eq (a := a) (s := s) cause low
  rw [hraise, updAs_get, seq_of_quiet hquiet]

theorem raiseAs_work (cause low : Nat) : SeqWork a s (raiseAs a cause low s) := by
  obtain ⟨t, hquiet, hraise⟩ := raiseAs_eq (a := a) (s := s) cause low
  rw [hraise]
  exact ((SeqWork.refl a s).quiet hquiet).updAs _

theorem raiseAs_mem (cause low : Nat) : (raiseAs a cause low s).mem = s.mem := raiseNow_mem ..

/-- A stop that waited, or COUNT, ends the acquisition with the segment (R187, R197). -/
theorem leavePost_idle (h : (∃ w, (s.seqs[a]).stopPending = some w) ∨ countReached s.seqs[a] = true) :
    ((leavePost a s).seqs[a]).state = .idle ∧ ((leavePost a s).seqs[a]).openSeg = (s.seqs[a]).openSeg ∧
    ((leavePost a s).seqs[a]).lastSeg = (s.seqs[a]).lastSeg ∧ SeqWork a s (leavePost a s) ∧ (leavePost a s).mem = s.mem := by
  unfold leavePost
  extract_lets q
  split
  next w hw =>
    have hidle := updAs_get (a := a) (s := s) fun q => { q with
      state := .idle, das := dAs s q.cfg, stopPending := none, stopAt := some q.fillStart }
    unfold holdStop
    refine ⟨?_, ?_, ?_, ((SeqWork.refl a s).updAs _).updAs _, rfl⟩
    all_goals rw [updAs_get, hidle]
  next hnone =>
    have hcount : countReached q = true := h.resolve_left fun ⟨w, hw⟩ => by
      rw [hnone] at hw
      cases hw
    rw [if_pos hcount]
    refine ⟨?_, ?_, ?_, ((SeqWork.refl a s).updAs _).trans (raiseAs_work ..), (raiseAs_mem ..)⟩
    all_goals rw [raiseAs_get, updAs_get]

theorem leavePost_goes (hstop : (s.seqs[a]).stopPending = none) (hcount : countReached s.seqs[a] = false)
    (hmode : (s.seqs[a]).cfg.mode ≠ .continuous) : leavePost a s = updAs a (fun q => { q with
      state := if (s.seqs[a]).cfg.holdTime = 0 ∧ (s.seqs[a]).cfg.holdCount = 0 then .fill else .holdoff }) s := by
  unfold leavePost
  simp only [hstop, hcount, beq_false_of_ne hmode, Bool.false_eq_true, if_false]
  split
  next hhold => rw [if_neg (by simpa [or_iff_not_imp_left] using hhold)]
  next hfree => rw [if_pos (by simpa using hfree)]

/-! ### AUTO_TIMEOUT -/

/-- No stop comes after an instant at which an armed sequencer is READY (R187, R198). -/
theorem afterStopInstant_of_ready (hstate : stateAt q s k = .ready) (hq : q.state ≠ .idle) : afterStopInstant q k = false := by
  have hidle : (q.state == .idle) = false := beq_false_of_ne hq
  cases harm : q.armSample with
  | none =>
    simp [stateAt, harm] at hstate
  | some m =>
    have hm : ¬ k < m := fun hlt => by simp [stateAt, harm, hlt] at hstate
    cases hstop : q.stopAt <;> simp [afterStopInstant, hstop, hidle, harm, hm]

theorem expiryFirst_of_due (hmode : q.cfg.mode = .auto) (hafter : q.readyAt ≤ expirySample q s)
    (hready : stateAt q s (expirySample q s) = .ready) (hdue : dueAt s (tsOf s (expirySample q s)) q.das ≤ lcNow s) :
    expiryFirst q none s = true := by
  simp [expiryFirst, hmode, hafter, hready, hdue]

/-- The expiry is due and no instant comes first (R193): a segment is cut at the expiry sample. -/
theorem autoTimeout_cuts {e : Nat} (he : expirySample s.seqs[a] s = e) (hfirst : expiryFirst s.seqs[a] none s = true)
    (hstop : afterStopInstant s.seqs[a] e = false) (hqueue : ∀ i ∈ (s.seqs[a]).queue, e < i.kt) :
    autoTimeout a s = (cutSegment a (cutAt s.seqs[a] (tsOf s e) e (s.seqs[a]).cfg.p fAuto false)
      (updAs a (fun q => { q with readyAt := e + 1 }) s)).1 := by
  have hnone : ((s.seqs[a]).queue.any fun i => decide (i.kt ≤ e)) = false :=
    List.any_eq_false.2 fun i hi => by simpa using hqueue i hi
  unfold autoTimeout decideExpiry
  simp only [he, hfirst, hnone, hstop, Bool.not_false, Bool.and_self, if_true, Bool.false_eq_true, if_false]
  rfl

end

/-- AUTO stands in the flags of a segment that an expiry cuts (R220). -/
theorem makeSegment_auto (c : Cut) (n : SeqCounts) (a : Fin 4) (s : State) (h : c.flags = fAuto) :
    ((makeSegment a c n s).1.flags).getLsbD 0 = true := by
  have hbits : ∀ x y : Bool, (BitVec.ofNat 16 (fAuto + flag x 11 + flag y 13)).getLsbD 0 = true := by decide
  change (BitVec.ofNat 16 (c.flags + flag (epochUnsetAt s c.kt) 11 + flag c.ring 13)).getLsbD 0 = true
  rw [h]
  exact hbits ..

/-- Settles O32, from what `startFill`, `leavePost` and `autoTimeout` make of the sequencer. -/
theorem sequencersMoveWithTime : Obligations.SequencersMoveWithTime := by
  intro a s hlive q
  refine ⟨?armStart, ?prefill, ?noPrefill, ?holdoffEnds, ?holdoffLasts, ?segmentEnd, ?auto⟩
  case armStart =>
    intro t0 hstart hdue
    have hexec : exec (.armStart a) s = .next (startFill (firstAt s t0) a s) := by
      refine (exec_live hlive rfl).trans ?_
      change (s.seqs[a]).startAt = some t0 at hstart
      simp only [hstart, if_pos hdue]
    refine ⟨_, hexec, ?_⟩
    by_cases hmode : q.cfg.mode = .continuous
    · obtain ⟨-, c, k, -, hout⟩ := startFill_of_continuous (n := firstAt s t0) hmode
      exact ⟨hout.armSample, hout.startAt, fun _ => hout.post rfl, fun hne => absurd hmode hne⟩
    · have hfill := startFill_of_ne (n := firstAt s t0) hmode
      have hseq : (updAs a (Seq.filling (firstAt s t0)) s).seqs[a] = q.filling (firstAt s t0) := updAs_get _
      rw [hfill, hseq]
      exact ⟨rfl, rfl, fun h => absurd h hmode, fun _ => ⟨rfl, rfl, updAs_congr rfl⟩⟩
  case prefill =>
    intro hfill hready
    refine (exec_live hlive rfl).trans (congrArg _ (if_pos ?_))
    rw [hfill, hready]
    rfl
  case noPrefill =>
    intro hfill
    refine (exec_live hlive rfl).trans (congrArg _ (if_neg ?_))
    rw [beq_false_of_ne hfill]
    exact Bool.false_ne_true
  case holdoffEnds =>
    intro hhold hover
    refine (exec_live hlive rfl).trans (if_pos ?_)
    rw [hhold, hover]
    rfl
  case holdoffLasts =>
    intro hhold hruns
    refine (exec_live hlive rfl).trans (if_neg ?_)
    rw [hhold, hruns]
    exact Bool.false_ne_true
  case segmentEnd =>
    intro k g hopen hseg hleave
    have hexec : exec (.segmentEnd a) s = .next (leavePost a (updAs a (Seq.closing k) s)) :=
      (exec_live hlive rfl).trans (congrArg _ (segmentEnd_leaves hopen hseg hleave))
    have hq : (updAs a (Seq.closing k) s).seqs[a] = q.closing k := updAs_get _
    refine ⟨fun hends => ⟨_, hexec, ?_⟩, fun hstop hcount hmode => ⟨_, hexec, ?_⟩⟩
    · obtain ⟨hstate, hopened, hlast, hwork, hmem⟩ := leavePost_idle (a := a) (s := updAs a (Seq.closing k) s) (by rw [hq]; exact hends)
      rw [hq] at hopened hlast
      exact ⟨hstate, hopened, hlast, (((SeqWork.refl a s).updAs _).trans hwork).others, hmem⟩
    · rw [leavePost_goes (by rw [hq]; exact hstop) (by rw [hq]; exact hcount) (by rw [hq]; exact hmode), updAs_updAs, hq]
      exact ⟨updAs_get _, fun b hb => updAs_get_ne hb _, rfl⟩
  case auto =>
    intro e he hmode hstate hopen hafter hready hdue hqueue hslot hfits
    have hexpiry : expirySample q s = e := he.symm
    subst hexpiry
    have hexec := autoTimeout_cuts rfl (expiryFirst_of_due hmode hafter hready hdue) (afterStopInstant_of_ready hready hstate) hqueue
    obtain ⟨hmem, hwork, refs, hseq⟩ := cutSegment_of_fits (a := a)
      (c := cutAt q (tsOf s (expirySample q s)) (expirySample q s) q.cfg.p fAuto false)
      (s := updAs a (fun x => { x with readyAt := expirySample q s + 1 }) s) hslot (by rw [cutFits_updAs (by rfl) (by rfl)]; exact hfits)
    exact ⟨_, _, (exec_live hlive rfl).trans (congrArg _ hexec), congrArg Mem.segs hmem, congrArg Mem.next hmem, rfl, rfl, rfl, rfl, rfl,
      makeSegment_auto _ _ _ _ rfl, congrArg Seq.state hseq, congrArg Seq.openSeg hseq⟩

end Sys2Proof.Machine
end
section
/-!
SUPPORT. ARM and FORCE (R186, R194).
-/
namespace Sys2Proof.Machine

/-! ### Loops over the sequencers of a mask -/

theorem maskAs_nodup (m : Nat) : (maskAs m).Nodup := (List.nodup_finRange 4).filter _

/-- Turns that touch their own sequencer only leave the others. -/
theorem foldl_seq_of_not_mem {f : State → Fin 4 → State} (hother : ∀ t i b, b ≠ i → (f t i).seqs[b] = t.seqs[b]) {l : List (Fin 4)}
    {a : Fin 4} (ha : a ∉ l) (s : State) : (l.foldl f s).seqs[a] = s.seqs[a] :=
  foldl_frame_mem (·.seqs[a]) f l s fun t i hi => hother t i a fun e => ha (e ▸ hi)

section
variable {a : Fin 4} {s t : State}

/-! ### ARM -/

theorem OnlyCuts.commitSample (h : OnlyCuts s t) : commitSample t = commitSample s := by
  rw [h]
  rfl

theorem OnlyCuts.firstAt (h : OnlyCuts s t) (x : TS96) : firstAt t x = firstAt s x := by
  rw [h]
  rfl

theorem endStop_spec (a : Fin 4) (s : State) : SeqWork a s (endStop a s) ∧ ((endStop a s).seqs[a]).cfg = (s.seqs[a]).cfg := by
  unfold endStop
  split
  · exact ⟨((SeqWork.refl a s).updAs _).trans (raiseAs_work ..), by rw [raiseAs_get, updAs_get]⟩
  · exact ⟨.refl a s, rfl⟩

/-- The sequencer as an ARM finds it after the last stop's event and its own (R186, R198): D_AS is taken anew. -/
def armPrepared (a : Fin 4) (s : State) : State :=
  let v := raiseAs a 0 0 (endStop a s)
  updAs a (fun q => { q with
    das := dAs v q.cfg, built := (exprReach v q.cfg).map fun u => (u, tuDelay v u), segments := 0, cutSinceArm := 0, lastT := none,
    stopPending := none }) v

theorem armPrepared_spec (a : Fin 4) (s : State) : SeqWork a s (armPrepared a s) ∧ ((armPrepared a s).seqs[a]).cfg = (s.seqs[a]).cfg ∧
    ((armPrepared a s).seqs[a]).segments = 0 ∧ ((armPrepared a s).seqs[a]).cutSinceArm = 0 := by
  obtain ⟨hwork, hcfg⟩ := endStop_spec a s
  unfold armPrepared
  extract_lets v
  have hv : v.seqs[a] = { (endStop a s).seqs[a] with counts := SeqCounts.zero } := raiseAs_get ..
  refine ⟨(hwork.trans (raiseAs_work ..)).updAs _, ?_⟩
  rw [updAs_get]
  exact ⟨(congrArg Seq.cfg hv).trans hcfg, rfl, rfl⟩

/-- A sequencer armed at once, at sample `n` (R186). -/
structure ArmedAt (n : Nat) (mode : SeqMode) (q : Seq) : Prop where
  armSample : q.armSample = some n
  fillStart : n ≤ q.fillStart
  continuous : mode = .continuous → q.state = .post
  other : mode ≠ .continuous → q.state = .fill ∧ q.segments = 0 ∧ q.openSeg = none ∧ q.cutSinceArm = 0

theorem armOne_now (a : Fin 4) (s : State) :
    SeqWork a s (armOne none a s) ∧ ArmedAt (Machine.commitSample s) (s.seqs[a]).cfg.mode (armOne none a s).seqs[a] := by
  obtain ⟨hwork, hcfg, hsegments, hcut⟩ := armPrepared_spec a s
  have hcommit := hwork.only.commitSample
  have harm : armOne none a s = startFill (Machine.commitSample (armPrepared a s)) a (armPrepared a s) := rfl
  rw [harm, hcommit, ← hcfg]
  generalize armPrepared a s = v at *
  by_cases hmode : (v.seqs[a]).cfg.mode = .continuous
  · obtain ⟨hopen, c, k, hfirst, hout⟩ := startFill_of_continuous (n := Machine.commitSample s) hmode
    exact ⟨hwork.trans hopen, hout.armSample, hout.le_fillStart hfirst.ge le_rfl, fun _ => hout.post rfl, fun h => absurd hmode h⟩
  · rw [startFill_of_ne hmode]
    refine ⟨hwork.updAs _, ?_⟩
    rw [updAs_get]
    exact ⟨rfl, le_rfl, fun h => absurd h hmode, fun _ => ⟨rfl, hsegments, rfl, hcut⟩⟩

/-- A sequencer armed with START_AT = `x`, whose arm sample is `n` (R186). -/
structure ArmedFor (x : TS96) (n : Nat) (mode : SeqMode) (q : Seq) : Prop where
  startAt : q.startAt = some x
  armSample : q.armSample = some n
  fillStart : q.fillStart = n
  state : q.state = if mode = .continuous then .post else .fill
  segments : q.segments = 0
  cutSinceArm : q.cutSinceArm = 0
  openSeg : q.openSeg = none

theorem armOne_later (x : TS96) (a : Fin 4) (s : State) :
    SeqWork a s (armOne (some x) a s) ∧ ArmedFor x (Machine.firstAt s x) (s.seqs[a]).cfg.mode (armOne (some x) a s).seqs[a] := by
  obtain ⟨hwork, hcfg, hsegments, hcut⟩ := armPrepared_spec a s
  have hfirst := hwork.only.firstAt x
  have harm : armOne (some x) a s = updAs a (fun q => { q with
      state := if q.cfg.mode == .continuous then .post else .fill, armSample := some (Machine.firstAt (armPrepared a s) x), startAt := some x,
      fillStart := Machine.firstAt (armPrepared a s) x, readyAt := Machine.firstAt (armPrepared a s) x, openSeg := none, lastSeg := none,
      holdEnd := 0, holdSeen := 0, nextOpen := none }) (armPrepared a s) := rfl
  rw [harm, hfirst, ← hcfg]
  refine ⟨hwork.updAs _, ?_⟩
  rw [updAs_get]
  exact ⟨rfl, rfl, rfl, by simp, hsegments, hcut, rfl⟩

theorem armOne_work (start : Option TS96) (a : Fin 4) (s : State) : SeqWork a s (armOne start a s) := by
  cases start with
  | none => exact (armOne_now a s).1
  | some x => exact (armOne_later x a s).1

/-- Every sequencer that ARM names is armed in a state with the commit sample and the mapping of the command's. -/
theorem foldl_armOne (start : Option TS96) {l : List (Fin 4)} (hnodup : l.Nodup) (ha : a ∈ l) (s : State) : ∃ t, OnlyCuts s t ∧
    t.seqs[a] = s.seqs[a] ∧ (l.foldl (fun s a => armOne start a s) s).seqs[a] = (armOne start a t).seqs[a] := by
  obtain ⟨t, honly, hseq, hturn, -⟩ := foldl_turn (p := (·.seqs[a])) (r := OnlyCuts) OnlyCuts.refl OnlyCuts.trans hnodup ha
    (fun t i hi => (armOne_work start i t).others a (Ne.symm hi)) (fun t i => (armOne_work start i t).only) s
  exact ⟨t, honly, hseq, hturn⟩

theorem foldl_armOne_other (start : Option TS96) {l : List (Fin 4)} (ha : a ∉ l) (s : State) :
    (l.foldl (fun s a => armOne start a s) s).seqs[a] = s.seqs[a] :=
  foldl_seq_of_not_mem (fun t i b hb => (armOne_work start i t).others b hb) ha s

/-- The arm sample that ARM reports (R186). -/
def armSampleFor (start : Option TS96) (s : State) : Nat :=
  match start with
  | none => Machine.commitSample s
  | some x => Machine.firstAt s x

/-- ARM is accepted (R186). -/
theorem armCmd_ok {c : Call} (hnamed : ∀ a ∈ maskAs (arg1 c 0x18), (s.seqs[a]).configured = true ∧ armed s.seqs[a] = false)
    (harmed : s.tb.state ≠ .armed) (hpending : s.tb.state ≠ .pending) {start : Option TS96}
    (hstart : (if bit (arg1 c 0x19) 0 then some (argTs c 0x20) else none) = start)
    (htime : (start.any fun x => decide (tsDiff x (tsNow s) < 65536 * 40 * tick)) = false) :
    armCmd c s = .ok ((maskAs (arg1 c 0x18)).foldl (fun s a => armOne start a s) s) (le 8 (armSampleFor start s)) := by
  have hconf : ((maskAs (arg1 c 0x18)).any fun a => !(s.seqs[a]).configured) = false :=
    List.any_eq_false.2 fun a ha => by rw [(hnamed a ha).1]; decide
  have hidle : ((maskAs (arg1 c 0x18)).any fun a => armed s.seqs[a]) = false :=
    List.any_eq_false.2 fun a ha => by rw [(hnamed a ha).2]; decide
  unfold armCmd
  simp only [hstart, hconf, htime, hidle, beq_false_of_ne harmed, beq_false_of_ne hpending, Bool.or_self, Bool.false_eq_true, if_false]
  rfl

/-! ### FORCE -/

/-- The force instant stands in the queue of every sequencer that FORCE names (R194). -/
theorem foldl_force {l : List (Fin 4)} (hnodup : l.Nodup) (k : Nat) (w : Option (Nat × W32)) (s : State) :
    let t := l.foldl (fun t a => pushInstant a 0 (tsOf t k) k .force PlaceFlags.none w t) s
    t = { s with seqs := t.seqs } ∧ (∀ a : Fin 4, a ∉ l → t.seqs[a] = s.seqs[a]) ∧
      ∀ a ∈ l, t.seqs[a] = (s.seqs[a]).pushed [instantFor s.seqs[a] 0 (tsOf s k) k .force PlaceFlags.none w] := by
  have hother : ∀ t i b, b ≠ i → (pushInstant i 0 (tsOf t k) k .force PlaceFlags.none w t).seqs[b] = t.seqs[b] := fun t i b hb =>
    updAs_get_ne hb _
  refine ⟨?_, fun a ha => foldl_seq_of_not_mem hother ha s, fun a ha => ?_⟩
  · refine foldl_keeps (fun t => t = { s with seqs := t.seqs }) _ l s (fun t i h => ?_) rfl
    rw [pushInstant_eq, updAs, h]
  · obtain ⟨t, hbefore, hseq, hturn, -⟩ := foldl_turn (p := (·.seqs[a])) (r := fun s t => tsOf t k = tsOf s k) (fun _ => rfl)
      (fun h k => k.trans h) hnodup ha (fun t i hi => hother t i a (Ne.symm hi)) (fun _ _ => rfl) s
    rw [hturn, pushInstant_eq, updAs_get, hseq, hbefore]

end

end Sys2Proof.Machine
end
section
/-!
SUPPORT. Stops (R196 to R198, R400): what a stopped sequencer still decides, the open segment, and the STOP message.
-/
namespace Sys2Proof.Machine

/-! ### What a stopped sequencer decides -/

/-- A sequencer that a stop at sample `n` has taken to IDLE (R197). -/
structure Seq.Stopped (n : Nat) (q : Seq) : Prop where
  state : q.state = .idle
  startAt : q.startAt = none
  stopAt : q.stopAt = some n

section
variable {n kt : Nat} {q : Seq} {a b : Fin 4} {s t u : State}

theorem Seq.Stopped.not_armed (h : q.Stopped n) : armed q = false := by simp [armed, h.state, h.startAt]

theorem Seq.Stopped.afterStop (h : q.Stopped n) (hlt : kt < n) : afterStopInstant q kt = true := by
  simp [afterStopInstant, h.stopAt, h.state, hlt]

theorem Seq.Stopped.stateAt_idle (h : q.Stopped n) (hle : n ≤ kt) (s : State) : stateAt q s kt = .idle := by
  unfold stateAt
  split
  · rfl
  · rw [if_pos (.inr (by simp [stoppedBy, h.state, h.stopAt, hle]))]

/-- An instant that the stop does not discard finds the sequencer idle. -/
theorem Seq.Stopped.idle_or (h : q.Stopped n) (kt : Nat) (s : State) : afterStopInstant q kt = true ∨ stateAt q s kt = .idle :=
  (Nat.lt_or_ge kt n).imp h.afterStop (h.stateAt_idle · s)

/-- `t` differs from `s` at most in what discarded instants of sequencer `a` leave: its queue and counts, the expiry that is decided, and the
completions of FORCE commands (R194, R198). -/
structure Discards (a : Fin 4) (s t : State) : Prop where
  only : t = { s with hostMem := t.hostMem, seqs := t.seqs, hif := { s.hif with qps := t.hif.qps, vecs := t.hif.vecs } }
  others : ∀ b : Fin 4, b ≠ a → t.seqs[b] = s.seqs[b]
  seq : ∃ queue counts readyAt, t.seqs[a] = { s.seqs[a] with queue := queue, counts := counts, readyAt := readyAt }

theorem Discards.refl (a : Fin 4) (s : State) : Discards a s s := ⟨rfl, fun _ _ => rfl, _, _, _, rfl⟩

theorem Discards.trans (h : Discards a s t) (k : Discards a t u) : Discards a s u := by
  obtain ⟨honly, hothers, _, _, _, hseq⟩ := h
  obtain ⟨konly, kothers, queue, counts, readyAt, kseq⟩ := k
  refine ⟨?_, fun b hb => (kothers b hb).trans (hothers b hb), queue, counts, readyAt, ?_⟩
  · rw [konly, honly]
  · rw [kseq, hseq]

theorem Discards.stopped (h : Discards a s t) (hs : (s.seqs[a]).Stopped n) : (t.seqs[a]).Stopped n := by
  obtain ⟨-, -, _, _, _, hseq⟩ := h
  rw [hseq]
  exact ⟨hs.state, hs.startAt, hs.stopAt⟩

/-- The queue of the sequencer, its counts and its expiry change. -/
theorem discards_updAs {f : Seq → Seq}
    (hf : ∃ queue counts readyAt, f s.seqs[a] = { s.seqs[a] with queue := queue, counts := counts, readyAt := readyAt }) :
    Discards a s (updAs a f s) := by
  obtain ⟨queue, counts, readyAt, hf⟩ := hf
  exact ⟨rfl, fun b hb => updAs_get_ne hb f, queue, counts, readyAt, (updAs_get f).trans hf⟩

/-- `t` differs from `s` at most in what a completion writes (R348, R352). -/
def OnlyCompletes (s t : State) : Prop :=
  t = { s with hostMem := t.hostMem, hif := { s.hif with qps := t.hif.qps, vecs := t.hif.vecs } }

theorem OnlyCompletes.discards (h : OnlyCompletes s t) : Discards a s t := by
  have hseqs : t.seqs = s.seqs := by rw [h]
  refine ⟨?_, fun b _ => seq_of_seqs hseqs b, (s.seqs[a]).queue, (s.seqs[a]).counts, (s.seqs[a]).readyAt, seq_of_seqs hseqs a⟩
  rw [hseqs]
  exact h

theorem forceOutcome_completes (w : Option (Nat × W32)) (a : Fin 4) (code : Byte) (s : State) :
    OnlyCompletes s (forceOutcome w a code s) := by
  unfold forceOutcome
  split
  · rfl
  split
  · extract_lets qp
    split
    · extract_lets result left v
      split
      · exact (finish_frame ..).trans rfl
      · rfl
    · rfl
  · rfl

theorem forceOutcome_discards (w : Option (Nat × W32)) (code : Byte) : Discards a s (forceOutcome w a code s) :=
  (forceOutcome_completes w a code s).discards

theorem updCounts_discards (f : SeqCounts → SeqCounts) : Discards a s (updCounts a f s) := discards_updAs ⟨_, _, _, rfl⟩

section
variable (h : (s.seqs[a]).Stopped n)
include h

theorem decideTrigger_discards (i : Instant) : Discards a s (decideTrigger a i s) := by
  unfold decideTrigger
  extract_lets q
  split
  · exact updCounts_discards _
  next hafter =>
    split
    · rw [classifyLate]
      simp only [h.not_armed, Bool.not_false, Bool.true_or, if_true]
      exact updCounts_discards _
    · rw [classify_idle ((h.idle_or i.kt s).resolve_left hafter)]
      exact .refl a s

omit h in
theorem classifyForce_discards (i : Instant) (hidle : stateAt s.seqs[a] s i.kt = .idle) : Discards a s (classifyForce a i s) := by
  unfold classifyForce
  simp only [hidle]
  exact forceOutcome_discards ..

theorem decideExpiry_discards (k : Option Nat) (hexpiry : expiryFirst s.seqs[a] k s = true) : Discards a s (decideExpiry a s) := by
  have hready : stateAt s.seqs[a] s (expirySample s.seqs[a] s) = .ready := by
    simp only [expiryFirst, Bool.and_eq_true, beq_iff_eq] at hexpiry
    exact hexpiry.1.1.2
  have hafter := (h.idle_or (expirySample s.seqs[a] s) s).resolve_right fun hidle => by
    rw [hidle] at hready
    cases hready
  unfold decideExpiry
  extract_lets q e v
  rw [if_pos hafter]
  exact (discards_updAs ⟨_, _, _, rfl⟩).trans (updCounts_discards _)

/-- A stopped sequencer discards what it decides (R198). -/
theorem seqDecide_discards : Discards a s (seqDecide a s) := by
  have hqueue : ∀ g : List Instant → List Instant, Discards a s (updAs a (fun q => { q with queue := g q.queue }) s) :=
    fun g => discards_updAs ⟨_, _, _, rfl⟩
  unfold seqDecide
  extract_lets q
  split
  · exact .refl a s
  next i hi =>
    split
    next hexpiry => exact decideExpiry_discards h _ hexpiry
    next =>
      split
      case h_1 =>
        extract_lets group v
        have hv : Discards a s v := hqueue fun l => l.filter fun x => !isTermAt i.kt i.late x
        split
        · exact hv.trans (decideTrigger_discards (hv.stopped h) _)
        · exact hv
      case h_2 =>
        have hv := hqueue fun l => l.erase i
        exact hv.trans (decideTrigger_discards (hv.stopped h) _)
      case h_3 =>
        extract_lets v
        have hv : Discards a s v := hqueue fun l => l.erase i
        split
        · exact (hv.trans (updCounts_discards _)).trans (forceOutcome_discards ..)
        next hafter =>
          have hidle : stateAt q s i.kt = .idle := (h.idle_or i.kt s).resolve_left hafter
          refine hv.trans (classifyForce_discards i ?_)
          rw [updAs_get]
          exact hidle

theorem autoTimeout_discards : Discards a s (autoTimeout a s) := by
  unfold autoTimeout
  extract_lets q
  split
  next hexpiry => exact decideExpiry_discards h _ (Bool.and_eq_true_iff.1 hexpiry).1
  next => exact .refl a s

end

theorem decideAll_discards (k : Nat) : ∀ {s : State}, (s.seqs[a]).Stopped n → Discards a s (decideAll a k s) := by
  induction k with
  | zero => exact fun _ => .refl a _
  | succ k ih => exact fun h => (seqDecide_discards h).trans (ih ((seqDecide_discards h).stopped h))

end

/-! ### The open segment -/

theorem truncate_truncate (n : Nat) (g : Segment) : truncate n (truncate n g) = truncate n g := by
  cases n with
  | zero => simp [truncate, BitVec.or_assoc]
  | succ n => simp [truncate]

theorem findSeg_updSeg {f : Segment → Segment} (hf : ∀ g, (f g).seq = g.seq) (k j : Nat) (s : State) :
    findSeg (updSeg k f s) j = (findSeg s j).map fun g => if g.seq = k then f g else g := by
  have hseq : ((fun g : Segment => decide (g.seq = j)) ∘ fun g => if g.seq = k then f g else g) = fun g => decide (g.seq = j) := by
    funext g
    dsimp only [Function.comp]
    split
    · rw [hf]
    · rfl
  exact (List.find?_map ..).trans (by rw [hseq]; rfl)

/-- `t` differs from `s` at most in what stops leave that take effect at the present commit sample (R197): their
sequencers, open segments that are cut short, and completions of FORCE commands. -/
structure Stops (s t : State) : Prop where
  only : t = { s with
    hostMem := t.hostMem, seqs := t.seqs, mem := { s.mem with segs := t.mem.segs },
    hif := { s.hif with qps := t.hif.qps, vecs := t.hif.vecs } }
  segs : ∀ k, findSeg t k = findSeg s k ∨ findSeg t k = (findSeg s k).map (truncate (commitSample s))

section
variable {a b : Fin 4} {n k : Nat} {s t u : State}

theorem Stops.commitSample (h : Stops s t) : commitSample t = commitSample s := by
  rw [h.only]
  rfl

theorem Stops.refl (s : State) : Stops s s := ⟨rfl, fun _ => .inl rfl⟩

theorem Stops.trans (h : Stops s t) (k : Stops t u) : Stops s u := by
  have hn := h.commitSample
  obtain ⟨honly, hsegs⟩ := h
  obtain ⟨konly, ksegs⟩ := k
  refine ⟨by rw [konly, honly], fun j => ?_⟩
  rw [hn] at ksegs
  rcases hsegs j with hj | hj
  · rw [← hj]
    exact ksegs j
  · refine .inr ?_
    have htwice : (findSeg t j).map (truncate (Machine.commitSample s)) = findSeg t j := by
      rw [hj, Option.map_map]
      exact congrArg (Option.map · _) (funext fun g => truncate_truncate _ g)
    rw [← hj]
    rcases ksegs j with kj | kj
    · exact kj
    · exact kj.trans htwice

theorem Discards.stops (h : Discards a s t) : Stops s t := by
  have honly := h.only
  exact ⟨by rw [honly], fun k => .inl (by rw [honly]; rfl)⟩

theorem stops_updAs (f : Seq → Seq) : Stops s (updAs a f s) := ⟨rfl, fun _ => .inl rfl⟩

/-- What a stop at sample `n` makes of its sequencer, with D_AS taken anew (R197). -/
def Seq.closedAt (n das : Nat) (q : Seq) : Seq :=
  { q with state := .idle, das := das, startAt := none, stopPending := none, stopAt := some n, nextOpen := none,
           lastSeg := match q.openSeg with | some g => some g | none => q.lastSeg, openSeg := none,
           fillStart := if q.openSeg.isSome then min q.fillStart n else q.fillStart }

/-- The open segment of a sequencer that a stop closes, which ends before the commit sample (R197). -/
def closeSegment (a : Fin 4) (n : Nat) (s : State) : State :=
  match (s.seqs[a]).openSeg.bind (findSeg s) with
  | some g => if n ≤ g.last then updSeg g.seq (truncate n) s else s
  | none => s

theorem closeSegment_stops : Stops s (closeSegment a (Machine.commitSample s) s) := by
  unfold closeSegment
  split
  next g hg =>
    split
    · refine ⟨rfl, fun j => ?_⟩
      rw [findSeg_updSeg (f := truncate _) fun _ => rfl]
      cases hj : findSeg s j with
      | none => exact .inl rfl
      | some x =>
        by_cases hx : x.seq = g.seq
        · exact .inr (congrArg some (if_pos hx))
        · exact .inl (congrArg some (if_neg hx))
    · exact .refl s
  next => exact .refl s

theorem closeSegment_findSeg {g : Segment} (hopen : (s.seqs[a]).openSeg = some k) (hseg : findSeg s k = some g) :
    findSeg (closeSegment a n s) k = some (if n ≤ g.last then truncate n g else g) := by
  unfold closeSegment
  simp only [hopen, Option.bind_some, hseg]
  split
  · rw [findSeg_updSeg (f := truncate _) fun _ => rfl, hseg, Option.map_some, if_pos rfl]
  · exact hseg

theorem closeSegment_seqs : (closeSegment a n s).seqs = s.seqs := by
  unfold closeSegment
  split
  · split <;> rfl
  · rfl

theorem stopClose_eq (a : Fin 4) (n : Nat) (s : State) :
    stopClose a n s = updAs a (fun q => q.closedAt n (dAs (closeSegment a n s) q.cfg)) (closeSegment a n s) := rfl

/-! ### One sequencer stops -/

/-- A stop at the commit sample has taken the sequencer `q` to IDLE, for the event of the lc with cause `cause` (R197, R198). -/
structure StoppedFor (n cause : Nat) (q r : Seq) : Prop extends r.Stopped n where
  openSeg : r.openSeg = none
  stopEvent : q.stopEvent = none → r.stopEvent = some (cause, 0)

theorem stopNow_spec (a : Fin 4) (cause : Nat) (s : State) :
    let t := stopNow a (Machine.commitSample s) cause 0 s
    Stops s t ∧ (∀ b : Fin 4, b ≠ a → t.seqs[b] = s.seqs[b]) ∧ StoppedFor (Machine.commitSample s) cause s.seqs[a] t.seqs[a] ∧
      t.mem = (closeSegment a (Machine.commitSample s) s).mem := by
  intro t
  have hseqs := closeSegment_seqs (a := a) (n := Machine.commitSample s) (s := s)
  have hclosed : (stopClose a (Machine.commitSample s) s).seqs[a] =
      (s.seqs[a]).closedAt (Machine.commitSample s) (dAs (closeSegment a (Machine.commitSample s) s) (s.seqs[a]).cfg) := by
    rw [stopClose_eq, updAs_get, seq_of_seqs hseqs]
  have hstopped : ((stopClose a (Machine.commitSample s) s).seqs[a]).Stopped (Machine.commitSample s) := by
    rw [hclosed]
    exact ⟨rfl, rfl, rfl⟩
  have hall := decideAll_discards ((stopClose a (Machine.commitSample s) s).seqs[a]).queue.length hstopped
  have hdiscards := hall.trans (autoTimeout_discards (hall.stopped hstopped))
  have ht : t = holdStop a cause 0 _ := rfl
  generalize autoTimeout a (decideAll a _ _) = x at hdiscards ht
  refine ⟨?_, fun b hb => ?_, ?_, ?_⟩
  · exact ht ▸ (closeSegment_stops.trans (stops_updAs _)).trans (hdiscards.stops.trans (stops_updAs _))
  · rw [ht, holdStop, updAs_get_ne hb, hdiscards.others b hb, stopClose_eq, updAs_get_ne hb, seq_of_seqs hseqs]
  · obtain ⟨-, -, queue, counts, readyAt, hseq⟩ := hdiscards
    rw [ht, holdStop, updAs_get, hseq, hclosed]
    exact ⟨⟨rfl, rfl, rfl⟩, rfl, fun hnone => by simp only [Seq.closedAt, hnone]⟩
  · rw [ht]
    exact (congrArg State.mem hdiscards.only).trans rfl

/-- A stop on a sequencer waits for the end of its open segment (R197). -/
def stopWaits (after : Bool) (q : Seq) : Bool := after && q.state == .post && q.startAt.isNone

theorem armed_of_stopWaits {after : Bool} {q : Seq} (h : stopWaits after q = true) : armed q = true := by
  simp only [stopWaits, Bool.and_eq_true, beq_iff_eq] at h
  rw [armed, h.1.2]
  rfl

theorem stopSeq_of_not_armed {cause : Nat} {after : Bool} (h : armed s.seqs[a] = false) :
    ∃ e, stopSeq cause after a s = updAs a (fun q => { q with stopEvent := e }) s ∧ ((s.seqs[a]).stopEvent = none → e = none) := by
  unfold stopSeq
  simp only [h, Bool.not_false, if_true]
  split
  next hsome =>
    refine ⟨_, rfl, fun hnone => ?_⟩
    rw [hnone] at hsome
    cases hsome
  next hnone => exact ⟨(s.seqs[a]).stopEvent, (updAs_id rfl).symm, id⟩

theorem stopSeq_of_waits {cause : Nat} {after : Bool} (h : stopWaits after s.seqs[a] = true) :
    stopSeq cause after a s = updAs a (fun q => { q with stopPending := some cause }) s := by
  unfold stopSeq
  simp only [armed_of_stopWaits h, Bool.not_true, Bool.false_eq_true, if_false]
  exact if_pos h

theorem stopSeq_of_armed {cause : Nat} {after : Bool} (harmed : armed s.seqs[a] = true) (h : stopWaits after s.seqs[a] = false) :
    stopSeq cause after a s = stopNow a (Machine.commitSample s) cause 0 s := by
  unfold stopSeq
  simp only [harmed, Bool.not_true, Bool.false_eq_true, if_false]
  exact if_neg (Bool.eq_false_iff.1 h)

theorem stopSeq_stops (cause : Nat) (after : Bool) (a : Fin 4) (s : State) :
    Stops s (stopSeq cause after a s) ∧ ∀ b : Fin 4, b ≠ a → (stopSeq cause after a s).seqs[b] = s.seqs[b] := by
  cases harmed : armed s.seqs[a] with
  | false =>
    obtain ⟨e, hstop, -⟩ := stopSeq_of_not_armed (cause := cause) (after := after) harmed
    rw [hstop]
    exact ⟨stops_updAs _, fun b hb => updAs_get_ne hb _⟩
  | true =>
    cases hwaits : stopWaits after s.seqs[a] with
    | true =>
      rw [stopSeq_of_waits hwaits]
      exact ⟨stops_updAs _, fun b hb => updAs_get_ne hb _⟩
    | false =>
      obtain ⟨hstops, hothers, -⟩ := stopNow_spec a cause s
      rw [stopSeq_of_armed harmed hwaits]
      exact ⟨hstops, hothers⟩

/-! ### Several sequencers stop -/

/-- The sequencers of `l` stop one after another. -/
def stopEach (cause : Nat) (after : Bool) (l : List (Fin 4)) (s : State) : State := l.foldl (fun s a => stopSeq cause after a s) s

/-- What the turn of sequencer `a` makes of it, a loop of stops makes of it. -/
theorem stopEach_turn (cause : Nat) (after : Bool) {l : List (Fin 4)} (hnodup : l.Nodup) (ha : a ∈ l) (s : State) :
    ∃ t, Stops s t ∧ t.seqs[a] = s.seqs[a] ∧
      (stopEach cause after l s).seqs[a] = (stopSeq cause after a t).seqs[a] ∧
      Stops (stopSeq cause after a t) (stopEach cause after l s) :=
  foldl_turn (p := (·.seqs[a])) Stops.refl Stops.trans hnodup ha (fun t i hi => (stopSeq_stops cause after i t).2 a (Ne.symm hi))
    (fun t i => (stopSeq_stops cause after i t).1) s

theorem stopEach_stops (cause : Nat) (after : Bool) (l : List (Fin 4)) (s : State) :
    Stops s (stopEach cause after l s) :=
  foldl_keeps (Stops s) _ l s (fun t i h => h.trans (stopSeq_stops cause after i t).1) (.refl s)

theorem stopEach_other (cause : Nat) (after : Bool) {l : List (Fin 4)} (ha : a ∉ l) (s : State) :
    (stopEach cause after l s).seqs[a] = s.seqs[a] :=
  foldl_seq_of_not_mem (fun t i b hb => (stopSeq_stops cause after i t).2 b hb) ha s

section
variable {cause : Nat} {after : Bool} {l : List (Fin 4)} (hnodup : l.Nodup) (ha : a ∈ l)
include hnodup ha

theorem stopEach_stopped (harmed : armed s.seqs[a] = true) (h : stopWaits after s.seqs[a] = false) :
    StoppedFor (Machine.commitSample s) cause s.seqs[a] (stopEach cause after l s).seqs[a] := by
  obtain ⟨t, hbefore, hseq, hturn, -⟩ := stopEach_turn cause after hnodup ha s
  rw [← hseq] at harmed h ⊢
  rw [hturn, stopSeq_of_armed harmed h, ← hbefore.commitSample]
  exact (stopNow_spec a cause t).2.2.1

theorem stopEach_waits (h : stopWaits after s.seqs[a] = true) :
    (stopEach cause after l s).seqs[a] = { s.seqs[a] with stopPending := some cause } := by
  obtain ⟨t, -, hseq, hturn, -⟩ := stopEach_turn cause after hnodup ha s
  rw [← hseq] at h ⊢
  rw [hturn, stopSeq_of_waits h, updAs_get]

/-- An armed sequencer's open segment ends before the commit sample (R197). -/
theorem stopEach_findSeg (harmed : armed s.seqs[a] = true) (h : stopWaits after s.seqs[a] = false) {g : Segment}
    (hopen : (s.seqs[a]).openSeg = some k) (hseg : findSeg s k = some g) (hlast : Machine.commitSample s ≤ g.last) :
    findSeg (stopEach cause after l s) k = some (truncate (Machine.commitSample s) g) := by
  obtain ⟨t, hbefore, hseq, -, hafter⟩ := stopEach_turn cause after hnodup ha s
  have hn := hbefore.commitSample
  rw [← hseq] at harmed h hopen
  have hturn : findSeg (stopSeq cause after a t) k = some (truncate (Machine.commitSample s) g) := by
    rw [stopSeq_of_armed harmed h, findSeg, (stopNow_spec a cause t).2.2.2, ← findSeg, hn]
    rcases hbefore.segs k with hk | hk
    · rw [closeSegment_findSeg hopen (hk.trans hseg), if_pos hlast]
    · rw [closeSegment_findSeg hopen (hk.trans (congrArg _ hseg)), truncate_truncate, ite_self]
  rcases hafter.segs k with hk | hk
  · rw [hk, hturn]
  · rw [hk, hturn, (stopSeq_stops cause after a t).1.commitSample, hn, Option.map_some, truncate_truncate]

end

theorem stopEach_not_armed {cause : Nat} {after : Bool} {l : List (Fin 4)} (hnodup : l.Nodup) (harmed : armed s.seqs[a] = false) :
    let t := stopEach cause after l s
    t.seqs[a] = { s.seqs[a] with stopEvent := (t.seqs[a]).stopEvent } ∧ ((s.seqs[a]).stopEvent = none → t.seqs[a] = s.seqs[a]) := by
  intro t
  by_cases ha : a ∈ l
  · obtain ⟨v, -, hseq, hturn, -⟩ := stopEach_turn cause after hnodup ha s
    rw [← hseq] at harmed ⊢
    obtain ⟨e, hstop, hnone⟩ := stopSeq_of_not_armed (cause := cause) (after := after) harmed
    have ht : t.seqs[a] = { v.seqs[a] with stopEvent := e } := by
      rw [hturn, hstop, updAs_get]
    rw [ht]
    refine ⟨rfl, fun h => ?_⟩
    rw [hnone h, ← h]
  · have ht : t.seqs[a] = s.seqs[a] := stopEach_other cause after ha s
    exact ⟨by rw [ht], fun _ => ht⟩

/-! ### The STOP message (R400) -/

theorem raiseStop_quiet (received : Bool) (origin : Nat) (urgent : Bool) (x : TS96) : Safety.Quiet s (raiseStop received origin urgent x s) :=
  raise_quiet ..

theorem OnlyBrim.quiet (h : OnlyBrim s t) (k : Safety.Quiet t u) : OnlyBrim s u := by
  unfold OnlyBrim Safety.Quiet at *
  rw [k, h]

theorem sendStop_onlyBrim (x : TS96) (urgent : Bool) (s : State) : OnlyBrim s (sendStop x urgent s) := by
  have hflood : ∀ f, OnlyBrim s (flood 0x02 0 x (flag urgent 0) [] (updBrim f s)) := fun f => .trans (by rfl) (flood_onlyBrim ..)
  unfold sendStop
  split
  · exact (hflood _).quiet (raiseStop_quiet ..)
  · exact OnlyBrim.updBrim (by rfl) _

end

end Sys2Proof.Machine
end
section
/-!
SUPPORT and the proof of O31: STOP, HIF_URGENT_STOP and RETRO_CAPTURE (R195 to R198, R217, R377), with ARM and FORCE (R186, R194).
-/
namespace Sys2Proof.Machine

section
variable {a : Fin 4} {c : Call} {s : State}

/-! ### STOP -/

/-- The sequencers that STOP names have stopped (R196, R197). -/
def stopsNamed (c : Call) (s : State) : State :=
  stopEach 2 (arg1 c 0x19 == 1) (maskAs (arg1 c 0x18)) s

theorem stopCmd_ok (hmode : arg1 c 0x19 ≤ 1) (hscope : arg1 c 0x1A ≤ 1) : stopCmd c s =
    .ok (if arg1 c 0x1A = 1 then sendStop (tsOf (stopsNamed c s) (commitSample s)) false (stopsNamed c s) else stopsNamed c s)
      (le 8 (commitSample s)) := by
  unfold stopCmd
  rw [if_neg (not_lt.2 hmode), if_neg (not_lt.2 hscope)]
  rfl

/-- With SCOPE 1 the STOP message leaves as well, which changes no sequencer (R400). -/
theorem stopsNamed_seqs (x : TS96) :
    (if arg1 c 0x1A = 1 then sendStop x false (stopsNamed c s) else stopsNamed c s).seqs = (stopsNamed c s).seqs := by
  by_cases hscope : arg1 c 0x1A = 1
  · rw [if_pos hscope]
    exact (sendStop_onlyBrim x false (stopsNamed c s)).told.seqs
  · rw [if_neg hscope]

theorem stopsNamed_stops (c : Call) (s : State) : Stops s (stopsNamed c s) := stopEach_stops ..

theorem Stops.ev {t : State} (h : Stops s t) : t.hif.ev = s.hif.ev := by rw [h.only]

/-- What the statement says of a stop that leaves with no message. -/
theorem Stops.only_events {t : State} (h : Stops s t) : t = { s with
    hostMem := t.hostMem, seqs := t.seqs, mem := { s.mem with segs := t.mem.segs },
    hif := { s.hif with qps := t.hif.qps, vecs := t.hif.vecs, ev := t.hif.ev } } := by
  rw [h.ev]
  exact h.only

theorem not_stopWaits {after : Bool} {q : Seq} (h : after = false ∨ q.state ≠ .post ∨ q.startAt ≠ none) : stopWaits after q = false := by
  rcases h with rfl | h | h
  · rfl
  · simp [stopWaits, h]
  · simp [stopWaits, Option.ne_none_iff_isSome.1 h]

/-! ### HIF_URGENT_STOP -/

/-- HIF_URGENT_STOP has been written (R377). -/
def urgentSeen (s : State) : State := { s with hif := { s.hif with urgentSeen := true } }

/-- Every sequencer stops by HIF_URGENT_STOP (R377). -/
def stopsAll (s : State) : State := stopEach 3 false (List.finRange 4) (urgentSeen s)

theorem stopsAll_stops (s : State) : Stops (urgentSeen s) (stopsAll s) := stopEach_stops ..

theorem Stops.urgentSeen {t : State} (h : Stops s t) : t.hif.urgentSeen = s.hif.urgentSeen := by rw [h.only]

theorem OnlyBrim.urgentSeen {t : State} (h : OnlyBrim s t) : t.hif.urgentSeen = s.hif.urgentSeen := by rw [h]

theorem findSeg_of_mem {t : State} (h : t.mem = s.mem) (k : Nat) : findSeg t k = findSeg s k := by rw [findSeg, findSeg, h]

theorem urgentStop_eq {v : W32} (hv : v.getLsbD 0 = true) : urgentStop v s =
    if v.getLsbD 1 then sendStop (tsOf (stopsAll s) (commitSample s)) true (stopsAll s) else stopsAll s := if_pos hv

theorem urgentStop_onlyBrim {v : W32} (hv : v.getLsbD 0 = true) : OnlyBrim (stopsAll s) (urgentStop v s) := by
  rw [urgentStop_eq hv]
  generalize stopsAll s = t
  split
  · exact sendStop_onlyBrim ..
  · rfl

/-- What HIF_URGENT_STOP makes of the sequencers and of their open segments (R197, R377). -/
theorem urgentStop_spec {v : W32} (hv : v.getLsbD 0 = true) :
    let t := urgentStop v s
    t.hif.urgentSeen = true ∧ (∀ a : Fin 4, armed s.seqs[a] = true → StoppedFor (commitSample s) 3 s.seqs[a] t.seqs[a]) ∧
      (∀ a : Fin 4, armed s.seqs[a] = false → t.seqs[a] = { s.seqs[a] with stopEvent := (t.seqs[a]).stopEvent } ∧
        ((s.seqs[a]).stopEvent = none → t.seqs[a] = s.seqs[a])) ∧
      (∀ (a : Fin 4) k g, armed s.seqs[a] = true → (s.seqs[a]).openSeg = some k → findSeg s k = some g → commitSample s ≤ g.last →
        findSeg t k = some (truncate (commitSample s) g)) := by
  intro t
  have hbrim : OnlyBrim (stopsAll s) t := urgentStop_onlyBrim hv
  have hnodup := List.nodup_finRange 4
  have hseq : ∀ a : Fin 4, t.seqs[a] = (stopsAll s).seqs[a] := hbrim.told.seq
  refine ⟨hbrim.urgentSeen.trans (stopsAll_stops s).urgentSeen, fun a harmed => ?_, fun a harmed => ?_, fun a k g harmed hopen hseg hlast => ?_⟩
  · rw [hseq]
    exact stopEach_stopped (s := urgentSeen s) hnodup (List.mem_finRange a) harmed rfl
  · rw [hseq]
    exact stopEach_not_armed (s := urgentSeen s) hnodup harmed
  · exact (findSeg_of_mem hbrim.told.mem k).trans
      (stopEach_findSeg (s := urgentSeen s) hnodup (List.mem_finRange a) harmed rfl hopen hseg hlast)

/-! ### FORCE -/

/-- The force instants of a FORCE of queue pair `n` have been queued (R194). -/
def forced (n : Fin 64) (c : Call) (s : State) : State :=
  (maskAs (arg1 c 0x18 % 16)).foldl (fun t a => pushInstant a 0 (tsOf t (commitSample s)) (commitSample s) .force PlaceFlags.none
    (some (n.val, BitVec.ofNat 32 (fieldAt c.desc 0x04 4))) t) s

theorem forceCmd_none {n : Option (Fin 64)} (h : arg1 c 0x18 % 16 = 0) : forceCmd n c s = .ok s (le 8 (commitSample s)) := if_pos h

theorem forceCmd_some {n : Fin 64} (h : arg1 c 0x18 % 16 ≠ 0) : forceCmd (some n) c s =
    .start (forced n c s) (.wait (arg1 c 0x18 % 16)) (pad 16 (le 8 (commitSample s))) := by
  unfold forceCmd
  rw [if_neg h]
  rfl

/-! ### RETRO_CAPTURE -/

/-- The segment that RETRO_CAPTURE cuts (R195, R217). -/
def retroSegment (a : Fin 4) (x : TS96) (kt : Nat) (s : State) : Segment :=
  (makeSegment a (cutAt s.seqs[a] x kt (s.seqs[a]).cfg.p fRetro true) SeqCounts.zero s).1

/-- The segment has joined memory. -/
def retroAdded (a : Fin 4) (x : TS96) (kt : Nat) (s : State) : State := addSegment (retroSegment a x kt s) (fresh s).2

theorem retroAdded_mem (x : TS96) (kt : Nat) : (retroAdded a x kt s).mem =
    { s.mem with segs := retroSegment a x kt s :: s.mem.segs, next := s.mem.next + 1 } := rfl

theorem retroAdded_work (x : TS96) (kt : Nat) : Safety.Quiet { s with mem := (retroAdded a x kt s).mem } (retroAdded a x kt s) := by
  have hfresh := fresh_quiet s
  unfold Safety.Quiet at *
  rw [retroAdded, addSegment, hfresh]

/-- A cut told of in state `v`, its sequencer's gaps counted anew. -/
theorem updAs_raiseCut {v : State} (f : Seq → Seq) (g : Segment) (h : Safety.Quiet { s with mem := v.mem } v) :
    let t := updAs a f (raiseCut a g v)
    t.mem = v.mem ∧ t.seqs[a] = f s.seqs[a] ∧ (∀ b : Fin 4, b ≠ a → t.seqs[b] = s.seqs[b]) ∧
      Safety.Quiet { s with seqs := t.seqs, mem := t.mem } t := by
  have hcut := raiseCut_quiet a v g
  have hseq : ∀ b : Fin 4, (raiseCut a g v).seqs[b] = s.seqs[b] := fun b => (seq_of_quiet hcut b).trans (seq_of_quiet h b)
  generalize raiseCut a g v = w at *
  refine ⟨(told_of_quiet hcut).mem, (updAs_get f).trans (congrArg f (hseq a)), fun b hb => (updAs_get_ne hb f).trans (hseq b), ?_⟩
  unfold Safety.Quiet updAs at *
  rw [hcut, h]

theorem triggerSample_of_some {x : TS96} {k : Nat} (h : triggerSampleIn s.tb.maps none x = some k) : triggerSample s x = k := by
  rw [triggerSample, h]
  rfl

theorem fin_of_eq_val {x m : Nat} {i : Fin m} (h : x = i.val) : (if h : x < m then some (⟨x, h⟩ : Fin m) else none) = some i := by
  subst h
  exact dif_pos i.isLt

section
variable {kt : Nat} (hunit : arg1 c 0x18 = a.val) (hconf : (s.seqs[a]).configured = true) (hon : histOn s.mem = true)
  (hchannels : (s.seqs[a]).cfg.channels &&& s.mem.histChannels = (s.seqs[a]).cfg.channels)
  (hfuture : ¬ 2 ^ 40 * tick < tsDiff (argTs c 0x20) (tsNow s)) (hbusy : retroBusy s a.val < 4)
  (hkt : triggerSampleIn s.tb.maps none (argTs c 0x20) = some kt)
include hunit hconf hon hchannels hfuture hbusy hkt

/-- T lies before O (R217). -/
theorem retroCmd_early (hearly : kt < histO s.mem) : retroCmd c s = refuse stRange 0 := by
  unfold retroCmd
  simp only [fin_of_eq_val hunit, hconf, hon, hchannels, triggerSample_of_some hkt, hkt, if_neg hfuture, if_neg (not_le.2 hbusy), hearly,
    bne_self_eq_false, Bool.not_true, Bool.or_self, Bool.false_eq_true, if_false, decide_true, Bool.or_true, if_true]

theorem retroCmd_cuts (hlate : histO s.mem + (s.seqs[a]).cfg.p ≤ kt) (hslot : slotBlocked s.mem s.mem.next = none)
    (hfits : cutFits a (cutAt s.seqs[a] (argTs c 0x20) kt (s.seqs[a]).cfg.p fRetro true) s s.mem = true) :
    retroCmd c s = .ok (updAs a (fun q => { q with gapCount := 0 })
      (raiseCut a (retroSegment a (argTs c 0x20) kt s) (retroAdded a (argTs c 0x20) kt s)))
      (le 8 s.mem.next ++ le 5 (s.seqs[a]).cfg.p ++ [0]) := by
  have hring : ¬ kt < histO s.mem := by omega
  have hwhole : ¬ kt < histO s.mem + (s.seqs[a]).cfg.p := by omega
  unfold retroCmd
  simp only [fin_of_eq_val hunit, hconf, hon, hchannels, triggerSample_of_some hkt, hkt, if_neg hfuture, if_neg (not_le.2 hbusy), hring,
    hwhole, bne_self_eq_false, Bool.not_true, Bool.or_self, Bool.false_eq_true, if_false, decide_false, Option.isNone_some, hslot, Nat.add_zero, hfits, if_true]
  rfl

end

end

/-! ### The commands -/

section
variable {n : Fin 64} {g : Fetched} {s : State}

/-- ARM's part of O31. -/
theorem exec_arm (hcommits : Safety.Commits n 0x0020 g s) :
    let c := Safety.callOf g []
    (∀ a ∈ maskAs (arg1 c 0x18), (s.seqs[a]).configured = true ∧ armed s.seqs[a] = false) → s.tb.state ≠ .armed → s.tb.state ≠ .pending →
    ∀ start : Option TS96, (if bit (arg1 c 0x19) 0 then some (argTs c 0x20) else none) = start →
    (start.any fun x => decide (tsDiff x (tsNow s) < 65536 * 40 * tick)) = false →
    exec (.arm (.host n)) s = .next (Safety.succeeds n g 0x0020 [] (le 8 (armSampleFor start s))
      ((maskAs (arg1 c 0x18)).foldl (fun s a => armOne start a s) s)) :=
  fun hnamed harmed hpending _ hstart htime =>
    (exec_live hcommits.runs rfl).trans (congrArg _ (runCmd_ok hcommits noDeps (armCmd_ok hnamed harmed hpending hstart htime)))

/-- STOP's part of O31. -/
theorem exec_stop (hcommits : Safety.Commits n 0x0021 g s) (hmode : arg1 (Safety.callOf g []) 0x19 ≤ 1)
    (hscope : arg1 (Safety.callOf g []) 0x1A ≤ 1) : ∃ t, exec (.stop (.host n)) s =
      .next (Safety.succeeds n g 0x0021 [] (le 8 (commitSample s)) t) ∧ t.seqs = (stopsNamed (Safety.callOf g []) s).seqs ∧
      (arg1 (Safety.callOf g []) 0x1A = 0 → t = stopsNamed (Safety.callOf g []) s) :=
  ⟨_, (exec_live hcommits.runs rfl).trans (congrArg _ (runCmd_ok hcommits noDeps (stopCmd_ok hmode hscope))), stopsNamed_seqs _,
    fun hown => if_neg (by rw [hown]; decide)⟩

theorem exec_force (hcommits : Safety.Commits n 0x0022 g s) :
    exec (.force (.host n)) s = .next (runCmd (.host n) 0x0022 [] noDeps (forceCmd (some n)) s) := exec_live hcommits.runs rfl

theorem exec_retroCapture (hcommits : Safety.Commits n 0x0023 g s) :
    exec (.retroCapture (.host n)) s = .next (runCmd (.host n) 0x0023 [] noDeps retroCmd s) := exec_live hcommits.runs rfl

end

/-- Settles O31, by what a turn of `armOne`, `stopSeq` and `pushInstant` makes of its sequencer, and by the cut of RETRO_CAPTURE. -/
theorem acquisitionCommands : Obligations.AcquisitionCommands := by
  refine ⟨⟨?arm, ?stop, ?urgent⟩, ?force, ?retro⟩
  case arm =>
    intro n g s hcommits c hnamed harmed hpending
    have hexec := exec_arm hcommits hnamed harmed hpending
    have hnodup := maskAs_nodup (arg1 c 0x18)
    refine ⟨fun hnow => ⟨_, hexec none (if_neg (by rw [hnow]; exact Bool.false_ne_true)) rfl, fun a ha => ?now,
        fun a ha => foldl_armOne_other none ha s⟩,
      fun hlater htime => ⟨_, hexec (some (argTs c 0x20)) (if_pos hlater) ?inTime, fun a ha => ?later,
        fun a ha => foldl_armOne_other _ ha s⟩⟩
    case now =>
      obtain ⟨t, honly, hseq, hturn⟩ := foldl_armOne none hnodup ha s
      obtain ⟨-, harmedAt⟩ := armOne_now a t
      rw [hseq, honly.commitSample, ← hturn] at harmedAt
      exact ⟨harmedAt.armSample, harmedAt.fillStart, harmedAt.continuous, harmedAt.other⟩
    case inTime =>
      rw [Option.any_some]
      push_cast at htime
      exact decide_eq_false (not_lt.2 htime)
    case later =>
      obtain ⟨t, honly, hseq, hturn⟩ := foldl_armOne (some (argTs c 0x20)) hnodup ha s
      obtain ⟨-, harmedFor⟩ := armOne_later (argTs c 0x20) a t
      rw [hseq, honly.firstAt, ← hturn] at harmedFor
      exact ⟨harmedFor.startAt, harmedFor.armSample, harmedFor.fillStart, harmedFor.state, harmedFor.segments, harmedFor.cutSinceArm,
        harmedFor.openSeg⟩
  case stop =>
    intro n g s hcommits c hmode hscope
    obtain ⟨t, hexec, hseqs, hown⟩ := exec_stop hcommits hmode hscope
    have hnodup := maskAs_nodup (arg1 c 0x18)
    have hseq : ∀ a : Fin 4, t.seqs[a] = (stopsNamed c s).seqs[a] := seq_of_seqs hseqs
    refine ⟨t, hexec, fun a ha harmed hnow => ?stopped, fun a ha hafter hpost hstart => ?waits, fun a ha => ?other,
      fun a harmed => ?idle, fun h => ?frame⟩
    case stopped =>
      have hgoes : stopWaits (arg1 c 0x19 == 1) s.seqs[a] = false := not_stopWaits (hnow.imp_left fun h => by rw [h]; rfl)
      have hstopped := stopEach_stopped (cause := 2) hnodup ha harmed hgoes
      rw [hseq]
      exact ⟨hstopped.state, hstopped.startAt, hstopped.stopAt, hstopped.openSeg, hstopped.stopEvent⟩
    case waits =>
      rw [hseq]
      exact stopEach_waits hnodup ha (by rw [stopWaits, hafter, hpost, hstart]; rfl)
    case other =>
      rw [hseq]
      exact stopEach_other _ _ ha s
    case idle =>
      rw [hseq]
      exact stopEach_not_armed hnodup harmed
    case frame =>
      rw [hown h]
      exact (stopsNamed_stops ..).only_events
  case urgent =>
    intro v s hreached
    have hexec : exec (.urgentStop v) s = .next (urgentStop v s) := whenReachable_reachable hreached _
    refine ⟨fun hv => ?_, fun hv => hexec.trans (congrArg _ (if_neg (by rw [hv]; exact Bool.false_ne_true)))⟩
    obtain ⟨hseen, hstopped, hidle, hsegment⟩ := urgentStop_spec (s := s) hv
    refine ⟨urgentStop v s, hexec, hseen, fun a harmed => ?_, hidle, hsegment⟩
    have h := hstopped a harmed
    exact ⟨h.state, h.stopAt, h.openSeg, h.stopEvent⟩
  case force =>
    intro n g s hcommits m
    refine ⟨fun hnone => ?none, fun hsome => ?some⟩
    case none =>
      exact (exec_force hcommits).trans (congrArg _ (runCmd_ok hcommits noDeps (forceCmd_none hnone)))
    case some =>
      obtain ⟨honly, hother, hpushed⟩ := foldl_force (maskAs_nodup m) (commitSample s)
        (some (n.val, BitVec.ofNat 32 (fieldAt (Safety.callOf g []).desc 0x04 4))) s
      exact ⟨_, (exec_force hcommits).trans (congrArg _ (runCmd_start hcommits noDeps (forceCmd_some hsome))), honly, hother,
        fun a ha => ⟨_, hpushed a ha, rfl, rfl, rfl⟩⟩
  case retro =>
    intro n g a kt s hcommits c q hunit hconf hon hchannels hnear hbusy hkt
    have hfuture : ¬ 2 ^ 40 * tick < tsDiff (argTs c 0x20) (tsNow s) := by
      push_cast at hnear
      exact not_lt.2 hnear
    refine ⟨fun hearly => ?early, fun hlate hslot hfits => ?cuts⟩
    case early =>
      exact (exec_retroCapture hcommits).trans (congrArg _ (runCmd_refuse hcommits noDeps
        (retroCmd_early hunit hconf hon hchannels hfuture hbusy hkt hearly) (by decide)))
    case cuts =>
      have hcut := retroCmd_cuts hunit hconf hon hchannels hfuture hbusy hkt hlate hslot hfits
      obtain ⟨hmem, hseq, hothers, hquiet⟩ := updAs_raiseCut (a := a) (fun q => { q with gapCount := 0 })
        (retroSegment a (argTs c 0x20) kt s) (retroAdded_work (a := a) (s := s) (argTs c 0x20) kt)
      exact ⟨_, retroSegment a (argTs c 0x20) kt s, (exec_retroCapture hcommits).trans (congrArg _ (runCmd_ok hcommits noDeps hcut)),
        hmem.trans (retroAdded_mem ..), hseq, hothers, hquiet, rfl, rfl, rfl, rfl, rfl, rfl, rfl, rfl, rfl, rfl, rfl⟩

end Sys2Proof.Machine
end
section
/-!
The refutation of O27: an accepted SET_SERVICE gives a pair without a reserve one again (R305, R307, log 151), which the statement's
clause on SET_SERVICE leaves out.
-/
namespace Sys2Proof.Machine

theorem eq_ok_of_toOption {α ε : Type} {x : Except ε α} {a : α} (h : x.toOption = some a) : x = .ok a := by
  cases x with
  | ok b => exact congrArg Except.ok (Option.some.inj h)
  | error _ => cases h

/-! ### A SET_SERVICE that finds a pair without a reserve -/

/-- SET_SERVICE with TAG 7 and a block of 184 bytes (R351, R357). -/
def measureDesc : List Byte := patch (patch (patch (patch (List.replicate 64 0) 0 (le 2 0x17)) 4 (le 4 7)) 8 (le 8 4096)) 0x10 (le 4 184)

/-- Its descriptor as queue pair 0 holds it. -/
def measureFetched : Fetched :=
  { desc := measureDesc, tag := 7, opcode := 0x17, fence := false, committed := false, xfer := none, result := [] }

/-- MEASURE on channel 0 of sequencer 0 at 1 million records/s, with no limits (R325). -/
def measureSettings : MsCfg :=
  { channel := 0, refChannel := 0xFF, low := 10, mid := 50, high := 90, hyst := 0, maxRate := 1000000, limits := List.replicate 4 (0xFF, 0, 0) }

/-- The block that enables service 8 with these settings (R312, R325). -/
def measureBlock : List Byte :=
  le 2 2 ++ le 1 8 ++ le 1 1 ++ le 4 0x00010000 ++ le 4 184 ++ List.replicate 20 0 ++
    [0, 0xFF, 10, 50, 90, 0, 1000000, 0xFF, 0, 0, 0xFF, 0, 0, 0xFF, 0, 0, 0xFF, 0, 0].flatMap (le 8)

/-- Proofing is over, and every pair has its reserve but pair 7, whose engine 255 has been retired (R305 to R307). Sequencer 0 is configured and has a
capture region, and queue pair 0 is to commit the SET_SERVICE. -/
def reserveLost : State :=
  let s := { State.reset with
    boot := { State.reset.boot with stage := .main, ready := true, reached := true, mainRunning := true, pmcRunning := true }
    proof := { State.reset.proof with active := false, step := 0, endSample := some 0 }
    eng := { State.reset.eng with
      retired := [255], reserve := Vector.ofFn fun p : Fin 8 => if p = 7 then none else some (32 * p.val + 31) }
    mem := { State.reset.mem with capSize := #v[992, 0, 0, 0] } }
  updAs 0 (fun q => { q with configured := true, cfg := { SeqCfg.reset with channels := 1, l := 64, autoNs := 1000, lateAllow := 0 } })
    (updQp 0 (fun q => { q with
      enable := true, state := .running, fetched := [measureFetched],
      history := [{ tag := 7, state := .queued, attempt := 1, comp := none, written := none }] }) s)

/-- The engines that service 8 is given. -/
def measureEngines : List Nat :=
  let s : State := { reserveLost with freeCtr := reserveLost.freeCtr + 1 }
  ((freeEngines s 8).foldl (fun acc e => insertEngine reserveLost.freeCtr e acc) []).take
    (instEngines s (fsMilli s) (8 : Fin 16).val (.measure measureSettings))

/-- The state that the statement gives to the accepted command, its completion apart. -/
def measureGiven : State :=
  updEng (fun e => { e with moving := e.moving.filter fun m => m.2.2 != 8 })
    (withService 8 (some (.measure measureSettings)) (BitVec.ofNat 32 (fieldAt measureBlock 4 4)) measureEngines
      { reserveLost with freeCtr := reserveLost.freeCtr + 1 })

theorem reserveLost_commits : Safety.Commits 0 0x0017 measureFetched reserveLost :=
  ⟨by decide +kernel, by decide +kernel, by decide +kernel, by decide +kernel, by decide +kernel, by decide +kernel, by decide +kernel⟩

theorem parseService_measureBlock : parseService reserveLost 8 measureBlock = .ok (.measure measureSettings) :=
  eq_ok_of_toOption (by decide +kernel)

/-- Every budget is kept (R313). -/
theorem measureGiven_admitted :
    let s : State := { reserveLost with freeCtr := reserveLost.freeCtr + 1 }
    admission [0x01, 0x02, 0x05, 0x06, 0x08, 0x09, 0x0A] 8 (dasMoved s measureGiven) s measureGiven = none ∧
      raisesArmed s measureGiven = false := by
  decide +kernel

/-! ### What the command leaves -/

/-- A service enabled, with every budget kept (R313). -/
theorem setService_ok {c : Call} {s : State} {i : Fin 16} {cfg : SvcCfg} {engines : List Nat} {t : State}
    (hheader : serviceHeader c.block = true) (hitem : fieldAt c.block 2 1 = i.val) (henable : fieldAt c.block 3 1 = 1)
    (hparse : parseService s i.val c.block = .ok cfg) (hsteady : (fresh s).2.upd.state ≠ .activating) (hbusy : serviceBusy (fresh s).2 i = false)
    (hengines : ((freeEngines (fresh s).2 i).foldl (fun acc e => insertEngine (fresh s).1 e acc) []).take
      (instEngines (fresh s).2 (fsMilli (fresh s).2) i.val cfg) = engines)
    (ht : updEng (fun g => { g with moving := g.moving.filter fun m => m.2.2 != i.val })
      (withService i (some cfg) (BitVec.ofNat 32 (fieldAt c.block 4 4)) engines (fresh s).2) = t)
    (hadmitted : admission [0x01, 0x02, 0x05, 0x06, 0x08, 0x09, 0x0A] i.val (dasMoved (fresh s).2 t) (fresh s).2 t = none)
    (hraises : raisesArmed (fresh s).2 t = false) :
    setService c s = .ok (refillReserves t) (serviceResult (fresh s).2 i.val (some cfg)) := by
  have hi : Fin.ofNat 16 (fieldAt c.block 2 1) = i := by
    rw [hitem]
    exact Fin.ofNat_val_eq_self i
  have himage : newSvc (fresh s).2 = none := by
    rw [newSvc, beq_false_of_ne hsteady]
    rfl
  unfold setService
  simp only [hheader, hi, henable, hparse, hengines, ht, himage, admitted, hadmitted, hbusy, hraises, Except.map, Bool.not_true, Bool.or_self,
    Bool.false_eq_true, if_false, if_true, Option.isNone_some]

theorem exec_setService {n : Fin 64} {g : Fetched} {block result : List Byte} {s t : State} (hcommits : Safety.Commits n 0x0017 g s)
    (h : setService (Safety.callOf g block) s = .ok t result) :
    exec (.setService (.host n) block) s = .next (Safety.succeeds n g 0x0017 block result t) :=
  (exec_live hcommits.runs rfl).trans (congrArg _ (runCmd_ok hcommits serviceDeps h))

/-- Where proofing is over, a pair without a reserve gets one unless each of its engines is retired or assigned (R305, R307). -/
theorem refillReserves_eq_none {s : State} (hproof : s.proof.active = false) {p : Fin 8} (h : (refillReserves s).eng.reserve[p] = none) {k : Nat}
    (hk : k < 32) : s.eng.retired.contains (32 * p.val + 31 - k) = true ∨ assigned s (32 * p.val + 31 - k) = true := by
  unfold refillReserves at h
  rw [hproof, if_neg Bool.false_ne_true] at h
  simp only [updEng, Fin.getElem_fin, Vector.getElem_ofFn] at h
  split at h
  · cases h
  · have hnone := List.find?_eq_none.1 h _ (List.mem_map_of_mem (List.mem_range.2 hk))
    simpa [or_iff_not_imp_left] using hnone

theorem setService_measureBlock :
    ∃ result, setService (Safety.callOf measureFetched measureBlock) reserveLost = .ok (refillReserves measureGiven) result :=
  ⟨_, setService_ok (i := 8) (by decide +kernel) (by decide +kernel) (by decide +kernel) parseService_measureBlock
    (by decide +kernel) (by decide +kernel) rfl rfl measureGiven_admitted.1 measureGiven_admitted.2⟩

/-- The service is given two engines. -/
theorem measureEngines_length : measureEngines.length ≤ 2 :=
  (List.length_take_le ..).trans (by decide +kernel)

theorem measureGiven_engines (i : Fin 16) : (measureGiven.insts[i]).engines = [] ∨ (measureGiven.insts[i]).engines = measureEngines := by
  by_cases hi : i = 8
  · subst hi
    exact .inr (congrArg Inst.engines (upd_get ..))
  · refine .inl ((congrArg Inst.engines (upd_get_ne _ _ _ _ hi)).trans ?_)
    have hidle : ∀ i : Fin 16, (reserveLost.insts[i]).engines = [] := by decide +kernel
    exact hidle i

/-- No engine is assigned but those that service 8 is given. -/
theorem mem_measureEngines {e : Nat} (h : assigned measureGiven e = true) : e ∈ measureEngines := by
  have hmoving : measureGiven.eng.moving = [] := by decide +kernel
  rw [assigned, hmoving, List.any_nil, Bool.or_false, servedBy, List.find?_isSome] at h
  obtain ⟨i, -, hi⟩ := h
  rcases measureGiven_engines i with hnone | hsome
  · rw [hnone] at hi
    cases hi
  · rw [hsome] at hi
    exact List.contains_iff_mem.1 hi

/-- Two engines cannot be all that pair 7 has left: it gets a reserve. -/
theorem refillReserves_measureGiven : (refillReserves measureGiven).eng.reserve[(7 : Fin 8)] ≠ none := by
  intro h
  have hproof : measureGiven.proof.active = false := by decide +kernel
  have hretired : measureGiven.eng.retired = [255] := by decide +kernel
  have hgiven : ∀ e ∈ [254, 253, 252], e ∈ measureEngines := by
    intro e he
    have hpair : e ≠ 255 ∧ 255 - (255 - e) = e ∧ 255 - e < 32 := by
      fin_cases he <;> decide
    obtain ⟨hne, heq, hlt⟩ := hpair
    have hused := refillReserves_eq_none hproof h hlt
    rw [hretired, show 32 * (7 : Fin 8).val + 31 - (255 - e) = e from heq] at hused
    refine mem_measureEngines (hused.resolve_left ?_)
    simpa using hne
  have hlength := (List.subperm_of_subset (by decide) hgiven).length_le
  exact absurd (hlength.trans measureEngines_length) (by decide)

/-! ### The statement's next state -/

theorem noteSetting_eng (op : Nat) (desc block : List Byte) (s : State) : (noteSetting op desc block s).eng = s.eng := by
  unfold noteSetting
  dsimp only
  split_ifs <;> rfl

theorem succeeds_eng (n : Fin 64) (g : Fetched) (op : Nat) (block result : List Byte) (s : State) :
    (Safety.succeeds n g op block result s).eng = s.eng := by
  rw [Safety.succeeds, finish_frame]
  exact noteSetting_eng ..

theorem measureGiven_reserve : measureGiven.eng.reserve[(7 : Fin 8)] = none := by
  decide +kernel

/-- Refutes O27: its clause on SET_SERVICE says the whole next state and leaves out that an accepted SET_SERVICE gives a pair without a
reserve one again from the engines that are left (R305, R307, log 151). Enabling MEASURE while pair 7 has no reserve makes one of that pair's engines its reserve. -/
theorem not_settingCommands : ¬ Obligations.SettingCommands := by
  intro h
  obtain ⟨-, -, -, hservice, -⟩ := h
  obtain ⟨henable, -⟩ := hservice 0 measureFetched measureBlock 8 reserveLost reserveLost_commits
    (by decide +kernel) (by decide +kernel) (by decide +kernel) (by decide +kernel)
  obtain ⟨hadmitted, hraises⟩ := measureGiven_admitted
  obtain ⟨hclaimed, -⟩ := henable (.measure measureSettings) measureEngines (by decide +kernel) parseService_measureBlock rfl hadmitted hraises
  obtain ⟨result, hdone⟩ := setService_measureBlock
  have hsame := congrArg State.eng (Host.Outcome.next.inj ((exec_setService reserveLost_commits hdone).symm.trans hclaimed))
  rw [succeeds_eng, succeeds_eng] at hsame
  refine refillReserves_measureGiven ?_
  rw [hsame]
  exact measureGiven_reserve

end Sys2Proof.Machine
end

section
/-!
SUPPORT and the proof of O49: what the in-service test reports (R431, R432), and what a read of the scrub marks and counts (R237 to R242).
-/
namespace Sys2Proof.Machine

/-! ### Reports of the in-service test (R432) -/

/-- `t` differs from `s` at most in the health block and events, and its failure bits are `failed`. -/
structure Tested (failed : Byte) (s t : State) : Prop where
  only : Safety.Quiet { s with health := t.health } t
  bits : t.health.istFailed = failed

namespace Tested
variable {f g : Byte} {s t u : State}

theorem refl (s : State) : Tested s.health.istFailed s s := ⟨quiet_refl s, rfl⟩

theorem mem (h : Tested f s t) : t.mem = s.mem := by rw [h.only]

theorem slices (h : Tested f s t) : t.slices = s.slices := by rw [h.only]

theorem quiet (h : Tested f s t) (k : Safety.Quiet t u) : Tested f s u := by
  have hhealth : u.health = t.health := by rw [k]
  refine ⟨?_, by rw [hhealth, h.bits]⟩
  rw [hhealth]
  exact quiet_trans h.only k

/-- An update of the health block that gives the failure bits `g`. -/
theorem updHealth (h : Tested f s t) {k : Health → Health} (hbits : (k t.health).istFailed = g) : Tested g s (updHealth k t) := by
  refine ⟨?_, hbits⟩
  have honly := h.only
  unfold Safety.Quiet at *
  rw [honly]
  rfl

theorem ite {p : Prop} [Decidable p] (h : Tested f s t) (k : Tested g s u) : Tested (if p then f else g) s (if p then t else u) := by
  split
  · exact h
  · exact k

theorem istFail (h : Tested f s t) (item : Fin 8) : Tested (f ||| BitVec.ofNat 8 (2 ^ item.val)) s (istFail item t) :=
  h.updHealth (by rw [h.bits])

theorem istCycle (h : Tested f s t) : Tested f s (istCycle t) := by
  unfold Machine.istCycle
  dsimp only
  split_ifs
  · exact (h.updHealth h.bits).quiet (raiseNow_quiet ..)
  · exact h

theorem istPart (h : Tested f s t) (item : Fin 8) (part : Nat) : Tested f s (istPart item part t) := by
  unfold Machine.istPart
  dsimp only
  split
  · exact (h.updHealth h.bits).istCycle
  · exact h.updHealth h.bits

/-- A read that may be the last of its pass (log 61). -/
theorem read (h : Tested f s t) (item : Fin 8) :
    Tested f s (if Config.freeBit (fresh t).1 then Machine.istPart item 0 (fresh t).2 else (fresh t).2) := by
  have hfresh := h.quiet (fresh_quiet t)
  split
  · exact hfresh.istPart item 0
  · exact hfresh

end Tested

section
variable {s : State}

theorem scrubRepair_health (stack : Fin 4) (lane : Bool) (index : Nat) : (scrubRepair stack lane index s).health =
    { s.health with repairs := (stack.val, lane, index) :: s.health.repairs, istFailed := s.health.istFailed ||| 4 } := raiseNow_health ..

theorem scrubRepair_tested (stack : Fin 4) (lane : Bool) (index : Nat) :
    Tested (s.health.istFailed ||| 4) s (scrubRepair stack lane index s) :=
  have hadded : Tested s.health.istFailed s (updHealth (fun h => { h with repairs := (stack.val, lane, index) :: h.repairs }) s) :=
    (Tested.refl s).updHealth rfl
  (hadded.istFail 2).quiet (raiseNow_quiet ..)

theorem istSerdes_tested (lane : Fin 32) (v h : Nat) :
    Tested (if v < 20 ∨ h < 150 then s.health.istFailed ||| 32 else s.health.istFailed) s (istSerdes lane v h s) :=
  have hpart := (Tested.refl s).istPart 5 lane.val
  ((hpart.istFail 5).quiet (raiseNow_quiet ..)).ite hpart

theorem istSyns_tested (fs : Nat) :
    Tested (if 200 < fs then s.health.istFailed ||| 64 else s.health.istFailed) s (istSyns fs s) :=
  have hpart := (Tested.refl s).istPart 6 0
  ((hpart.istFail 6).quiet (raiseNow_quiet ..)).ite hpart

theorem mramScrub_tested (bad : Option Nat) :
    Tested (if bad.isSome then s.health.istFailed ||| 128 else s.health.istFailed) s (mramScrub bad s) := by
  cases bad with
  | none => exact (Tested.refl s).read 7
  | some a => exact (((Tested.refl s).istFail 7).quiet (raiseNow_quiet ..)).read 7

section
variable {item : Fin 8}

theorem istStarved_first (h : s.health.istStarved.getLsbD item.val = false) : istStarved item s =
    raiseNow 0xFD sevNotice [BitVec.ofNat 8 item.val]
      (updHealth (fun x => { x with istStarved := x.istStarved ||| BitVec.ofNat 8 (2 ^ item.val) }) s) := by
  unfold istStarved
  rw [h]
  rfl

theorem istStarved_health (h : s.health.istStarved.getLsbD item.val = false) : (istStarved item s).health =
    { s.health with istStarved := s.health.istStarved ||| BitVec.ofNat 8 (2 ^ item.val) } := by
  rw [istStarved_first h]
  exact raiseNow_health ..

theorem istStarved_tested (h : s.health.istStarved.getLsbD item.val = false) : Tested s.health.istFailed s (istStarved item s) := by
  rw [istStarved_first h]
  refine .quiet ?_ (raiseNow_quiet ..)
  exact (Tested.refl s).updHealth rfl

theorem istStarved_again (h : s.health.istStarved.getLsbD item.val = true) : istStarved item s = s := by
  unfold istStarved
  rw [h]
  rfl

end

/-! ### Corrected and uncorrectable reads (R237, R239) -/

/-- Memory's counts after an uncorrectable read. -/
def Mem.uncorrectable (m : Mem) : Mem :=
  { m with uncorr := statAdd m.uncorr 1, uncorrOvf := m.uncorrOvf || statSticks m.uncorr 1, uncorrSeen := true }

theorem eccCorrected_quiet : Safety.Quiet
    { s with mem := { s.mem with corr := statAdd s.mem.corr 1, corrOvf := s.mem.corrOvf || statSticks s.mem.corr 1 } } (eccCorrected s) := by
  unfold eccCorrected
  dsimp only
  split
  · exact raiseNow_quiet ..
  · exact quiet_refl _

theorem eccUncorrectable_quiet : Safety.Quiet { s with mem := s.mem.uncorrectable } (eccUncorrectable s) := by
  unfold eccUncorrectable
  dsimp only
  split
  · exact raiseNow_quiet ..
  · exact quiet_refl _

@[simp] theorem eccUncorrectable_mem : (eccUncorrectable s).mem = s.mem.uncorrectable := by rw [eccUncorrectable_quiet]

@[simp] theorem eccUncorrectable_slices : (eccUncorrectable s).slices = s.slices := by rw [eccUncorrectable_quiet]

@[simp] theorem eccUncorrectable_proof : (eccUncorrectable s).proof = s.proof := by rw [eccUncorrectable_quiet]

@[simp] theorem raiseEcc_mem (sev cause ch which sn : Nat) : (raiseEcc sev cause ch which sn s).mem = s.mem := raiseNow_mem ..

@[simp] theorem raiseEcc_slices (sev cause ch which sn : Nat) : (raiseEcc sev cause ch which sn s).slices = s.slices :=
  raiseNow_slices ..

theorem statAdd_statAdd (c j k : Nat) : statAdd (statAdd c j) k = statAdd c (j + k) := by
  unfold statAdd
  omega

/-! ### The block of a lost sample (R240) -/

theorem storeQual_mem (b : Nat) (q : Byte) (l : List (Nat × Byte)) : ∃ x ∈ storeQual b q l, x.1 = b := by
  unfold storeQual
  split
  · next h =>
    obtain ⟨x, hx, hb⟩ := List.any_eq_true.1 h
    have hb : x.1 = b := of_decide_eq_true hb
    exact ⟨_, List.mem_map_of_mem hx, by rw [if_pos hb, hb]⟩
  · exact ⟨_, List.mem_cons_self .., rfl⟩

/-- Whatever is stored for a block holds the bits joined to it. -/
theorem storeQual_bit {b i : Nat} {q : Byte} (hq : q.getLsbD i = true) {l : List (Nat × Byte)} {x : Nat × Byte}
    (hx : x ∈ storeQual b q l) (hb : x.1 = b) : x.2.getLsbD i = true := by
  unfold storeQual at hx
  split at hx
  · obtain ⟨y, -, rfl⟩ := List.mem_map.1 hx
    by_cases hy : y.1 = b
    · simp [hy, hq]
    · rw [if_neg hy] at hb
      exact absurd hb hy
  · next h =>
    rcases List.mem_cons.1 hx with rfl | hx
    · exact hq
    · exact absurd (List.any_eq_true.2 ⟨x, hx, decide_eq_true hb⟩) h

theorem markSample_mem (ch : Fin 8) (sn back : Nat) : (markSample ch sn back s).mem =
    { s.mem with segs := s.mem.segs.map (markSeg (s.proof.era - back) ch.val (sn / 4096)) } := by
  unfold markSample mapSegs
  dsimp only
  split <;> rfl

theorem markSample_slices_present (ch : Fin 8) (sn : Nat) : (markSample ch sn 0 s).slices =
    upd s.slices ch fun x => { x with qual := storeQual (sn / 4096) 0x40 x.qual } := rfl

theorem markSample_slices_past (ch : Fin 8) (sn : Nat) {back : Nat} (h : back ≠ 0) : (markSample ch sn back s).slices = s.slices := by
  unfold markSample
  dsimp only
  rw [if_neg h]
  rfl

/-! ### The scrub (R242, R431) -/

theorem scrubRead_good {r : ScrubRead} {x : ScrubResult} (h : r.found = x) (hx : x = .clean ∨ x = .corrected) :
    Tested (scrubbed x s).health.istFailed (scrubbed x s) (scrubRead r s) := by
  unfold scrubRead
  rw [h]
  rcases hx with rfl | rfl
  · exact (Tested.refl _).read 2
  · exact (Tested.refl _).read 2

/-- A location that cannot be corrected fails the item. -/
theorem scrubRead_bad {r : ScrubRead} {x : ScrubResult} (h : r.found = x) (hclean : x ≠ .clean) (hcorrected : x ≠ .corrected) :
    (scrubRead r s).mem = (scrubbed x s).mem ∧ (scrubRead r s).slices = (scrubbed x s).slices ∧
    (scrubRead r s).health.istFailed.getLsbD 2 = true := by
  have htested : Tested ((scrubbed x s).health.istFailed ||| 4) (scrubbed x s) (scrubRead r s) := by
    unfold scrubRead
    dsimp only
    rw [h]
    split
    · exact absurd rfl hclean
    · exact absurd rfl hcorrected
    · exact (((Tested.refl _).quiet (raiseNow_quiet ..)).istFail 2).read 2
  refine ⟨htested.mem, htested.slices, ?_⟩
  rw [htested.bits, BitVec.getLsbD_or]
  exact Bool.or_true _

end

/-- Settles O49: a read of the scrub leaves what `scrubbed` makes of the state, past the reports of `Tested`; the other items only report. -/
theorem inServiceTest : Obligations.InServiceTest := by
  intro s hlive
  refine ⟨fun r => ⟨fun h => ?_, fun h => ?_, fun ch sn back h => ?_, fun h => ?_, fun seq h => ?_⟩,
    fun stack lane index => ⟨_, exec_live hlive rfl, scrubRepair_health .., (scrubRepair_tested ..).only⟩,
    fun lane v h hwf => ⟨_, (exec_live hlive rfl).trans (if_pos hwf), (istSerdes_tested ..).bits, (istSerdes_tested ..).only⟩,
    fun fs => ⟨_, exec_live hlive rfl, (istSyns_tested ..).bits, (istSyns_tested ..).only⟩,
    fun bad => ⟨_, exec_live hlive rfl, (mramScrub_tested ..).bits, (mramScrub_tested ..).only⟩,
    fun item => ⟨fun h => ⟨_, exec_live hlive rfl, istStarved_health h, (istStarved_tested h).only⟩,
      fun h => (exec_live hlive rfl).trans (by rw [istStarved_again h])⟩⟩
  all_goals refine ⟨scrubRead r s, exec_live hlive rfl, ?_⟩
  · have hread := scrubRead_good (s := s) h (.inl rfl)
    exact ⟨hread.mem, hread.slices, hread.bits⟩
  · have hread := scrubRead_good (s := s) h (.inr rfl)
    have hquiet : Safety.Quiet _ (scrubbed .corrected s) := eccCorrected_quiet
    rw [hread.mem, hread.slices, hread.bits, hquiet]
    exact ⟨rfl, rfl, rfl, rfl, rfl⟩
  · obtain ⟨hmem, hslices, hbit⟩ := scrubRead_bad (s := s) h nofun nofun
    rw [scrubbed, raiseEcc_mem, markSample_mem, eccUncorrectable_mem, eccUncorrectable_proof] at hmem
    rw [scrubbed, raiseEcc_slices] at hslices
    rw [hmem, hslices]
    refine ⟨rfl, rfl, hbit, rfl, ?_, fun hback => ?_⟩
    · rintro rfl
      rw [markSample_slices_present, eccUncorrectable_slices, Fin.getElem_fin, upd_get]
      exact ⟨storeQual_mem .., fun x hx hb => storeQual_bit (by decide) hx hb, fun k hk => upd_get_ne _ _ _ _ hk⟩
    · rw [markSample_slices_past ch sn hback, eccUncorrectable_slices]
  · rcases h with h | h
    all_goals
      obtain ⟨hmem, hslices, hbit⟩ := scrubRead_bad (s := s) h nofun nofun
      rw [hmem, hslices, scrubbed, raiseEcc_mem, raiseEcc_slices, eccUncorrectable_mem, eccUncorrectable_slices]
      exact ⟨rfl, rfl, hbit, rfl, rfl⟩
  · obtain ⟨hmem, hslices, hbit⟩ := scrubRead_bad (s := s) h nofun nofun
    rw [hmem, hslices, scrubbed, raiseEcc_mem, raiseEcc_slices, updSeg_mem, updSeg_slices, eccUncorrectable_mem,
      eccUncorrectable_mem, eccUncorrectable_slices, eccUncorrectable_slices]
    exact ⟨statAdd_statAdd .., rfl, hbit, rfl, rfl⟩

end Sys2Proof.Machine
end

section
/-!
SUPPORT and the proof of O53: every open interval of a bank ends at a switch and at a parity failure (R231, R232), and what follows makes
the bank what its span asks for; a recovery of a chain (R259).
-/
namespace Sys2Proof.Machine

/-! ### The intervals of a bank end (R231, R232) -/

/-- A bank of which a lane has started anew at a sample, with the records that wait. -/
def RedBank.laneRestarted (k : Fin 4) (at_ : Nat) (waiting : List RedRec) (b : RedBank) : RedBank :=
  { b with start := b.start.set k at_, acc := b.acc.set k [], waiting := waiting }

/-- The same of all its lanes. -/
def RedBank.restarted (at_ : Nat) (waiting : List RedRec) (b : RedBank) : RedBank :=
  { b with start := Vector.replicate 4 at_, acc := Vector.replicate 4 [], waiting := waiting }

/-- `t` is `s` with a bank changed by `f`, and at most another counter of free values. -/
def OnlyBank (ch : Fin 8) (f : RedBank → RedBank) (s t : State) : Prop := t = { updRed ch f s with freeCtr := t.freeCtr }

/-- Each turn of a loop ends the interval of its own lane. -/
def EndsLanes (ch : Fin 8) (at_ : Nat) (turn : Fin 4 → State → State) : Prop :=
  ∀ k s, ∃ w, OnlyBank ch (RedBank.laneRestarted k at_ w) s (turn k s)

theorem laneRestarted_all (at_ : Nat) (w0 w1 w2 w3 : List RedRec) (b : RedBank) :
    (((b.laneRestarted 0 at_ w0).laneRestarted 1 at_ w1).laneRestarted 2 at_ w2).laneRestarted 3 at_ w3 = b.restarted at_ w3 := by
  have hset {α : Type} (v : Vector α 4) (a : α) : (((v.set 0 a).set 1 a).set 2 a).set 3 a = Vector.replicate 4 a := by
    ext i hi
    interval_cases i <;> simp
  exact congrArg₂ (fun start acc => { b with start := start, acc := acc, waiting := w3 }) (hset ..) (hset ..)

section
variable {ch : Fin 8} {s t u : State}

theorem OnlyBank.updRed {f : RedBank → RedBank} (h : OnlyBank ch f s t) (g : RedBank → RedBank) :
    OnlyBank ch (fun b => g (f b)) s (updRed ch g t) := by
  unfold OnlyBank at *
  rw [h]
  simp only [Machine.updRed, upd_upd]

theorem OnlyBank.trans {f g : RedBank → RedBank} (h : OnlyBank ch f s t) (k : OnlyBank ch g t u) :
    OnlyBank ch (fun b => g (f b)) s u := by
  have hupd := h.updRed g
  unfold OnlyBank at *
  rw [k, hupd]

theorem forAll_endsLanes {at_ : Nat} {turn : Fin 4 → State → State} (h : EndsLanes ch at_ turn) (s : State) :
    ∃ w, OnlyBank ch (RedBank.restarted at_ w) s (forAll 4 turn s) := by
  obtain ⟨_, h0⟩ := h 0 s
  obtain ⟨_, h1⟩ := h 1 (turn 0 s)
  obtain ⟨_, h2⟩ := h 2 (turn 1 (turn 0 s))
  obtain ⟨w, h3⟩ := h 3 (turn 2 (turn 1 (turn 0 s)))
  have hall := ((h0.trans h1).trans h2).trans h3
  simp only [laneRestarted_all] at hall
  exact ⟨w, hall⟩

theorem restartLane_endRecord (k : Fin 4) (at_ : Nat) (r : RedRec) :
    OnlyBank ch (RedBank.laneRestarted k at_ (r :: (s.reds[ch]).waiting)) s (restartLane ch k at_ (endRecord ch r s)) := by
  unfold OnlyBank restartLane endRecord updRed
  rw [upd_upd]
  rfl

theorem endPartial_endsLanes (ch : Fin 8) (at_ : Nat) : EndsLanes ch at_ (endPartial ch at_) := by
  intro k s
  unfold endPartial
  dsimp only
  split
  · exact ⟨(s.reds[ch]).waiting, rfl⟩
  · exact ⟨_, restartLane_endRecord ..⟩

theorem damagePartial_endsLanes (ch : Fin 8) (at_ : Nat) : EndsLanes ch at_ (damagePartial ch at_) := by
  intro k s
  unfold damagePartial
  dsimp only
  split
  · exact ⟨(s.reds[ch]).waiting, rfl⟩
  · exact ⟨_, restartLane_endRecord (s := (fresh s).2) ..⟩

/-- A switch of a bank, whatever set it takes (R231). -/
theorem redSwitch_onlyBank (ch : Fin 8) (at_ : Nat) (f : RedBank → RedBank) (s : State) :
    ∃ w, OnlyBank ch (fun b => f (b.restarted at_ w)) s (redSwitch ch at_ f s) := by
  obtain ⟨w, h⟩ := forAll_endsLanes (endPartial_endsLanes ch at_) s
  exact ⟨w, h.updRed f⟩

/-! ### What a command makes of a bank (R232) -/

/-- `t` differs from `s` at most in one bank, which `f` changes, in the health block and in events. -/
def BankWork (n : Fin 8) (f : RedBank → RedBank) (s t : State) : Prop :=
  Safety.Quiet { s with reds := upd s.reds n f, health := t.health } t

namespace BankWork
variable {n : Fin 8} {f : RedBank → RedBank}

theorem tested {failed : Byte} (h : OnlyBank n f s t) (k : Tested failed t u) : BankWork n f s u := by
  have honly := k.only
  unfold OnlyBank at h
  unfold BankWork Safety.Quiet at *
  rw [honly, h]
  rfl

theorem of_onlyBank (h : OnlyBank n f s t) : BankWork n f s t := tested h (.refl t)

theorem bank (h : BankWork n f s t) : t.reds[n] = f s.reds[n] := by
  rw [h]
  exact upd_get ..

theorem others (h : BankWork n f s t) (k : Fin 8) (hk : k ≠ n) : t.reds[k] = s.reds[k] := by
  rw [h]
  exact upd_get_ne _ _ _ _ hk

theorem slices (h : BankWork n f s t) : t.slices = s.slices := by rw [h]

theorem ddcs (h : BankWork n f s t) : t.ddcs = s.ddcs := by rw [h]

theorem hostMem (h : BankWork n f s t) : t.hostMem = s.hostMem := by rw [h]

end BankWork

variable {n : Fin 8}

/-- The lane clock and the span stand as they were when the intervals have ended, and a failed SELFTEST reports its item (R431). -/
theorem exec_bankRecovery_eq (hlive : live s = true) {u : State} (hu : u = Machine.updRed n
      (fun b => { b with diag := some (.recovery (lcNow s + 65536)) }) (forAll 4 (damagePartial n (commitSample s)) s)) :
    exec (.bankRecovery n) s = .next (raiseNow 0x7F sevWarning [BitVec.ofNat 8 n.val]
      (if (s.reds[n]).diag = some .selftest then istFail 4 u else u)) := by
  subst hu
  obtain ⟨w, hbank⟩ := forAll_endsLanes (damagePartial_endsLanes n (commitSample s)) s
  refine (exec_live hlive rfl).trans ?_
  generalize forAll 4 (damagePartial n (commitSample s)) s = t at *
  have hdiag : (t.reds[n]).diag = (s.reds[n]).diag := by
    rw [hbank]
    exact upd_field RedBank.diag rfl n
  have hlc : lcNow t = lcNow s := by
    rw [hbank]
    rfl
  rw [hdiag, ← hlc]
  by_cases hself : (s.reds[n]).diag = some .selftest
  · rw [if_pos hself, if_pos (beq_iff_eq.2 hself)]
    rfl
  · rw [if_neg hself, if_neg (mt beq_iff_eq.1 hself)]

theorem exec_bankRecovery (hlive : live s = true) : ∃ w t, exec (.bankRecovery n) s = .next t ∧
    BankWork n (fun b => { b.restarted (commitSample s) w with diag := some (.recovery (lcNow s + 65536)) }) s t ∧
    t.health.istFailed = (if (s.reds[n]).diag = some .selftest then s.health.istFailed ||| 16 else s.health.istFailed) := by
  obtain ⟨w, hbank⟩ := forAll_endsLanes (damagePartial_endsLanes n (commitSample s)) s
  have hrecovers := hbank.updRed fun b => { b with diag := some (.recovery (lcNow s + 65536)) }
  refine ⟨w, _, exec_bankRecovery_eq hlive rfl, ?_⟩
  generalize Machine.updRed n _ (forAll 4 (damagePartial n (commitSample s)) s) = u at *
  have hfailed : u.health = s.health := by rw [hrecovers]; rfl
  have htested := (((Tested.refl u).istFail 4).ite (p := (s.reds[n]).diag = some .selftest) (.refl u)).quiet
    (raiseNow_quiet 0x7F sevWarning [BitVec.ofNat 8 n.val] _)
  refine ⟨.tested hrecovers htested, ?_⟩
  rw [htested.bits, hfailed]
  rfl

theorem exec_diagnosticSpanEnd_proofing {e : Nat} (hlive : live s = true) (hdiag : (s.reds[n]).diag = some (.recovery e))
    (hpast : e ≤ lcNow s) (hproofing : isProofing s (commitSample s) = true) : ∃ w t, exec (.diagnosticSpanEnd n) s = .next t ∧
    BankWork n (fun b => { b.restarted (commitSample s) w with diag := some .proofing }) s t := by
  obtain ⟨w, hbank⟩ := redSwitch_onlyBank n (commitSample s) (leaveRecovery true) s
  refine ⟨w, _, (exec_live hlive rfl).trans ?_, .of_onlyBank hbank⟩
  rw [hdiag, hproofing]
  exact if_pos hpast

/-- The configured set resumes. -/
theorem exec_diagnosticSpanEnd_resumes (hlive : live s = true) (h : (s.reds[n]).diag = some .selftest ∨
      ∃ e, (s.reds[n]).diag = some (.recovery e) ∧ e ≤ lcNow s ∧ isProofing s (commitSample s) = false) :
    ∃ w t, exec (.diagnosticSpanEnd n) s = .next t ∧ BankWork n (fun b => leaveDiag (b.restarted (commitSample s) w)) s t := by
  obtain ⟨w, hbank⟩ := redSwitch_onlyBank n (commitSample s) leaveDiag s
  rcases h with hdiag | ⟨e, hdiag, hpast, hproofing⟩
  · refine ⟨w, _, (exec_live hlive rfl).trans ?_, .tested hbank ((Tested.refl _).istPart 4 n.val)⟩
    rw [hdiag]
  · refine ⟨w, _, (exec_live hlive rfl).trans ?_, .of_onlyBank hbank⟩
    rw [hdiag, hproofing]
    exact if_pos hpast

theorem exec_diagnosticSpanEnd_stays (hlive : live s = true) (h : (s.reds[n]).diag = none ∨ (s.reds[n]).diag = some .proofing ∨
    ∃ e, (s.reds[n]).diag = some (.recovery e) ∧ lcNow s < e) : exec (.diagnosticSpanEnd n) s = .next s := by
  refine (exec_live hlive rfl).trans ?_
  rcases h with hdiag | hdiag | ⟨e, hdiag, hbefore⟩
  · rw [hdiag]
  · rw [hdiag]
  · rw [hdiag]
    exact if_neg (Nat.not_le.2 hbefore)

theorem exec_bankSelftestStart_starts (hlive : live s = true) (hdiag : (s.reds[n]).diag = none) (hseg : (s.reds[n]).segRed = 0)
    (hstreamed : redStreamed n s = false) : ∃ w t, exec (.bankSelftestStart n) s = .next t ∧
    BankWork n (fun b => { b.restarted (commitSample s) w with diag := some .selftest }) s t := by
  obtain ⟨w, hbank⟩ := redSwitch_onlyBank n (commitSample s) (fun b => { b with diag := some .selftest }) s
  refine ⟨w, _, (exec_live hlive rfl).trans (if_pos ?_), .of_onlyBank hbank⟩
  rw [hdiag, hseg, hstreamed]
  rfl

theorem exec_bankSelftestStart_stays (hlive : live s = true)
    (h : (s.reds[n]).diag ≠ none ∨ (s.reds[n]).segRed ≠ 0 ∨ redStreamed n s = true) : exec (.bankSelftestStart n) s = .next s := by
  refine (exec_live hlive rfl).trans (if_neg fun hfree => ?_)
  simp only [Bool.and_eq_true, Option.isNone_iff_eq_none, beq_iff_eq, Bool.not_eq_true'] at hfree
  obtain ⟨⟨hdiag, hseg⟩, hstreamed⟩ := hfree
  rcases h with h | h | h
  · exact h hdiag
  · exact h hseg
  · rw [hstreamed] at h
    cases h

theorem leaveDiag_restarted (at_ : Nat) (w : List RedRec) (b : RedBank) :
    leaveDiag (b.restarted at_ w) = { (takeNext b).restarted at_ w with diag := none, next := none } := by
  obtain ⟨lanes, segRed, next, diag, start, acc, waiting, recs⟩ := b
  cases next <;> rfl

theorem exec_chainRecovery (hlive : live s = true) : ∃ t, exec (.chainRecovery n) s = .next t ∧
    Safety.Quiet (updDdc n (fun d => settleDdc (clearDdc (40 * (s.slices[n]).words) d)) s) t :=
  ⟨_, exec_live hlive rfl, raiseNow_quiet ..⟩

end

/-- Settles O53: a command that changes a bank restarts all its lanes and leaves the other banks alone (`BankWork`), and the bank's span and
settings are those that the command's lemma names. -/
theorem bankAndChainRecovery : Obligations.BankAndChainRecovery := by
  intro n s hlive
  refine ⟨?_, fun e hdiag hpast hproofing => ?_, fun h => ?_, exec_diagnosticSpanEnd_stays hlive, fun hdiag hseg hstreamed => ?_,
    exec_bankSelftestStart_stays hlive, exec_chainRecovery hlive⟩
  · obtain ⟨w, t, hexec, hwork, hfailed⟩ := exec_bankRecovery (n := n) hlive
    refine ⟨t, hexec, ?_⟩
    rw [hwork.bank]
    exact ⟨rfl, rfl, rfl, rfl, rfl, hfailed, hwork.others, hwork.slices, hwork.ddcs, hwork.hostMem⟩
  · obtain ⟨w, t, hexec, hwork⟩ := exec_diagnosticSpanEnd_proofing hlive hdiag hpast hproofing
    refine ⟨t, hexec, ?_⟩
    rw [hwork.bank]
    exact ⟨rfl, rfl, rfl, rfl, hwork.others, hwork.slices, hwork.hostMem⟩
  · obtain ⟨w, t, hexec, hwork⟩ := exec_diagnosticSpanEnd_resumes hlive h
    refine ⟨t, hexec, ?_⟩
    rw [hwork.bank, leaveDiag_restarted]
    exact ⟨rfl, rfl, rfl, rfl, rfl, hwork.others, hwork.slices, hwork.hostMem⟩
  · obtain ⟨w, t, hexec, hwork⟩ := exec_bankSelftestStart_starts hlive hdiag hseg hstreamed
    refine ⟨t, hexec, ?_⟩
    rw [hwork.bank]
    exact ⟨rfl, rfl, rfl, hwork.others, hwork.hostMem⟩

end Sys2Proof.Machine
end

section
/-!
SUPPORT. The felts: what an operation of one felt leaves alone, what a weight makes of it (R279, R282), and what the map stage keeps of its
aging (R276, R283, R284).
-/
namespace Sys2Proof.Machine

/-! ### Bins (R282) -/

/-- A bin set to a value other than zero holds it. -/
theorem binOf_setBin {v : Nat} (hv : v ≠ 0) (b : Bins) (i : Nat) : binOf (setBin b i v) i = v := by
  induction b with
  | nil => simp [setBin, binOf, hv]
  | cons x b ih =>
    obtain ⟨j, w⟩ := x
    unfold setBin
    split
    · simp [binOf]
    split
    · simp [binOf]
    · next hne =>
      have hskip : ∀ l, binOf ((j, w) :: l) i = binOf l i := fun l => by simp [binOf, Ne.symm hne]
      rw [hskip, ih]

/-- A weight added to a bin, which sticks at its largest value. -/
theorem binOf_addBin {w : Nat} (hw : 0 < w) (b : Bins) (i : Nat) : binOf (addBin b i w) i = min binMax (binOf b i + w) :=
  binOf_setBin (by unfold binMax; omega) b i

/-! ### The work of one felt -/

section
variable {f : Fin 16} {s t u : State}

theorem updFelt_get (g : Felt → Felt) : (updFelt f g s).felts[f] = g s.felts[f] := upd_get ..

theorem updFelt_updFelt (g h : Felt → Felt) : updFelt f h (updFelt f g s) = updFelt f (fun x => h (g x)) s := by
  unfold updFelt
  rw [upd_upd]

theorem updFelt_eq_const (g : Felt → Felt) : updFelt f g s = updFelt f (fun _ => (updFelt f g s).felts[f]) s := by
  rw [updFelt_get]
  rfl

/-- `t` differs from `s` at most in one felt and in events. -/
def FeltWork (f : Fin 16) (s t : State) : Prop := Safety.Quiet (updFelt f (fun _ => t.felts[f]) s) t

theorem FeltWork.updFelt (f : Fin 16) (g : Felt → Felt) (s : State) : FeltWork f s (updFelt f g s) := by
  unfold FeltWork
  rw [← updFelt_eq_const]
  exact quiet_refl _

theorem FeltWork.of_quiet (f : Fin 16) (h : Safety.Quiet s t) : FeltWork f s t := by
  have hfelt : Machine.updFelt f (fun _ => t.felts[f]) s = s := by
    unfold Machine.updFelt
    rw [upd_id _ _ _ (by rw [h])]
  unfold FeltWork
  rw [hfelt]
  exact h

theorem FeltWork.refl (f : Fin 16) (s : State) : FeltWork f s s := .of_quiet f (quiet_refl s)

theorem FeltWork.trans (h : FeltWork f s t) (k : FeltWork f t u) : FeltWork f s u := by
  unfold FeltWork Safety.Quiet Machine.updFelt at *
  rw [k, h]
  simp only [upd_upd, upd_get, Fin.getElem_fin]

theorem raiseFelt_quiet (f : Fin 16) (cause which bin : Nat) (s : State) : Safety.Quiet s (raiseFelt f cause which bin s) :=
  raiseNow_quiet ..

theorem raiseFelt_felts (cause which bin : Nat) : (raiseFelt f cause which bin s).felts = s.felts := raiseNow_felts ..

/-! ### Weights (R279, R282, R285) -/

/-- A felt of which a bin has taken a weight. -/
def Felt.weighed (toB : Bool) (bin w : Nat) (x : Felt) : Felt :=
  { setBuf toB (addBin (bufOf x toB) bin w) x with sat := x.sat || binOf (addBin (bufOf x toB) bin w) bin == binMax }

theorem applyWeight_quiet (f : Fin 16) (toB : Bool) (bin w : Nat) (s : State) :
    Safety.Quiet (updFelt f (Felt.weighed toB bin w) s) (applyWeight f toB bin w s) := by
  unfold applyWeight
  extract_lets x b stuck t
  have ht : t = updFelt f (Felt.weighed toB bin w) s := rfl
  rw [← ht]
  split
  · exact raiseFelt_quiet ..
  · exact quiet_refl _

theorem applyWeight_get (f : Fin 16) (toB : Bool) (bin w : Nat) (s : State) :
    (applyWeight f toB bin w s).felts[f] = (s.felts[f]).weighed toB bin w := by
  rw [applyWeight_quiet]
  exact updFelt_get _

theorem applyWeight_work (f : Fin 16) (toB : Bool) (bin w : Nat) (s : State) : FeltWork f s (applyWeight f toB bin w s) :=
  (FeltWork.updFelt ..).trans (.of_quiet f (applyWeight_quiet ..))

theorem toBaked_work (f : Fin 16) (bin w : Nat) (s : State) : FeltWork f s (toBaked f bin w s) := by
  unfold toBaked
  dsimp only
  split
  · split
    · exact .updFelt ..
    · exact applyWeight_work ..
  · exact applyWeight_work ..

theorem foldl_feltWork {α : Type} {g : State → α → State} (h : ∀ s a, FeltWork f s (g s a)) (l : List α) (s : State) :
    FeltWork f s (l.foldl g s) :=
  foldl_keeps (FeltWork f s) g l s (fun t a ht => ht.trans (h t a)) (.refl f s)

end

/-! ### What the map stage keeps of a felt's aging -/

/-- The sweep under way, the instants already taken, and the sample of those postponed (R283, R284). -/
def Felt.aging (x : Felt) : Option (Bool × Nat) × Nat × Option Nat := (x.sweep, x.agesTaken, x.ageDue)

section
variable {f : Fin 16} {s : State}

theorem updFelt_aging {g : Felt → Felt} (h : ∀ x, (g x).aging = x.aging) : ((updFelt f g s).felts[f]).aging = (s.felts[f]).aging := by
  rw [updFelt_get]
  exact h _

theorem applyWeight_aging (toB : Bool) (bin w : Nat) : ((applyWeight f toB bin w s).felts[f]).aging = (s.felts[f]).aging := by
  rw [applyWeight_get]
  cases toB <;> rfl

theorem toBaked_aging (bin w : Nat) : ((toBaked f bin w s).felts[f]).aging = (s.felts[f]).aging := by
  unfold toBaked
  dsimp only
  split
  · split
    · exact updFelt_aging fun _ => rfl
    · exact applyWeight_aging ..
  · exact applyWeight_aging ..

theorem feltHit_aging (bin : Nat) : ((feltHit f bin s).felts[f]).aging = (s.felts[f]).aging := by
  unfold feltHit
  dsimp only
  rw [updFelt_aging]
  · split
    · rfl
    · refine (toBaked_aging ..).trans ?_
      exact updFelt_aging fun _ => rfl
  · intro x
    split <;> rfl

theorem feltCount_aging (late : Bool) (hits outside clamp : Nat) :
    ((feltCount f late hits outside clamp s).felts[f]).aging = (s.felts[f]).aging := by
  unfold feltCount
  extract_lets p s0 s1 s2
  have h0 : (s0.felts[f]).aging = (s.felts[f]).aging := updFelt_aging fun _ => rfl
  have hreport : ∀ (b : Bool) (which : Nat) (t : State), (if b then raiseFelt f 2 which 0 t else t).felts = t.felts := fun b which t => by
    split
    · exact raiseFelt_felts ..
    · rfl
  rw [hreport, hreport, hreport, h0]

theorem mapSample_aging (n : Nat) (code : Int) : ((mapSample f n code s).felts[f]).aging = (s.felts[f]).aging := by
  unfold mapSample
  dsimp only
  split
  · exact feltCount_aging ..
  · rw [feltCount_aging, feltHit_aging]
    exact updFelt_aging fun _ => rfl

/-- An instant postponed while none is due again leaves the aging as it stands. -/
theorem postpone_aging {x : Felt} (h : x.ageDue = none) : (postpone x).aging = x.aging := by
  simp [postpone, h, Felt.aging]

theorem ageDue_of_aging {x y : Felt} (h : y.aging = x.aging) (hx : x.ageDue = none) : y.ageDue = none :=
  (congrArg (fun a => a.2.2) h).trans hx

theorem passSample_aging (ch : Fin 8) (h : (s.felts[f]).ageDue = none) : ((passSample f ch s).felts[f]).aging = (s.felts[f]).aging := by
  unfold passSample
  extract_lets n s1 x s2 s3
  have h1 : (s1.felts[f]).aging = (s.felts[f]).aging := by
    unfold s1
    split
    · exact updFelt_aging fun _ => rfl
    · rfl
  have h2 : (s2.felts[f]).aging = (s1.felts[f]).aging := by
    unfold s2
    split
    · rw [updFelt_get]
      exact postpone_aging (ageDue_of_aging h1 h)
    · rfl
  have hmapped : (s3.felts[f]).aging = (s2.felts[f]).aging := updFelt_aging fun _ => rfl
  have h3 := hmapped.trans (h2.trans h1)
  split
  · split
    · rw [mapSample_aging, h3]
    · exact h3
  · exact h3

theorem passUntil_aging (ch : Fin 8) (limit fuel : Nat) (h : (s.felts[f]).ageDue = none) :
    ((passUntil f ch limit fuel s).felts[f]).aging = (s.felts[f]).aging := by
  induction fuel generalizing s with
  | zero => rfl
  | succ fuel ih =>
    have hpass := passSample_aging ch h
    unfold passUntil
    dsimp only
    split
    · rw [ih (ageDue_of_aging hpass h), hpass]
    · rfl

end

end Sys2Proof.Machine
end

section
/-!
SUPPORT and the proof of O34: SET_FELT and BAKE commit (R273, R285, R286).
-/
namespace Sys2Proof.Machine

/-- A felt whose clear a SET_FELT has begun (R273). -/
def Felt.clearFor (cfg : FeltCfg) (x : Felt) : Felt :=
  { Felt.reset with cfg := cfg, configGen := x.configGen + 1, clearing := true, activeB := x.activeB, mapped := x.mapped }

/-- A felt of which a BAKE has fixed the bake sample (R285). -/
def Felt.bakeAt (b : Nat) (x : Felt) : Felt := { x with bake := .waiting, bakeSample := b, bakeSeq := x.bakeSeq + 1 }

section
variable {f : Fin 16} {cfg : FeltCfg} {c : Call} {n : Fin 64} {g : Fetched} {block : List Byte} {s : State}

theorem startClear_eq :
    updFelt f (fun x => { x with configGen := x.configGen + 1 }) (startClear f cfg s) = updFelt f (Felt.clearFor cfg) s :=
  updFelt_updFelt ..

section
variable (hheader : headerFault 0x0015 15 c = none) (hitem : item c.block = f.val) (hparse : parseFelt f.val c.block = .ok cfg)
include hheader hitem hparse

/-- SET_FELT of a felt in range, past its checks (R273). -/
theorem setFelt_eq : setFelt c s =
    if (s.felts[f]).bake != .idle then refuse stBusy 0 else .start (updFelt f (Felt.clearFor cfg) s) (.wait f.val) [] := by
  obtain ⟨u, hu⟩ := f
  obtain rfl : item c.block = u := hitem
  unfold setFelt
  simp only [hheader, hu, hparse, dif_pos, startClear_eq]

theorem setFelt_clears (hidle : (s.felts[f]).bake = .idle) :
    setFelt c s = .start (updFelt f (Felt.clearFor cfg) s) (.wait f.val) [] := by
  rw [setFelt_eq hheader hitem hparse, hidle]
  rfl

theorem setFelt_busy (hbusy : (s.felts[f]).bake ≠ .idle) : setFelt c s = refuse stBusy 0 := by
  rw [setFelt_eq hheader hitem hparse]
  exact if_pos (bne_iff_ne.2 hbusy)

end

section
variable (hunit : arg1 c 0x18 = f.val) (hdest : destFault c 8388736 = none) (hmap : (s.felts[f]).cfg.map ≠ 0)
include hunit hdest hmap

/-- BAKE of a felt that is configured, to a destination of its size (R285, R286). -/
theorem bakeCmd_eq : bakeCmd c s = if (s.felts[f]).bake != .idle || (s.felts[f]).clearing then refuse stBusy 0
    else .start (updFelt f (Felt.bakeAt (nextSample s)) s) (.bake f.val (paramAddr c.desc))
      (le 4 ((s.felts[f]).bakeSeq + 1).toNat ++ le 4 0 ++ le 8 (nextSample s)) := by
  have hseq : ((updFelt f (Felt.bakeAt (nextSample s)) s).felts[f]).bakeSeq = (s.felts[f]).bakeSeq + 1 :=
    congrArg Felt.bakeSeq (updFelt_get _)
  unfold bakeCmd bakeBytes
  simp only [fin_of_eq_val hunit, hdest, if_neg hmap]
  rw [← hseq]
  rfl

theorem bakeCmd_starts (hidle : (s.felts[f]).bake = .idle) (hclear : (s.felts[f]).clearing = false) :
    bakeCmd c s = .start (updFelt f (Felt.bakeAt (nextSample s)) s) (.bake f.val (paramAddr c.desc))
      (le 4 ((s.felts[f]).bakeSeq + 1).toNat ++ le 4 0 ++ le 8 (nextSample s)) := by
  rw [bakeCmd_eq hunit hdest hmap, hidle, hclear]
  rfl

theorem bakeCmd_busy (hbusy : (s.felts[f]).bake ≠ .idle ∨ (s.felts[f]).clearing = true) : bakeCmd c s = refuse stBusy 0 := by
  rw [bakeCmd_eq hunit hdest hmap]
  exact if_pos (by simpa using hbusy)

end

end

/-- Settles O34: both commands start their work on the felt, unless a bake cycle, or for BAKE a clear, is under way (log 135). -/
theorem setFeltAndBakeCommit : Obligations.SetFeltAndBakeCommit := by
  constructor
  · intro n g block f cfg s hcommits hheader hitem hparse
    have hexec : exec (.setFelt (.host n) block) s = .next (runCmd (.host n) 0x0015 block feltDeps setFelt s) := exec_live hcommits.runs rfl
    constructor
    · intro hidle
      have hfelt : (updFelt f (Felt.clearFor cfg) s).felts[f] = (s.felts[f]).clearFor cfg := updFelt_get _
      refine ⟨updFelt f (Felt.clearFor cfg) s, ?_, ?_⟩
      · rw [hexec, runCmd_start hcommits feltDeps (setFelt_clears hheader hitem hparse hidle)]
      · rw [hfelt]
        exact ⟨rfl, rfl, rfl, rfl, rfl, rfl, rfl, rfl, rfl, rfl, rfl, rfl, rfl, rfl⟩
    · intro hbusy
      rw [hexec, runCmd_refuse hcommits feltDeps (setFelt_busy hheader hitem hparse hbusy) (by decide)]
  · intro n g f s hcommits hunit hdest hmap
    have hexec : exec (.bake (.host n)) s = .next (runCmd (.host n) 0x0030 [] noDeps bakeCmd s) := exec_live hcommits.runs rfl
    constructor
    · intro hidle hclear
      rw [hexec, runCmd_start hcommits noDeps (bakeCmd_starts hunit hdest hmap hidle hclear)]
      rfl
    · intro hbusy
      rw [hexec, runCmd_refuse hcommits noDeps (bakeCmd_busy hunit hdest hmap hbusy) (by decide)]

end Sys2Proof.Machine
end

section
/-!
SUPPORT and the proof of O35: the end of a clear, spills, aging and the bake cycle (R273, R279, R282 to R286).
-/
namespace Sys2Proof.Machine

/-! ### Commands that wait for a unit complete -/

theorem OnlyCompletes.trans {s t u : State} (h : OnlyCompletes s t) (k : OnlyCompletes t u) : OnlyCompletes s u := by
  unfold OnlyCompletes at *
  rw [k, h]

theorem finishWaits_completes (op key : Nat) (result : List Byte) (fuel : Nat) (s : State) :
    OnlyCompletes s (finishWaits op key result fuel s) := by
  induction fuel generalizing s with
  | zero => rfl
  | succ fuel ih =>
    unfold finishWaits
    split
    · exact .trans (finish_frame ..) (ih _)
    · rfl

/-! ### Reads of DRAM (R239 to R242) -/

section
variable {s t u : State}

/-- `t` differs from `s` at most in what a read of DRAM marks and counts: memory, quality bytes, and events. -/
def OnlyMarks (s t : State) : Prop := Safety.Quiet { s with mem := t.mem, slices := t.slices } t

theorem OnlyMarks.quiet (h : OnlyMarks s t) (k : Safety.Quiet t u) : OnlyMarks s u := by
  unfold OnlyMarks Safety.Quiet at *
  rw [k, h]

theorem OnlyMarks.updSeg (h : OnlyMarks s t) (k : Nat) (g : Segment → Segment) : OnlyMarks s (updSeg k g t) := by
  unfold OnlyMarks Safety.Quiet at *
  rw [h]
  rfl

theorem OnlyMarks.markSample (h : OnlyMarks s t) (ch : Fin 8) (sn back : Nat) : OnlyMarks s (markSample ch sn back t) := by
  have hmark : Machine.markSample ch sn back t =
      { t with mem := (Machine.markSample ch sn back t).mem, slices := (Machine.markSample ch sn back t).slices } := by
    unfold Machine.markSample
    dsimp only
    split <;> rfl
  unfold OnlyMarks Safety.Quiet at *
  rw [hmark, h]

theorem OnlyMarks.eccUncorrectable (h : OnlyMarks s t) : OnlyMarks s (eccUncorrectable t) := by
  have hecc := eccUncorrectable_quiet (s := t)
  unfold OnlyMarks Safety.Quiet at *
  rw [hecc, h]

theorem scrubbed_onlyMarks (r : ScrubResult) (s : State) : OnlyMarks s (scrubbed r s) := by
  have hbad : OnlyMarks s (eccUncorrectable s) := OnlyMarks.eccUncorrectable (t := s) rfl
  cases r with
  | clean => rfl
  | corrected =>
    have hcount := eccCorrected_quiet (s := s)
    unfold OnlyMarks Safety.Quiet
    rw [scrubbed, hcount]
  | sample ch sn back => exact (hbad.markSample ch sn back).quiet (raiseNow_quiet ..)
  | metadata => exact hbad.quiet (raiseNow_quiet ..)
  | metadataLost seq => exact (hbad.eccUncorrectable.updSeg ..).quiet (raiseNow_quiet ..)
  | other => exact hbad.quiet (raiseNow_quiet ..)

end

/-! ### Spills (R279) -/

section
variable {f : Fin 16} {s : State} {x : Felt}

theorem feltSpill_of_nextSpill {p : Spill} (h : nextSpill s.felts[f] = some p) :
    feltSpill f s = applyWeight f p.toB p.bin p.weight (updFelt f (fun x => { x with spills := x.spills.erase p }) s) := by
  unfold feltSpill
  rw [h]

theorem feltSpill_get {p : Spill} (h : nextSpill s.felts[f] = some p) :
    (feltSpill f s).felts[f] = Felt.weighed p.toB p.bin p.weight { s.felts[f] with spills := (s.felts[f]).spills.erase p } := by
  rw [feltSpill_of_nextSpill h, applyWeight_get, updFelt_get]

theorem feltSpill_work {p : Spill} (h : nextSpill s.felts[f] = some p) : FeltWork f s (feltSpill f s) := by
  rw [feltSpill_of_nextSpill h]
  exact (FeltWork.updFelt ..).trans (applyWeight_work ..)

/-- What a weight makes of the bin, the other buffer, SAT and the spills. -/
theorem weighed_spec {toB : Bool} {bin w : Nat} (hw : 0 < w) (x : Felt) :
    (x.weighed toB bin w).spills = x.spills ∧
    binOf (bufOf (x.weighed toB bin w) toB) bin = min binMax (binOf (bufOf x toB) bin + w) ∧
    bufOf (x.weighed toB bin w) (!toB) = bufOf x (!toB) ∧
    (x.weighed toB bin w).sat = (x.sat || binOf (bufOf (x.weighed toB bin w) toB) bin == binMax) := by
  have hbin := binOf_addBin hw (bufOf x toB) bin
  cases toB
  all_goals exact ⟨rfl, hbin, rfl, rfl⟩

/-! ### Aging (R283, R284) -/

/-- The instants that are taken together: those postponed, where they are due, or one. -/
def Felt.instants (x : Felt) : Nat := if x.ageDue.isSome then x.agePending else 1

/-- A felt that has taken its aging instants at sample `a`, no sweep being under way. -/
def Felt.aged (a : Nat) (x : Felt) : Felt :=
  { x with count := ageBins (x.cfg.age == 2) false x.instants x.count, sweep := some (x.activeB, x.instants),
           spills := x.spills.map fun p => if p.toB == x.activeB then { p with before := true } else p,
           agesTaken := x.agesTaken + x.instants, agePending := if x.ageDue.isSome then 0 else x.agePending, ageDue := none,
           span := { x.span with ageLast := some a, ageCount := x.span.ageCount + x.instants } }

/-- The end of a sweep changes buffers and spills only. -/
theorem endSweep_only (x : Felt) :
    endSweep x = { x with bufA := (endSweep x).bufA, bufB := (endSweep x).bufB, spills := (endSweep x).spills, sweep := none } := by
  unfold endSweep
  split
  next b n _ => cases b <;> rfl
  next hnone =>
    rw [← hnone]

theorem endSweep_some {b : Bool} {k : Nat} (h : x.sweep = some (b, k)) : (endSweep x).sweep = none ∧
    bufOf (endSweep x) b = ageBins (x.cfg.age == 2) true k (bufOf x b) ∧ bufOf (endSweep x) (!b) = bufOf x (!b) := by
  unfold endSweep
  rw [h]
  cases b
  all_goals exact ⟨rfl, rfl, rfl⟩

theorem aged_endSweep_aging (a : Nat) (x : Felt) :
    ((endSweep x).aged a).aging = (some (x.activeB, x.instants), x.agesTaken + x.instants, none) := by
  rw [endSweep_only]
  rfl

theorem aged_endSweep_count (a : Nat) (x : Felt) : ((endSweep x).aged a).count = ageBins (x.cfg.age == 2) false x.instants x.count ∧
    ((endSweep x).aged a).span = { x.span with ageLast := some a, ageCount := x.span.ageCount + x.instants } := by
  rw [endSweep_only]
  exact ⟨rfl, rfl⟩

theorem takeAging_eq (a : Nat) : takeAging f a s = updFelt f (fun x => (endSweep x).aged a) s := rfl

section
variable {a : Nat} (hrun : (s.felts[f]).running = true) (hnext : nextAging s.felts[f] s = some a) (hstage : a ≤ feltStage f s)
include hrun hnext hstage

theorem agingInstant_meets : agingInstant f s = meetAging f a s := by
  unfold agingInstant
  simp only [hrun, hnext, hstage, if_true]

theorem agingInstant_takes (h : postpones s.felts[f] = false) : agingInstant f s = updFelt f (fun x => (endSweep x).aged a) s := by
  rw [agingInstant_meets hrun hnext hstage, meetAging, h]
  exact takeAging_eq a

theorem agingInstant_postpones (h : postpones s.felts[f] = true) : agingInstant f s = updFelt f postpone s := by
  rw [agingInstant_meets hrun hnext hstage, meetAging, h]
  rfl

end

/-- The state after an aging instant: a channel felt passes on the samples that waited behind it. -/
def afterAging (f : Fin 16) (t : State) : State := if h : f.val < 8 then feltWord ⟨f.val, h⟩ t else t

theorem exec_agingInstant (hlive : live s = true) : exec (.agingInstant f) s = .next (afterAging f (agingInstant f s)) :=
  exec_live hlive rfl

theorem afterAging_aging (h : (s.felts[f]).ageDue = none) : ((afterAging f s).felts[f]).aging = (s.felts[f]).aging := by
  unfold afterAging
  split
  · exact passUntil_aging _ _ _ h
  · rfl

theorem afterAging_of_spectral (h : 8 ≤ f.val) : afterAging f s = s := dif_neg (Nat.not_lt.2 h)

/-! ### The bake cycle (R285, R286) -/

theorem ageResume_eq (a : Nat) (x : Felt) : ageResume a x = { x with ageDue := (ageResume a x).ageDue } := by
  unfold ageResume
  split <;> rfl

theorem lateSwitch_of_ne (h : (s.felts[f]).bake ≠ .waiting) : lateSwitch f s = s := by
  unfold lateSwitch
  dsimp only
  rw [beq_false_of_ne h, Bool.and_false, Bool.false_and, if_neg Bool.false_ne_true]

/-- The residues of the old generation are in the baked buffer (R285). -/
def residuesFlushed (f : Fin 16) (s : State) : State := (s.felts[f]).oldCount.foldl (fun s r => toBaked f r.1 r.2 s) s

theorem residuesFlushed_work (f : Fin 16) (s : State) : FeltWork f s (residuesFlushed f s) := by
  unfold residuesFlushed
  refine foldl_feltWork (fun t r => ?_) _ _
  exact toBaked_work ..

theorem bakeFlushDone_of_flushing (h : (s.felts[f]).bake = .flushing) : bakeFlushDone f s =
    if (s.felts[f]).switchLc + 32768 ≤ lcNow s then
      updFelt f (fun x => (if x.cfg.running then id else ageResume (resumeSample f (residuesFlushed f s)))
        { x with oldCount := [], bake := .copying }) (residuesFlushed f s)
    else s := by
  have hwait : (s.felts[f]).bake ≠ .waiting := by rw [h]; decide
  unfold bakeFlushDone
  rw [lateSwitch_of_ne hwait]
  simp only [h, beq_self_eq_true, Bool.true_and, decide_eq_true_eq]
  rfl

theorem bakeFlushDone_spec (h : (s.felts[f]).bake = .flushing) (hlate : (s.felts[f]).switchLc + 32768 ≤ lcNow s) :
    ((bakeFlushDone f s).felts[f]).bake = .copying ∧ ((bakeFlushDone f s).felts[f]).oldCount = [] ∧
    FeltWork f s (bakeFlushDone f s) := by
  rw [bakeFlushDone_of_flushing h, if_pos hlate, updFelt_get]
  refine ⟨?_, ?_, (residuesFlushed_work f s).trans (.updFelt ..)⟩
  all_goals
    split
    · rfl
    · rw [ageResume_eq]

theorem findBake_of_qps {t : State} (h : t.hif.qps = s.hif.qps) (k : Nat) : findBake k t = findBake k s := by
  unfold findBake
  rw [h]

/-- The copy of a BAKE that waits for it is written and its completion posted (R286). -/
theorem bakeCopyDone_of_final {n : Fin 64} {g : Fetched} {addr : Nat} (hfinal : bakeFinal f s = true) (hdma : dma s = true)
    (hbake : findBake f.val s = some (n, g, addr)) : bakeCopyDone f s = finish n g.tag stSuccess 0 g.result
      (hostWrite addr (bakeRecord f s) (updFelt f (fun x => { x with bake := .clearing }) s)) := by
  unfold bakeCopyDone
  simp only [hfinal, hdma, hbake, Bool.and_self, if_true]

theorem exec_bakeCopyDone {n : Fin 64} {g : Fetched} {addr : Nat} {ecc : ScrubResult} (hlive : live s = true)
    (hfinal : bakeFinal f (scrubbed ecc s) = true) (hdma : dma s = true) (hbake : findBake f.val s = some (n, g, addr)) :
    exec (.bakeCopyDone { unit := f, ecc := ecc }) s = .next (finish n g.tag stSuccess 0 g.result (hostWrite addr
      (bakeRecord f (scrubbed ecc s)) (updFelt f (fun x => { x with bake := .clearing }) (scrubbed ecc s)))) := by
  have hmarks := scrubbed_onlyMarks ecc s
  have hdma' : dma (scrubbed ecc s) = true := by
    rw [hmarks]
    exact hdma
  have hbake' : findBake f.val (scrubbed ecc s) = some (n, g, addr) := by
    rw [findBake_of_qps (by rw [hmarks])]
    exact hbake
  exact (exec_live hlive rfl).trans (congrArg _ (bakeCopyDone_of_final hfinal hdma' hbake'))

/-- The state when a RUNNING felt's baked buffer has been merged into the other (R286). -/
def bakeMerged (f : Fin 16) (s : State) : State :=
  if (s.felts[f]).cfg.running then
    (bufOf s.felts[f] (!(s.felts[f]).activeB)).foldl (fun t r => applyWeight f (s.felts[f]).activeB r.1 r.2 t) s
  else s

theorem bakeMerged_work : FeltWork f s (bakeMerged f s) := by
  unfold bakeMerged
  split
  · refine foldl_feltWork (fun t r => ?_) _ _
    exact applyWeight_work ..
  · exact .refl f s

theorem bakeCycleEnd_of_clearing (h : (s.felts[f]).bake = .clearing) : bakeCycleEnd f s =
    updFelt f (fun x => (if x.cfg.running then ageResume (resumeSample f (bakeMerged f s)) else id)
      { setBuf (!(s.felts[f]).activeB) [] x with bake := .idle }) (bakeMerged f s) := by
  unfold bakeCycleEnd
  simp only [h, beq_self_eq_true, if_true]
  rfl

theorem bakeCycleEnd_of_ne (h : (s.felts[f]).bake ≠ .clearing) : bakeCycleEnd f s = s := if_neg (by simpa using h)

theorem bakeCycleEnd_spec (h : (s.felts[f]).bake = .clearing) : ((bakeCycleEnd f s).felts[f]).bake = .idle ∧
    bufOf (bakeCycleEnd f s).felts[f] (!(s.felts[f]).activeB) = [] ∧
    ((s.felts[f]).cfg.running = false →
      bufOf (bakeCycleEnd f s).felts[f] (s.felts[f]).activeB = bufOf s.felts[f] (s.felts[f]).activeB) ∧
    FeltWork f s (bakeCycleEnd f s) := by
  rw [bakeCycleEnd_of_clearing h, updFelt_get]
  generalize (s.felts[f]).activeB = b
  refine ⟨?_, ?_, fun hrun => ?_, bakeMerged_work.trans (.updFelt ..)⟩
  · split
    · rw [ageResume_eq]
    · rfl
  · split
    · rw [ageResume_eq]
      cases b <;> rfl
    · cases b <;> rfl
  · have hmerged : bakeMerged f s = s := if_neg (by rw [hrun]; decide)
    rw [hmerged, hrun]
    cases b <;> rfl

end

/-! ### The end of a clear (R273) -/

section
variable {f : Fin 16} {s : State}

theorem feltClearDone_of_clearing (h : (s.felts[f]).clearing = true) : OnlyCompletes
    (updFelt f (fun x => { x with
      clearing := false, running := x.cfg.map != 0, switchAt := nextSample s, span := { x.span with first := nextSample s } }) s)
    (feltClearDone f s) := by
  unfold feltClearDone
  rw [if_pos h]
  exact finishWaits_completes ..

theorem feltClearDone_of_not_clearing (h : (s.felts[f]).clearing = false) : feltClearDone f s = s := if_neg (by rw [h]; decide)

end

/-- Settles O35, one lemma for each of the felt's own commands; a read of DRAM before the copy touches neither queue pairs nor DMA. -/
theorem feltSteps : Obligations.FeltSteps := by
  intro f s hlive x
  refine ⟨fun hclear => ?clearDone, fun hclear => ?noClear, fun p hspill hw => ?spill, fun a n hrun hnext hstage hmay hn => ?taken,
    fun a hspectral hrun hnext hstage hmust => ?postponed, fun b k hsweep => ?swept, fun hflush hlate => ?flushed,
    fun hflush hearly => ?notFlushed, ?copied, fun hclear => ?cycleEnd, fun hclear => ?noCycleEnd⟩
  case clearDone =>
    have honly := feltClearDone_of_clearing hclear
    refine ⟨_, exec_live hlive rfl, ?_, ?_⟩
    all_goals
      rw [honly]
      rfl
  case noClear => exact (exec_live hlive rfl).trans (congrArg _ (feltClearDone_of_not_clearing hclear))
  case spill =>
    refine ⟨_, exec_live hlive rfl, ?_⟩
    obtain ⟨hspills, hbin, hother, hsat⟩ := weighed_spec (toB := p.toB) (bin := p.bin) hw { x with spills := x.spills.erase p }
    rw [← feltSpill_get hspill] at hspills hbin hother hsat
    exact ⟨hspills, hbin, hother, hsat, feltSpill_work hspill⟩
  case taken =>
    subst hn
    have htaken := agingInstant_takes hrun hnext hstage hmay
    have hfelt : (agingInstant f s).felts[f] = (endSweep x).aged a := by
      rw [htaken]
      exact updFelt_get _
    have haging := aged_endSweep_aging a x
    rw [← hfelt] at haging
    have hword := (afterAging_aging (congrArg (fun y => y.2.2) haging)).trans haging
    refine ⟨_, exec_agingInstant hlive, congrArg (·.1) hword, congrArg (·.2.1) hword, congrArg (·.2.2) hword, fun hspectral => ?_⟩
    obtain ⟨hcount, hspan⟩ := aged_endSweep_count a x
    rw [afterAging_of_spectral hspectral, hfelt, hcount, hspan]
    exact ⟨rfl, rfl, rfl, htaken⟩
  case postponed =>
    rw [exec_agingInstant hlive, afterAging_of_spectral hspectral, agingInstant_postpones hrun hnext hstage hmust]
  case swept =>
    have hexec : exec (.agingSweepDone f) s = .next (updFelt f endSweep s) := (exec_live hlive rfl).trans (if_pos (by
      rw [hsweep]
      rfl))
    have hfelt : (updFelt f endSweep s).felts[f] = endSweep x := updFelt_get _
    obtain ⟨hended, hswept, hother⟩ := endSweep_some hsweep
    refine ⟨_, hexec, ?_⟩
    rw [hfelt]
    exact ⟨hended, hswept, hother, rfl⟩
  case flushed => exact ⟨_, exec_live hlive rfl, bakeFlushDone_spec hflush hlate⟩
  case notFlushed =>
    exact (exec_live hlive rfl).trans (congrArg _ ((bakeFlushDone_of_flushing hflush).trans (if_neg (Nat.not_le.2 hearly))))
  case copied =>
    rintro ecc n g addr _ rfl hfinal hdma hbake
    exact exec_bakeCopyDone hlive hfinal hdma hbake
  case cycleEnd => exact ⟨_, exec_live hlive rfl, bakeCycleEnd_spec hclear⟩
  case noCycleEnd => exact (exec_live hlive rfl).trans (congrArg _ (bakeCycleEnd_of_ne hclear))

end Sys2Proof.Machine
end

section
/-!
SUPPORT. What a mask's stop makes of the sequencers that it names (R294 to R297): each turn is the work of its own sequencer.
-/
namespace Sys2Proof.Machine

section
variable {a b : Fin 4} {n v low : Nat} {s : State}

/-! ### A sequencer stops at any sample (R197) -/

/-- A stop at sample `n` takes its sequencer to IDLE without an open segment, and touches no other sequencer. -/
theorem stopNow_stopped (a : Fin 4) (n cause low : Nat) (s : State) :
    (∀ b : Fin 4, b ≠ a → (stopNow a n cause low s).seqs[b] = s.seqs[b]) ∧
    ((stopNow a n cause low s).seqs[a]).Stopped n ∧ ((stopNow a n cause low s).seqs[a]).openSeg = none := by
  have hseqs := closeSegment_seqs (a := a) (n := n) (s := s)
  have hclosed : (stopClose a n s).seqs[a] = (s.seqs[a]).closedAt n (dAs (closeSegment a n s) (s.seqs[a]).cfg) := by
    rw [stopClose_eq, updAs_get, seq_of_seqs hseqs]
  have hstopped : ((stopClose a n s).seqs[a]).Stopped n := by
    rw [hclosed]
    exact ⟨rfl, rfl, rfl⟩
  have hall := decideAll_discards ((stopClose a n s).seqs[a]).queue.length hstopped
  have hdiscards := hall.trans (autoTimeout_discards (hall.stopped hstopped))
  have hstop : stopNow a n cause low s =
      holdStop a cause low (autoTimeout a (decideAll a ((stopClose a n s).seqs[a]).queue.length (stopClose a n s))) := rfl
  rw [hstop]
  generalize autoTimeout a (decideAll a _ _) = t at hdiscards
  obtain ⟨-, hothers, queue, counts, readyAt, hseq⟩ := hdiscards
  have hheld : (holdStop a cause low t).seqs[a] = { t.seqs[a] with stopEvent := ((holdStop a cause low t).seqs[a]).stopEvent } := by
    rw [holdStop, updAs_get]
  refine ⟨fun b hb => ?_, ?_, ?_⟩
  · rw [holdStop, updAs_get_ne hb, hothers b hb, stopClose_eq, updAs_get_ne hb, seq_of_seqs hseqs]
  · rw [hheld, hseq, hclosed]
    exact ⟨rfl, rfl, rfl⟩
  · rw [hheld, hseq, hclosed]
    rfl

/-! ### The first violating sample is kept (R295) -/

/-- A stop segment changes the sequencer's counts and statistics only. -/
def Seq.Tallied (q r : Seq) : Prop :=
  r = { q with counts := r.counts, fullSeen := r.fullSeen, segments := r.segments, gapCount := r.gapCount }

theorem Seq.Tallied.still {q r : Seq} (h : q.Tallied r) : r.state = q.state ∧ r.stopAt = q.stopAt ∧ r.openSeg = q.openSeg := by
  unfold Seq.Tallied at h
  rw [h]
  exact ⟨rfl, rfl, rfl⟩

theorem stopSegment_work (a : Fin 4) (v n : Nat) (next : Option Nat) (s : State) :
    SeqWork a s (stopSegment a v n next s) ∧ (s.seqs[a]).Tallied (stopSegment a v n next s).seqs[a] := by
  unfold stopSegment
  extract_lets q pre last short cut
  split
  next k _ =>
    have hquiet : Safety.Quiet (fullMissed a s) (raiseSlot a.val k (fullMissed a s)) := raiseNow_quiet ..
    refine ⟨((SeqWork.refl a s).updAs _).quiet hquiet, ?_⟩
    rw [seq_of_quiet hquiet, fullMissed, updCounts, updAs_get]
    rfl
  next =>
    split
    next =>
      obtain ⟨counts, seen, hseq⟩ := missCut_seq a s
      refine ⟨missCut_work a s, ?_⟩
      rw [hseq]
      rfl
    next l _ =>
      have hbefore := overwriteSegs_work a s l
      have hseqs := seq_of_seqs (overwriteSegs_seqs a s l) a
      generalize overwriteSegs a l s = w at *
      rw [← hseqs]
      refine ⟨hbefore.trans ?_, ?_⟩
      · exact SeqWork.quiet (((((SeqWork.refl a w).quiet (fresh_quiet w)).updAs _).mem _).mem _) (raiseCut_quiet ..)
      · rw [seq_of_quiet (raiseCut_quiet ..)]
        change (w.seqs[a]).Tallied (updAs a _ (fresh w).2).seqs[a]
        rw [updAs_get]
        rfl

theorem keepStopped_work (v n : Nat) (next : Option Nat) (a : Fin 4) (s : State) :
    SeqWork a s (keepStopped v n next a s) ∧ (s.seqs[a]).Tallied (keepStopped v n next a s).seqs[a] := by
  unfold keepStopped
  split
  · exact ⟨(SeqWork.refl a s).mem _, rfl⟩
  · split
    · exact stopSegment_work ..
    · exact ⟨.refl a s, rfl⟩

/-! ### A mask's stop on one sequencer (R294, R296) -/

/-- A sequencer that was armed goes to IDLE at the stop sample. -/
theorem maskStopOn_armed (h : armed s.seqs[a] = true) : ((maskStopOn v n low a s).seqs[a]).state = .idle ∧
    ((maskStopOn v n low a s).seqs[a]).stopAt = some n ∧ ((maskStopOn v n low a s).seqs[a]).openSeg = none := by
  obtain ⟨-, hstopped, hopen⟩ := stopNow_stopped a n 4 low s
  have hstop : maskStopOn v n low a s = keepStopped v n (openAfter s a v) a (stopNow a n 4 low s) := if_pos h
  obtain ⟨hstate, hstopAt, hopenSeg⟩ := (keepStopped_work v n (openAfter s a v) a (stopNow a n 4 low s)).2.still
  rw [hstop, hstate, hstopAt, hopenSeg]
  exact ⟨hstopped.state, hstopped.stopAt, hopen⟩

/-- One that was not, and that no other stop took at the stop sample, stays. -/
theorem maskStopOn_of_not_armed (h : armed s.seqs[a] = false) (hat : (s.seqs[a]).stopAt ≠ some n) : maskStopOn v n low a s = s := by
  unfold maskStopOn
  dsimp only
  rw [h, beq_false_of_ne hat]
  rfl

theorem maskStopOn_other (h : b ≠ a) : (maskStopOn v n low a s).seqs[b] = s.seqs[b] := by
  obtain ⟨hothers, -⟩ := stopNow_stopped a n 4 low s
  unfold maskStopOn
  dsimp only
  split
  · exact ((keepStopped_work ..).1.others b h).trans (hothers b h)
  · split
    · exact (updAs_get_ne h _).trans ((keepStopped_work ..).1.others b h)
    · rfl

/-! ### Stops of several masks on one sequencer (R296) -/

/-- A mask's own stop is among those that commit with it on a sequencer that it names. -/
theorem jointStop_of_stop {m : Fin 64} {c : Nat} {as : BitVec 4} (h : (s.masks[m]).stop = some (v, c, as)) (ha : as.getLsbD a.val = true) :
    ∃ w low, jointStop s c a = some (w, low) := by
  suffices hsome : (jointStop s c a).isSome = true by
    obtain ⟨⟨w, low⟩, hw⟩ := Option.isSome_iff_exists.1 hsome
    exact ⟨w, low, hw⟩
  unfold jointStop
  obtain ⟨before, after, hsplit⟩ := List.append_of_mem (List.mem_finRange m)
  rw [hsplit, List.foldl_append, List.foldl_cons]
  refine foldl_keeps (fun best : Option (Nat × Nat) => best.isSome = true) _ _ _ (fun best k hbest => ?_) ?_
  · split
    · split
      · split <;> rfl
      · exact hbest
    · exact hbest
  · rw [h]
    simp only [ha, and_self, if_true]
    split <;> rfl

/-- One sequencer's turn when the stops of lane clock `c` commit, as the masks of `s` have them. -/
def stopTurn (s : State) (c : Nat) (t : State) (a : Fin 4) : State :=
  match jointStop s c a with
  | some (v, low) => maskStopOn v (40 * c) low a t
  | none => t

theorem stopTurn_other {c : Nat} {t : State} (h : b ≠ a) : (stopTurn s c t a).seqs[b] = t.seqs[b] := by
  unfold stopTurn
  split
  · exact maskStopOn_other h
  · rfl

section
variable {m : Fin 64} {c : Nat} {as : BitVec 4} (hstop : (s.masks[m]).stop = some (v, c, as))
include hstop

theorem maskStop_commits (hc : c ≤ lcNow s) :
    maskStop m s = updMask m (fun x => { x with stop := none }) ((maskAs as.toNat).foldl (stopTurn s c) s) := by
  unfold maskStop
  rw [hstop]
  exact if_pos hc

theorem maskStop_waits (hc : lcNow s < c) : maskStop m s = s := by
  unfold maskStop
  rw [hstop]
  exact if_neg (Nat.not_le.2 hc)

/-- A sequencer that the stop names has its turn as it stood. -/
theorem stopTurns_turn (ha : a ∈ maskAs as.toNat) : ∃ t w low, t.seqs[a] = s.seqs[a] ∧
    ((maskAs as.toNat).foldl (stopTurn s c) s).seqs[a] = (maskStopOn w (40 * c) low a t).seqs[a] := by
  obtain ⟨w, low, hjoint⟩ := jointStop_of_stop hstop (List.mem_filter.1 ha).2
  obtain ⟨t, -, hseq, hturn, -⟩ := foldl_turn (p := (·.seqs[a])) (r := fun _ _ => True) (fun _ => trivial) (fun _ _ => trivial)
    (f := stopTurn s c) (maskAs_nodup as.toNat) ha (fun _ _ hi => stopTurn_other (Ne.symm hi)) (fun _ _ => trivial) s
  have hown : stopTurn s c t a = maskStopOn w (40 * c) low a t := by
    unfold stopTurn
    rw [hjoint]
  rw [hown] at hturn
  exact ⟨t, w, low, hseq, hturn⟩

theorem stopTurns_armed (ha : a ∈ maskAs as.toNat) (harmed : armed s.seqs[a] = true) :
    let q := ((maskAs as.toNat).foldl (stopTurn s c) s).seqs[a]
    q.state = .idle ∧ q.stopAt = some (40 * c) ∧ q.openSeg = none := by
  intro q
  obtain ⟨t, w, low, hseq, hturn⟩ := stopTurns_turn hstop ha
  have hq : q = (maskStopOn w (40 * c) low a t).seqs[a] := hturn
  rw [hq]
  exact maskStopOn_armed (by rw [hseq]; exact harmed)

theorem stopTurns_stays (h : a ∉ maskAs as.toNat ∨ (armed s.seqs[a] = false ∧ (s.seqs[a]).stopAt ≠ some (40 * c))) :
    ((maskAs as.toNat).foldl (stopTurn s c) s).seqs[a] = s.seqs[a] := by
  by_cases ha : a ∈ maskAs as.toNat
  · obtain ⟨harmed, hat⟩ := h.resolve_left fun hnot => hnot ha
    obtain ⟨t, w, low, hseq, hturn⟩ := stopTurns_turn hstop ha
    rw [hturn, maskStopOn_of_not_armed (by rw [hseq]; exact harmed) (by rw [hseq]; exact hat), hseq]
  · exact foldl_seq_of_not_mem (fun _ _ _ hb => stopTurn_other hb) ha s

end

end

end Sys2Proof.Machine
end

section
/-!
SUPPORT and the proof of O36: SET_MASK and its raster, stops, episodes and damaged limits (R288 to R290, R294, R298, R299).
-/
namespace Sys2Proof.Machine

section
variable {m : Fin 64} {s : State}

theorem updMask_get (f : Mask → Mask) : (updMask m f s).masks[m] = f s.masks[m] := upd_get ..

/-! ### SET_MASK (R288 to R290) -/

section
variable {c : Call} {cfg : MaskCfg} (hheader : headerFault 0x0016 17 c = none) (hitem : item c.block = m.val)
  (hparse : parseMask c.block = .ok cfg)
include hheader hitem hparse

/-- SET_MASK of a mask in range, past its range checks. -/
theorem setMask_eq : setMask c s =
    if !comparatorFits s m cfg then .refuse stCapacity 0x07 [] m.val
    else if !maskRefOk s cfg then refuse stInvalid 8
    else .start (updMask m (fun x => { x with raster := some cfg }) s) (.wait m.val) [] := by
  obtain ⟨u, hu⟩ := m
  obtain rfl : item c.block = u := hitem
  unfold setMask
  simp only [hheader, hu, hparse, dif_pos]

theorem setMask_starts (hfits : comparatorFits s m cfg = true) (href : maskRefOk s cfg = true) :
    setMask c s = .start (updMask m (fun x => { x with raster := some cfg }) s) (.wait m.val) [] := by
  rw [setMask_eq hheader hitem hparse, hfits, href]
  rfl

theorem setMask_full (hfull : comparatorFits s m cfg = false) : setMask c s = .refuse stCapacity 0x07 [] m.val := by
  rw [setMask_eq hheader hitem hparse, hfull]
  rfl

end

/-- A command refused for want of a budget enters SYS_ADMIT_LAST (R505). -/
theorem runCmd_capacity {n : Fin 64} {op detail unit : Nat} {g : Fetched} {block : List Byte} (hcommits : Safety.Commits n op g s)
    (deps : Call → List (Nat × Nat)) {f : Call → State → Reply}
    (h : f (Safety.callOf g block) s = .refuse stCapacity detail [] unit) :
    runCmd (.host n) op block deps f s = finish n g.tag stCapacity detail []
      { s with admission := { budget := BitVec.ofNat 8 detail, opcode := BitVec.ofNat 16 op, item := BitVec.ofNat 8 unit } } := by
  rw [runCmd_commits hcommits, h]
  rfl

theorem finish_masks (n : Fin 64) (tag : W32) (status detail : Nat) (result : List Byte) (s : State) :
    (finish n tag status detail result s).masks = s.masks := by
  rw [finish_frame]

/-! ### The raster (R290, R315) -/

/-- `t` differs from `s` at most in the settings in force and in completions. -/
def OnlySettles (s t : State) : Prop :=
  t = { s with hostMem := t.hostMem, hif := t.hif, cfg := { s.cfg with inForce := t.cfg.inForce } }

theorem OnlySettles.completes {t u : State} (h : OnlySettles s t) (k : OnlyCompletes t u) : OnlySettles s u := by
  unfold OnlySettles OnlyCompletes at *
  rw [k, h]

theorem settleMask_onlySettles (k : Nat) (accepted : Bool) (s : State) : OnlySettles s (settleMask k accepted s) := by
  unfold settleMask
  split <;> rfl

/-- What a raster leaves of a mask and the rest, in the form of the statement. -/
theorem OnlySettles.updMask {f : Mask → Mask} {t : State} (h : OnlySettles (updMask m f s) t) : t.masks = upd s.masks m f ∧
    t = { s with hostMem := t.hostMem, hif := t.hif, masks := t.masks, cfg := { s.cfg with inForce := t.cfg.inForce } } := by
  have hmasks : t.masks = upd s.masks m f := by
    rw [h]
    rfl
  refine ⟨hmasks, ?_⟩
  rw [hmasks]
  exact h

theorem maskRasterDone_idle (h : (s.masks[m]).raster = none ∨ rasterPaused s = true) : maskRasterDone m s = s := by
  have hnone : (if rasterPaused s then none else (s.masks[m]).raster) = none := by
    rcases h with h | h
    · rw [h, ite_self]
    · rw [h, if_pos rfl]
  unfold maskRasterDone
  rw [hnone]

section
variable {cfg : MaskCfg} (hraster : (s.masks[m]).raster = some cfg) (hruns : rasterPaused s = false)
include hraster hruns

theorem maskRasterDone_loads (h : badColumn cfg = none) :
    OnlySettles (updMask m (fun x => { x with raster := none, next := some (cfg, nextSample s) }) s) (maskRasterDone m s) := by
  unfold maskRasterDone
  rw [hruns, if_neg Bool.false_ne_true, hraster]
  simp only [h]
  exact (settleMask_onlySettles ..).completes (finishWaits_completes ..)

theorem maskRasterDone_forgets {r k : Nat} (h : badColumn cfg = some (r, k)) :
    OnlySettles (updMask m (fun x => { x with raster := none }) s) (maskRasterDone m s) := by
  unfold maskRasterDone
  rw [hruns, if_neg Bool.false_ne_true, hraster]
  simp only [h]
  have hsettles := settleMask_onlySettles m.val false (updMask m (fun x => { x with raster := none }) s)
  split
  · exact hsettles.completes (finish_frame ..)
  · exact hsettles

end

/-! ### Episodes (R298) -/

theorem raiseMask_quiet (m : Fin 64) (source cause which count : Nat) (ts : TS96) (s : State) :
    Safety.Quiet s (raiseMask m source cause which count ts s) := raise_quiet ..

section
variable {l : Nat} (hlive : live s = true) (hlast : (s.masks[m]).lastViol = some l)
include hlive hlast

theorem exec_violEpisodeEnd_ends (hon : (s.masks[m]).violNow = true) (hgap : l + 2 ^ 21 ≤ lcNow s) : ∃ t,
    exec (.violEpisodeEnd m) s = .next t ∧ Safety.Quiet (updMask m (fun x => { x with violNow := false }) s) t := by
  have hends : ((s.masks[m]).violNow && decide (l + episodeGap ≤ lcNow s)) = true := by
    rw [hon, Bool.true_and]
    exact decide_eq_true hgap
  have hexec : exec (.violEpisodeEnd m) s = .next (if (s.masks[m]).cfg.actions.getLsbD 3 then
      raiseMask m (s.masks[m]).cfg.source 1 0 (s.masks[m]).episode (tsNow s) (updMask m (fun x => { x with violNow := false }) s)
      else updMask m (fun x => { x with violNow := false }) s) := by
    refine (exec_live hlive rfl).trans ?_
    rw [hlast]
    exact if_pos hends
  refine ⟨_, hexec, ?_⟩
  split
  · exact raiseMask_quiet ..
  · exact quiet_refl _

theorem exec_violEpisodeEnd_lasts (hgap : lcNow s < l + 2 ^ 21) : exec (.violEpisodeEnd m) s = .next s := by
  refine (exec_live hlive rfl).trans ?_
  rw [hlast]
  refine if_neg fun hends => ?_
  have hlate : l + episodeGap ≤ lcNow s := of_decide_eq_true (Bool.and_eq_true_iff.1 hends).2
  exact absurd hlate (Nat.not_le.2 hgap)

end

/-! ### Damaged limits (R299) -/

theorem maskTested_of_reloading (x : Mask) (column : Nat) (l : List Nat) :
    maskTested { x with reloading := column :: l } column = false := by
  simp [maskTested]

/-- A mask when the limits of a comparator have been reloaded. -/
def Mask.reloaded (source : Nat) (x : Mask) : Mask := if x.cfg.source = source then { x with reloading := [] } else x

/-- One mask's turn when the limits of a comparator are reloaded. -/
def reloadTurn (source : Nat) (k : Fin 64) (s : State) : State :=
  if (s.masks[k]).cfg.source = source ∧ (s.masks[k]).reloading ≠ [] then
    raiseMask k source 3 0 0 (tsNow s) (updMask k (fun x => { x with reloading := [] }) s)
  else s

/-- A mask that no column of is damaged is the same after the reload. -/
theorem reloaded_of_whole {source : Nat} {x : Mask} (h : ¬ (x.cfg.source = source ∧ x.reloading ≠ [])) : x.reloaded source = x := by
  unfold Mask.reloaded
  split
  next hsource =>
    have hwhole : x.reloading = [] := not_not.1 fun hne => h ⟨hsource, hne⟩
    rw [← hwhole]
  next => rfl

/-- `t` differs from `s` at most in masks and events. -/
def OnlyMasks (s t : State) : Prop := Safety.Quiet { s with masks := t.masks } t

theorem OnlyMasks.trans {t u : State} (h : OnlyMasks s t) (k : OnlyMasks t u) : OnlyMasks s u := by
  unfold OnlyMasks Safety.Quiet at *
  rw [k, h]

theorem onlyMasks_of_updMask {t : State} {f : Mask → Mask} (h : Safety.Quiet (updMask m f s) t) : OnlyMasks s t := by
  unfold OnlyMasks Safety.Quiet at *
  rw [h]
  rfl

theorem masks_of_quiet {t : State} (h : Safety.Quiet s t) (j : Fin 64) : t.masks[j] = s.masks[j] := by
  rw [h]

variable {source : Nat} {k : Fin 64}

theorem reloadTurn_quiet (source : Nat) (k : Fin 64) (s : State) :
    Safety.Quiet (updMask k (Mask.reloaded source) s) (reloadTurn source k s) := by
  unfold reloadTurn
  split
  next h =>
    have hreloaded : updMask k (Mask.reloaded source) s = updMask k (fun x => { x with reloading := [] }) s := by
      unfold updMask upd
      rw [Mask.reloaded, if_pos h.1]
    rw [hreloaded]
    exact raiseMask_quiet ..
  next h =>
    have hsame : updMask k (Mask.reloaded source) s = s := by
      unfold updMask
      rw [upd_id _ _ _ (reloaded_of_whole h)]
    rw [hsame]
    exact quiet_refl s

theorem reloadTurn_other (h : m ≠ k) : (reloadTurn source k s).masks[m] = s.masks[m] :=
  (masks_of_quiet (reloadTurn_quiet ..) m).trans (upd_get_ne _ _ _ _ h)

theorem reloadComparator_get : (reloadComparator source s).masks[k] = (s.masks[k]).reloaded source := by
  obtain ⟨t, -, hmask, hturn, -⟩ := foldl_turn (p := (·.masks[k])) (r := fun _ _ => True) (fun _ => trivial) (fun _ _ => trivial)
    (f := fun t i => reloadTurn source i t) (List.nodup_finRange 64) (List.mem_finRange k) (fun _ _ hi => reloadTurn_other (Ne.symm hi))
    (fun _ _ => trivial) s
  have hown : (reloadTurn source k t).masks[k] = (t.masks[k]).reloaded source :=
    (masks_of_quiet (reloadTurn_quiet ..) k).trans (updMask_get _)
  rw [← hmask, ← hown]
  exact hturn

theorem reloadComparator_onlyMasks : OnlyMasks s (reloadComparator source s) :=
  forAll_keeps (OnlyMasks s) (reloadTurn source) s (fun _ _ h => h.trans (onlyMasks_of_updMask (reloadTurn_quiet ..))) rfl

theorem exec_maskLimitReload_reloads (hlive : live s = true) (h : (s.masks[m]).reloading ≠ []) :
    exec (.maskLimitReload m) s = .next (reloadComparator (s.masks[m]).cfg.source s) :=
  (exec_live hlive rfl).trans (congrArg _ (if_neg (by simpa using h)))

theorem exec_maskLimitReload_idle (hlive : live s = true) (h : (s.masks[m]).reloading = []) : exec (.maskLimitReload m) s = .next s :=
  (exec_live hlive rfl).trans (congrArg _ (if_pos (by simpa using h)))

end

/-- Settles O36, by `setMask_eq` and `maskRasterDone`, by the turns of the sequencers that a stop names, and by the turns of the masks whose
limits are reloaded. -/
theorem masks : Obligations.Masks := by
  refine ⟨⟨?setMask, ?raster, ?idle⟩, ?events⟩
  case setMask =>
    intro n g block m cfg s hcommits hheader hitem hparse
    have hexec : exec (.setMask (.host n) block) s = .next (runCmd (.host n) 0x0016 block maskDeps setMask s) := exec_live hcommits.runs rfl
    constructor
    · intro hfits href
      rw [hexec, runCmd_start hcommits maskDeps (setMask_starts hheader hitem hparse hfits href)]
    · intro hfull
      refine ⟨_, hexec, ?_⟩
      rw [runCmd_capacity hcommits maskDeps (setMask_full hheader hitem hparse hfull)]
      exact ⟨finish_masks .., rfl⟩
  case raster =>
    intro m cfg s hlive hraster hruns
    exact ⟨fun hgood => ⟨_, exec_live hlive rfl, (maskRasterDone_loads hraster hruns hgood).updMask⟩,
      fun r k hbad => ⟨_, exec_live hlive rfl, (maskRasterDone_forgets hraster hruns hbad).updMask⟩⟩
  case idle => exact fun m s hlive hidle => (exec_live hlive rfl).trans (congrArg _ (maskRasterDone_idle hidle))
  case events =>
    intro m s hlive x
    have hexec : exec (.maskStop m) s = .next (maskStop m s) := exec_live hlive rfl
    refine ⟨fun v c as hstop hc => ⟨maskStop m s, hexec, ?_⟩, fun v c as hstop hc => ?waits, fun hnone => ?noStop,
      fun l hlast hon hgap => exec_violEpisodeEnd_ends hlive hlast hon hgap, fun l hlast hgap => exec_violEpisodeEnd_lasts hlive hlast hgap,
      fun column hon hcolumn => ⟨?error, maskTested_of_reloading ..⟩, fun hdamaged => ?reload,
      fun hwhole => exec_maskLimitReload_idle hlive hwhole⟩
    · rw [maskStop_commits hstop hc]
      exact ⟨congrArg Mask.stop (updMask_get _), fun a ha harmed => stopTurns_armed hstop ha harmed,
        fun a ha => stopTurns_stays hstop ha⟩
    case waits => rw [hexec, maskStop_waits hstop hc]
    case noStop => rw [hexec, maskStop, hnone]
    case error => exact (exec_live hlive rfl).trans (if_pos (by simpa using ⟨hon, hcolumn⟩))
    case reload =>
      refine ⟨_, exec_maskLimitReload_reloads hlive hdamaged, fun k hk => ?_, fun k hk => ?_, reloadComparator_onlyMasks⟩
      · rw [reloadComparator_get, Mask.reloaded, if_pos hk]
      · rw [reloadComparator_get, Mask.reloaded, if_neg hk]

end Sys2Proof.Machine
end

section
/-!
The refutation of O55: an engine may be the free reserve under SELFTEST and yet be the one that is to take a failed engine's share over. The
statement's clause on a reserve that fails SELFTEST leaves that share out.
-/
namespace Sys2Proof.Machine

/-- Engine 0 of service 0 has failed, and engine 5 is to take its share over. Engine 5 is also the reserve of pair 0, which SELFTEST is on,
and no other pair has a reserve (R305, R307, R309): an earlier SELFTEST of the pair may have left it so, as `nextTested` passes over no
engine that a share waits for. -/
def wantedReserve : State :=
  { State.reset with
    eng := { Eng.reset with retired := [0], reserve := Eng.reset.reserve.set 0 (some 5), moving := [(0, 5, 0)], selftest := some 0 }
    insts := upd State.reset.insts 0 fun x => { x with state := .running, engines := [0] } }

theorem wantedReserve_live : live wantedReserve = true := by decide +kernel

theorem wantedReserve_running : (wantedReserve.insts[(0 : Fin 16)]).state = .running := by decide +kernel

theorem wantedReserve_serves : servedBy wantedReserve 5 = none := by decide +kernel

/-- Engine 5 fails SELFTEST: no reserve is left to hand the share of engine 0 on to, so the service fails (R308). -/
theorem selftestDone_wantedReserve : ((selftestDone 0 (some 0) wantedReserve).insts[(0 : Fin 16)]).state = .failed := by decide +kernel

/-- Refutes O55: its clause on a reserve that fails SELFTEST says that no service changes. Where that reserve is to take a failed engine's
share over, its retirement hands the share on, and with no reserve free the service goes to FAILED (R307, R308). -/
theorem not_enginesFailAndRotate : ¬ Obligations.EnginesFailAndRotate := by
  intro h
  obtain ⟨-, -, -, -, -, hpairs⟩ := h wantedReserve wantedReserve_live
  obtain ⟨-, -, -, htested⟩ := hpairs 0
  obtain ⟨-, -, hfailed⟩ := htested 5 rfl rfl rfl
  obtain ⟨t, hclaimed, -, -, hinsts, -⟩ := hfailed 0 (by decide) wantedReserve_serves
  have hdone : exec (.selftestDone 0 (some 0)) wantedReserve = .next (selftestDone 0 (some 0) wantedReserve) :=
    exec_live wantedReserve_live rfl
  have hstate := selftestDone_wantedReserve
  rw [Host.Outcome.next.inj (hdone.symm.trans hclaimed), hinsts, wantedReserve_running] at hstate
  cases hstate

end Sys2Proof.Machine
end

section
/-!
SUPPORT and the proof of O56: a service switches, a spectrum is delivered, a measurement record is written, and a segment is added to an
average (R313, R318, R326 to R331).
-/
namespace Sys2Proof.Machine

/-! ### One service changed -/

section
variable {i : Fin 16} {s t u : State}

theorem updInst_get (f : Inst → Inst) : (updInst i f s).insts[i] = f s.insts[i] := upd_get ..

theorem updInst_get_ne {k : Fin 16} (h : k ≠ i) (f : Inst → Inst) : (updInst i f s).insts[k] = s.insts[k] := upd_get_ne _ _ _ _ h

theorem updInst_updInst (f g : Inst → Inst) : updInst i g (updInst i f s) = updInst i (fun x => g (f x)) s := by
  unfold updInst
  rw [upd_upd]

theorem updInst_id {f : Inst → Inst} (h : f s.insts[i] = s.insts[i]) : updInst i f s = s := by
  unfold updInst
  rw [upd_id _ _ _ h]

/-! ### What the outputs of a service reach -/

/-- `t` differs from `s` at most in what takes the outputs of a service: felts, masks, sequencers, trigger units, streams, what is told of,
and events. -/
def OnlyReceivers (s t : State) : Prop :=
  Safety.Quiet { s with
    felts := t.felts, masks := t.masks, seqs := t.seqs, trigouts := t.trigouts, timers := t.timers, brim := t.brim, tus := t.tus,
    hif := { s.hif with streams := t.hif.streams } } t

namespace OnlyReceivers

theorem refl (s : State) : OnlyReceivers s s := rfl

theorem trans (h : OnlyReceivers s t) (k : OnlyReceivers t u) : OnlyReceivers s u := by
  unfold OnlyReceivers Safety.Quiet at *
  rw [k, h]

theorem of_quiet (h : Safety.Quiet s t) : OnlyReceivers s t := by
  unfold OnlyReceivers Safety.Quiet at *
  rw [h]

theorem of_told (h : Told s t) : OnlyReceivers s t := by
  have honly := h.only
  unfold OnlyReceivers Safety.Quiet at *
  rw [honly]

theorem of_feltWork {f : Fin 16} (h : FeltWork f s t) : OnlyReceivers s t := by
  unfold OnlyReceivers FeltWork Safety.Quiet at *
  rw [h]
  rfl

theorem updMask (m : Fin 64) (f : Mask → Mask) : OnlyReceivers s (updMask m f s) := rfl

theorem updAs (a : Fin 4) (f : Seq → Seq) : OnlyReceivers s (updAs a f s) := rfl

theorem setStream (j : Fin 64) (x : Option Stream) : OnlyReceivers s (setStream j x s) := rfl

theorem raise (h : OnlyReceivers s t) (src : Fin 256) (sev : Nat) (ts : TS96) (data : List Byte) :
    OnlyReceivers s (raise src sev ts data t) := h.trans (.of_quiet (raise_quiet ..))

theorem ite {p : Prop} [Decidable p] (h : OnlyReceivers s t) (k : OnlyReceivers s u) : OnlyReceivers s (if p then t else u) := by
  split
  · exact h
  · exact k

theorem forAll {n : Nat} {f : Fin n → State → State} (h : ∀ j s, OnlyReceivers s (f j s)) (s : State) : OnlyReceivers s (forAll n f s) :=
  forAll_keeps (OnlyReceivers s) f s (fun j t ht => ht.trans (h j t)) (.refl s)

theorem foldl {α : Type} {f : State → α → State} (h : ∀ s a, OnlyReceivers s (f s a)) (l : List α) (s : State) :
    OnlyReceivers s (l.foldl f s) := foldl_keeps (OnlyReceivers s) f l s (fun t a ht => ht.trans (h t a)) (.refl s)

theorem forStreams {kind : StreamKind} {source : Nat} {f : Fin 64 → Stream → State → State} (h : ∀ j st s, OnlyReceivers s (f j st s))
    (s : State) : OnlyReceivers s (forStreams kind source f s) :=
  forAll (fun j s => by
    split
    · exact .ite (h ..) (.refl s)
    · exact .refl s) s

/-- A service changed on both sides. -/
theorem updInst (h : OnlyReceivers s t) (i : Fin 16) (f : Inst → Inst) : OnlyReceivers (updInst i f s) (updInst i f t) := by
  unfold OnlyReceivers Safety.Quiet at *
  rw [h]
  rfl

theorem insts (h : OnlyReceivers s t) : t.insts = s.insts := by rw [h]
theorem inst (h : OnlyReceivers s t) (k : Fin 16) : t.insts[k] = s.insts[k] := by rw [h.insts]
theorem slices (h : OnlyReceivers s t) : t.slices = s.slices := by rw [h]
theorem eng (h : OnlyReceivers s t) : t.eng = s.eng := by rw [h]
theorem mem (h : OnlyReceivers s t) : t.mem = s.mem := by rw [h]

end OnlyReceivers

/-- SKIPS of a service after an advance (R237, R315). -/
def Inst.skipped (k : Nat) (x : Inst) : Inst := { x with skips := statAdd x.skips k, skipOvf := x.skipOvf || statSticks x.skips k }

theorem countSkips_receivers (i : Fin 16) (k : Nat) (s : State) : OnlyReceivers (updInst i (Inst.skipped k) s) (countSkips i k s) :=
  .ite (.of_quiet (raiseNow_quiet ..)) (.refl _)

theorem sourceEvent_receivers (src : Nat) (x : TS96) (place : PlaceFlags) (remote : Bool) (due : Nat) :
    OnlyReceivers s (sourceEvent src x place remote due s) := .of_told (sourceEvent_told ..)

/-! ### Streams (R234) -/

theorem countGap_receivers (st : Stream) : OnlyReceivers s (countGap st s) := by
  unfold countGap
  split
  · rfl
  · rfl

theorem resumeStream_receivers (j : Fin 64) : OnlyReceivers s (resumeStream j s) := by
  have hgap : ∀ g, OnlyReceivers s (putGap j g s) := fun g => by
    unfold putGap
    split
    · exact .refl s
    · exact .raise ((OnlyReceivers.setStream ..).trans (countGap_receivers _)) ..
  unfold resumeStream
  split
  · split
    · exact .ite (hgap _) (.refl s)
    · exact .refl s
  · exact .refl s

theorem pushUnit_receivers (j : Fin 64) (x : StreamUnit) : OnlyReceivers s (pushUnit j x s) := by
  have hresumed := resumeStream_receivers (s := s) j
  unfold pushUnit
  dsimp only
  split
  · exact hresumed
  · exact .ite hresumed (.ite (hresumed.trans (.setStream ..)) (hresumed.trans (.setStream ..)))

end

/-! ### Segments that a service reads (R326) -/

section
variable {i : Fin 16} {s : State}

/-- `t` differs from `s` at most in memory. -/
def OnlyMem (s t : State) : Prop := t = { s with mem := t.mem }

theorem engRelease_onlyMem (seq : Nat) (s : State) : OnlyMem s (engRelease seq s) := rfl

/-- Letting go of a queue empties it, and changes memory besides (R313). -/
theorem dropQueue_onlyMem (i : Fin 16) (s : State) : OnlyMem (updInst i (fun x => { x with queue := [] }) s) (dropQueue i s) :=
  foldl_keeps (OnlyMem _) _ _ _ (fun t seq ht => by
    unfold OnlyMem at *
    rw [engRelease_onlyMem, ht]) rfl

theorem dropQueue_get : (dropQueue i s).insts[i] = { s.insts[i] with queue := [] } := by
  rw [dropQueue_onlyMem]
  exact updInst_get _

/-! ### Switch (R313) -/

/-- A service whose engines are loaded for settings `c`. -/
def Inst.loaded (c : SvcCfg) (n : Nat) (throttled : Bool) (x : Inst) : Inst :=
  { x with cfg := some c, next := none, switchAt := n, state := .running, sums := [], added := 0, leftOut := 0, stopped := false,
           skipping := false, qual := 0, stepSeen := false, moved := false, faults := [], mayDrop := throttled }

/-- A service that starts its hops anew. -/
def Inst.restarted (hop : Nat) (last : Option Nat) (faults : List (Nat × Nat)) (armed : List Detector) (x : Inst) : Inst :=
  { x with restartAt := hop, lastHop := last, faults := faults, armed := armed }

theorem spRestart_eq (i : Fin 16) (n : Nat) (s : State) : ∃ hop last faults armed,
    spRestart i n s = updInst i (Inst.restarted hop last faults armed) s := by
  unfold spRestart
  split
  · exact ⟨_, _, _, _, rfl⟩
  · exact ⟨_, _, _, _, (updInst_id (f := Inst.restarted (s.insts[i]).restartAt (s.insts[i]).lastHop (s.insts[i]).faults (s.insts[i]).armed)
      rfl).symm⟩

theorem serviceSwitch_idle (h : (s.insts[i]).next = none) : serviceSwitch i s = s := by
  unfold serviceSwitch
  rw [h]

theorem serviceSwitch_loads {c : SvcCfg} (h : (s.insts[i]).next = some c) : ∃ hop last faults armed, Safety.Quiet
    (updInst i (fun x => (x.loaded c (nextSample s) s.eng.throttled).restarted hop last faults armed) (dropQueue i s))
    (serviceSwitch i s) := by
  obtain ⟨hop, last, faults, armed, hrestart⟩ :=
    spRestart_eq i (nextSample s) (updInst i (Inst.loaded c (nextSample s) s.eng.throttled) (dropQueue i s))
  rw [updInst_updInst] at hrestart
  refine ⟨hop, last, faults, armed, ?_⟩
  rw [← hrestart]
  unfold serviceSwitch
  rw [h]
  exact raiseNow_quiet ..

section
variable {c : SvcCfg} (h : (s.insts[i]).next = some c)
include h

theorem serviceSwitch_get : ∃ hop last faults armed, (serviceSwitch i s).insts[i] =
    (({ s.insts[i] with queue := [] } : Inst).loaded c (nextSample s) s.eng.throttled).restarted hop last faults armed := by
  obtain ⟨hop, last, faults, armed, hquiet⟩ := serviceSwitch_loads h
  refine ⟨hop, last, faults, armed, ?_⟩
  rw [hquiet, ← dropQueue_get]
  exact updInst_get _

theorem serviceSwitch_get_ne {k : Fin 16} (hk : k ≠ i) : (serviceSwitch i s).insts[k] = s.insts[k] := by
  obtain ⟨hop, last, faults, armed, hquiet⟩ := serviceSwitch_loads h
  rw [hquiet, dropQueue_onlyMem]
  exact (updInst_get_ne hk _).trans (updInst_get_ne hk _)

theorem serviceSwitch_frame : (serviceSwitch i s).slices = s.slices ∧ (serviceSwitch i s).hostMem = s.hostMem ∧
    (serviceSwitch i s).eng = s.eng := by
  obtain ⟨hop, last, faults, armed, hquiet⟩ := serviceSwitch_loads h
  rw [hquiet, dropQueue_onlyMem]
  exact ⟨rfl, rfl, rfl⟩

end

end

/-! ### A spectrum's hits in its felt (R277, R283, R285, R322) -/

theorem counterLost_work (f : Fin 16) (bin : Nat) (s : State) : FeltWork f s (counterLost f bin s) :=
  (FeltWork.updFelt ..).trans (.of_quiet f (raiseFelt_quiet ..))

theorem feltParity_work (f : Fin 16) (bins : List Nat) (s : State) : FeltWork f s (feltParity f bins s) := by
  unfold feltParity
  split
  · exact foldl_feltWork (fun s b => counterLost_work f b s) bins s
  · exact .refl f s

theorem feltHit_work (f : Fin 16) (bin : Nat) (s : State) : FeltWork f s (feltHit f bin s) := by
  unfold feltHit
  extract_lets x old t n
  have ht : FeltWork f s t := by
    unfold t
    split
    · exact .refl f s
    · exact (FeltWork.updFelt ..).trans (toBaked_work ..)
  exact ht.trans (.updFelt ..)

theorem feltCount_work (f : Fin 16) (late : Bool) (hits outside clamp : Nat) (s : State) :
    FeltWork f s (feltCount f late hits outside clamp s) := by
  have hreport : ∀ (b : Bool) (which : Nat) (t : State), FeltWork f s t → FeltWork f s (if b then raiseFelt f 2 which 0 t else t) :=
    fun b which t ht => by
      split
      · exact ht.trans (.of_quiet f (raiseFelt_quiet ..))
      · exact ht
  exact hreport _ _ _ (hreport _ _ _ (hreport _ _ _ (.updFelt ..)))

theorem meetAging_work (f : Fin 16) (a : Nat) (s : State) : FeltWork f s (meetAging f a s) := by
  unfold meetAging
  split
  · exact .updFelt ..
  · exact .updFelt ..

theorem spectralMoments_work (f : Fin 16) (ts : TS96) (fuel : Nat) (s : State) : FeltWork f s (spectralMoments f ts fuel s) := by
  induction fuel generalizing s with
  | zero => exact .refl f s
  | succ fuel ih =>
    unfold spectralMoments
    dsimp only
    split
    · exact (FeltWork.updFelt ..).trans (ih _)
    · split
      · exact (meetAging_work ..).trans (ih _)
      · exact .refl f s

theorem spectralFelt_work (f : Fin 16) (c : SpCfg) (p : Spectrum) (s : State) : FeltWork f s (spectralFelt f c p s) := by
  unfold spectralFelt
  dsimp only
  split
  · refine ((spectralMoments_work ..).trans (.updFelt ..)).trans (foldl_feltWork (fun t col => ?_) _ _)
    split
    · refine FeltWork.trans ?_ (feltCount_work ..)
      split
      · exact toBaked_work ..
      · exact feltHit_work ..
    · exact .refl f t
  · exact .refl f s

/-! ### A spectrum through the masks (R291 to R293) -/

section
variable {m : Fin 64} {s : State}

theorem maskSwitch_receivers (n : Nat) : OnlyReceivers s (maskSwitch m n s) := by
  unfold maskSwitch
  split
  · exact .ite (.updMask ..) (.refl s)
  · exact .refl s

theorem maskCount_receivers (tested viol : Nat) : OnlyReceivers s (maskCount m tested viol s) := by
  have hraise : ∀ (b : Bool) (which : Nat) (t : State), OnlyReceivers s t → OnlyReceivers s
      (if b then raiseMask m (s.masks[m]).cfg.source 4 which 0 (tsNow t) t else t) := fun b which t ht => .ite (ht.raise ..) ht
  exact .ite (hraise _ _ _ (hraise _ _ _ (.updMask ..))) (.refl s)

theorem maskEpisode_receivers (lc n : Nat) (x : TS96) : OnlyReceivers s (maskEpisode m lc n x s) :=
  .ite ((OnlyReceivers.updMask ..).raise ..) (.updMask ..)

theorem maskCapture_receivers (c : MaskCfg) (delay : Nat) (x : TS96) : OnlyReceivers s (maskCapture m c delay x s) :=
  .ite (.foldl (fun t _ => .ite (.updAs ..) (.refl t)) _ _) (.refl s)

theorem spectralMasks_receivers (i : Fin 16) (p : Spectrum) : OnlyReceivers s (spectralMasks i p s) := by
  refine .forAll (fun m t => ?_) s
  extract_lets u sw late x tested viols v
  have hu : OnlyReceivers t u := maskSwitch_receivers _
  have hv : OnlyReceivers t v := .ite hu (hu.trans (maskCount_receivers ..))
  exact .ite (.ite hv (.trans (.ite hv (hv.trans (maskEpisode_receivers ..))) (maskCapture_receivers ..))) hu

end

/-! ### A spectrum's trigger outputs (R323) -/

/-- A service whose trigger outputs stand otherwise. -/
def Inst.withArmed (armed : List Detector) (x : Inst) : Inst := { x with armed := armed }

theorem spectralTrig_receivers (i : Fin 16) (j : Nat) (t : SpTrig) (p : Spectrum) (s : State) : ∃ armed,
    OnlyReceivers (updInst i (Inst.withArmed armed) s) (spectralTrig i j t p s) := by
  have hsame : updInst i (Inst.withArmed (s.insts[i]).armed) s = s := updInst_id rfl
  unfold spectralTrig
  dsimp only
  split
  · exact ⟨(s.insts[i]).armed, by rw [hsame]; exact .refl s⟩
  · exact ⟨_, .ite (.ite (.raise (sourceEvent_receivers ..) ..) (sourceEvent_receivers ..)) (.refl _)⟩

theorem spectralTrigs_receivers (i : Fin 16) (l : List (SpTrig × Nat)) (p : Spectrum) (s : State) : ∃ armed,
    OnlyReceivers (updInst i (Inst.withArmed armed) s) (l.foldl (fun s t => spectralTrig i t.2 t.1 p s) s) := by
  refine foldl_keeps (fun t => ∃ armed, OnlyReceivers (updInst i (Inst.withArmed armed) s) t) _ l s (fun t a ⟨armed, h⟩ => ?_) ?_
  · obtain ⟨new, hnew⟩ := spectralTrig_receivers i a.2 a.1 p t
    have hboth := h.updInst i (Inst.withArmed new)
    rw [updInst_updInst] at hboth
    exact ⟨new, hboth.trans hnew⟩
  · exact ⟨(s.insts[i]).armed, by rw [updInst_id rfl]; exact .refl s⟩

/-! ### SPECTRUM_DELIVER (R315, R318) -/

/-- A service that has delivered the spectrum of a hop. -/
def Inst.deliveredAt (hop : Nat) (throttled : Bool) (x : Inst) : Inst :=
  { x with lastHop := some hop, mayDrop := throttled, faults := x.faults.filter fun f => decide (hop < f.1) }

section
variable {i : Fin 16} {s : State} {hop : Nat}

theorem spectrumDeliver_other (h : ∀ c, (s.insts[i]).cfg ≠ some (.spectral c)) : spectrumDeliver i hop s = s := by
  unfold spectrumDeliver
  dsimp only
  split
  next c hc => exact absurd hc (h c)
  next => rfl

variable {c : SpCfg} (hcfg : (s.insts[i]).cfg = some (.spectral c))
include hcfg

theorem spectrumDeliver_silent (h : delivers s.insts[i] hop = false ∨ hopDue s.insts[i] c hop s = false) : spectrumDeliver i hop s = s := by
  unfold spectrumDeliver
  rcases h with h | h
  all_goals simp only [hcfg, h, Bool.false_and, Bool.and_false, Bool.false_eq_true, if_false]

theorem spectrumDeliver_delivers (hruns : delivers s.insts[i] hop = true) (hdue : hopDue s.insts[i] c hop s = true) : ∃ k armed,
    OnlyReceivers (updInst i (fun x => ((x.skipped k).deliveredAt hop s.eng.throttled).withArmed armed) s) (spectrumDeliver i hop s) := by
  unfold spectrumDeliver
  simp only [hcfg, hruns, hdue, Bool.and_self, if_true]
  generalize makeSpectrum i.val s.insts[i] c hop s = p
  have hcounted := (countSkips_receivers i p.skipped s).updInst i (Inst.deliveredAt hop s.eng.throttled)
  have hfelt := hcounted.trans (.of_feltWork (spectralFelt_work ⟨8 + i.val % 8, by omega⟩ c p _))
  obtain ⟨armed, htrigs⟩ := spectralTrigs_receivers i c.trigs.zipIdx p (spectralMasks i p _)
  have htested := (hfelt.trans (spectralMasks_receivers i p)).updInst i (Inst.withArmed armed)
  rw [updInst_updInst, updInst_updInst] at htested
  exact ⟨p.skipped, armed, (htested.trans htrigs).trans (.forStreams (fun _ _ _ => pushUnit_receivers ..) _)⟩

end

/-! ### Values of a measurement (R328) -/

theorem topBase_quiet (l : List Int) (s : State) : Safety.Quiet s (topBase l s).2 := by
  unfold topBase halfMode
  dsimp only
  split <;> rfl

theorem ampRatio_quiet (x amp : Rat) (s : State) : Safety.Quiet s (ampRatio x amp s).2 := by
  unfold ampRatio
  split <;> rfl

/-- Measuring a segment draws free values only (logs 44 and 45). -/
theorem measure_quiet (c : MsCfg) (g : Segment) (s : State) : Safety.Quiet s (measure c g s).2 := by
  have href : ∀ (l : List Int) (u : State), Safety.Quiet u (if c.refChannel = 0xFF then ((0, 0, false), u) else topBase l u).2 := fun l u => by
    split
    · exact quiet_refl u
    · exact topBase_quiet l u
  exact quiet_trans (topBase_quiet _ s) (quiet_trans (ampRatio_quiet _ _ _) (quiet_trans (ampRatio_quiet _ _ _) (href _ _)))

/-! ### MEASURE_RECORD (R326 to R329) -/

theorem raiseMs_receivers (i cause seq : Nat) (s : State) : OnlyReceivers s (raiseMs i cause seq s) := .of_quiet (raiseNow_quiet ..)

theorem limitsTested_receivers (n : Fin 4) (i : Fin 16) (c : MsCfg) (seq : Nat) (vals : List (W32 × Bool)) (moved : Bool) (s : State) :
    OnlyReceivers s (limitsTested n i c seq vals moved s) := by
  unfold limitsTested
  refine .foldl (fun t lim => ?_) _ s
  split
  · split
    · exact (sourceEvent_receivers ..).trans (raiseMs_receivers ..)
    · exact .refl t
  · exact .refl t

/-- A record depends on the state through the sample clock only. -/
theorem measBytes_of_clk {s t : State} (h : t.clk = s.clk) (c : MsCfg) (g : Segment) (vals : List (W32 × Bool)) (moved gone fallback : Bool) :
    measBytes c g vals moved gone fallback t = measBytes c g vals moved gone fallback s := by
  unfold measBytes secPerSample fsMilli
  rw [h]

/-- The values of a segment's record, and the state once they are known: of a segment that is gone there are none (R326, R327). -/
def recordValues (c : MsCfg) (g : Segment) (s : State) : (List Meas × Bool) × State :=
  if g.retention != .retained then ((List.replicate 24 Meas.none_, false), s) else measure c g s

/-- The bytes of a segment's record (R327). -/
def recordBody (c : MsCfg) (g : Segment) (moved : Bool) (s : State) : List Byte :=
  let r := recordValues c g s
  measBytes c g (r.1.1.map measWord) moved (g.retention != .retained) r.1.2 r.2

theorem recordValues_quiet (c : MsCfg) (g : Segment) (s : State) : Safety.Quiet s (recordValues c g s).2 := by
  unfold recordValues
  split
  · exact quiet_refl s
  · exact measure_quiet ..

theorem recordBody_retained (c : MsCfg) {g : Segment} (h : g.retention = .retained) (moved : Bool) (s : State) :
    recordBody c g moved s = measBytes c g ((measure c g s).1.1.map measWord) moved false (measure c g s).1.2 s := by
  have hclk : (measure c g s).2.clk = s.clk := by rw [measure_quiet]
  have hkept : (g.retention != .retained) = false := by rw [h]; rfl
  unfold recordBody recordValues
  rw [hkept, if_neg Bool.false_ne_true]
  exact measBytes_of_clk hclk ..

section
variable {s : State}

theorem findSeg_updSeg_same {f : Segment → Segment} (hf : ∀ g, (f g).seq = g.seq) {k : Nat} {g : Segment} (h : findSeg s k = some g) :
    findSeg (updSeg k f s) k = some (f g) := by
  have hnumber : g.seq = k := by simpa using List.find?_some h
  rw [findSeg_updSeg hf, h]
  exact congrArg some (if_pos hnumber)

/-- A segment that a reader has let go of. -/
def Segment.letGo (g : Segment) : Segment := settleRelease { g with engReaders := g.engReaders - 1 }

/-- A segment with its measurement record. -/
def Segment.withRecord (body : List Byte) (g : Segment) : Segment := { g with meas := body }

theorem letGo_fields (g : Segment) : g.letGo.seq = g.seq ∧ g.letGo.meas = g.meas ∧ g.letGo.engReaders = g.engReaders - 1 := by
  unfold Segment.letGo settleRelease
  split
  all_goals exact ⟨rfl, rfl, rfl⟩

theorem engRelease_findSeg {k : Nat} {g : Segment} (h : findSeg s k = some g) : findSeg (engRelease k s) k = some g.letGo :=
  findSeg_updSeg_same (f := Segment.letGo) (fun g => (letGo_fields g).1) h

/-- A service that has written a record. -/
def Inst.measured (rest : List Nat) (x : Inst) : Inst := { x with queue := rest, moved := false }

section
variable {n : Fin 4} {i : Fin 16} (hi : i = ⟨8 + n.val, by omega⟩)
include hi

theorem measureRecord_empty (h : (s.insts[i]).queue = []) : measureRecord n s = s := by
  subst hi
  unfold measureRecord
  dsimp only
  split
  next hqueue => rw [h] at hqueue; cases hqueue
  next => rfl

variable {c : MsCfg} {g : Segment} {seq : Nat} {rest : List Nat} (hcfg : (s.insts[i]).cfg = some (.measure c))
  (hqueue : (s.insts[i]).queue = seq :: rest) (hruns : (s.insts[i]).state = .running) (hnext : (s.insts[i]).next = none)
  (hseg : findSeg s seq = some g)
include hcfg hqueue hruns hnext hseg

/-- MSn writes the record into the segment and lets it go, and what takes a service's outputs is told. -/
theorem measureRecord_writes : ∃ t,
    OnlyReceivers (updInst i (Inst.measured rest)
      (updSeg seq (Segment.withRecord (recordBody c g (s.insts[i]).moved s)) (recordValues c g s).2)) t ∧
    measureRecord n s = engRelease seq t := by
  subst hi
  unfold measureRecord
  simp only [hcfg, hqueue, hruns, hnext, hseg]
  exact ⟨_, .trans (.forStreams (fun _ _ _ => pushUnit_receivers ..) _) (.ite (raiseMs_receivers ..) (limitsTested_receivers ..)), rfl⟩

theorem measureRecord_frame : (measureRecord n s).insts = upd s.insts i (Inst.measured rest) ∧ (measureRecord n s).slices = s.slices := by
  obtain ⟨t, ht, hdone⟩ := measureRecord_writes hi hcfg hqueue hruns hnext hseg
  have hvalues := recordValues_quiet c g s
  rw [hdone]
  exact ⟨ht.insts.trans (by rw [hvalues]; rfl), ht.slices.trans (by rw [hvalues]; rfl)⟩

theorem measureRecord_seg :
    findSeg (measureRecord n s) seq = some (g.withRecord (recordBody c g (s.insts[i]).moved s)).letGo := by
  obtain ⟨t, ht, hdone⟩ := measureRecord_writes hi hcfg hqueue hruns hnext hseg
  have hvalues : findSeg (recordValues c g s).2 seq = some g :=
    (findSeg_of_mem (congrArg State.mem (recordValues_quiet c g s) :) seq).trans hseg
  have hwritten : findSeg t seq = some (g.withRecord (recordBody c g (s.insts[i]).moved s)) :=
    (findSeg_of_mem ht.mem seq).trans (findSeg_updSeg_same (f := Segment.withRecord _) (fun _ => rfl) hvalues)
  rw [hdone]
  exact engRelease_findSeg hwritten

end

/-! ### AVERAGE_ADD (R331) -/

/-- A service that has added a segment to its average. -/
def Inst.averaged (c : RaCfg) (g : Segment) (seq : Nat) (rest : List Nat) (x : Inst) : Inst :=
  { x with
    queue := rest, added := x.added + 1, lastSeq := seq,
    firstSeq := if x.added = 0 then seq else x.firstSeq, firstT := if x.added = 0 then g.t else x.firstT,
    sums := if x.added = 0 then averageData c g else x.sums.zipWith (fun a b => a.zipWith (· + ·) b) (averageData c g),
    qual := x.qual ||| orBytes (((List.range 8).filter fun ch => c.channels.getLsbD ch).flatMap (sideQuality g)),
    stepSeen := x.stepSeen || g.flags.getLsbD 10 }

/-- RAn with a segment added, which it has let go of. -/
def averageJoined (c : RaCfg) (g : Segment) (seq : Nat) (rest : List Nat) (i : Fin 16) (s : State) : State :=
  engRelease seq (updInst i (Inst.averaged c g seq rest) s)

theorem averageJoined_get (c : RaCfg) (g : Segment) (seq : Nat) (rest : List Nat) (i : Fin 16) (s : State) :
    (averageJoined c g seq rest i s).insts[i] = (s.insts[i]).averaged c g seq rest := updInst_get (s := s) _

/-- A service whose average is complete. -/
def Inst.averageEnded (again : Bool) (x : Inst) : Inst :=
  { x with sums := [], added := 0, leftOut := 0, qual := 0, stepSeen := false, moved := false, stopped := !again }

theorem raiseRa_receivers (i cause seq : Nat) (s : State) : OnlyReceivers s (raiseRa i cause seq s) := .of_quiet (raiseNow_quiet ..)

theorem averageComplete_get (n : Fin 4) (i : Fin 16) (c : RaCfg) (g : Segment) (s : State) : ∃ x : Inst,
    x.queue = (s.insts[i]).queue ∧
    (averageComplete n i c g s).insts[i] = if c.again then x.averageEnded true else { x.averageEnded false with queue := [] } := by
  unfold averageComplete
  extract_lets x body told place sent ended
  have htold : (told.insts[i]).queue = (s.insts[i]).queue := by
    unfold told
    split
    · exact congrArg Inst.queue (((OnlyReceivers.forStreams (fun _ _ _ => pushUnit_receivers ..) s).trans (raiseRa_receivers ..)).inst i)
    · have hlost := ((countSkips_receivers i 1 s).trans (raiseRa_receivers i.val 1 x.lastSeq _)).inst i
      rw [hlost, updInst_get]
      rfl
  have hsent : (sent.insts[i]).queue = (told.insts[i]).queue := congrArg Inst.queue ((sourceEvent_receivers ..).inst i)
  have hended : ended.insts[i] = (sent.insts[i]).averageEnded c.again := updInst_get _
  refine ⟨sent.insts[i], hsent.trans htold, ?_⟩
  cases hagain : c.again with
  | false =>
    rw [hagain] at hended
    exact dropQueue_get.trans (by rw [hended]; rfl)
  | true =>
    rw [hagain] at hended
    exact hended

section
variable {n : Fin 4} {i : Fin 16} (hi : i = ⟨12 + n.val, by omega⟩)
include hi

theorem averageAdd_empty (h : (s.insts[i]).queue = []) : averageAdd n s = s := by
  subst hi
  unfold averageAdd
  dsimp only
  split
  next hqueue => rw [h] at hqueue; cases hqueue
  next => rfl

variable {c : RaCfg} {g : Segment} {seq : Nat} {rest : List Nat} (hcfg : (s.insts[i]).cfg = some (.average c))
  (hqueue : (s.insts[i]).queue = seq :: rest) (hruns : (s.insts[i]).state = .running) (hnext : (s.insts[i]).next = none)
  (hseg : findSeg s seq = some g)
include hcfg hqueue hruns hnext hseg

theorem averageAdd_eq : averageAdd n s =
    if (s.insts[i]).added + 1 = c.count then averageComplete n i c g (averageJoined c g seq rest i s)
    else averageJoined c g seq rest i s := by
  have hadded : ((averageJoined c g seq rest i s).insts[i]).added = (s.insts[i]).added + 1 := congrArg Inst.added (averageJoined_get ..)
  rw [← hadded]
  subst hi
  unfold averageAdd
  simp only [hcfg, hqueue, hruns, hnext, hseg]
  rfl

end

/-! ### Reads before the work of a service -/

/-- A read of DRAM leaves the services alone. -/
theorem scrubbed_insts (r : ScrubResult) (s : State) : (scrubbed r s).insts = s.insts := by rw [scrubbed_onlyMarks]

theorem exec_spectrumDeliver (hlive : live s = true) {i : Fin 8} {hop : Nat} {r : SpectrumReads}
    (hform : WellFormed.instr (.spectrumDeliver i hop r) = true) : exec (.spectrumDeliver i hop r) s =
      .next (spectrumDeliver (Fin.castLE (by decide) i) hop (feltParity ⟨8 + i.val, by omega⟩ r.parity (scrubbed r.ecc s))) :=
  (exec_live hlive rfl).trans (if_pos hform)

/-- What the reads of a spectrum's delivery find is no matter of the services (R239, R281). -/
theorem spectrumReads_keeps (f : Fin 16) (r : SpectrumReads) (s : State) :
    (feltParity f r.parity (scrubbed r.ecc s)).insts = s.insts ∧ (feltParity f r.parity (scrubbed r.ecc s)).eng = s.eng := by
  rw [feltParity_work f r.parity (scrubbed r.ecc s), scrubbed_onlyMarks r.ecc s]
  exact ⟨rfl, rfl⟩

end

/-- Settles O56: what a switch loads, what a delivered spectrum, a record and an average leave of their service and of the rest
(`OnlyReceivers`), past reads of DRAM that touch no service. -/
theorem servicesAtWork : Obligations.ServicesAtWork := by
  intro s hlive
  refine ⟨fun i c hnext => ?switch, fun i hnext => (exec_live hlive rfl).trans (congrArg _ (serviceSwitch_idle hnext)), ?spectrum, ?measure,
    ?average⟩
  case switch =>
    obtain ⟨hop, last, faults, armed, hown⟩ := serviceSwitch_get hnext
    obtain ⟨hslices, hhost, heng⟩ := serviceSwitch_frame hnext
    refine ⟨serviceSwitch i s, exec_live hlive rfl, ?_, ?_, ?_, ?_, ?_, ?_, ?_, fun k hk => serviceSwitch_get_ne hnext hk, hslices, hhost, heng⟩
    all_goals
      rw [hown]
      rfl
  case spectrum =>
    intro i hop r s' hform hs' x
    obtain ⟨hinsts, heng⟩ := spectrumReads_keeps ⟨8 + i.val, by omega⟩ r s
    rw [← hs'] at hinsts heng
    have hx : s'.insts[(Fin.castLE (by decide) i : Fin 16)] = x := by rw [hinsts]
    have hexec := exec_spectrumDeliver hlive hform
    rw [← hs'] at hexec
    rw [hexec]
    refine ⟨fun c hcfg => ⟨fun hruns hdue => ?_, fun hno => ?_⟩, fun hother => ?_⟩
    · rw [← hx] at hcfg hruns hdue
      obtain ⟨k, armed, hdone⟩ := spectrumDeliver_delivers hcfg hruns hdue
      have hown := (hdone.inst (Fin.castLE (by decide) i)).trans (updInst_get _)
      rw [hx] at hown
      refine ⟨_, rfl, ?_, ?_, ?_, hdone.slices, hdone.eng.trans heng⟩
      all_goals
        rw [hown]
        rfl
    · rw [← hx] at hcfg hno
      rw [spectrumDeliver_silent hcfg hno]
    · rw [← hx] at hother
      rw [spectrumDeliver_other hother]
  case measure =>
    intro n i ecc s' hi hs'
    have hunit : i = ⟨8 + n.val, by omega⟩ := Fin.ext hi
    have hinsts : s'.insts = s.insts := by rw [hs', scrubbed_insts]
    have hexec : exec (.measureRecord { unit := n, ecc := ecc }) s = .next (measureRecord n s') := by
      rw [hs']
      exact exec_live hlive rfl
    rw [hexec, ← hinsts]
    refine ⟨fun hempty => by rw [measureRecord_empty hunit hempty], fun c g seq rest hcfg hqueue hruns hnext hseg => ?_⟩
    obtain ⟨hdone, hslices⟩ := measureRecord_frame hunit hcfg hqueue hruns hnext hseg
    have hown : (measureRecord n s').insts[i] = (s'.insts[i]).measured rest := by
      rw [hdone]
      exact upd_get ..
    refine ⟨_, rfl, by rw [hown]; rfl, by rw [hown]; rfl, fun k hk => ?_, hslices, fun hkept => ?_⟩
    · rw [hdone]
      exact upd_get_ne _ _ _ _ hk
    · obtain ⟨-, hmeas, hreaders⟩ := letGo_fields (g.withRecord (recordBody c g (s'.insts[i]).moved s'))
      refine ⟨_, measureRecord_seg hunit hcfg hqueue hruns hnext hseg, ?_, hreaders⟩
      rw [hmeas]
      refine (recordBody_retained c hkept ..).trans (measBytes_of_clk ?_ ..)
      rw [hs', scrubbed_onlyMarks]
  case average =>
    intro n i ecc s' hi hs'
    have hunit : i = ⟨12 + n.val, by omega⟩ := Fin.ext hi
    have hinsts : s'.insts = s.insts := by rw [hs', scrubbed_insts]
    have hexec : exec (.averageAdd { unit := n, ecc := ecc }) s = .next (averageAdd n s') := by
      rw [hs']
      exact exec_live hlive rfl
    rw [hexec, ← hinsts]
    refine ⟨fun hempty => by rw [averageAdd_empty hunit hempty], fun c g seq rest hcfg hqueue hruns hnext hseg hcount => ?_,
      fun c g seq rest hcfg hqueue hruns hnext hseg hcount => ?_⟩
    · rw [averageAdd_eq hunit hcfg hqueue hruns hnext hseg, if_neg hcount]
      have hown := averageJoined_get c g seq rest i s'
      refine ⟨_, rfl, ?_, ?_, ?_, ?_, fun hfirst => ?_, fun hlater => ?_, ?_⟩
      case refine_5 =>
        rw [hown]
        exact ⟨if_pos hfirst, if_pos hfirst, if_pos hfirst⟩
      case refine_6 =>
        rw [hown]
        exact ⟨if_neg hlater, if_neg hlater⟩
      all_goals
        rw [hown]
        rfl
    · rw [averageAdd_eq hunit hcfg hqueue hruns hnext hseg, if_pos hcount]
      obtain ⟨x, hrest, hown⟩ := averageComplete_get n i c g (averageJoined c g seq rest i s')
      rw [averageJoined_get] at hrest
      refine ⟨_, rfl, ?_⟩
      rw [hown]
      cases c.again with
      | false => exact ⟨rfl, rfl, rfl, fun _ => rfl, fun h => absurd h (by decide)⟩
      | true => exact ⟨rfl, rfl, rfl, fun h => absurd h (by decide), fun _ => hrest⟩

end Sys2Proof.Machine
end

section
/-!
SUPPORT. Operations that leave host memory alone (R371): all but those that write completions, event records, stream records and results.
One lemma per operation, in the order of the operations' definitions.
-/
namespace Sys2Proof.Machine

/-! ### Frames, branches and loops -/

theorem OnlyClk.hostMem {s t : State} (h : OnlyClk s t) : t.hostMem = s.hostMem := by rw [h]

theorem OnlyTimers.hostMem {s t : State} (h : OnlyTimers s t) : t.hostMem = s.hostMem := by rw [h]

theorem OnlyCuts.hostMem {s t : State} (h : OnlyCuts s t) : t.hostMem = s.hostMem := by rw [h]

theorem FeltWork.hostMem {f : Fin 16} {s t : State} (h : FeltWork f s t) : t.hostMem = s.hostMem := by rw [h]; rfl

@[simp] theorem ite_hostMem {p : Prop} [Decidable p] (t u : State) :
    (if p then t else u).hostMem = if p then t.hostMem else u.hostMem := apply_ite State.hostMem p t u

@[simp] theorem forAll_hostMem {n : Nat} {f : Fin n → State → State} (h : ∀ i s, (f i s).hostMem = s.hostMem) (s : State) :
    (forAll n f s).hostMem = s.hostMem := forAll_frame (·.hostMem) f s h

@[simp] theorem foldl_hostMem {α : Type} {f : State → α → State} (h : ∀ s a, (f s a).hostMem = s.hostMem) (l : List α) (s : State) :
    (l.foldl f s).hostMem = s.hostMem := foldl_frame (·.hostMem) f l s h

/-! ### Shared operations -/

@[simp] theorem fresh_hostMem (s : State) : (fresh s).2.hostMem = s.hostMem := rfl

@[simp] theorem notIdle_hostMem (n : Fin 8) (s : State) : (notIdle n s).hostMem = s.hostMem := rfl

@[simp] theorem istCycle_hostMem (s : State) : (istCycle s).hostMem = s.hostMem := by simp [istCycle]

@[simp] theorem istPart_hostMem (item : Fin 8) (part : Nat) (s : State) : (istPart item part s).hostMem = s.hostMem := by
  simp [istPart]

@[simp] theorem istFail_hostMem (item : Fin 8) (s : State) : (istFail item s).hostMem = s.hostMem := rfl

@[simp] theorem admitRefusal_hostMem (op : Nat) (status detail item : Nat) (s : State) :
    (admitRefusal op status detail item s).hostMem = s.hostMem := by
  unfold admitRefusal
  split <;> rfl

@[simp] theorem skipItem_hostMem (it : CfgItem) (status detail : Nat) (s : State) : (skipItem it status detail s).hostMem = s.hostMem := by
  simp [skipItem]

@[simp] theorem noteSetting_hostMem (op : Nat) (desc block : List Byte) (s : State) :
    (noteSetting op desc block s).hostMem = s.hostMem := by
  unfold noteSetting
  dsimp only
  split_ifs <;> rfl

@[simp] theorem settleMask_hostMem (m : Nat) (accepted : Bool) (s : State) : (settleMask m accepted s).hostMem = s.hostMem := by
  unfold settleMask
  split <;> rfl

/-! ### The host interface -/

@[simp] theorem abandonXfer_hostMem (s : State) (f : Fetched) : (abandonXfer s f).hostMem = s.hostMem := by
  unfold abandonXfer
  split <;> rfl

@[simp] theorem abandonAll_hostMem (s : State) : (abandonAll s).hostMem = s.hostMem := by simp [abandonAll]

@[simp] theorem closeLevels_hostMem (s : State) : (closeLevels s).hostMem = s.hostMem := by simp [closeLevels]

@[simp] theorem resetHif_hostMem (linkStays : Bool) (s : State) : (resetHif linkStays s).hostMem = s.hostMem := by simp [resetHif]

@[simp] theorem qpError_hostMem (n : Fin 64) (cause : Nat) (s : State) : (qpError n cause s).hostMem = s.hostMem := by simp [qpError]

@[simp] theorem passOver_hostMem (n : Fin 64) (s : State) : (passOver n s).hostMem = s.hostMem := by simp [passOver]

@[simp] theorem releaseHeld_hostMem (src : Fin 256) (s : State) : (releaseHeld src s).hostMem = s.hostMem := by
  unfold releaseHeld
  dsimp only
  split_ifs <;> rfl

@[simp] theorem dropWaiting_hostMem (src : Fin 256) (s : State) : (dropWaiting src s).hostMem = s.hostMem := by
  unfold dropWaiting
  split <;> rfl

@[simp] theorem writeEvqCfg_hostMem (cfg : W32) (s : State) : (writeEvqCfg cfg s).hostMem = s.hostMem := by simp [writeEvqCfg]

@[simp] theorem writeEvtMap_hostMem (base : Nat) (bytes : List Byte) (s : State) : (writeEvtMap base bytes s).hostMem = s.hostMem := by
  simp [writeEvtMap]

/-! ### Access levels -/

@[simp] theorem raiseAcc_hostMem (l : Fin 2) (sev cause : Nat) (s : State) : (raiseAcc l sev cause s).hostMem = s.hostMem :=
  raiseNow_hostMem ..

@[simp] theorem restartDelays_hostMem (s : State) : (restartDelays s).hostMem = s.hostMem := rfl

/-! ### Flags -/

@[simp] theorem raiseClk_hostMem (src : Fin 256) (sev : Nat) (data : List Byte) (s : State) :
    (raiseClk src sev data s).hostMem = s.hostMem := raise_hostMem ..

@[simp] theorem coastFrom_hostMem (back : Nat) (s : State) : (coastFrom back s).hostMem = s.hostMem := by
  unfold coastFrom
  split <;> rfl

@[simp] theorem coastTo_hostMem (last : Nat) (s : State) : (coastTo last s).hostMem = s.hostMem := rfl

@[simp] theorem markSwitch_hostMem (s : State) : (markSwitch s).hostMem = s.hostMem := by
  unfold markSwitch
  split <;> rfl

@[simp] theorem checkAligned_hostMem (s : State) : (checkAligned s).hostMem = s.hostMem := by
  unfold checkAligned
  dsimp only
  repeat' split
  all_goals simp

/-! ### Clocks -/

@[simp] theorem setBypass_hostMem (s : State) : (setBypass s).hostMem = s.hostMem := rfl

@[simp] theorem selectBand_hostMem (core : Fin 4) (pass : List Nat) (s : State) : (selectBand core pass s).hostMem = s.hostMem :=
  ((OnlyClk.refl s).selectBand core pass).hostMem

@[simp] theorem setHeld_hostMem (c : Fin 4) (x : Bool) (s : State) : (setHeld c x s).hostMem = s.hostMem := rfl

@[simp] theorem switchCore_hostMem (cause : Nat) (s : State) : (switchCore cause s).hostMem = s.hostMem := by simp [switchCore]

@[simp] theorem toBypass_hostMem (s : State) : (toBypass s).hostMem = s.hostMem := by simp [toBypass]

@[simp] theorem clearLocks_hostMem (s : State) : (clearLocks s).hostMem = s.hostMem := rfl

@[simp] theorem toRef_hostMem (r : RefState) (s : State) : (toRef r s).hostMem = s.hostMem := by
  unfold toRef
  split <;> rfl

@[simp] theorem reachLocked_hostMem (last : Nat) (s : State) : (reachLocked last s).hostMem = s.hostMem := by simp [reachLocked]

@[simp] theorem toFree_hostMem (back : Nat) (s : State) : (toFree back s).hostMem = s.hostMem := by simp [toFree]

@[simp] theorem refLost_hostMem (cause : Nat) (s : State) : (refLost cause s).hostMem = s.hostMem := by
  unfold refLost
  split <;> simp

@[simp] theorem finishReband_hostMem (s : State) : (finishReband s).hostMem = s.hostMem := by
  unfold finishReband
  split
  · split <;> simp
  · rfl

@[simp] theorem lockDeclared_hostMem (core : Fin 4) (s : State) :
    (lockDeclared core s).hostMem = s.hostMem := by
  unfold lockDeclared
  split
  · rfl
  · extract_lets held isActive _ _ coasted _ synt
    have hheld : held.hostMem = s.hostMem := by simp [held]
    have hcoasted : coasted.hostMem = s.hostMem := by
      unfold coasted
      split_ifs <;> exact hheld
    have hsynt : synt.hostMem = s.hostMem :=
  by
      unfold synt
      split_ifs <;> exact hcoasted
    rw [← hsynt]
    split
    · split_ifs <;> simp
    · split_ifs <;> simp
    · split_ifs <;> rfl
    · rfl

@[simp] theorem coreUnlock_hostMem (c : Fin 2) (s : State) : (coreUnlock c s).hostMem = s.hostMem := by
  unfold coreUnlock
  dsimp only
  split <;> simp

@[simp] theorem unlockDeclared_hostMem (core : Fin 4) (both : Bool) (s : State) : (unlockDeclared core both s).hostMem = s.hostMem := by
  simp [unlockDeclared]

@[simp] theorem rebandCore_hostMem (core : Fin 4) (pass : List Nat) (s : State) : (rebandCore core pass s).hostMem = s.hostMem := by
  unfold rebandCore
  dsimp only
  split_ifs <;> simp

@[simp] theorem refQualify_hostMem (s : State) : (refQualify s).hostMem = s.hostMem := by
  unfold refQualify
  split <;> simp

@[simp] theorem refReturned_hostMem (d : Int) (s : State) : (refReturned d s).hostMem = s.hostMem := by simp [refReturned]

/-! ### Streams -/

@[simp] theorem updStream_hostMem (i : Fin 64) (f : Stream → Stream) (s : State) : (updStream i f s).hostMem = s.hostMem := rfl

@[simp] theorem countGap_hostMem (st : Stream) (s : State) : (countGap st s).hostMem = s.hostMem := by
  unfold countGap
  split <;> rfl

@[simp] theorem putGap_hostMem (i : Fin 64) (g : Gap) (s : State) : (putGap i g s).hostMem = s.hostMem := by
  unfold putGap
  split <;> simp

@[simp] theorem resumeStream_hostMem (i : Fin 64) (s : State) : (resumeStream i s).hostMem = s.hostMem := by
  unfold resumeStream
  repeat' split
  all_goals simp

@[simp] theorem pushUnit_hostMem (i : Fin 64) (u : StreamUnit) (s : State) : (pushUnit i u s).hostMem = s.hostMem := by
  unfold pushUnit
  dsimp only
  split <;> simp

@[simp] theorem closeFrame_hostMem (i : Fin 64) (s : State) : (closeFrame i s).hostMem = s.hostMem := rfl

@[simp] theorem putFrame_hostMem (ch : Fin 8) (i : Fin 64) (s : State) (x : StreamUnit × Nat × Nat) :
    (putFrame ch i s x).hostMem = s.hostMem := pushUnit_hostMem ..

@[simp] theorem releaseFrames_hostMem (ch : Fin 8) (upTo : Nat) (i : Fin 64) (st : Stream) (s : State) :
    (releaseFrames ch upTo i st s).hostMem = s.hostMem := by simp [releaseFrames]

@[simp] theorem flushFrames_hostMem (i : Fin 64) (s : State) : (flushFrames i s).hostMem = s.hostMem := by
  unfold flushFrames
  split <;> simp

@[simp] theorem pushGrouped_hostMem (i : Fin 64) (header : List Byte) (record : List Byte) (ts : TS96) (weight : Nat) (s : State) :
    (pushGrouped i header record ts weight s).hostMem = s.hostMem := by
  unfold pushGrouped
  dsimp only
  split <;> simp

@[simp] theorem forStreams_hostMem {kind : StreamKind} {source : Nat} {f : Fin 64 → Stream → State → State}
    (h : ∀ i st s, (f i st s).hostMem = s.hostMem) (s : State) : (forStreams kind source f s).hostMem = s.hostMem :=
  forAll_hostMem (fun i s => by split <;> simp [h]) s

@[simp] theorem signal_hostMem (i : Fin 64) (n : Nat) (s : State) : (signal i n s).hostMem = s.hostMem := by
  unfold signal
  split <;> simp

@[simp] theorem closeStream_hostMem (i : Fin 64) (discard : Bool) (s : State) : (closeStream i discard s).hostMem = s.hostMem := by
  unfold closeStream
  dsimp only
  repeat' split
  all_goals simp

/-! ### Timers -/

@[simp] theorem emitRecord_hostMem (t : Fin 8) (type : Nat) (flags : W32) (tA value : TS96) (count : Nat) (s : State) :
    (emitRecord t type flags tA value count s).hostMem = s.hostMem := ((TimerWork.refl t s).emitRecord ..).only.hostMem

@[simp] theorem winExpiry_hostMem (t : Fin 8) (s : State) : (winExpiry t s).hostMem = s.hostMem := by
  unfold winExpiry
  dsimp only
  split
  · split
    · exact ((TimerWork.refl t s).decideUntil ..).only.hostMem
    · split
      · split <;> rfl
      · rfl
  · rfl

@[simp] theorem timerStamp_hostMem (src : Nat) (falling : Option Bool) (x : Stamp) (s : State) :
    (timerStamp src falling x s).hostMem = s.hostMem := (timerStamp_onlyTimers ..).hostMem

@[simp] theorem timerTrigger_hostMem (src : Nat) (t : TS96) (n : Nat) (coarse : Bool) (s : State) :
    (timerTrigger src t n coarse s).hostMem = s.hostMem := timerStamp_hostMem ..

@[simp] theorem timerLost_hostMem (src : Nat) (falling : Bool) (s : State) : (timerLost src falling s).hostMem = s.hostMem := rfl

@[simp] theorem timerEpoch_hostMem (t : Fin 8) (s : State) : (timerEpoch t s).hostMem = s.hostMem :=
  (TimerWork.refl t s).timerEpoch.only.hostMem

@[simp] theorem raiseCal_hostMem (n : Fin 8) (sev cause : Nat) (s : State) : (raiseCal n sev cause s).hostMem = s.hostMem :=
  raiseNow_hostMem ..

@[simp] theorem comeStale_hostMem (n : Fin 8) (s : State) : (comeStale n s).hostMem = s.hostMem := by simp [comeStale]

@[simp] theorem calRunEnd_hostMem (n : Fin 8) (hist : List Nat) (temp : BitVec 16) (s : State) :
    (calRunEnd n hist temp s).hostMem = s.hostMem := by simp [calRunEnd]

@[simp] theorem countDead_hostMem (n : Fin 8) (s : State) : (countDead n s).hostMem = s.hostMem := by simp [countDead]

@[simp] theorem writeTacStatus_hostMem (n : Fin 8) (value : W32) (s : State) : (writeTacStatus n value s).hostMem = s.hostMem := rfl

/-! ### Segment memory -/

@[simp] theorem raiseHist_hostMem (cause : Nat) (s : State) : (raiseHist cause s).hostMem = s.hostMem := raiseNow_hostMem ..

@[simp] theorem raiseSlot_hostMem (a seq : Nat) (s : State) : (raiseSlot a seq s).hostMem = s.hostMem := raiseNow_hostMem ..

@[simp] theorem raiseMem_hostMem (a : Fin 4) (cause low : Nat) (s : State) : (raiseMem a cause low s).hostMem = s.hostMem :=
  raiseNow_hostMem ..

@[simp] theorem overwriteSegs_hostMem (a : Fin 4) (l : List Nat) (s : State) : (overwriteSegs a l s).hostMem = s.hostMem := by
  unfold overwriteSegs
  split <;> simp

@[simp] theorem invalidEntry_hostMem (s : State) : (invalidEntry s).2.hostMem = s.hostMem := rfl

@[simp] theorem raiseEcc_hostMem (sev cause ch which sn : Nat) (s : State) : (raiseEcc sev cause ch which sn s).hostMem = s.hostMem :=
  raiseNow_hostMem ..

@[simp] theorem eccCorrected_hostMem (s : State) : (eccCorrected s).hostMem = s.hostMem := by simp [eccCorrected]

@[simp] theorem eccUncorrectable_hostMem (s : State) : (eccUncorrectable s).hostMem = s.hostMem := by simp [eccUncorrectable]

@[simp] theorem markSample_hostMem (ch : Fin 8) (sn back : Nat) (s : State) : (markSample ch sn back s).hostMem = s.hostMem := by
  unfold markSample
  split <;> rfl

@[simp] theorem scrubbed_hostMem (r : ScrubResult) (s : State) : (scrubbed r s).hostMem = s.hostMem := by
  unfold scrubbed
  split <;> simp

@[simp] theorem raiseScrub_hostMem (addr : Nat) (row : W32) (s : State) : (raiseScrub addr row s).hostMem = s.hostMem :=
  raiseNow_hostMem ..

@[simp] theorem scrubRead_hostMem (r : ScrubRead) (s : State) : (scrubRead r s).hostMem = s.hostMem := by
  unfold scrubRead
  dsimp only
  repeat' split
  all_goals simp

@[simp] theorem endRead_hostMem (seq : Nat) (release : Bool) (s : State) : (endRead seq release s).hostMem = s.hostMem := rfl

/-! ### Trigger units -/

@[simp] theorem setLevel_hostMem (u : Fin 16) (t : TS96) (b : Bool) (s : State) : (setLevel u t b s).hostMem = s.hostMem := rfl

@[simp] theorem found_hostMem (u : Fin 16) (t : TS96) (pos : Int) (place : PlaceFlags) (level : Bool) (due : Nat) (remote : Bool)
    (s : State) : (found u t pos place level due remote s).hostMem = s.hostMem := rfl

@[simp] theorem spanStart_hostMem (u : Fin 16) (c : Crossing) (s : State) : (spanStart u c s).hostMem = s.hostMem := rfl

@[simp] theorem spanEnd_hostMem (u : Fin 16) (c : Crossing) (due : Nat) (s : State) : (spanEnd u c due s).hostMem = s.hostMem := by
  unfold spanEnd
  dsimp only
  split <;> simp

@[simp] theorem spanDrop_hostMem (u : Fin 16) (c : Crossing) (s : State) : (spanDrop u c s).hostMem = s.hostMem := by
  unfold spanDrop
  split <;> rfl

@[simp] theorem edgeLike_hostMem (u : Fin 16) (c : Crossing) (high first : Bool) (due : Nat) (s : State) :
    (edgeLike u c high first due s).hostMem = s.hostMem := by
  unfold edgeLike
  dsimp only
  split_ifs <;> rfl

@[simp] theorem runtCrossing_hostMem (u : Fin 16) (c : Crossing) (own out : Bool) (due : Nat) (s : State) :
    (runtCrossing u c own out due s).hostMem = s.hostMem := by simp [runtCrossing]

@[simp] theorem timeoutCheck_hostMem (u : Fin 16) (now : TS96) (kt due : Nat) (s : State) :
    (timeoutCheck u now kt due s).hostMem = s.hostMem := by
  unfold timeoutCheck
  dsimp only
  split <;> simp

@[simp] theorem timeoutCrossing_hostMem (u : Fin 16) (c : Crossing) (due : Nat) (s : State) :
    (timeoutCrossing u c due s).hostMem = s.hostMem := timeoutCheck_hostMem ..

@[simp] theorem slewCrossing_hostMem (u : Fin 16) (c : Crossing) (due : Nat) (s : State) :
    (slewCrossing u c due s).hostMem = s.hostMem := by
  unfold slewCrossing
  dsimp only
  split <;> simp

@[simp] theorem patChange_hostMem (u : Fin 16) (c : Crossing) (due : Nat) (s : State) : (patChange u c due s).hostMem = s.hostMem :=
  by
  unfold patChange
  dsimp only
  repeat' split
  all_goals simp

@[simp] theorem takeCrossing_hostMem (u : Fin 16) (c : Crossing) (due : Nat) (s : State) :
    (takeCrossing u c due s).hostMem = s.hostMem := by
  unfold takeCrossing
  dsimp only
  repeat' split
  all_goals simp

@[simp] theorem patternCrossing_hostMem (u : Fin 16) (ch : Fin 8) (k : Nat) (s : State) :
    (patternCrossing u ch k s).2.hostMem = s.hostMem := by
  unfold patternCrossing
  dsimp only
  repeat' split
  all_goals rfl

@[simp] theorem unitSample_hostMem (u : Fin 16) (j i : Nat) (s : State) :
    (unitSample u j i s).hostMem = s.hostMem := by
  have htaken : ∀ (due : Nat) (l : List Crossing) (t : State), (l.foldl (fun s c => takeCrossing u c due s) t).hostMem = t.hostMem :=
    fun _ => foldl_hostMem fun _ _ => takeCrossing_hostMem ..
  have hdisarmed : (if commitAt s (40 * j + i) then updTu u disarm s else s).hostMem = s.hostMem := by simp
  unfold unitSample
  dsimp only
  rw [ite_hostMem, timeoutCheck_hostMem, ite_self, htaken, ← hdisarmed]
  generalize (if commitAt s (40 * j + i) = true then updTu u disarm s else s) = s'
  split
  · exact foldl_frame (fun acc : List Crossing × State => acc.2.hostMem) _ _ _ fun acc ch => by split <;> simp
  · repeat' split
    all_goals rfl

@[simp] theorem unitSwitch_hostMem (u : Fin 16) (j : Nat) (s : State) : (unitSwitch u j s).hostMem = s.hostMem := by
  unfold unitSwitch
  split <;> simp

@[simp] theorem seqReset_hostMem (u : Fin 16) (t : TS96) (s : State) : (seqReset u t s).hostMem = s.hostMem := rfl

@[simp] theorem seqArm_hostMem (u : Fin 16) (t : TS96) (s : State) : (seqArm u t s).hostMem = s.hostMem := rfl

@[simp] theorem seqExpire_hostMem (u : Fin 16) (t : TS96) (s : State) : (seqExpire u t s).hostMem = s.hostMem := by
  unfold seqExpire
  dsimp only
  split <;> simp

@[simp] theorem seqItem_hostMem (u : Fin 16) (e : SeqInput) (due : Nat) (s : State) : (seqItem u e due s).hostMem = s.hostMem := by
  unfold seqItem
  dsimp only
  repeat' split
  all_goals simp

@[simp] theorem seqJudge_hostMem (u : Fin 16) (s : State) : (seqJudge u s).hostMem = s.hostMem := by
  unfold seqJudge
  dsimp only
  split <;> simp

@[simp] theorem sourceEvent_hostMem (src : Nat) (t : TS96) (place : PlaceFlags) (remote : Bool) (due : Nat) (s : State) :
    (sourceEvent src t place remote due s).hostMem = s.hostMem := by
  unfold sourceEvent
  exact forAll_hostMem (fun _ _ => by split <;> simp) _

@[simp] theorem unitWord_hostMem (u : Fin 16) (j : Nat) (s : State) : (unitWord u j s).hostMem = s.hostMem := by
  unfold unitWord
  dsimp only
  split_ifs <;> simp [foldl_hostMem]

@[simp] theorem triggerWord_hostMem (s : State) : (triggerWord s).hostMem = s.hostMem := by
  unfold triggerWord
  dsimp only
  split
  · rfl
  · rw [forAll_hostMem fun u _ => unitWord_hostMem u _ _]

/-! ### Brim links -/

@[simp] theorem egressStamp_hostMem (s : State) : (egressStamp s).2.hostMem = s.hostMem := rfl

@[simp] theorem sendOn_hostMem (p : Fin 4) (f : List Byte) (s : State) : (sendOn p f s).hostMem = s.hostMem := by
  unfold sendOn
  split <;> rfl

@[simp] theorem retransmit_hostMem (p : Fin 4) (index : Nat) (s : State) : (retransmit p index s).hostMem = s.hostMem := rfl

@[simp] theorem brimCount_hostMem (i : Fin 6) (k : Nat) (s : State) : (brimCount i k s).hostMem = s.hostMem := by simp [brimCount]

@[simp] theorem raiseLink_hostMem (p : Fin 4) (sev state cause : Nat) (s : State) :
    (raiseLink p sev state cause s).hostMem = s.hostMem := raiseNow_hostMem ..

@[simp] theorem toRing_hostMem (r : RingState) (cause : Nat) (s : State) : (toRing r cause s).hostMem = s.hostMem := by simp [toRing]

@[simp] theorem settleRing_hostMem (s : State) : (settleRing s).hostMem = s.hostMem := by
  unfold settleRing
  split <;> simp

@[simp] theorem markDark_hostMem (s : State) : (markDark s).hostMem = s.hostMem := by
  unfold markDark
  dsimp only
  split_ifs <;> rfl

@[simp] theorem brimLinkUp_hostMem (p : Fin 4) (s : State) : (brimLinkUp p s).hostMem = s.hostMem := by simp [brimLinkUp]

@[simp] theorem brimLinkDown_hostMem (p : Fin 4) (abandoned : Bool) (s : State) : (brimLinkDown p abandoned s).hostMem = s.hostMem := by
  simp [brimLinkDown]

@[simp] theorem recordKey_hostMem (origin : Fin 64) (t : DupTable) (s : State) : (recordKey origin t s).hostMem = s.hostMem := rfl

@[simp] theorem forward_hostMem (rx : Rx) (s : State) : (forward rx s).hostMem = s.hostMem := by simp [forward]

@[simp] theorem flooded_hostMem {take : State → State} (h : ∀ s, (take s).hostMem = s.hostMem) (rx : Rx) (s : State) :
    (flooded rx take s).hostMem = s.hostMem := by
  unfold flooded
  split
  · split <;> simp [h]
  · rfl

@[simp] theorem floodSeq_hostMem (seq : W32) (kind cls : Nat) (t : TS96) (flags : Nat) (body : List Byte) (s : State) :
    (floodSeq seq kind cls t flags body s).hostMem = s.hostMem := by
  unfold floodSeq
  dsimp only
  split <;> simp

@[simp] theorem flood_hostMem (kind cls : Nat) (t : TS96) (flags : Nat) (body : List Byte) (s : State) :
    (flood kind cls t flags body s).hostMem = s.hostMem := floodSeq_hostMem ..

@[simp] theorem reportImport_hostMem (s : State) : (reportImport s).hostMem = s.hostMem := by simp [reportImport]

@[simp] theorem importCount_hostMem (i : Fin 6) (k : Nat) (s : State) : (importCount i k s).hostMem = s.hostMem := by
  simp [importCount]

@[simp] theorem presentTrigger_hostMem (cls : Nat) (t : TS96) (s : State) : (presentTrigger cls t s).hostMem = s.hostMem :=
  sourceEvent_hostMem ..

@[simp] theorem importTrigger_hostMem (cls : Nat) (t arrival : TS96) (tbSet sameFs : Bool) (s : State) :
    (importTrigger cls t arrival tbSet sameFs s).hostMem = s.hostMem := by
  unfold importTrigger
  dsimp only
  split_ifs <;> simp

@[simp] theorem rejectQueued_hostMem (s : State) : (rejectQueued s).hostMem = s.hostMem := by simp [rejectQueued]

@[simp] theorem suppressExport_hostMem (s : State) : (suppressExport s).hostMem = s.hostMem := by simp [suppressExport]

@[simp] theorem exportClass_hostMem (cls : Fin 16) (t : TS96) (flags : Nat) (s : State) :
    (exportClass cls t flags s).hostMem = s.hostMem := by simp [exportClass]

@[simp] theorem exportTrigger_hostMem (source : Nat) (remote : Bool) (t : TS96) (flags : Nat) (s : State) :
    (exportTrigger source remote t flags s).hostMem = s.hostMem := by simp [exportTrigger]

@[simp] theorem linkMessage_hostMem (p : Fin 4) (kind : Nat) (t : TS96) (body : List Byte) (s : State) :
    (linkMessage p kind t body s).hostMem = s.hostMem := sendOn_hostMem ..

@[simp] theorem delayResp_hostMem (rx : Rx) (s : State) : (delayResp rx s).hostMem = s.hostMem := by
  unfold delayResp
  repeat' split
  all_goals rfl

/-! ### Sequencers -/

@[simp] theorem updCounts_hostMem (a : Fin 4) (f : SeqCounts → SeqCounts) (s : State) : (updCounts a f s).hostMem = s.hostMem := rfl

@[simp] theorem raiseAs_hostMem (a : Fin 4) (cause lowMask : Nat) (s : State) : (raiseAs a cause lowMask s).hostMem = s.hostMem :=
  raiseNow_hostMem ..

@[simp] theorem holdStop_hostMem (a : Fin 4) (cause low : Nat) (s : State) : (holdStop a cause low s).hostMem = s.hostMem := rfl

@[simp] theorem endStop_hostMem (a : Fin 4) (s : State) : (endStop a s).hostMem = s.hostMem := by
  unfold endStop
  split <;> simp

@[simp] theorem queueTrigout_hostMem (src : Nat) (pos : Int) (late : Bool) (s : State) :
    (queueTrigout src pos late s).hostMem = s.hostMem := by simp [queueTrigout]

@[simp] theorem raiseTrigout_hostMem (o : Fin 2) (cause : Nat) (s : State) : (raiseTrigout o cause s).hostMem = s.hostMem :=
  raiseNow_hostMem ..

@[simp] theorem trigoutPulse_hostMem (o : Fin 2) (s : State) : (trigoutPulse o s).hostMem = s.hostMem := by
  unfold trigoutPulse
  dsimp only
  split <;> simp

@[simp] theorem pushInstant_hostMem (a : Fin 4) (known : Nat) (t : TS96) (kt : Nat) (kind : InstantKind) (place : PlaceFlags)
    (waiter : Option (Nat × W32)) (s : State) : (pushInstant a known t kt kind place waiter s).hostMem = s.hostMem := rfl

@[simp] theorem raiseFire_hostMem (u : Fin 16) (f : Firing) (s : State) : (raiseFire u f s).hostMem = s.hostMem := raise_hostMem ..

@[simp] theorem tuFire_hostMem (u : Fin 16) (s : State) : (tuFire u s).hostMem = s.hostMem := by
  unfold tuFire
  split
  · rfl
  · dsimp only
    rw [exportTrigger_hostMem, queueTrigout_hostMem, timerTrigger_hostMem, forAll_hostMem fun _ _ => by
      split
      · exact foldl_hostMem (fun _ _ => pushInstant_hostMem ..) ..
      · rfl]
    simp

@[simp] theorem makeSegment_hostMem (a : Fin 4) (c : Cut) (n : SeqCounts) (s : State) : (makeSegment a c n s).2.hostMem = s.hostMem :=
  rfl

@[simp] theorem addSegment_hostMem (g : Segment) (s : State) : (addSegment g s).hostMem = s.hostMem := rfl

@[simp] theorem fullMissed_hostMem (a : Fin 4) (s : State) : (fullMissed a s).hostMem = s.hostMem := rfl

@[simp] theorem raiseCut_hostMem (a : Fin 4) (g : Segment) (s : State) : (raiseCut a g s).hostMem = s.hostMem := by simp [raiseCut]

@[simp] theorem missCut_hostMem (a : Fin 4) (s : State) : (missCut a s).hostMem = s.hostMem := by simp [missCut]

@[simp] theorem cutSegment_hostMem (a : Fin 4) (c : Cut) (s : State) : (cutSegment a c s).1.hostMem = s.hostMem :=
  (cutSegment_outcome a c s).1.only.hostMem

@[simp] theorem logPost_hostMem (a : Fin 4) (t : TS96) (kt : Nat) (forced : Bool) (s : State) :
    (logPost a t kt forced s).hostMem = s.hostMem := by
  unfold logPost
  split <;> rfl

@[simp] theorem classify_hostMem (a : Fin 4) (t : TS96) (kt flags : Nat) (s : State) : (classify a t kt flags s).hostMem = s.hostMem :=
  by
  unfold classify
  dsimp only
  repeat' split
  all_goals simp

@[simp] theorem classifyLate_hostMem (a : Fin 4) (t : TS96) (kt flags : Nat) (s : State) :
    (classifyLate a t kt flags s).hostMem = s.hostMem := by
  unfold classifyLate
  dsimp only
  repeat' split
  all_goals simp

@[simp] theorem decideTrigger_hostMem (a : Fin 4) (i : Instant) (s : State) : (decideTrigger a i s).hostMem = s.hostMem := by
  unfold decideTrigger
  dsimp only
  repeat' split
  all_goals simp

@[simp] theorem decideExpiry_hostMem (a : Fin 4) (s : State) : (decideExpiry a s).hostMem = s.hostMem := by
  unfold decideExpiry
  dsimp only
  repeat' split
  all_goals simp

@[simp] theorem openContinuous_hostMem (a : Fin 4) (n : Nat) (s : State) : (openContinuous a n s).hostMem = s.hostMem :=
  (openContinuous_outcome a n s).1.only.hostMem

@[simp] theorem prefillDone_hostMem (a : Fin 4) (s : State) : (prefillDone a s).hostMem = s.hostMem := by
  unfold prefillDone
  dsimp only
  split_ifs <;> rfl

@[simp] theorem autoTimeout_hostMem (a : Fin 4) (s : State) : (autoTimeout a s).hostMem = s.hostMem := by
  unfold autoTimeout
  dsimp only
  repeat' split
  all_goals simp

@[simp] theorem leavePost_hostMem (a : Fin 4) (s : State) : (leavePost a s).hostMem = s.hostMem := by
  unfold leavePost
  dsimp only
  split <;> simp

@[simp] theorem segmentEnd_hostMem (a : Fin 4) (s : State) : (segmentEnd a s).hostMem = s.hostMem := by
  unfold segmentEnd
  dsimp only
  repeat' split
  all_goals simp

@[simp] theorem startFill_hostMem (n : Nat) (a : Fin 4) (s : State) : (startFill n a s).hostMem = s.hostMem := by
  unfold startFill
  dsimp only
  split_ifs <;> simp

@[simp] theorem armOne_hostMem (start : Option TS96) (a : Fin 4) (s : State) : (armOne start a s).hostMem = s.hostMem :=
  (armOne_work start a s).only.hostMem

@[simp] theorem stopClose_hostMem (a : Fin 4) (n : Nat) (s : State) : (stopClose a n s).hostMem = s.hostMem := by
  unfold stopClose
  dsimp only
  split <;> simp

@[simp] theorem raiseStop_hostMem (received : Bool) (origin : Nat) (urgent : Bool) (t : TS96) (s : State) :
    (raiseStop received origin urgent t s).hostMem = s.hostMem := raise_hostMem ..

@[simp] theorem sendStop_hostMem (t : TS96) (urgent : Bool) (s : State) : (sendStop t urgent s).hostMem = s.hostMem := by
  simp [sendStop]

@[simp] theorem stopTick_hostMem (s : State) : (stopTick s).hostMem = s.hostMem := by
  unfold stopTick
  split <;> simp

/-! ### Felts -/

@[simp] theorem raiseFelt_hostMem (f : Fin 16) (cause which bin : Nat) (s : State) :
    (raiseFelt f cause which bin s).hostMem = s.hostMem := raiseNow_hostMem ..

@[simp] theorem applyWeight_hostMem (f : Fin 16) (toB : Bool) (bin w : Nat) (s : State) :
    (applyWeight f toB bin w s).hostMem = s.hostMem := by simp [applyWeight]

@[simp] theorem toBaked_hostMem (f : Fin 16) (bin w : Nat) (s : State) : (toBaked f bin w s).hostMem = s.hostMem := by
  unfold toBaked
  dsimp only
  split <;> simp

@[simp] theorem feltHit_hostMem (f : Fin 16) (bin : Nat) (s : State) : (feltHit f bin s).hostMem = s.hostMem := by simp [feltHit]

@[simp] theorem feltCount_hostMem (f : Fin 16) (late : Bool) (hits outside clamp : Nat) (s : State) :
    (feltCount f late hits outside clamp s).hostMem = s.hostMem := by simp [feltCount]

@[simp] theorem counterLost_hostMem (f : Fin 16) (bin : Nat) (s : State) : (counterLost f bin s).hostMem = s.hostMem :=
  raiseFelt_hostMem ..

@[simp] theorem feltParity_hostMem (f : Fin 16) (bins : List Nat) (s : State) : (feltParity f bins s).hostMem = s.hostMem := by
  simp [feltParity]

@[simp] theorem mapSample_hostMem (f : Fin 16) (n : Nat) (code : Int) (s : State) : (mapSample f n code s).hostMem = s.hostMem := by
  unfold mapSample
  dsimp only
  split <;> simp

@[simp] theorem genSwitch_hostMem (f : Fin 16) (s : State) : (genSwitch f s).hostMem = s.hostMem := rfl

@[simp] theorem passSample_hostMem (f : Fin 16) (ch : Fin 8) (s : State) : (passSample f ch s).hostMem = s.hostMem := by
  unfold passSample
  dsimp only
  repeat' split
  all_goals simp

theorem passUntil_hostMem (f : Fin 16) (ch : Fin 8) (limit fuel : Nat) (s : State) :
    (passUntil f ch limit fuel s).hostMem = s.hostMem := by
  induction fuel generalizing s with
  | zero => rfl
  | succ fuel ih =>
    unfold passUntil
    dsimp only
    split
    · rw [ih, passSample_hostMem]
    · rfl

@[simp] theorem feltWord_hostMem (ch : Fin 8) (s : State) : (feltWord ch s).hostMem = s.hostMem := passUntil_hostMem ..

@[simp] theorem feltSpill_hostMem (f : Fin 16) (s : State) : (feltSpill f s).hostMem = s.hostMem := by
  unfold feltSpill
  split <;> simp

@[simp] theorem meetAging_hostMem (f : Fin 16) (a : Nat) (s : State) : (meetAging f a s).hostMem = s.hostMem := by
  unfold meetAging
  split <;> rfl

@[simp] theorem agingInstant_hostMem (f : Fin 16) (s : State) : (agingInstant f s).hostMem = s.hostMem := by
  unfold agingInstant
  dsimp only
  repeat' split
  all_goals simp

@[simp] theorem startClear_hostMem (f : Fin 16) (cfg : FeltCfg) (s : State) : (startClear f cfg s).hostMem = s.hostMem := rfl

@[simp] theorem lateSwitch_hostMem (f : Fin 16) (s : State) : (lateSwitch f s).hostMem = s.hostMem := by
  unfold lateSwitch
  dsimp only
  split_ifs <;> rfl

@[simp] theorem bakeFlushDone_hostMem (f : Fin 16) (s : State) : (bakeFlushDone f s).hostMem = s.hostMem := by simp [bakeFlushDone]

@[simp] theorem bakeCycleEnd_hostMem (f : Fin 16) (s : State) : (bakeCycleEnd f s).hostMem = s.hostMem := by simp [bakeCycleEnd]

/-! ### Masks -/

@[simp] theorem raiseMask_hostMem (m : Fin 64) (source cause which count : Nat) (ts : TS96) (s : State) :
    (raiseMask m source cause which count ts s).hostMem = s.hostMem := raise_hostMem ..

@[simp] theorem maskCount_hostMem (m : Fin 64) (tested viol : Nat) (s : State) : (maskCount m tested viol s).hostMem = s.hostMem := by
  simp [maskCount]

@[simp] theorem maskEpisode_hostMem (m : Fin 64) (lc n : Nat) (t : TS96) (s : State) : (maskEpisode m lc n t s).hostMem = s.hostMem := by
  simp [maskEpisode]

@[simp] theorem maskCapture_hostMem (m : Fin 64) (c : MaskCfg) (delay : Nat) (t : TS96) (s : State) :
    (maskCapture m c delay t s).hostMem = s.hostMem := by simp [maskCapture]

@[simp] theorem maskStopStart_hostMem (m : Fin 64) (c : MaskCfg) (v : Nat) (t : TS96) (s : State) :
    (maskStopStart m c v t s).hostMem = s.hostMem := by simp [maskStopStart]

@[simp] theorem maskActions_hostMem (m : Fin 64) (c : MaskCfg) (late : Bool) (viols : List Nat) (s : State) :
    (maskActions m c late viols s).hostMem = s.hostMem := by
  unfold maskActions
  split <;> simp

@[simp] theorem maskSwitch_hostMem (m : Fin 64) (n : Nat) (s : State) : (maskSwitch m n s).hostMem = s.hostMem := by
  unfold maskSwitch
  split <;> simp

@[simp] theorem maskWord_hostMem (m : Fin 64) (x : Mask) (late : Bool) (x0 : Nat) (codes : List Int) (s : State) :
    (maskWord m x late x0 codes s).hostMem = s.hostMem := by simp [maskWord]

@[simp] theorem masksWord_hostMem (ch : Fin 8) (x0 : Nat) (codes : List Int) (s : State) :
    (masksWord ch x0 codes s).hostMem = s.hostMem := by simp [masksWord]

@[simp] theorem setStopped_hostMem (seq : Nat) (s : State) : (setStopped seq s).hostMem = s.hostMem := rfl

@[simp] theorem stopSegment_hostMem (a : Fin 4) (v n : Nat) (next : Option Nat) (s : State) :
    (stopSegment a v n next s).hostMem = s.hostMem := by
  unfold stopSegment
  dsimp only
  repeat' split
  all_goals simp

@[simp] theorem keepStopped_hostMem (v n : Nat) (next : Option Nat) (a : Fin 4) (s : State) :
    (keepStopped v n next a s).hostMem = s.hostMem := by
  unfold keepStopped
  split <;> simp

@[simp] theorem reloadComparator_hostMem (source : Nat) (s : State) : (reloadComparator source s).hostMem = s.hostMem := by
  simp [reloadComparator]

/-! ### Reductions -/

@[simp] theorem streamRecord_hostMem (r : RedRec) (i : Fin 64) (st : Stream) (s : State) : (streamRecord r i st s).hostMem = s.hostMem := by
  simp [streamRecord]

@[simp] theorem putRecordRed_hostMem (ch : Fin 8) (s : State) (r : RedRec) : (putRecordRed ch s r).hostMem = s.hostMem := by
  unfold putRecordRed
  exact forAll_hostMem (fun _ _ => by split <;> simp) _

@[simp] theorem releaseRecords_hostMem (ch : Fin 8) (upTo : Nat) (s : State) : (releaseRecords ch upTo s).hostMem = s.hostMem :=
  foldl_hostMem (putRecordRed_hostMem ch) ..

@[simp] theorem flushRecords_hostMem (ch : Fin 8) (s : State) : (flushRecords ch s).hostMem = s.hostMem :=
  foldl_hostMem (putRecordRed_hostMem ch) ..

@[simp] theorem endPartial_hostMem (ch : Fin 8) (at_ : Nat) (k : Fin 4) (s : State) : (endPartial ch at_ k s).hostMem = s.hostMem :=
  by
  unfold endPartial
  dsimp only
  split_ifs <;> rfl

@[simp] theorem redSwitch_hostMem (ch : Fin 8) (at_ : Nat) (f : RedBank → RedBank) (s : State) :
    (redSwitch ch at_ f s).hostMem = s.hostMem := by simp [redSwitch]

@[simp] theorem redSwitches_hostMem (ch : Fin 8) (x0 : Nat) (s : State) : (redSwitches ch x0 s).hostMem = s.hostMem := by
  unfold redSwitches
  dsimp only
  repeat' split
  all_goals simp

@[simp] theorem laneCode_hostMem (ch : Fin 8) (k : Fin 4) (c : Int) (x : Nat) (s : State) : (laneCode ch k c x s).hostMem = s.hostMem :=
  by
  unfold laneCode
  dsimp only
  split_ifs <;> rfl

@[simp] theorem redWord_hostMem (ch : Fin 8) (x0 : Nat) (codes : List Int) (s : State) : (redWord ch x0 codes s).hostMem = s.hostMem :=
  by
  rw [redWord, releaseRecords_hostMem, foldl_hostMem fun _ _ => forAll_hostMem (fun _ _ => laneCode_hostMem ..) _, redSwitches_hostMem]

@[simp] theorem damagePartial_hostMem (ch : Fin 8) (at_ : Nat) (k : Fin 4) (s : State) :
    (damagePartial ch at_ k s).hostMem = s.hostMem := by
  unfold damagePartial
  dsimp only
  split_ifs <;> rfl

/-! ### Engines and services -/

@[simp] theorem raiseSvc_hostMem (i : Fin 16) (sev cause : Nat) (s : State) : (raiseSvc i sev cause s).hostMem = s.hostMem :=
  raiseNow_hostMem ..

@[simp] theorem countSkips_hostMem (i : Fin 16) (k : Nat) (s : State) : (countSkips i k s).hostMem = s.hostMem := by simp [countSkips]

@[simp] theorem raiseReserve_hostMem (s : State) : (raiseReserve s).hostMem = s.hostMem := raiseNow_hostMem ..

@[simp] theorem reserveFell_hostMem (before : Nat) (s : State) : (reserveFell before s).hostMem = s.hostMem := by simp [reserveFell]

@[simp] theorem raiseMigrate_hostMem (old new inst : Nat) (s : State) : (raiseMigrate old new inst s).hostMem = s.hostMem :=
  raiseNow_hostMem ..

@[simp] theorem takeReserve_hostMem (e : Nat) (s : State) : (takeReserve e s).hostMem = s.hostMem := rfl

@[simp] theorem instFails_hostMem (i : Fin 16) (s : State) : (instFails i s).hostMem = s.hostMem := by simp [instFails]

@[simp] theorem handOver_hostMem (e : Nat) (i : Fin 16) (s : State) : (handOver e i s).hostMem = s.hostMem := by
  unfold handOver
  split <;> simp

@[simp] theorem handOn_hostMem (e : Nat) (s : State) : (handOn e s).hostMem = s.hostMem := by
  unfold handOn
  split <;> simp

@[simp] theorem engineFail_hostMem (e : Nat) (s : State) : (engineFail e s).hostMem = s.hostMem := by
  unfold engineFail
  dsimp only
  repeat' split
  all_goals simp

@[simp] theorem countEngEcc_hostMem (s : State) : (countEngEcc s).hostMem = s.hostMem := rfl

@[simp] theorem engMigrate_hostMem (e : Nat) (s : State) : (engMigrate e s).hostMem = s.hostMem := by
  unfold engMigrate
  split <;> simp

@[simp] theorem selftestDone_hostMem (pair : Fin 8) (failed : Option (Fin 3)) (s : State) :
    (selftestDone pair failed s).hostMem = s.hostMem := by
  unfold selftestDone
  dsimp only
  repeat' split
  all_goals simp

@[simp] theorem designateReserves_hostMem (s : State) : (designateReserves s).hostMem = s.hostMem := rfl

@[simp] theorem refillReserves_hostMem (s : State) : (refillReserves s).hostMem = s.hostMem := by
  unfold refillReserves
  split <;> rfl

@[simp] theorem spRestart_hostMem (i : Fin 16) (n : Nat) (s : State) : (spRestart i n s).hostMem = s.hostMem := by
  unfold spRestart
  split <;> rfl

@[simp] theorem restartOnChain_hostMem (ch : Fin 8) (n : Nat) (s : State) : (restartOnChain ch n s).hostMem = s.hostMem := by
  unfold restartOnChain
  exact forAll_hostMem (fun _ _ => by split <;> simp) _

@[simp] theorem spectralFelt_hostMem (f : Fin 16) (c : SpCfg) (p : Spectrum) (s : State) : (spectralFelt f c p s).hostMem = s.hostMem :=
  (spectralFelt_work ..).hostMem

@[simp] theorem spectralMasks_hostMem (i : Fin 16) (p : Spectrum) (s : State) : (spectralMasks i p s).hostMem = s.hostMem := by
  simp [spectralMasks]

@[simp] theorem spectralTrig_hostMem (i : Fin 16) (j : Nat) (t : SpTrig) (p : Spectrum) (s : State) :
    (spectralTrig i j t p s).hostMem = s.hostMem := by simp [spectralTrig]

@[simp] theorem spectrumDeliver_hostMem (i : Fin 16) (hop : Nat) (s : State) : (spectrumDeliver i hop s).hostMem = s.hostMem := by
  unfold spectrumDeliver
  dsimp only
  split <;> simp

@[simp] theorem engRelease_hostMem (seq : Nat) (s : State) : (engRelease seq s).hostMem = s.hostMem := rfl

@[simp] theorem dropQueue_hostMem (i : Fin 16) (s : State) : (dropQueue i s).hostMem = s.hostMem :=
  foldl_hostMem (fun _ _ => engRelease_hostMem ..) ..

@[simp] theorem serviceSwitch_hostMem (i : Fin 16) (s : State) : (serviceSwitch i s).hostMem = s.hostMem := by
  unfold serviceSwitch
  split <;> simp

@[simp] theorem raiseMs_hostMem (i cause seq : Nat) (s : State) : (raiseMs i cause seq s).hostMem = s.hostMem := raiseNow_hostMem ..

@[simp] theorem raiseRa_hostMem (i cause seq : Nat) (s : State) : (raiseRa i cause seq s).hostMem = s.hostMem := raiseNow_hostMem ..

@[simp] theorem enqueueSeg_hostMem {report : State → State} (h : ∀ s, (report s).hostMem = s.hostMem) (i : Fin 16) (seq : Nat)
    (s : State) : (enqueueSeg i seq report s).1.hostMem = s.hostMem := by
  unfold enqueueSeg
  dsimp only
  split_ifs <;> simp [h]

@[simp] theorem queueMeasure_hostMem (g : Segment) (s : State) : (queueMeasure g s).hostMem = s.hostMem := by
  unfold queueMeasure
  dsimp only
  repeat' split
  all_goals simp

@[simp] theorem queueAverage_hostMem (g : Segment) (s : State) : (queueAverage g s).hostMem = s.hostMem := by
  unfold queueAverage
  dsimp only
  repeat' split
  all_goals simp

/-! ### Measurements and averages -/

@[simp] theorem streamSegment_hostMem (seq : Nat) (i : Fin 64) (st : Stream) (s : State) :
    (streamSegment seq i st s).hostMem = s.hostMem := by
  unfold streamSegment
  split <;> rfl

@[simp] theorem raiseRetro_hostMem (g : Segment) (s : State) : (raiseRetro g s).hostMem = s.hostMem := by simp [raiseRetro]

@[simp] theorem finishSegment_hostMem (g : Segment) (s : State) : (finishSegment g s).hostMem = s.hostMem := by simp [finishSegment]

@[simp] theorem segmentComplete_hostMem (seq : Nat) (s : State) : (segmentComplete seq s).hostMem = s.hostMem := by
  unfold segmentComplete
  split <;> simp

@[simp] theorem topBase_hostMem (l : List Int) (s : State) : (topBase l s).2.hostMem = s.hostMem := by
  unfold topBase
  dsimp only
  split_ifs <;> rfl

@[simp] theorem ampRatio_hostMem (x amp : Rat) (s : State) : (ampRatio x amp s).2.hostMem = s.hostMem := by
  unfold ampRatio
  split <;> rfl

@[simp] theorem measure_hostMem (c : MsCfg) (g : Segment) (s : State) : (measure c g s).2.hostMem = s.hostMem := by
  unfold measure
  split <;> simp

@[simp] theorem limitsTested_hostMem (n : Fin 4) (i : Fin 16) (c : MsCfg) (seq : Nat) (vals : List (W32 × Bool)) (moved : Bool)
    (s : State) : (limitsTested n i c seq vals moved s).hostMem = s.hostMem := by
  unfold limitsTested
  exact foldl_hostMem (fun _ _ => by split <;> simp) _ _

@[simp] theorem measureRecord_hostMem (n : Fin 4) (s : State) : (measureRecord n s).hostMem = s.hostMem := by
  unfold measureRecord
  dsimp only
  repeat' split
  all_goals simp

@[simp] theorem averageComplete_hostMem (n : Fin 4) (i : Fin 16) (c : RaCfg) (g : Segment) (s : State) :
    (averageComplete n i c g s).hostMem = s.hostMem := by simp [averageComplete]

@[simp] theorem averageAdd_hostMem (n : Fin 4) (s : State) : (averageAdd n s).hostMem = s.hostMem := by
  unfold averageAdd
  dsimp only
  repeat' split
  all_goals simp

/-! ### Admission -/

@[simp] theorem refreshDas_hostMem (s : State) : (refreshDas s).hostMem = s.hostMem := rfl

/-! ### Decimation chains -/

@[simp] theorem raiseDdc_hostMem (ch : Fin 8) (cause : Nat) (s : State) : (raiseDdc ch cause s).hostMem = s.hostMem :=
  raiseNow_hostMem ..

@[simp] theorem rebaseNco_hostMem (ch : Fin 8) (s : State) : (rebaseNco ch s).hostMem = s.hostMem := rfl

@[simp] theorem closeFrames_hostMem (ch : Fin 8) (s : State) : (closeFrames ch s).hostMem = s.hostMem := by
  unfold closeFrames
  exact forAll_hostMem (fun _ _ => by split <;> simp) _

@[simp] theorem chainSwitch_hostMem (ch : Fin 8) (new : DdcCfg) (w : Nat) (s : State) : (chainSwitch ch new w s).hostMem = s.hostMem := by
  simp [chainSwitch]

@[simp] theorem chainSwitchDue_hostMem (ch : Fin 8) (x0 : Nat) (s : State) : (chainSwitchDue ch x0 s).hostMem = s.hostMem := by
  unfold chainSwitchDue
  split <;> simp

@[simp] theorem chainProofing_hostMem (ch : Fin 8) (s : State) : (chainProofing ch s).hostMem = s.hostMem := by
  unfold chainProofing
  split <;> simp

@[simp] theorem raiseThr_hostMem (ch : Fin 8) (k : Nat) (falling : Bool) (t : TS96) (o : DdcOut) (s : State) :
    (raiseThr ch k falling t o s).hostMem = s.hostMem := raise_hostMem ..

@[simp] theorem detOutput_hostMem (ch : Fin 8) (o : DdcOut) (k : Fin 2) (s : State) : (detOutput ch o k s).hostMem = s.hostMem := by
  unfold detOutput
  dsimp only
  repeat' split
  all_goals simp

@[simp] theorem frameOutput_hostMem (ch : Fin 8) (d : Ddc) (o : DdcOut) (i : Fin 64) (st : Stream) (s : State) :
    (frameOutput ch d o i st s).hostMem = s.hostMem := by
  unfold frameOutput
  dsimp only
  split_ifs <;> rfl

@[simp] theorem countClip_hostMem (ch : Fin 8) (s : State) : (countClip ch s).hostMem = s.hostMem := by simp [countClip]

@[simp] theorem chainOutput_hostMem (ch : Fin 8) (g : Nat) (s : State) : (chainOutput ch g s).hostMem = s.hostMem := by
  unfold chainOutput
  dsimp only
  rw [updDdc_hostMem, forStreams_hostMem fun i => frameOutput_hostMem _ _ _ i]
  simp

@[simp] theorem chainWord_hostMem (ch : Fin 8) (x0 : Nat) (s : State) : (chainWord ch x0 s).hostMem = s.hostMem := by
  unfold chainWord
  dsimp only
  split
  · simp [forStreams_hostMem]
  · rw [foldl_hostMem fun _ _ => by split <;> simp]
    simp [forStreams_hostMem]

/-! ### Setting commands -/

@[simp] theorem layMemory_hostMem (a : MemArgs) (s : State) : (layMemory a s).hostMem = s.hostMem := rfl

@[simp] theorem withTu_hostMem (u : Fin 16) (cfg : TuCfg) (n : Nat) (s : State) : (withTu u cfg n s).hostMem = s.hostMem := rfl

@[simp] theorem refreshLatency_hostMem (s : State) : (refreshLatency s).hostMem = s.hostMem := rfl

@[simp] theorem withService_hostMem (i : Fin 16) (cfg : Option SvcCfg) (version : W32) (engines : List Nat) (s : State) :
    (withService i cfg version engines s).hostMem = s.hostMem := by
  unfold withService
  split <;> rfl

@[simp] theorem disableService_hostMem (i : Fin 16) (was : Bool) (s : State) : (disableService i was s).hostMem = s.hostMem := by
  unfold disableService
  dsimp only
  split <;> simp

@[simp] theorem startForced_hostMem (calNow : Nat) (s : State) : (startForced calNow s).hostMem = s.hostMem := by simp [startForced]

@[simp] theorem endSelftest_hostMem (st : Stream) (s : State) : (endSelftest st s).hostMem = s.hostMem := by
  unfold endSelftest
  split <;> rfl

/-! ### The Brim ring -/

@[simp] theorem epochMessage_hostMem (rx : Rx) (s : State) : (epochMessage rx s).hostMem = s.hostMem :=
  flooded_hostMem (fun _ => by simp) ..

@[simp] theorem sendEpoch_hostMem (v : BitVec 72) (s : State) : (sendEpoch v s).hostMem = s.hostMem := by simp [sendEpoch]

@[simp] theorem raiseConfig_hostMem (pos field : Nat) (s : State) : (raiseConfig pos field s).hostMem = s.hostMem :=
  raiseNow_hostMem ..

@[simp] theorem settleSplit_hostMem (s : State) : (settleSplit s).hostMem = s.hostMem := by simp [settleSplit]

@[simp] theorem takeStatus_hostMem (rx : Rx) (s : State) : (takeStatus rx s).hostMem = s.hostMem := by
  unfold takeStatus
  dsimp only
  repeat' split
  all_goals simp

@[simp] theorem peerStale_hostMem (n : Fin 64) (s : State) : (peerStale n s).hostMem = s.hostMem := by simp [peerStale]

@[simp] theorem takeDiscover_hostMem (rx : Rx) (s : State) : (takeDiscover rx s).hostMem = s.hostMem := by
  unfold takeDiscover
  dsimp only
  repeat' split
  all_goals simp

@[simp] theorem discover_hostMem (rx : Rx) (s : State) : (discover rx s).hostMem = s.hostMem := by simp [discover]

@[simp] theorem checkLsys_hostMem (s : State) : (checkLsys s).hostMem = s.hostMem := by simp [checkLsys]

@[simp] theorem ringFormed_hostMem (list : List (List Byte × Bool)) (s : State) : (ringFormed list s).hostMem = s.hostMem := by
  unfold ringFormed
  dsimp only
  repeat' split
  all_goals simp

@[simp] theorem clearMargin_hostMem (value : W32) (s : State) : (clearMargin value s).hostMem = s.hostMem := by
  unfold clearMargin
  split <;> rfl

/-! ### Cartridges -/

@[simp] theorem raiseCart_hostMem (n : Fin 8) (removed : Bool) (s : State) : (raiseCart n removed s).hostMem = s.hostMem :=
  raiseNow_hostMem ..

@[simp] theorem raiseCartFault_hostMem (n : Fin 8) (cause : Nat) (s : State) : (raiseCartFault n cause s).hostMem = s.hostMem :=
  raiseNow_hostMem ..

@[simp] theorem raiseWear_hostMem (n : Fin 8) (level : Nat) (s : State) : (raiseWear n level s).hostMem = s.hostMem :=
  raiseNow_hostMem ..

@[simp] theorem wornFromBlock_hostMem (n : Fin 8) (b : Nat) (s : State) : (wornFromBlock n b s).hostMem = s.hostMem := rfl

@[simp] theorem reachLevel_hostMem (n : Fin 8) (b level : Nat) (reached : Bool) (s : State) :
    (reachLevel n b level reached s).hostMem = s.hostMem := by simp [reachLevel]

@[simp] theorem lifeCheck_hostMem (n : Fin 8) (b : Nat) (s : State) : (lifeCheck n b s).hostMem = s.hostMem := by simp [lifeCheck]

@[simp] theorem addDose_hostMem (n : Fin 8) (clips b : Nat) (s : State) : (addDose n clips b s).hostMem = s.hostMem := by
  simp [addDose]

@[simp] theorem loadSet_hostMem (n : Fin 8) (taps : List Int) (src : FirSource) (s : State) :
    (loadSet n taps src s).hostMem = s.hostMem := rfl

@[simp] theorem loadPassThrough_hostMem (n : Fin 8) (s : State) : (loadPassThrough n s).hostMem = s.hostMem := rfl

@[simp] theorem loadCorrection_hostMem (n : Fin 8) (s : State) : (loadCorrection n s).hostMem = s.hostMem := by
  unfold loadCorrection
  split <;> rfl

@[simp] theorem startReading_hostMem (n : Fin 8) (counted : Nat) (s : State) : (startReading n counted s).hostMem = s.hostMem := rfl

@[simp] theorem cartFaulted_hostMem (n : Fin 8) (cause : Nat) (s : State) : (cartFaulted n cause s).hostMem = s.hostMem :=
  raiseCartFault_hostMem ..

@[simp] theorem cartActive_hostMem (n : Fin 8) (use : Option Bool) (s : State) : (cartActive n use s).hostMem = s.hostMem := by
  unfold cartActive
  dsimp only
  split <;> simp

@[simp] theorem cartridgeIdRead_hostMem (n : Fin 8) (factory wearA wearB : List Byte) (s : State) :
    (cartridgeIdRead n factory wearA wearB s).hostMem = s.hostMem := by simp [cartridgeIdRead]

@[simp] theorem cartAbsent_hostMem (n : Fin 8) (s : State) : (cartAbsent n s).hostMem = s.hostMem := rfl

@[simp] theorem cartridgeRemove_hostMem (n : Fin 8) (s : State) : (cartridgeRemove n s).hostMem = s.hostMem := by
  unfold cartridgeRemove
  repeat' split
  all_goals simp

@[simp] theorem cartridgeOvercurrent_hostMem (n : Fin 8) (s : State) : (cartridgeOvercurrent n s).hostMem = s.hostMem := by
  unfold cartridgeOvercurrent
  split <;> simp

@[simp] theorem writeWear_hostMem (n : Fin 8) (s : State) : (writeWear n s).hostMem = s.hostMem := rfl

@[simp] theorem wearRecordWrite_hostMem (n : Fin 8) (ok : Bool) (s : State) : (wearRecordWrite n ok s).hostMem = s.hostMem := by
  simp [wearRecordWrite]

@[simp] theorem cartsRailsDown_hostMem (s : State) : (cartsRailsDown s).hostMem = s.hostMem := rfl

/-! ### Slices -/

@[simp] theorem raiseOvr_hostMem (n : Fin 8) (which count : Nat) (ts : TS96) (s : State) :
    (raiseOvr n which count ts s).hostMem = s.hostMem := raise_hostMem ..

@[simp] theorem endEpisode_hostMem (n : Fin 8) (s : State) : (endEpisode n s).hostMem = s.hostMem := by simp [endEpisode]

@[simp] theorem countOvr_hostMem (n : Fin 8) (w x k : Nat) (s : State) : (countOvr n w x k s).hostMem = s.hostMem := by
  simp [countOvr]

@[simp] theorem streamBlock_hostMem (n : Fin 8) (b : Nat) (s : State) : (streamBlock n b s).hostMem = s.hostMem := by
  unfold streamBlock
  exact forAll_hostMem (fun _ _ => by split <;> simp) _

@[simp] theorem blockDone_hostMem (n : Fin 8) (b : Nat) (s : State) : (blockDone n b s).hostMem = s.hostMem := by simp [blockDone]

@[simp] theorem raiseCorr_hostMem (n : Fin 8) (src : FirSource) (x : Nat) (s : State) : (raiseCorr n src x s).hostMem = s.hostMem :=
  raise_hostMem ..

@[simp] theorem firSwap_hostMem (n : Fin 8) (last : Nat) (s : State) : (firSwap n last s).hostMem = s.hostMem := by
  unfold firSwap
  split <;> simp

@[simp] theorem recordWord_hostMem (n : Fin 8) (w : Nat) (values codes : List Int) (s : State) :
    (recordWord n w values codes s).hostMem = s.hostMem := by
  unfold recordWord
  dsimp only
  repeat' split
  all_goals simp

@[simp] theorem sliceWord_hostMem (n : Fin 8) (x : SliceIn) (s : State) : (sliceWord n x s).hostMem = s.hostMem := by
  unfold sliceWord
  dsimp only
  split_ifs <;> simp

@[simp] theorem raiseLane_hostMem (n : Fin 8) (lane pos cause action : Nat) (s : State) :
    (raiseLane n lane pos cause action s).hostMem = s.hostMem := raiseNow_hostMem ..

@[simp] theorem rebuildSlice_hostMem (n : Fin 8) (s : State) : (rebuildSlice n s).hostMem = s.hostMem := by simp [rebuildSlice]

@[simp] theorem serviceFail_hostMem (n : Fin 8) (lane p check : Nat) (mayTake : Bool) (s : State) :
    (serviceFail n lane p check mayTake s).hostMem = s.hostMem := by
  unfold serviceFail
  split <;> simp

@[simp] theorem spareFail_hostMem (n : Fin 8) (lane check : Nat) (s : State) : (spareFail n lane check s).hostMem = s.hostMem :=
  raiseLane_hostMem ..

@[simp] theorem positionFail_hostMem (n : Fin 8) (lane p check first : Nat) (s : State) :
    (positionFail n lane p check first s).hostMem = s.hostMem := raiseLane_hostMem ..

@[simp] theorem laneFails_hostMem (n : Fin 8) (lane check : Nat) (mayTake : Bool) (s : State) :
    (laneFails n lane check mayTake s).hostMem = s.hostMem := by
  unfold laneFails
  dsimp only
  repeat' split
  all_goals simp

@[simp] theorem settleOut_hostMem (n : Fin 8) (u : Nat) (s : State) : (settleOut n u s).hostMem = s.hostMem := rfl

@[simp] theorem laneCheckFail_hostMem (n : Fin 8) (lane check : Nat) (second : Option (Nat × Nat)) (s : State) :
    (laneCheckFail n lane check second s).hostMem = s.hostMem := by
  unfold laneCheckFail
  repeat' split
  all_goals simp

@[simp] theorem fitOut_hostMem (n : Fin 8) (lane : Nat) (e : LaneEntry) (s : State) : (fitOut n lane e s).hostMem = s.hostMem := rfl

@[simp] theorem rotationStep_hostMem (n : Fin 8) (meanSquare : Rat) (fit : LaneEntry) (s : State) :
    (rotationStep n meanSquare fit s).hostMem = s.hostMem := by
  unfold rotationStep
  dsimp only
  repeat' split
  all_goals simp

@[simp] theorem blindUpdate_hostMem (n : Fin 8) (quiet : Bool) (taps : List (List Int)) (s : State) :
    (blindUpdate n quiet taps s).hostMem = s.hostMem := by
  unfold blindUpdate
  split <;> rfl

/-! ### Eras, proofing and the timebase -/

@[simp] theorem endRetros_hostMem (n : Nat) (s : State) : (endRetros n s).hostMem = s.hostMem := rfl

@[simp] theorem updateMoment_hostMem (n : Nat) (s : State) : (updateMoment n s).hostMem = s.hostMem := rfl

@[simp] theorem shiftLc_hostMem (s : State) : (shiftLc s).hostMem = s.hostMem := rfl

@[simp] theorem restartSpectral_hostMem (s : State) : (restartSpectral s).hostMem = s.hostMem := by
  unfold restartSpectral
  exact forAll_hostMem (fun _ _ => by split <;> simp) _

@[simp] theorem newEra_hostMem (s : State) : (newEra s).hostMem = s.hostMem := by simp [newEra]

@[simp] theorem endSegments_hostMem (s : State) : (endSegments s).hostMem = s.hostMem :=
  foldl_hostMem (fun _ _ => by split <;> simp) ..

@[simp] theorem withClock_hostMem (s : State) : (withClock s).hostMem = s.hostMem := rfl

@[simp] theorem refuseApply_hostMem (s : State) : (refuseApply s).hostMem = s.hostMem := rfl

@[simp] theorem relock_hostMem (s : State) : (relock s).hostMem = s.hostMem := (relock_onlyClk (s := s)).hostMem

@[simp] theorem resetTimebase_hostMem (s : State) : (resetTimebase s).hostMem = s.hostMem := rfl

@[simp] theorem discardHistory_hostMem (s : State) : (discardHistory s).hostMem = s.hostMem := raiseHist_hostMem ..

@[simp] theorem cutBlocks_hostMem (s : State) : (cutBlocks s).hostMem = s.hostMem := by simp [cutBlocks]

@[simp] theorem acceptApply_hostMem (s : State) : (acceptApply s).hostMem = s.hostMem := by simp [acceptApply]

@[simp] theorem applyNow_hostMem (s : State) : (applyNow s).hostMem = s.hostMem := by
  unfold applyNow
  split
  · simp
  · split <;> simp

@[simp] theorem writeClkCtrl_hostMem (value : W32) (s : State) : (writeClkCtrl value s).hostMem = s.hostMem := by
  unfold writeClkCtrl
  split_ifs <;> simp

@[simp] theorem raiseProof_hostMem (n : Fin 8) (sev step outcome lane : Nat) (s : State) :
    (raiseProof n sev step outcome lane s).hostMem = s.hostMem := raiseNow_hostMem ..

@[simp] theorem selectBands_hostMem (pass : List (List Nat)) (s : State) : (selectBands pass s).hostMem = s.hostMem :=
  (selectBands_onlyClk ..).hostMem

@[simp] theorem startQuick_hostMem (s : State) : (startQuick s).hostMem = s.hostMem := by
  unfold startQuick
  split <;> rfl

@[simp] theorem fitFails_hostMem (s : State) (x : Fin 8 × Fin 41) : (fitFails s x).hostMem = s.hostMem := by simp [fitFails]

@[simp] theorem fitsFail_hostMem (failed : List (Fin 8 × Fin 41)) (s : State) : (fitsFail failed s).hostMem = s.hostMem := by
  simp [fitsFail]

@[simp] theorem lanesDone_hostMem (retired : List (Fin 8 × Fin 41)) (s : State) : (lanesDone retired s).hostMem = s.hostMem :=
  fitsFail_hostMem ..

@[simp] theorem positionsDone_hostMem (s : State) : (positionsDone s).hostMem = s.hostMem := rfl

@[simp] theorem slicesAligned_hostMem (offsets : List W32) (delays : List (Nat × Int)) (s : State) :
    (slicesAligned offsets delays s).hostMem = s.hostMem := by rw [slicesAligned_only]

@[simp] theorem loadCartridges_hostMem (s : State) : (loadCartridges s).hostMem = s.hostMem := by simp [loadCartridges]

@[simp] theorem proofingEnds_hostMem (s : State) : (proofingEnds s).hostMem = s.hostMem := by simp [proofingEnds]

@[simp] theorem proofingStepEnd_hostMem (d : ProofData) (s : State) : (proofingStepEnd d s).hostMem = s.hostMem := by
  unfold proofingStepEnd
  dsimp only
  split
  · rfl
  · split
    · simp
    · split <;> simp
    · simp
    · simp
    · simp
    · split <;> simp
    · simp

@[simp] theorem releaseStamps_hostMem (map : Nat → Mapping) (clear : W32) (s : State) :
    (releaseStamps map clear s).hostMem = s.hostMem := (releaseStamps_onlyTimers ..).hostMem

@[simp] theorem unsetRetros_hostMem (s : State) : (unsetRetros s).hostMem = s.hostMem := rfl

@[simp] theorem armedEdge_hostMem (pos : Int) (falling : Bool) (flags : W32) (v : BitVec 72) (s : State) :
    (armedEdge pos falling flags v s).hostMem = s.hostMem := rfl

@[simp] theorem commitEpoch_hostMem (w : EpochWait) (v : BitVec 72) (s : State) : (commitEpoch w v s).hostMem = s.hostMem := by
  simp [commitEpoch]

@[simp] theorem epochCommit_hostMem (s : State) : (epochCommit s).hostMem = s.hostMem := by
  unfold epochCommit
  split <;> simp

@[simp] theorem stepInstant_hostMem (s : State) : (stepInstant s).hostMem = s.hostMem := by
  unfold stepInstant
  split <;> simp

@[simp] theorem presentAux_hostMem (n : Fin 8) (falling coarse dead : Bool) (pos : Int) (s : State) :
    (presentAux n falling coarse dead pos s).hostMem = s.hostMem := by
  unfold presentAux
  split <;> rfl

@[simp] theorem loseEdge_hostMem (n : Fin 8) (falling : Bool) (until_ : Option Int) (s : State) :
    (loseEdge n falling until_ s).hostMem = s.hostMem := by
  unfold loseEdge
  split <;> simp

@[simp] theorem deliverEdge_hostMem (n : Fin 8) (falling coarse : Bool) (pos : Int) (x : Stamp) (s : State) :
    (deliverEdge n falling coarse pos x s).hostMem = s.hostMem := by
  unfold deliverEdge
  dsimp only
  split
  · simp
  · simp

@[simp] theorem tacEdge_hostMem (n : Fin 8) (falling : Bool) (coarse fine : Nat) (calEdge : Bool) (s : State) :
    (tacEdge n falling coarse fine calEdge s).hostMem = s.hostMem := by
  unfold tacEdge
  dsimp only
  repeat' split
  all_goals simp

/-! ### Stored settings -/

@[simp] theorem updCopy_hostMem (b : Bool) (f : CfgCopy → CfgCopy) (s : State) : (updCopy b f s).hostMem = s.hostMem := rfl

@[simp] theorem writeRefCfg_hostMem (v : W32) (s : State) : (writeRefCfg v s).hostMem = s.hostMem := rfl

@[simp] theorem writeLock_hostMem (f : W32 → Clk → Clk) (v : W32) (s : State) : (writeLock f v s).hostMem = s.hostMem := by
  unfold writeLock
  split <;> rfl

@[simp] theorem writeTrigout_hostMem (v : W32) (s : State) : (writeTrigout v s).hostMem = s.hostMem := by
  unfold writeTrigout
  split <;> rfl

@[simp] theorem restoreRegister_hostMem (off : Nat) (v : W32) (s : State) : (restoreRegister off v s).hostMem = s.hostMem := by
  simp [restoreRegister]

@[simp] theorem restoreRegisters_hostMem (payload : List Byte) (s : State) : (restoreRegisters payload s).hostMem = s.hostMem := by
  simp [restoreRegisters]

@[simp] theorem restoreBand_hostMem (payload : List Byte) (s : State) : (restoreBand payload s).hostMem = s.hostMem := by
  unfold restoreBand
  split <;> rfl

@[simp] theorem beginRestore_hostMem (items : List CfgItem) (s : State) :
    (beginRestore items s).hostMem = s.hostMem := by
  have hregisters : ∀ (l : List CfgItem) (t : State), (l.foldl (fun s x => restoreRegisters x.payload s) t).hostMem = t.hostMem :=
    foldl_hostMem fun _ _ => restoreRegisters_hostMem ..
  have hbands : ∀ (l : List CfgItem) (t : State), (l.foldl (fun s x => restoreBand x.payload s) t).hostMem = t.hostMem :=
  
    foldl_hostMem fun _ _ => restoreBand_hostMem ..
  simp [beginRestore, hregisters, hbands]

@[simp] theorem readStore_hostMem (s : State) : (readStore s).hostMem = s.hostMem := by
  unfold readStore
  split <;> simp

@[simp] theorem bootSettings_hostMem (s : State) : (bootSettings s).hostMem = s.hostMem := by
  unfold bootSettings
  dsimp only
  split <;> simp

/-! ### Firmware update -/

@[simp] theorem updBank_hostMem (p : Fin 6) (b : Bool) (f : Bank → Bank) (s : State) : (updBank p b f s).hostMem = s.hostMem := rfl

@[simp] theorem toState_hostMem (x : UpdState) (s : State) : (toState x s).hostMem = s.hostMem := by simp [toState]

@[simp] theorem checkFails_hostMem (x : UpdState) (cause part : Nat) (s : State) : (checkFails x cause part s).hostMem = s.hostMem :=
  raiseNow_hostMem ..

@[simp] theorem raiseChain_hostMem (west : Bool) (cause : Nat) (s : State) : (raiseChain west cause s).hostMem = s.hostMem :=
  raiseNow_hostMem ..

@[simp] theorem setFwd_hostMem (west : Bool) (x : Option (Nat × Nat)) (s : State) : (setFwd west x s).hostMem = s.hostMem := rfl

@[simp] theorem endFwd_hostMem (s : State) : (endFwd s).hostMem = s.hostMem := by simp [endFwd]

@[simp] theorem raiseUpper_hostMem (back : Bool) (s : State) : (raiseUpper back s).hostMem = s.hostMem := raiseNow_hostMem ..

@[simp] theorem raiseLower_hostMem (back : Bool) (u : Nat) (s : State) : (raiseLower back u s).hostMem = s.hostMem := raise_hostMem ..

@[simp] theorem dropWritten_hostMem (s : State) : (dropWritten s).hostMem = s.hostMem := by simp [dropWritten]

@[simp] theorem appendBytes_hostMem (off : Nat) (bytes : List Byte) (s : State) : (appendBytes off bytes s).hostMem = s.hostMem := by
  unfold appendBytes
  dsimp only
  split_ifs <;> rfl

@[simp] theorem checkHead_hostMem (s : State) : (checkHead s).1.hostMem = s.hostMem := by
  unfold checkHead
  repeat' split
  all_goals simp

@[simp] theorem checkWhole_hostMem (s : State) : (checkWhole s).hostMem = s.hostMem := by simp [checkWhole]

@[simp] theorem stageBytes_hostMem (off : Nat) (bytes : List Byte) (s : State) : (stageBytes off bytes s).1.hostMem = s.hostMem := by
  unfold stageBytes
  split <;> simp

@[simp] theorem startNew_hostMem (s : State) : (startNew s).hostMem = s.hostMem := by simp [startNew]

@[simp] theorem sendUpdate_hostMem (west : Bool) (op reach : Nat) (off : Nat) (payload : List Byte) (s : State) :
    (sendUpdate west op reach off payload s).hostMem = s.hostMem := by simp [sendUpdate]

@[simp] theorem startFwd_hostMem (west : Bool) (reach : Nat) (s : State) : (startFwd west reach s).hostMem = s.hostMem := by
  simp [startFwd]

@[simp] theorem chunkFwd_hostMem (east west : Bool) (s : State) : (chunkFwd east west s).hostMem = s.hostMem := by
  unfold chunkFwd
  dsimp only
  repeat' split
  all_goals simp

@[simp] theorem updateForward_hostMem (west : Bool) (s : State) : (updateForward west s).hostMem = s.hostMem := by
  unfold updateForward
  split <;> simp

@[simp] theorem sendResume_hostMem (west : Bool) (s : State) : (sendResume west s).hostMem = s.hostMem := sendUpdate_hostMem ..

@[simp] theorem chainNew_hostMem (west : Bool) (span : Nat) (s : State) : (chainNew west span s).hostMem = s.hostMem := by
  simp [chainNew]

@[simp] theorem chainData_hostMem (west : Bool) (span off : Nat) (payload : List Byte) (s : State) :
    (chainData west span off payload s).hostMem = s.hostMem := by simp [chainData]

@[simp] theorem chainResume_hostMem (west : Bool) (off : Nat) (s : State) : (chainResume west off s).hostMem = s.hostMem := by
  unfold chainResume
  split <;> simp

@[simp] theorem updateMessage_hostMem (rx : Rx) (s : State) : (updateMessage rx s).hostMem = s.hostMem := by
  unfold updateMessage
  dsimp only
  repeat' split
  all_goals simp

@[simp] theorem writeRecord_hostMem (f : Activation → Activation) (s : State) : (writeRecord f s).hostMem = s.hostMem := rfl

@[simp] theorem startUpper_hostMem (back : Bool) (s : State) : (startUpper back s).hostMem = s.hostMem := raiseUpper_hostMem ..

@[simp] theorem activate_hostMem (levels : Nat) (at_ : TS96) (s : State) : (activate levels at_ s).hostMem = s.hostMem := by
  simp [activate]

@[simp] theorem mgmtActivate_hostMem (f : List Byte) (s : State) : (mgmtActivate f s).hostMem = s.hostMem := by
  unfold mgmtActivate
  dsimp only
  repeat' split
  all_goals simp

@[simp] theorem mgmtResult_hostMem (f : List Byte) (s : State) : (mgmtResult f s).hostMem = s.hostMem := by simp [mgmtResult]

@[simp] theorem mgmtMessage_hostMem (rx : Rx) (s : State) : (mgmtMessage rx s).hostMem = s.hostMem :=
  flooded_hostMem (fun _ => by split <;> simp) ..

@[simp] theorem ctrlStart_hostMem (s : State) : (ctrlStart s).hostMem = s.hostMem := by simp [ctrlStart]

@[simp] theorem followSlot_hostMem (s : State) : (followSlot s).hostMem = s.hostMem := by
  unfold followSlot
  dsimp only
  split <;> simp

@[simp] theorem takeSvc_hostMem (s : State) : (takeSvc s).hostMem = s.hostMem := refreshDas_hostMem ..

@[simp] theorem updateSample_hostMem (s : State) : (updateSample s).hostMem = s.hostMem := by
  unfold updateSample
  split <;> simp

@[simp] theorem revertSample_hostMem (s : State) : (revertSample s).hostMem = s.hostMem := by
  unfold revertSample
  split <;> simp

@[simp] theorem revertRecord_hostMem (cause : Nat) (s : State) : (revertRecord cause s).hostMem = s.hostMem := rfl

@[simp] theorem revertInPlace_hostMem (cause : Nat) (lowerAt : Option Nat) (s : State) :
    (revertInPlace cause lowerAt s).hostMem = s.hostMem := by simp [revertInPlace]

@[simp] theorem trialDeadline_hostMem (s : State) : (trialDeadline s).hostMem = s.hostMem := by
  unfold trialDeadline
  repeat' split
  all_goals simp

/-! ### Power and boot -/

@[simp] theorem dropPartial_hostMem (s : State) : (dropPartial s).hostMem = s.hostMem := by simp [dropPartial]

@[simp] theorem deviceReset_hostMem (s : State) : (deviceReset s).hostMem = s.hostMem := dropPartial_hostMem ..

@[simp] theorem reportClosed_hostMem (open_ : List (Fin 2)) (s : State) : (reportClosed open_ s).hostMem = s.hostMem := by
  simp [reportClosed]

@[simp] theorem perstAssert_hostMem (s : State) : (perstAssert s).hostMem = s.hostMem := by simp [perstAssert]

@[simp] theorem identityCheck_hostMem (c : BootChecks) (s : State) : (identityCheck c s).hostMem = s.hostMem := by
  unfold identityCheck
  split <;> simp

@[simp] theorem bootTrial_hostMem (cause : Nat) (s : State) : (bootTrial cause s).hostMem = s.hostMem := raiseBoot_hostMem ..

@[simp] theorem bootUpd_hostMem (s : State) : (bootUpd s).hostMem = s.hostMem := rfl

@[simp] theorem trialBoot_hostMem (s : State) : (trialBoot s).hostMem = s.hostMem := by simp [trialBoot]

@[simp] theorem bootFails_hostMem (c : BootChecks) (s : State) : (bootFails c s).hostMem = s.hostMem := by
  unfold bootFails
  split <;> simp

@[simp] theorem starter_hostMem (c : BootChecks) (s : State) : (starter c s).hostMem = s.hostMem := by simp [starter]

@[simp] theorem perstRelease_hostMem (c : BootChecks) (s : State) : (perstRelease c s).hostMem = s.hostMem := by
  unfold perstRelease
  dsimp only
  split_ifs <;> simp

@[simp] theorem fillBands_hostMem (s : State) : (fillBands s).hostMem = s.hostMem := rfl

@[simp] theorem loaderDone_hostMem (c : BootChecks) (s : State) : (loaderDone c s).hostMem = s.hostMem := by
  unfold loaderDone
  split <;> simp

@[simp] theorem storeLost_hostMem (s : State) : (storeLost s).hostMem = s.hostMem := raiseBoot_hostMem ..

@[simp] theorem mainFirmwareStart_hostMem (storeOk : Bool) (s : State) : (mainFirmwareStart storeOk s).hostMem = s.hostMem := by
  unfold mainFirmwareStart
  dsimp only
  split_ifs <;> simp

@[simp] theorem raiseRestart_hostMem (c : RestartCause) (s : State) : (raiseRestart c s).hostMem = s.hostMem := raiseBoot_hostMem ..

@[simp] theorem ccFail_hostMem (s : State) : (ccFail s).hostMem = s.hostMem := rfl

@[simp] theorem beginRestart_hostMem (c : RestartCause) (s : State) : (beginRestart c s).hostMem = s.hostMem := by simp [beginRestart]

@[simp] theorem ccRestart_hostMem (ok0 ok1 : Bool) (s : State) : (ccRestart ok0 ok1 s).hostMem = s.hostMem := by
  unfold ccRestart
  dsimp only
  repeat' split
  all_goals simp

@[simp] theorem railsOff_hostMem (s : State) : (railsOff s).hostMem = s.hostMem := by simp [railsOff]

@[simp] theorem mainRailsOn_hostMem (present : BitVec 8) (s : State) : (mainRailsOn present s).hostMem = s.hostMem := by
  unfold mainRailsOn
  split <;> rfl

@[simp] theorem phaseShed_hostMem (rail : Fin 22) (stage : Fin 4) (s : State) : (phaseShed rail stage s).hostMem = s.hostMem := by
  simp [phaseShed]

@[simp] theorem tripOff_hostMem (cause : BitVec 4) (s : State) : (tripOff cause s).hostMem = s.hostMem := railsOff_hostMem ..

@[simp] theorem mgRead_hostMem (first : Bool) (s : State) : (mgRead first s).hostMem = s.hostMem := by
  unfold mgRead
  split <;> rfl

@[simp] theorem setInhibit_hostMem (on : Bool) (s : State) : (setInhibit on s).hostMem = s.hostMem := by simp [setInhibit]

@[simp] theorem clearCause_hostMem (v : BitVec 4) (s : State) : (clearCause v s).hostMem = s.hostMem := rfl

@[simp] theorem mgClear_hostMem (value : Byte) (s : State) : (mgClear value s).hostMem = s.hostMem := rfl

@[simp] theorem mgPut_hostMem (s : State) (b : Byte) : (mgPut s b).hostMem = s.hostMem := by simp [mgPut]

@[simp] theorem mgWrite_hostMem (bytes : List Byte) (s : State) : (mgWrite bytes s).hostMem = s.hostMem := by
  unfold mgWrite
  split <;> simp

/-! ### Health -/

@[simp] theorem telemetryUpdate_hostMem (t : Telemetry) (s : State) : (telemetryUpdate t s).hostMem = s.hostMem := by
  simp [telemetryUpdate]

@[simp] theorem raiseTherm_hostMem (sev cause : Nat) (s : State) : (raiseTherm sev cause s).hostMem = s.hostMem := raiseNow_hostMem ..

@[simp] theorem raiseThrottle_hostMem (end_ : Bool) (s : State) : (raiseThrottle end_ s).hostMem = s.hostMem := raiseNow_hostMem ..

@[simp] theorem thermTo_hostMem (f : Health → Health) (s : State) : (thermTo f s).hostMem = s.hostMem := rfl

@[simp] theorem thermStep_hostMem (s : State) : (thermStep s).hostMem = s.hostMem := by
  unfold thermStep
  dsimp only
  split <;> simp

@[simp] theorem thermWarn_hostMem (s : State) : (thermWarn s).hostMem = s.hostMem := by simp [thermWarn]

@[simp] theorem tmaxEvaluate_hostMem (temps : List (BitVec 16)) (s : State) : (tmaxEvaluate temps s).hostMem = s.hostMem := by
  unfold tmaxEvaluate
  dsimp only
  repeat' split
  all_goals simp

@[simp] theorem thermSensor_hostMem (n : Fin 64) (reading : BitVec 16) (s : State) : (thermSensor n reading s).hostMem = s.hostMem := by
  simp [thermSensor]

@[simp] theorem scrubRepair_hostMem (stack : Fin 4) (lane : Bool) (index : Nat) (s : State) :
    (scrubRepair stack lane index s).hostMem = s.hostMem := raiseNow_hostMem ..

@[simp] theorem istSerdes_hostMem (lane : Fin 32) (vertical horizontal : Nat) (s : State) :
    (istSerdes lane vertical horizontal s).hostMem = s.hostMem := by simp [istSerdes]

@[simp] theorem istSyns_hostMem (fs : Nat) (s : State) : (istSyns fs s).hostMem = s.hostMem := by simp [istSyns]

@[simp] theorem mramScrub_hostMem (bad : Option Nat) (s : State) : (mramScrub bad s).hostMem = s.hostMem := by
  unfold mramScrub
  dsimp only
  repeat' split
  all_goals simp

@[simp] theorem istStarved_hostMem (item : Fin 8) (s : State) : (istStarved item s).hostMem = s.hostMem := by simp [istStarved]

@[simp] theorem lifeLogWrite_hostMem (hours : W32) (avgTj tjPeak : BitVec 16) (hotSeconds : W32) (s : State) :
    (lifeLogWrite hours avgTj tjPeak hotSeconds s).hostMem = s.hostMem := by simp [lifeLogWrite]

/-! ### Registers -/

@[simp] theorem bus_hostMem (x : W64) (s : State) : (bus x s).hostMem = s.hostMem := rfl

@[simp] theorem setLatch_hostMem (x : HalfLatch) (s : State) : (setLatch x s).hostMem = s.hostMem := rfl

@[simp] theorem readNow_hostMem (wide : Bool) (s : State) : (readNow wide s).hostMem = s.hostMem := rfl

@[simp] theorem readHigh_hostMem (off : Nat) (x : W64) (s : State) : (readHigh off x s).hostMem = s.hostMem := by
  unfold readHigh
  repeat' split
  all_goals rfl

@[simp] theorem readWord_hostMem (off : Nat) (s : State) : (readWord off s).hostMem = s.hostMem := by
  rw [readWord, ite_hostMem, ite_hostMem, bus_hostMem, readNow_hostMem]
  split
  · rfl
  · split
    · rfl
    · split
      · rfl
      · split
        · exact readHigh_hostMem ..
        · rfl

@[simp] theorem clearHifStatus_hostMem (v : W32) (s : State) : (clearHifStatus v s).hostMem = s.hostMem := rfl

@[simp] theorem clearTrigout_hostMem (v : W32) (s : State) : (clearTrigout v s).hostMem = s.hostMem := rfl

@[simp] theorem clearEcc_hostMem (v : W32) (s : State) : (clearEcc v s).hostMem = s.hostMem := rfl

@[simp] theorem updVec_hostMem (n : Nat) (f : MsixVec → MsixVec) (s : State) : (updVec n f s).hostMem = s.hostMem := rfl

@[simp] theorem writeBand_hostMem (off : Nat) (v : W32) (s : State) : (writeBand off v s).hostMem = s.hostMem := by
  unfold writeBand
  extract_lets w i
  split <;> simp

@[simp] theorem put64_hostMem (off : Nat) (v : W64) (s : State) : (put64 off v s).hostMem = s.hostMem := by
  unfold put64
  repeat' split
  all_goals simp

@[simp] theorem writeHigh_hostMem (base : Nat) (v : W32) (s : State) : (writeHigh base v s).hostMem = s.hostMem := by
  unfold writeHigh
  split <;> simp

@[simp] theorem putTap_hostMem (n : Fin 8) (tap : Nat) (v : Int) (s : State) : (putTap n tap v s).hostMem = s.hostMem := by
  unfold putTap
  split <;> rfl

@[simp] theorem putTacEntry_hostMem (n : Fin 8) (k : Nat) (v : W32) (s : State) : (putTacEntry n k v s).hostMem = s.hostMem := rfl

@[simp] theorem edited_hostMem (s : State) : (edited s).hostMem = s.hostMem := rfl

@[simp] theorem diagWord_hostMem (off : Nat) (v : W32) (s : State) : (diagWord off v s).hostMem = s.hostMem := by
  unfold diagWord
  dsimp only
  repeat' split
  all_goals simp

@[simp] theorem diagWrite_hostMem (off : Nat) (wide : Bool) (v : W64) (s : State) : (diagWrite off wide v s).hostMem = s.hostMem := by
  simp [diagWrite]

/-! ### The test port -/

@[simp] theorem tckEdge_hostMem (tms tdi : Bool) (s : State) : (tckEdge tms tdi s).hostMem = s.hostMem := by
  unfold tckEdge
  split <;> rfl

end Sys2Proof.Machine
end

section
/-!
SUPPORT. Host memory stays in canonical form (log 6) where a queue command answers (R350, R353).
-/
namespace Sys2Proof.Machine

/-! ### Replies (R350, R353) -/

/-- The host memory that a reply hands on is canonical. -/
def Reply.canonical : Reply → Prop
  | .ok s _ => Memory.wf s.hostMem = true
  | .start s _ _ => Memory.wf s.hostMem = true
  | .refuse .. => True
  | .refuseIn s .. => Memory.wf s.hostMem = true

@[simp] theorem Reply.canonical_ok (s : State) (result : List Byte) :
    (Reply.ok s result).canonical ↔ Memory.wf s.hostMem = true := Iff.rfl

@[simp] theorem Reply.canonical_start (s : State) (x : Xfer) (result : List Byte) :
    (Reply.start s x result).canonical ↔ Memory.wf s.hostMem = true := Iff.rfl

@[simp] theorem Reply.canonical_refuse (status detail : Nat) (result : List Byte) (unit : Nat) :
    (Reply.refuse status detail result unit).canonical := trivial

@[simp] theorem Reply.canonical_refuseIn (s : State) (status detail : Nat) (result : List Byte) :
    (Reply.refuseIn s status detail result).canonical ↔ Memory.wf s.hostMem = true := Iff.rfl

@[simp] theorem refuse_canonical (status detail : Nat) : (refuse status detail).canonical := trivial

theorem Reply.canonical.ite {p : Prop} [Decidable p] {a b : Reply} (ha : a.canonical) (hb : b.canonical) :
    (if p then a else b).canonical := by
  split
  · exact ha
  · exact hb

theorem headerFault_canonical {op fields : Nat} {c : Call} {r : Reply} (h : headerFault op fields c = some r) : r.canonical := by
  unfold headerFault at h
  dsimp only at h
  split_ifs at h <;> cases h <;> trivial

theorem destFault_canonical {c : Call} {len : Nat} {r : Reply} (h : destFault c len = some r) : r.canonical := by
  unfold destFault at h
  split_ifs at h <;> cases h <;> trivial

theorem activateFault_canonical {levels scope : Nat} {at_ : TS96} {s : State} {r : Reply}
    (h : activateFault levels scope at_ s = some r) : r.canonical := by
  unfold activateFault at h
  dsimp only at h
  repeat' split at h
  all_goals cases h <;> trivial

theorem withBlock_canonical {α : Type} {op fields : Nat} {parse : List Byte → Except Nat α} {c : Call} {k : α → Reply}
    (h : ∀ x, (k x).canonical) : (withBlock op fields parse c k).canonical := by
  unfold withBlock
  split
  next hfault => exact headerFault_canonical hfault
  next =>
    split
    · trivial
    · exact h _

theorem forUnit_canonical {α : Type} {n op fields : Nat} {parse : Fin n → List Byte → Except Nat α} {c : Call} {k : Fin n → α → Reply}
    (h : ∀ u x, (k u x).canonical) : (forUnit n op fields parse c k).canonical := by
  unfold forUnit
  split
  next hfault => exact headerFault_canonical hfault
  next =>
    split
    · trivial
    · split
      · trivial
      · exact h _ _

theorem admitted_canonical {codes : List Nat} {unit : Nat} {which : Fin 4 → Bool} {s s' : State} {k : Reply} (h : k.canonical) :
    (admitted codes unit which s s' k).canonical := by
  unfold admitted
  split
  · trivial
  · exact h

theorem delayed_canonical {l : Fin 2} {s : State} {k : Reply} (h : k.canonical) : (delayed l s k).canonical := by
  unfold delayed
  split
  · trivial
  · exact h

theorem noteReply_canonical {r : Reply} (h : r.canonical) (op : Nat) (desc block : List Byte) :
    (noteReply op desc block r).canonical := by
  cases r with
  | ok s result => simpa [noteReply] using h
  | start s x result => simpa [noteReply] using h
  | refuse status detail result unit => trivial
  | refuseIn s status detail result => exact h

theorem settle_wf {r : Reply} (hr : r.canonical) {s : State} (h : Memory.wf s.hostMem = true) (n : Fin 64) (f : Fetched) (op : Nat) :
    Memory.wf (settle n f op r s).hostMem = true := by
  cases r with
  | ok s' result => exact finish_wf _ _ _ _ _ _ hr
  | start s' x result => exact hr
  | refuse status detail result unit => exact finish_wf _ _ _ _ _ _ (by simpa using h)
  | refuseIn s' status detail result => exact finish_wf _ _ _ _ _ _ hr

/-- A command whose check and commit keep the canonical form. -/
def KeepsCanonical (f : Call → State → Reply) : Prop := ∀ c s, Memory.wf s.hostMem = true → (f c s).canonical

theorem runItem_wf {f : Call → State → Reply} (hf : KeepsCanonical f) {s : State} (h : Memory.wf s.hostMem = true) (op : Nat)
    (deps : Call → List (Nat × Nat)) : Memory.wf (runItem op deps f s).hostMem = true := by
  unfold runItem
  split
  next => exact h
  next it =>
    extract_lets _ t c
    have hreply : (noteReply op c.desc c.block (f c t)).canonical := noteReply_canonical (hf c t h) ..
    split
    · simpa using h
    · generalize noteReply op c.desc c.block (f c t) = r at hreply
      cases r with
      | ok s' result => exact hreply
      | start s' x result => exact hreply
      | refuse status detail result unit => simpa using h
      | refuseIn s' status detail result => simpa using hreply

theorem runCmd_wf {f : Call → State → Reply} (hf : KeepsCanonical f) (o : Origin) (op : Nat) (block : List Byte)
    (deps : Call → List (Nat × Nat)) {s : State} (h : Memory.wf s.hostMem = true) :
    Memory.wf (runCmd o op block deps f s).hostMem = true := by
  cases o with
  | restore => exact runItem_wf hf h op deps
  | host n =>
    unfold runCmd
    dsimp only
    split
    · exact h
    · split_ifs
      · exact settle_wf (refuse_canonical ..) h ..
      · exact settle_wf (refuse_canonical ..) h ..
      · exact settle_wf (noteReply_canonical (hf _ s h) ..) h ..
      · exact h

end Sys2Proof.Machine
end

section
/-!
SUPPORT. The operations that write host memory (R338, R348, R363, R368, R371) keep its canonical form (log 6), and so does what uses
them.
-/
namespace Sys2Proof.Machine

/-! ### Branches and loops -/

theorem ite_wf {p : Prop} [Decidable p] {t u : State} (ht : Memory.wf t.hostMem = true) (hu : Memory.wf u.hostMem = true) :
    Memory.wf (if p then t else u).hostMem = true := by
  split
  · exact ht
  · exact hu

theorem foldl_wf {α : Type} {f : State → α → State} (hf : ∀ s a, Memory.wf s.hostMem = true → Memory.wf (f s a).hostMem = true)
    (l : List α) {s : State} (h : Memory.wf s.hostMem = true) : Memory.wf (l.foldl f s).hostMem = true :=
  foldl_keeps (fun t : State => Memory.wf t.hostMem = true) f l s hf h

theorem forAll_wf {n : Nat} {f : Fin n → State → State} (hf : ∀ i s, Memory.wf s.hostMem = true → Memory.wf (f i s).hostMem = true)
    {s : State} (h : Memory.wf s.hostMem = true) : Memory.wf (forAll n f s).hostMem = true :=
  forAll_keeps (fun t : State => Memory.wf t.hostMem = true) f s hf h

/-- What there is of a state has host memory in canonical form. -/
def CanonicalIfAny (o : Option State) : Prop := ∀ t, o = some t → Memory.wf t.hostMem = true

theorem CanonicalIfAny.none : CanonicalIfAny none := fun t h => absurd h.symm (Option.some_ne_none t)

theorem CanonicalIfAny.some {t : State} (ht : Memory.wf t.hostMem = true) : CanonicalIfAny (some t) := fun _ h => Option.some.inj h ▸ ht

theorem CanonicalIfAny.ite {p : Prop} [Decidable p] {a b : Option State} (ha : CanonicalIfAny a) (hb : CanonicalIfAny b) :
    CanonicalIfAny (if p then a else b) := by
  split
  · exact ha
  · exact hb

theorem CanonicalIfAny.orElse {a b : Option State} (ha : CanonicalIfAny a) (hb : CanonicalIfAny b) : CanonicalIfAny (a <|> b) := by
  cases a with
  | none => simpa using hb
  | some t => simpa using ha

theorem CanonicalIfAny.bind {α : Type} {f : α → Option State} {o : Option α} (hf : ∀ x, CanonicalIfAny (f x)) :
    CanonicalIfAny (o.bind f) := by
  cases o with
  | none => exact .none
  | some x => exact hf x

theorem CanonicalIfAny.map {α : Type} {f : α → State} {o : Option α} (hf : ∀ x, Memory.wf (f x).hostMem = true) :
    CanonicalIfAny (o.map f) := by
  cases o with
  | none => exact .none
  | some x => exact .some (hf x)

/-! ### Operations that write host memory -/

section
variable {s : State} (h : Memory.wf s.hostMem = true)
include h

theorem finishWait_wf (op key status detail : Nat) (result : List Byte) :
    Memory.wf (finishWait op key status detail result s).hostMem = true := by
  unfold finishWait
  split
  · exact finish_wf _ _ _ _ _ _ h
  · exact h

theorem putSummary_wf (src : Fin 256) : Memory.wf (putSummary src s).hostMem = true := by
  unfold putSummary
  dsimp only
  split
  · exact h
  · exact putRecord_wf _ _ _ h

theorem leaveOverflow_wf : Memory.wf (leaveOverflow s).hostMem = true := by
  unfold leaveOverflow
  split
  · exact forAll_wf (fun src _ ht => putSummary_wf ht src) h
  · exact h

theorem writeEvent_wf (src : Fin 256) : Memory.wf (writeEvent src s).hostMem = true := by
  unfold writeEvent
  extract_lets t e
  have ht : Memory.wf t.hostMem = true := leaveOverflow_wf h
  refine ite_wf (ite_wf ht ?_) h
  split
  · exact ht
  next ev _ =>
    extract_lets written
    have hwritten : Memory.wf written.hostMem = true := putRecord_wf _ _ _ ht
    exact ite_wf hwritten (putSummary_wf hwritten src)

theorem flushComps_wf (n : Fin 64) : Memory.wf (flushComps n s).hostMem = true :=
  foldl_wf (fun _ _ ht => writeComp_wf _ _ _ ht) _ h

theorem resumeDma_wf : Memory.wf (resumeDma s).hostMem = true := by
  unfold resumeDma
  split
  · exact forAll_wf (fun n _ ht => flushComps_wf ht n) h
  · exact h

theorem linkTrained_wf (gen width : Nat) : Memory.wf (linkTrained gen width s).hostMem = true := by
  have hup : Memory.wf (linkIsL0 { s with hif := { s.hif with linkGen := gen, linkWidth := width } }).hostMem = true := resumeDma_wf h
  unfold linkTrained
  dsimp only
  split
  · simpa using hup
  · exact hup

theorem postComp_wf (n : Fin 64) (c : Comp) : Memory.wf (postComp n c s).hostMem = true := by
  unfold postComp
  dsimp only
  split
  · exact writeComp_wf _ _ _ h
  · exact h

theorem qpStop_wf (n : Fin 64) : Memory.wf (qpStop n s).hostMem = true :=
  foldl_wf (fun _ _ ht => finish_wf _ _ _ _ _ _ ht) _ h

theorem writeQpCfg_wf (n : Fin 64) (cfg : W32) : Memory.wf (writeQpCfg n cfg s).hostMem = true := by
  unfold writeQpCfg
  dsimp only
  split
  · exact h
  · split
    · exact h
    · exact h
    · split
      · exact h
      · exact qpStop_wf h n

theorem receive_wf (n : Fin 64) (desc : List Byte) : Memory.wf (receive n desc s).hostMem = true := by
  unfold receive
  extract_lets tag op _ f joined
  have hjoined : Memory.wf joined.hostMem = true := h
  split
  · split
    · exact postComp_wf (s := updQp ..) h ..
    · exact h
  · exact ite_wf hjoined (finish_wf _ _ _ _ _ _ hjoined)

theorem fetch_wf (n : Fin 64) (desc : List Byte) : Memory.wf (fetch n desc s).hostMem = true := by
  unfold fetch
  split
  · exact receive_wf (by simpa using h) n desc
  · exact h

theorem hostMemFailed_wf (n : Fin 64) (tag : Option W32) (cause : Fin 4) :
    Memory.wf (hostMemFailed n tag cause s).hostMem = true := by
  unfold hostMemFailed
  dsimp only
  split
  · simpa using h
  · exact finish_wf _ _ _ _ _ _ (by simpa using h)

theorem railFault_wf (rail : Fin 22) (voltage current : BitVec 16) : Memory.wf (railFault rail voltage current s).hostMem = true := by
  unfold railFault
  split
  · exact h
  · rw [tripOff_hostMem]
    exact writeEvent_wf (by simpa using h) _

/-! ### Streams -/

theorem advanceTail_wf (i : Fin 64) (n : Nat) : Memory.wf (advanceTail i n s).hostMem = true := by
  unfold advanceTail
  split
  · exact h
  · simpa using Memory.writeAll_wf _ _ _ h

theorem ringPut_wf (i : Fin 64) (body : List Byte) (validAt : Nat) : Memory.wf (ringPut i body validAt s).1.hostMem = true := by
  unfold ringPut
  split
  · exact h
  next st _ =>
    extract_lets e padded start
    have hstart : Memory.wf start.hostMem = true := ite_wf (advanceTail_wf (hostWrite_wf _ _ _ h) ..) h
    by_cases hroom : ringRoom st (body.length + if padded then e else 0) = true
    · rw [if_pos hroom]
      split
      · exact hstart
      · exact advanceTail_wf (hostWrite_wf _ _ _ hstart) ..
    · rw [if_neg hroom]
      exact h

theorem streamTransfer_wf (i : Fin 64) : Memory.wf (streamTransfer i s).hostMem = true := by
  have hput := ringPut_wf h i
  unfold streamTransfer
  split
  · exact h
  · split
    · exact h
    · split
      · exact h
      · split
        · dsimp only
          split
          · exact hput ..
          · exact h
        · split
          · exact h
          · dsimp only
            split
            · exact hput ..
            · exact h

theorem endStream_wf (i : Fin 64) : Memory.wf (endStream i s).hostMem = true := by
  have hput := ringPut_wf h i
  unfold endStream
  split
  · exact h
  · split
    · exact h
    · refine ite_wf ?_ h
      dsimp only
      refine ite_wf ?_ (hput ..)
      rw [raiseNow_hostMem, setStream_hostMem]
      exact hput ..

/-! ### Sequencers: decisions and stops -/

theorem forceOutcome_wf (w : Option (Nat × W32)) (a : Fin 4) (code : Byte) : Memory.wf (forceOutcome w a code s).hostMem = true := by
  unfold forceOutcome
  split
  · exact h
  · split
    · dsimp only
      split
      · exact ite_wf (finish_wf _ _ _ _ _ _ h) h
      · exact h
    · exact h

theorem classifyForce_wf (a : Fin 4) (i : Instant) : Memory.wf (classifyForce a i s).hostMem = true := by
  unfold classifyForce
  extract_lets q cut pre
  have hcut : ∀ pre flags code, Memory.wf (cut pre flags code).hostMem = true := by
    intro pre flags code
    have htried := h
    rw [← cutSegment_hostMem a (cutAt q i.t i.kt pre flags false)] at htried
    unfold cut
    dsimp only
    exact ite_wf (forceOutcome_wf htried ..) (forceOutcome_wf (by simpa using htried) ..)
  clear_value cut
  split
  · exact hcut ..
  · exact ite_wf (hcut ..) (hcut ..)
  · exact ite_wf (hcut ..) (hcut ..)
  · exact forceOutcome_wf (by simpa using h) ..
  · exact forceOutcome_wf h ..

theorem seqDecide_wf (a : Fin 4) : Memory.wf (seqDecide a s).hostMem = true := by
  unfold seqDecide
  dsimp only
  split
  · exact h
  · split
    · simpa using h
    · split
      · split <;> simpa using h
      · simpa using h
      · split
        · exact forceOutcome_wf (by simpa using h) ..
        · exact classifyForce_wf (by simpa using h) ..

omit h in
theorem decideAll_wf (a : Fin 4) (k : Nat) {s : State} (h : Memory.wf s.hostMem = true) :
    Memory.wf (decideAll a k s).hostMem = true := by
  induction k generalizing s with
  | zero => exact h
  | succ k ih => exact ih (seqDecide_wf h a)

theorem stopNow_wf (a : Fin 4) (n cause low : Nat) : Memory.wf (stopNow a n cause low s).hostMem = true := by
  unfold stopNow
  dsimp only
  rw [holdStop_hostMem, autoTimeout_hostMem]
  exact decideAll_wf _ _ (by simpa using h)

theorem stopSeq_wf (cause : Nat) (afterSegment : Bool) (a : Fin 4) : Memory.wf (stopSeq cause afterSegment a s).hostMem = true := by
  unfold stopSeq
  dsimp only
  split
  · split <;> simpa using h
  · split
    · simpa using h
    · exact stopNow_wf h ..

theorem urgentStop_wf (value : W32) : Memory.wf (urgentStop value s).hostMem = true := by
  unfold urgentStop
  split
  · have hstopped : Memory.wf (forAll 4 (stopSeq 3 false) { s with hif := { s.hif with urgentSeen := true } }).hostMem = true :=
      forAll_wf (fun a _ ht => stopSeq_wf ht 3 false a) h
    dsimp only
    split
    · simpa using hstopped
    · exact hstopped
  · exact h

theorem maskStopOn_wf (v n low : Nat) (a : Fin 4) : Memory.wf (maskStopOn v n low a s).hostMem = true := by
  unfold maskStopOn
  dsimp only
  split
  · rw [keepStopped_hostMem]
    exact stopNow_wf h ..
  · split <;> simpa using h

theorem maskStop_wf (m : Fin 64) : Memory.wf (maskStop m s).hostMem = true := by
  unfold maskStop
  split
  · split
    · refine foldl_wf (fun t a ht => ?_) _ h
      split
      · exact maskStopOn_wf ht ..
      · exact ht
    · exact h
  · exact h

/-! ### Commands that wait for another step -/

omit h in
theorem finishWaits_wf (op key : Nat) (result : List Byte) (fuel : Nat) {s : State} (h : Memory.wf s.hostMem = true) :
    Memory.wf (finishWaits op key result fuel s).hostMem = true := by
  induction fuel generalizing s with
  | zero => exact h
  | succ fuel ih =>
    unfold finishWaits
    split
    · exact ih (finish_wf _ _ _ _ _ _ h)
    · exact h

theorem maskRasterDone_wf (m : Fin 64) : Memory.wf (maskRasterDone m s).hostMem = true := by
  unfold maskRasterDone
  split
  · exact h
  · split
    · dsimp only
      split
      · exact finish_wf _ _ _ _ _ _ (by simpa using h)
      · simpa using h
    · exact finishWaits_wf _ _ _ _ (by simpa using h)

theorem feltClearDone_wf (f : Fin 16) : Memory.wf (feltClearDone f s).hostMem = true := by
  unfold feltClearDone
  split
  · exact finishWaits_wf _ _ _ _ h
  · exact h

theorem bakeCopyDone_wf (f : Fin 16) : Memory.wf (bakeCopyDone f s).hostMem = true := by
  unfold bakeCopyDone
  split
  · dsimp only
    split
    · exact finish_wf _ _ _ _ _ _ (hostWrite_wf _ _ _ h)
    · exact h
  · exact h

omit h in
theorem verifyPart_hostMem (p : Fin 6) (r : State × Option (Nat × Nat)) : (verifyPart p r).1.hostMem = r.1.hostMem := by
  unfold verifyPart
  split
  · rfl
  · dsimp only
    split
    · rfl
    · split <;> rfl

theorem updVerifyDone_wf : Memory.wf (updVerifyDone s).hostMem = true := by
  unfold updVerifyDone
  split
  · exact h
  · extract_lets r passed t
    have hframe : r.1.hostMem = s.hostMem :=
      foldl_frame (fun r : State × Option (Nat × Nat) => r.1.hostMem) _ _ _ fun r p => verifyPart_hostMem p r
    have hr : Memory.wf r.1.hostMem = true := by
      rw [hframe]
      exact h
    have ht : Memory.wf t.hostMem = true := hr
    split
    · exact finishWait_wf (by simpa using hr) ..
    · exact finishWait_wf (by simpa using ht) ..

theorem upperSwitchDone_wf : Memory.wf (upperSwitchDone s).hostMem = true := by
  unfold upperSwitchDone
  split
  · exact h
  · exact finishWait_wf (by simpa using h) ..

theorem cfgSaveDone_wf (ok : Bool) : Memory.wf (cfgSaveDone ok s).hostMem = true := by
  unfold cfgSaveDone
  split
  · exact h
  · split
    · exact finishWait_wf (by simpa using h) ..
    · split
      · exact h
      · exact finishWait_wf (by simpa using h) ..

theorem transferComplete_wf (n : Fin 64) (tag : W32) (ecc : ScrubResult) :
    Memory.wf (transferComplete n tag ecc s).hostMem = true := by
  have hscrubbed : Memory.wf (scrubbed ecc s).hostMem = true := by simpa using h
  unfold transferComplete
  split
  · exact h
  · split
    · split
      · exact finish_wf _ _ _ _ _ _ (hostWrite_wf _ _ _ hscrubbed)
      · exact h
    · split
      · exact finish_wf _ _ _ _ _ _ (by simpa using Memory.writeAll_wf _ _ _ hscrubbed)
      · exact h
    · split
      · unfold stageDone
        dsimp only
        split
        · exact finish_wf _ _ _ _ _ _ (by simpa using h)
        · exact finish_wf _ _ _ _ _ _ (by simpa using h)
      · exact h
    · exact h

/-! ### Register writes -/

theorem put32_wf (off : Nat) (v : W32) : Memory.wf (put32 off v s).hostMem = true := by
  unfold put32
  split
  case h_4 => exact urgentStop_wf h v
  all_goals simpa using h

theorem putArray_canonical (off : Nat) (v : W32) : CanonicalIfAny (putArray off v s) := by
  have hhere : ∀ {f : Nat → State} {o : Option Nat}, (∀ n, (f n).hostMem = s.hostMem) → CanonicalIfAny (o.map f) := fun hf =>
    .map fun n => by
      rw [hf n]
      exact h
  unfold putArray
  refine .ite (.orElse (hhere fun n => updVec_hostMem ..) (.orElse (hhere fun i => writeEvtMap_hostMem ..) (.bind fun n => ?queuePairs)))
    (.ite (.ite ?bands .none) (.ite (.orElse (.bind fun n => ?tacs) (.orElse (hhere fun n => rfl) (.orElse (hhere fun n => rfl)
      (.orElse (hhere fun n => rfl) (hhere fun n => rfl))))) (.ite (.some ?vectors) .none)))
  case queuePairs =>
    split
    · exact .some (writeQpCfg_wf h ..)
    · exact .none
  case bands => exact .some (by simpa using h)
  case vectors =>
    rw [updVec_hostMem]
    exact h
  case tacs =>
    split
    · exact .some (by simpa using h)
    · exact .none

theorem writeWord_wf (off : Nat) (v : W32) : Memory.wf (writeWord off v s).hostMem = true := by
  unfold writeWord
  split_ifs
  · exact h
  · simpa using h
  · simpa using h
  · cases harray : putArray off v s with
    | some t => exact putArray_canonical h off v t harray
    | none => exact put32_wf h off v

theorem writeReg_wf (off : Nat) (wide : Bool) (v : W64) : Memory.wf (writeReg off wide v s).hostMem = true := by
  unfold writeReg
  exact ite_wf h (ite_wf (writeWord_wf h ..) (ite_wf (by simpa using h) (writeWord_wf (writeWord_wf h ..) ..)))

/-! ### Messages -/

theorem flooded_wf {take : State → State} (htake : ∀ s, Memory.wf s.hostMem = true → Memory.wf (take s).hostMem = true) (rx : Rx) :
    Memory.wf (flooded rx take s).hostMem = true := by
  unfold flooded
  split
  · split
    · exact htake _ (by simpa using h)
    · exact h
  · exact h

end

end Sys2Proof.Machine
end

section
/-!
The proof of O5: every command keeps host memory in canonical form (R371, log 6).
-/
namespace Sys2Proof.Machine

/-! ### The queue commands (R356) -/

theorem nop_canonical : KeepsCanonical nop := fun _ _ h => h

theorem tagStatus_canonical : KeepsCanonical tagStatus := by
  intro c s h
  unfold tagStatus
  dsimp only
  split
  · trivial
  · split
    next hfault => exact destFault_canonical hfault
    next =>
      split
      · exact h
      · split
        · exact h
        · exact h
        · split
          · exact hostWrite_wf _ _ _ h
          · exact h

theorem setMemory_canonical : KeepsCanonical setMemory := by
  intro c s h
  unfold setMemory
  split
  · trivial
  · refine admitted_canonical ?_
    split <;> simp [h]

theorem setTu_canonical : KeepsCanonical setTu := fun c s h => forUnit_canonical fun u cfg => admitted_canonical (by
  split_ifs <;> simp [h])

theorem setAs_canonical : KeepsCanonical setAs := fun c s h => forUnit_canonical fun a cfg => admitted_canonical (by
  split_ifs <;> simp [h])

theorem setRed_canonical : KeepsCanonical setRed := fun _ _ h => forUnit_canonical fun _ _ => admitted_canonical h

theorem setDdc_canonical : KeepsCanonical setDdc := fun c s h => forUnit_canonical fun ch cfg => admitted_canonical (by
  split_ifs <;> simp [h])

theorem setFelt_canonical : KeepsCanonical setFelt := by
  intro c s h
  unfold setFelt
  dsimp only
  split
  next hfault => exact headerFault_canonical hfault
  next =>
    split
    · split
      · trivial
      · split <;> simp [h]
    · trivial

theorem setMask_canonical : KeepsCanonical setMask := by
  intro c s h
  unfold setMask
  dsimp only
  split
  next hfault => exact headerFault_canonical hfault
  next =>
    split
    · split
      · trivial
      · split_ifs <;> simp [h]
    · trivial

theorem setService_canonical : KeepsCanonical setService := by
  intro c s h
  unfold setService
  refine .ite trivial ?_
  extract_lets i parsed
  clear_value parsed
  cases parsed with
  | error d => trivial
  | ok cfg =>
    have hbusy : ∀ {p : Prop} [Decidable p] {k : Reply}, k.canonical → (if p then refuse stBusy 0 else k).canonical :=
      fun hk => .ite trivial hk
    dsimp only
    refine admitted_canonical ?_
    split
    · refine .ite trivial (admitted_canonical (hbusy (hbusy ?_)))
      simp [h]
    · refine hbusy ?_
      simp [h]

theorem setBrim_canonical : KeepsCanonical setBrim := fun c s h => withBlock_canonical fun x => admitted_canonical (by
  split
  · trivial
  · split
    · trivial
    · split <;> simp [h])

theorem armCmd_canonical : KeepsCanonical armCmd := by
  intro c s h
  have harmed : ∀ (start : Option TS96) (l : List (Fin 4)), (l.foldl (fun s a => armOne start a s) s).hostMem = s.hostMem :=
    fun start l => foldl_hostMem (fun _ _ => armOne_hostMem ..) l s
  unfold armCmd
  dsimp only
  split_ifs <;> simp [h, harmed]

theorem stopCmd_canonical : KeepsCanonical stopCmd := by
  intro c s h
  have hstopped : Memory.wf ((maskAs (arg1 c 0x18)).foldl (fun s a => stopSeq 2 (arg1 c 0x19 == 1) a s) s).hostMem = true :=
    foldl_wf (fun _ a ht => stopSeq_wf ht ..) _ h
  unfold stopCmd
  dsimp only
  split_ifs <;> simp [hstopped]

theorem forceCmd_canonical (n : Option (Fin 64)) : KeepsCanonical (forceCmd n) := by
  intro c s h
  unfold forceCmd
  dsimp only
  split
  · exact h
  · exact foldl_wf (f := fun s a => pushInstant a ..) (fun _ _ ht => ht) _ h

theorem retroCmd_canonical : KeepsCanonical retroCmd := by
  intro c s h
  unfold retroCmd
  split
  · trivial
  · dsimp only
    refine .ite trivial (.ite trivial (.ite trivial (.ite trivial ?_)))
    split
    · simpa using h
    · refine .ite ?_ trivial
      simpa using h

theorem epochSet_canonical : KeepsCanonical epochSet := by
  intro c s h
  unfold epochSet
  dsimp only
  split_ifs <;> simp [h]

theorem timerSet_canonical : KeepsCanonical timerSet := by
  intro c s h
  unfold timerSet
  dsimp only
  split
  · split <;> simp [h]
  · split
    · trivial
    · split
      · trivial
      · refine admitted_canonical ?_
        split <;> simp [h]

theorem timerRead_canonical : KeepsCanonical timerRead := by
  intro c s h
  unfold timerRead
  split
  · trivial
  · split
    next hfault => exact destFault_canonical hfault
    next => split <;> exact h

theorem bakeCmd_canonical : KeepsCanonical bakeCmd := by
  intro c s h
  unfold bakeCmd
  split
  · trivial
  · split
    next hfault => exact destFault_canonical hfault
    next => split_ifs <;> simp [h]

theorem readSegments_canonical : KeepsCanonical readSegments := by
  intro c s h
  unfold readSegments
  dsimp only
  split
  · trivial
  · refine .ite trivial (.ite trivial (.ite trivial (.ite trivial (.ite trivial ?_))))
    split
    next hfault => exact destFault_canonical hfault
    next => exact h

theorem indexEntries_hostMem (n seq : Nat) (s : State) : (indexEntries n seq s).2.hostMem = s.hostMem := by
  induction n generalizing seq s with
  | zero => rfl
  | succ n ih =>
    unfold indexEntries
    dsimp only
    split
    · rfl
    · split
      · split_ifs
        · rfl
        · rw [ih, invalidEntry_hostMem]
        · exact ih ..
      · rw [ih, invalidEntry_hostMem]

theorem readIndex_canonical : KeepsCanonical readIndex := by
  intro c s h
  unfold readIndex
  dsimp only
  split
  · trivial
  · split
    next hfault => exact destFault_canonical hfault
    next => simpa [indexEntries_hostMem] using h

theorem streamOpen_canonical : KeepsCanonical streamOpen := by
  intro c s h
  unfold streamOpen
  split
  · trivial
  · refine admitted_canonical ?_
    split_ifs <;> simp [h]

theorem streamClose_canonical : KeepsCanonical streamClose := by
  intro c s h
  unfold streamClose
  split
  · trivial
  · trivial
  · split <;> simp [h]

theorem cfgSave_canonical : KeepsCanonical cfgSave := by
  intro c s h
  unfold cfgSave
  split <;> simp [h]

theorem cfgLoad_canonical : KeepsCanonical cfgLoad := by
  intro c s h
  unfold cfgLoad
  split
  · trivial
  · split <;> simp [h]

theorem updDownload_canonical (source : List Byte) : KeepsCanonical (updDownload source) := by
  intro c s h
  unfold updDownload
  dsimp only
  split_ifs <;> simp [h]

theorem updVerify_canonical : KeepsCanonical updVerify := by
  intro c s h
  unfold updVerify
  split <;> simp [h]

theorem updActivate_canonical : KeepsCanonical updActivate := by
  intro c s h
  unfold updActivate
  dsimp only
  split
  next hfault => exact activateFault_canonical hfault
  next => split_ifs <;> simp [h]

theorem updConfirm_canonical : KeepsCanonical updConfirm := by
  intro c s h
  unfold updConfirm
  split <;> simp [h]

theorem updAbort_canonical : KeepsCanonical updAbort := by
  intro c s h
  unfold updAbort
  split <;> simp [h]

theorem accChallenge_canonical : KeepsCanonical accChallenge := by
  intro c s h
  unfold accChallenge
  split
  · trivial
  · exact delayed_canonical h

theorem authOpens_canonical (l : Fin 2) {s : State} (h : Memory.wf s.hostMem = true) : (authOpens l s).canonical := by
  simp [authOpens, h]

theorem authFails_canonical (l : Fin 2) {s : State} (h : Memory.wf s.hostMem = true) : (authFails l s).canonical := by
  simp [authFails, h]

theorem accRespond_canonical : KeepsCanonical accRespond := by
  intro c s h
  unfold accRespond
  split
  · trivial
  · refine delayed_canonical ?_
    split
    · trivial
    · dsimp only
      split
      · exact authOpens_canonical _ h
      · exact authFails_canonical _ h

theorem accPassword_canonical : KeepsCanonical accPassword := fun c s h => withBlock_canonical fun pw => by
  split
  · trivial
  · refine delayed_canonical ?_
    split
    · trivial
    · split
      · exact authOpens_canonical _ h
      · exact authFails_canonical _ h

theorem accSetPassword_canonical : KeepsCanonical accSetPassword := fun c s h => withBlock_canonical fun pw => by
  split_ifs
  · trivial
  · trivial
  · exact h

theorem accClose_canonical : KeepsCanonical accClose := by
  intro c s h
  unfold accClose
  split
  · trivial
  · split <;> simp [h]

/-! ### The commands -/

/-- In the next state that an outcome names, if any, host memory is in canonical form. -/
inductive CanonicalNext : Host.Outcome State Fault Refusal → Prop where
  | next {t : State} (ht : Memory.wf t.hostMem = true) : CanonicalNext (.next t)
  | fault (f : Fault) : CanonicalNext (.fault f)

theorem CanonicalNext.ite {p : Prop} [Decidable p] {a b : Host.Outcome State Fault Refusal} (ha : CanonicalNext a)
    (hb : CanonicalNext b) : CanonicalNext (if p then a else b) := by
  split
  · exact ha
  · exact hb

section
variable {s : State} (h : Memory.wf s.hostMem = true)
include h

theorem CanonicalNext.live {o : Host.Outcome State Fault Refusal} (ho : CanonicalNext o) : CanonicalNext (whenLive s o) :=
  .ite ho (.next h)

theorem CanonicalNext.reachable {o : Host.Outcome State Fault Refusal} (ho : CanonicalNext o) : CanonicalNext (whenReachable s o) :=
  .ite ho (.next h)

theorem CanonicalNext.queue {f : Call → State → Reply} (hf : KeepsCanonical f) (o : Origin) (op : Nat) (block : List Byte)
    (deps : Call → List (Nat × Nat)) : CanonicalNext (whenLive s (.next (runCmd o op block deps f s))) :=
  .live h (.next (runCmd_wf hf o op block deps h))

theorem exec_canonical (c : Instr) : CanonicalNext (exec c s) := by
  cases c
  case nop => exact .queue h nop_canonical ..
  case tagStatus => exact .queue h tagStatus_canonical ..
  case setMemory => exact .queue h setMemory_canonical ..
  case setTu => exact .queue h setTu_canonical ..
  case setAs => exact .queue h setAs_canonical ..
  case setRed => exact .queue h setRed_canonical ..
  case setFelt => exact .queue h setFelt_canonical ..
  case setMask => exact .queue h setMask_canonical ..
  case setService => exact .queue h setService_canonical ..
  case setBrim => exact .queue h setBrim_canonical ..
  case arm => exact .queue h armCmd_canonical ..
  case stop => exact .queue h stopCmd_canonical ..
  case force => exact .queue h (forceCmd_canonical _) ..
  case retroCapture => exact .queue h retroCmd_canonical ..
  case epochSet => exact .queue h epochSet_canonical ..
  case timerSet => exact .queue h timerSet_canonical ..
  case timerRead => exact .queue h timerRead_canonical ..
  case bake => exact .queue h bakeCmd_canonical ..
  case readSegments => exact .queue h readSegments_canonical ..
  case readIndex => exact .queue h readIndex_canonical ..
  case streamOpen => exact .queue h streamOpen_canonical ..
  case streamClose => exact .queue h streamClose_canonical ..
  case cfgSave => exact .queue h cfgSave_canonical ..
  case cfgLoad => exact .queue h cfgLoad_canonical ..
  case updDownload => exact .queue h (updDownload_canonical _) ..
  case updVerify => exact .queue h updVerify_canonical ..
  case updActivate => exact .queue h updActivate_canonical ..
  case updConfirm => exact .queue h updConfirm_canonical ..
  case updAbort => exact .queue h updAbort_canonical ..
  case accChallenge => exact .queue h accChallenge_canonical ..
  case accRespond => exact .queue h accRespond_canonical ..
  case accPassword => exact .queue h accPassword_canonical ..
  case accSetPassword => exact .queue h accSetPassword_canonical ..
  case accClose => exact .queue h accClose_canonical ..
  case setDdc => exact .live h (.ite (.next (runCmd_wf setDdc_canonical _ _ _ _ h)) (.fault _))
  case streamTransfer => exact .live h (.next (streamTransfer_wf (by simpa using h) _))
  case bakeCopyDone => exact .live h (.next (bakeCopyDone_wf (by simpa using h) _))
  case linkL0 => exact .live h (.next (resumeDma_wf (by exact h)))
  case evqHead => exact .reachable h (.ite (.next (ite_wf (leaveOverflow_wf (by exact h)) h)) (.next h))
  case stopMessage =>
    refine .live h (.ite (.next (flooded_wf h (fun t ht => ?_) _)) (.fault _))
    rw [raiseStop_hostMem]
    exact foldl_wf (fun _ a hu => stopSeq_wf hu 5 false a) _ ht
  case discoverSend => exact .live h (.ite (.ite (.next (by simpa using h)) (.next (by simpa using h))) (.next h))
  case telemetryUpdate => exact .ite (.next (by simpa using h)) (.fault _)
  case armStart =>
    refine .live h ?_
    split
    · exact .ite (.next (by simpa using h)) (.next h)
    · exact .next h
  case frequencyGateEmpty =>
    refine .live h ?_
    dsimp only
    split
    · exact .ite (.next (by simpa using h)) (.next h)
    · exact .next h
  case urgentStop => exact .reachable h (.next (urgentStop_wf h ..))
  case qpEnable | qpDisable => exact .reachable h (.next (writeQpCfg_wf h ..))
  case bandTableWrite | evtMapWrite => exact .reachable h (.next (ite_wf (writeReg_wf h ..) h))
  case registerWrite => exact .reachable h (.next (writeReg_wf h ..))
  case descriptorFetch => exact .live h (.ite (.next (fetch_wf h ..)) (.fault _))
  case transferComplete => exact .live h (.next (transferComplete_wf h ..))
  case hostMem => exact .live h (.next (ite_wf (hostMemFailed_wf h ..) h))
  case eventRecordWrite => exact .live h (.next (writeEvent_wf h ..))
  case streamEnd => exact .live h (.next (endStream_wf h ..))
  case railFault => exact .next (railFault_wf h ..)
  case busMasterEnable => exact .reachable h (.next (resumeDma_wf h ..))
  case hifLink => exact .live h (.ite (.next (linkTrained_wf h ..)) (.fault _))
  case sequencerDecision => exact .live h (.next (seqDecide_wf h ..))
  case maskStop => exact .live h (.next (maskStop_wf h ..))
  case maskRasterDone => exact .live h (.next (maskRasterDone_wf h ..))
  case feltClearDone => exact .live h (.next (feltClearDone_wf h ..))
  case updVerifyDone => exact .live h (.next (updVerifyDone_wf h ..))
  case upperSwitchDone => exact .live h (.next (upperSwitchDone_wf h ..))
  case cfgSaveDone => exact .live h (.next (cfgSaveDone_wf h ..))
  case apply | consumed | evqEnable | deadClr | marginClr | lowHalfRead | highHalfRead | tsNowRead | badAccess | flr |
        busMasterDisable | diagnosticWindowWrite =>
    exact .reachable h (.next (by simpa using h))
  case sqTail | cqHead =>
    refine .reachable h ?_
    repeat' split
    all_goals exact .next (by simpa using h)
  case qpDrained | msixSend | standbyDrift | standbyReady | synfReturn | refStartTimeout | proofFail | cartridgeReadTimeout |
        tacIdleCalStart | holdoffEnd | maskLimitError | agingSweepDone | bankSelftestStart | reserveRotation | statusSend |
        delayReqSend | staleCal =>
    exact .live h (.ite (.next (by simpa using h)) (.next h))
  case hostReadRetry | loaderDone | pmcFirmwareStart | mainFirmwareStart | ready | bootRestoreDone | thermSensor | hotReset |
        linkRecovery | lockstepError | ccSramEcc | watchdog | ccRestart | pmcRestart | lockDeclared | unlockDeclared | reband |
        coastSteer | refQualify | refReturn | stepInstant | rotationStep | ovrEpisodeEnd | cartridgeOvercurrent | wearRecordWrite
        | tacEdge | intervalWinExpiry | epochCommit | triggerUnitFire | prefillDone | autoTimeout | segmentEnd | segmentComplete |
        trigoutPulse | maskLimitReload | feltSpill | bakeFlushDone | bakeCycleEnd | bankRecovery | chainRecovery | serviceSwitch |
        engineFail | engMigrate | selftestDone | measureRecord | averageAdd | scrub | scrubRepair | istSyns | mramScrub |
        istStarved | lifeLogWrite | brimLinkUp | brimLinkDown | flitRetransmit | flitAbandon | peerStale | updateForward |
        updateSample | trialDeadline | revertSample | nonceExpiry | authDelayEnd | brimLinkTraining | cfgMismatchClear =>
    exact .live h (.next (by simpa using h))
  case streamIrqTimeout | violEpisodeEnd | diagnosticSpanEnd | triggerPresent | updateResumeSend | trigoutPulseEnd =>
    refine .live h ?_
    repeat' split
    all_goals exact .next (by simpa using h)
  case perstAssert | perstRelease | vstbyValid | vstbyLoss | vmainValid | vmainLow | mainRailsOn | railGroupReady | phaseShed |
        loopB | thermTrip | tripHoldoffEnd | mainInhibit | mgCauseClear | mgWrite | cartridgeRemove | tckEdge | trstAssert |
        mgRead =>
    exact .next (by simpa using h)
  case tmaxEvaluate | proofingStepEnd | sliceWord | blindEstimatorUpdate | cartridgeIdRead | tacCalRunEnd | spectrumDeliver |
        istSerdes | triggerMessage | epochMessage | statusMessage | delayResp | discover | ringFormed | mgmtMessage |
        updateMessage =>
    exact .live h (.ite (.next (by simpa using h)) (.fault _))
  case refLoss | laneCheckFail | agingInstant =>
    refine .live h (.next ?_)
    split <;> simpa using h
  case cartridgeFirDerived | delayReq => exact .live h (.ite (.ite (.next (by simpa using h)) (.next h)) (.fault _))
  case cartridgeInsert | standbyMating => exact .ite (.next (by simpa using h)) (.next h)

end

/-- Settles O5: a step runs a command or idles, and every command keeps the canonical form (`exec_canonical`, R371, log 6). -/
theorem everyStepKeepsHostMemoryCanonical : Obligations.EveryStepKeepsHostMemoryCanonical := by
  intro s t h hstep
  unfold step at hstep
  split at hstep
  next =>
    cases hstep
    exact h
  next c cs _ =>
    have hnext : CanonicalNext (exec c { s with pending := cs }) :=
      exec_canonical (s := { s with pending := cs }) h c
    rw [hstep] at hnext
    cases hnext with
    | next ht => exact ht

end Sys2Proof.Machine
end
section
/-!
SUPPORT and the proof of O7: a byte string written to host memory, byte by byte (R371, log 6).
-/
namespace Sys2Proof.Machine

/-- Addresses less than the size of the address space apart stay apart when they wrap. -/
theorem wrapped_ne {a i : Nat} (hpos : 0 < i) (hi : i < 2 ^ 64) : (a + i) % 2 ^ 64 ≠ a % 2 ^ 64 := by omega

/-- An address that a byte string does not reach reads as before. -/
theorem Memory.read_writeAll_other (bytes : List Byte) (m : List Host.Cell) (addr a : Nat) (hm : Memory.wf m = true)
    (h : ∀ i, i < bytes.length → a ≠ (addr + i) % 2 ^ 64) :
    Memory.read (Memory.writeAll m addr bytes) a = Memory.read m a := by
  induction bytes generalizing m addr with
  | nil => rfl
  | cons b bytes ih =>
    have hfirst : a ≠ addr % 2 ^ 64 := h 0 (Nat.succ_pos _)
    have hrest : ∀ i, i < bytes.length → a ≠ (addr + 1 + i) % 2 ^ 64 := fun i hi => by
      rw [Nat.add_assoc, Nat.add_comm 1 i]
      exact h (i + 1) (Nat.succ_lt_succ hi)
    calc Memory.read (Memory.writeAll (Memory.write m (addr % 2 ^ 64) b) (addr + 1) bytes) a
        = Memory.read (Memory.write m (addr % 2 ^ 64) b) a := ih _ _ (Memory.write_wf _ _ _ hm) hrest
      _ = Memory.read m a := by rw [Memory.read_write m _ a b hm, if_neg hfirst]

/-- A byte string no longer than the address space reads back: what follows a byte does not come round to its address. -/
theorem Memory.read_writeAll_own (bytes : List Byte) (m : List Host.Cell) (addr : Nat) (hm : Memory.wf m = true)
    (hlen : bytes.length ≤ 2 ^ 64) (i : Nat) (hi : i < bytes.length) :
    Memory.read (Memory.writeAll m addr bytes) ((addr + i) % 2 ^ 64) = bytes[i] := by
  induction bytes generalizing m addr i with
  | nil => exact absurd hi (Nat.not_lt_zero i)
  | cons b bytes ih =>
    rw [List.length_cons] at hlen
    have hwritten : Memory.wf (Memory.write m (addr % 2 ^ 64) b) = true := Memory.write_wf _ _ _ hm
    cases i with
    | zero =>
      have happart : ∀ j, j < bytes.length → (addr + 0) % 2 ^ 64 ≠ (addr + 1 + j) % 2 ^ 64 := fun j hj => by
        rw [Nat.add_assoc]
        exact (wrapped_ne (by omega) (by omega)).symm
      calc Memory.read (Memory.writeAll (Memory.write m (addr % 2 ^ 64) b) (addr + 1) bytes) ((addr + 0) % 2 ^ 64)
          = Memory.read (Memory.write m (addr % 2 ^ 64) b) ((addr + 0) % 2 ^ 64) :=
            Memory.read_writeAll_other bytes _ _ _ hwritten happart
        _ = b := by simp [Memory.read_write m _ _ b hm]
    | succ i =>
      have hnext := ih (Memory.write m (addr % 2 ^ 64) b) (addr + 1) hwritten (by omega) i (Nat.lt_of_succ_lt_succ hi)
      rwa [Nat.add_assoc, Nat.add_comm 1 i] at hnext

/-- Settles O7, by induction on the bytes written. -/
theorem hostWritesReadBack : Obligations.HostWritesReadBack := fun m addr bytes hm hlen =>
  ⟨Memory.writeAll_wf bytes m addr hm, Memory.read_writeAll_own bytes m addr hm hlen,
    fun a h => Memory.read_writeAll_other bytes m addr a hm h⟩

end Sys2Proof.Machine
end
section
/-!
SUPPORT and the proofs of O25 and O26: the gate of queue commands (R350, R351, R410, R477), NOP and TAG_STATUS (R356).
-/
namespace Sys2Proof.Machine

/-- An access of the host, once the control complex has been ready, is the body behind its gate (R46, R513). -/
theorem exec_reachable {c : Instr} {s : State} {o : Host.Outcome State Fault Refusal} (hs : reachable s = true)
    (h : exec c s = whenReachable s o) : exec c s = o := h.trans (whenReachable_reachable hs o)

/-! ### The gate -/

theorem exec_setDdc_wellFormed {o : Origin} {block fir : List Byte} (hwf : WellFormed.instr (.setDdc o block fir) = true) (s : State) :
    exec (.setDdc o block fir) s = whenLive s (.next (runCmd o 0x0014 (pad 216 block ++ fir) noDeps setDdc s)) :=
  congrArg (whenLive s) (if_pos hwf)

/-- Every queue command of the host is a run of its opcode (R356). -/
theorem exec_queueOp {c : Instr} {n : Fin 64} {op : Nat} (hop : Safety.queueOp c = some (.host n, op))
    (hwf : WellFormed.instr c = true) (s : State) :
    ∃ block deps f, exec c s = whenLive s (.next (runCmd (.host n) op block deps f s)) := by
  unfold Safety.queueOp at hop
  split at hop
  case h_7 =>
    cases hop
    exact ⟨_, _, _, exec_setDdc_wellFormed hwf s⟩
  all_goals cases hop <;> exact ⟨_, _, _, rfl⟩

section
variable {n : Fin 64} {op : Nat} {s : State} (block : List Byte) (deps : Call → List (Nat × Nat)) (f : Call → State → Reply)

/-- Without a descriptor that commits now, a run changes nothing. -/
theorem runCmd_stays (h : ∀ g, nextCommit s.hif.qps[n] = some g →
    committing s = false ∨ s.hif.qps[n].state ≠ .running ∨ g.opcode.toNat ≠ op) : runCmd (.host n) op block deps f s = s := by
  unfold runCmd
  dsimp only
  split
  · rfl
  · next g hg =>
    have hidle : (committing s && s.hif.qps[n].state == .running && g.opcode.toNat == op) = false := by
      simpa only [Bool.and_eq_false_iff, beq_eq_false_iff_ne, or_assoc] using h g hg
    rw [hidle]
    rfl

section
variable {g : Fetched} (hcommits : committing s = true) (hpair : s.hif.qps[n].state = .running)
  (hfirst : nextCommit s.hif.qps[n] = some g) (hcode : g.opcode.toNat = op)
include hcommits hpair hfirst hcode

/-- RESCUE answers UNSUPPORTED to an opcode other than those of R410. -/
theorem runCmd_rescue (hmain : s.boot.stage = .rescue) (hop : rescueOpcode op = false) :
    runCmd (.host n) op block deps f s = Safety.refuses n g stUnsupported 0 s := by
  unfold runCmd
  simp only [hfirst, hcommits, hpair, hcode, hmain, hop, beq_self_eq_true, Bool.not_false, Bool.and_self, if_true]
  rfl

/-- A restore answers BUSY to an opcode of R477's list. -/
theorem runCmd_restoring (hmain : s.boot.stage ≠ .rescue) (hrest : s.cfg.restoring = true) (hop : busyInRestore op = true) :
    runCmd (.host n) op block deps f s = Safety.refuses n g stBusy 0 s := by
  have hstage : (s.boot.stage == .rescue) = false := by simpa using hmain
  unfold runCmd
  simp only [hfirst, hcommits, hpair, hcode, hstage, hrest, hop, beq_self_eq_true, Bool.false_and, Bool.and_self, if_true,
    Bool.false_eq_true, if_false]
  rfl

end
end

/-- Settles O25: every queue command runs behind one gate, `runCmd`. -/
theorem queueCommandGate : Obligations.QueueCommandGate := by
  intro c n op s hop hwf
  obtain ⟨block, deps, f, hexec⟩ := exec_queueOp hop hwf s
  have hstays (h : ∀ g, nextCommit s.hif.qps[n] = some g →
      committing s = false ∨ s.hif.qps[n].state ≠ .running ∨ g.opcode.toNat ≠ op) : exec c s = .next s := by
    rw [hexec, runCmd_stays block deps f h]
    exact ite_self _
  refine ⟨?held, fun g hg hne => hstays fun g' hg' => ?other, fun g hlive hcommits hpair hfirst hcode => ⟨?rescue, ?restoring⟩⟩
  case held =>
    rintro (hheld | hpaused | hpair | hnone)
    · rw [hexec, whenLive_held hheld]
    · exact hstays fun _ _ => .inl hpaused
    · exact hstays fun _ _ => .inr (.inl hpair)
    · exact hstays fun g hg => absurd (hnone ▸ hg) nofun
  case other =>
    obtain rfl : g = g' := Option.some.inj (hg ▸ hg')
    exact .inr (.inr hne)
  case rescue =>
    intro hmain hop'
    rw [hexec, whenLive_live hlive, runCmd_rescue block deps f hcommits hpair hfirst hcode hmain hop']
  case restoring =>
    intro hmain hrest hop'
    rw [hexec, whenLive_live hlive, runCmd_restoring block deps f hcommits hpair hfirst hcode hmain hrest hop']

/-! ### NOP and TAG_STATUS -/

/-- A command that is no SET_ command and no TIMER_SET joins no settings in force (R471). -/
theorem noteSetting_other {op : Nat} (h : op < 0x0010) (desc block : List Byte) (s : State) : noteSetting op desc block s = s := by
  unfold noteSetting
  dsimp only
  repeat rw [if_neg (by omega)]

section
variable {c : Call} {m : Fin 64} {e : TagEntry} {s : State} (hqp : arg1 c 0x18 = m.val) (hdest : destFault c 32 = none)
include hqp hdest

theorem tagStatus_unknown (h : tagOf s.hif.qps[m] (BitVec.ofNat 32 (argN c 0x1C 4)) = none) : tagStatus c s = .ok s [0] := by
  simp only [tagStatus, hqp, getN_fin, hdest, h]

variable (he : tagOf s.hif.qps[m] (BitVec.ofNat 32 (argN c 0x1C 4)) = some e)
include he

theorem tagStatus_queued (hst : e.state = .queued) : tagStatus c s = .ok s [1] := by
  simp only [tagStatus, hqp, getN_fin, hdest, he, hst]

theorem tagStatus_committed (hst : e.state = .committed) : tagStatus c s = .ok s [2] := by
  simp only [tagStatus, hqp, getN_fin, hdest, he, hst]

theorem tagStatus_done (hst : e.state = .done) (hdma : dma s = true) :
    tagStatus c s = .ok (hostWrite (paramAddr c.desc) (storedComp e) s) [3] := by
  simp only [tagStatus, hqp, getN_fin, hdest, he, hst, hdma, if_true]

end

/-- TAG_STATUS of a queue pair that does not exist is INVALID at QP (R356). -/
theorem tagStatus_invalid {c : Call} (h : 64 ≤ arg1 c 0x18) (s : State) : tagStatus c s = refuse stInvalid 0x18 := by
  simp [tagStatus, getN, Nat.not_lt.2 h]

/-- Settles O26, from what the two commands answer. -/
theorem nopAndTagStatus : Obligations.NopAndTagStatus := by
  have hsucceeds {n : Fin 64} {g : Fetched} {op : Nat} {result : List Byte} (h : op < 0x0010) (t : State) :
      Safety.succeeds n g op [] result t = finish n g.tag stSuccess 0 result t := by
    rw [Safety.succeeds, noteSetting_other h]
  refine ⟨fun n g s hc => ?nop, fun n g m s hc => ?status, fun n g s hc hqp => ?invalid⟩
  case nop =>
    rw [exec_live hc.runs (o := .next (runCmd (.host n) 0x0001 [] noDeps nop s)) rfl, runCmd_ok hc noDeps rfl, hsucceeds (by decide)]
  case status =>
    intro c tag hqp hdest
    have hexec := exec_live hc.runs (c := .tagStatus (.host n)) (o := .next (runCmd (.host n) 0x0002 [] noDeps tagStatus s)) rfl
    have hok {t : State} {result : List Byte} (h : tagStatus c s = .ok t result) :
        exec (.tagStatus (.host n)) s = .next (finish n g.tag stSuccess 0 result t) := by
      rw [hexec, runCmd_ok hc noDeps h, hsucceeds (by decide)]
    exact ⟨fun hnone => hok (tagStatus_unknown hqp hdest hnone), fun e he hst => hok (tagStatus_queued hqp hdest he hst),
      fun e he hst => hok (tagStatus_committed hqp hdest he hst), fun e he hst hdma => hok (tagStatus_done hqp hdest he hst hdma)⟩
  case invalid =>
    rw [exec_live hc.runs (o := .next (runCmd (.host n) 0x0002 [] noDeps tagStatus s)) rfl,
      runCmd_refuse hc noDeps (tagStatus_invalid hqp s) (by decide)]

end Sys2Proof.Machine
end
section
/-!
SUPPORT and the proof of O11: what posting a completion makes of the queue pair, host memory and the vectors (R339, R348, R352, R355).
-/
namespace Sys2Proof.Machine

theorem ite_le_eq_ite_lt {α : Type} (k n : Nat) (a b : α) : (if n ≤ k then a else b) = if k < n then b else a := by
  simp only [← Nat.not_lt, ite_not]

/-! ### One entry of a tag history -/

/-- A tag of a history whose entry changes, its tag kept, has the changed entry. -/
theorem tagOf_setTag {tag : W32} {f : TagEntry → TagEntry} (hf : ∀ e, (f e).tag = e.tag) (q : QPair) :
    tagOf (setTag tag f q) tag = (tagOf q tag).map f := by
  have hkeep (e : TagEntry) : ((if e.tag == tag then f e else e).tag == tag) = (e.tag == tag) := by split <;> simp [hf]
  unfold tagOf setTag
  dsimp only
  induction q.history with
  | nil => rfl
  | cons e l ih =>
    rw [List.map_cons, List.find?_cons, List.find?_cons, hkeep]
    cases he : e.tag == tag with
    | false => exact ih
    | true => simp

/-! ### A queue pair as a completion passes through it -/

/-- The descriptor of a command leaves. -/
def leaveFetched (tag : W32) (q : QPair) : QPair := { q with fetched := q.fetched.filter fun g => g.tag != tag }

/-- The history holds the completion (R355). -/
def holdComp (c : Comp) (q : QPair) : QPair := setTag c.tag (fun e => { e with state := .done, comp := some c }) q

/-- The completion waits for DMA (R339). -/
def queueComp (c : Comp) (q : QPair) : QPair := { q with waiting := q.waiting ++ [c] }

/-- The CQ tail moves on, the phase toggles at the wrap (R348), and the history knows with what the completion was written. -/
def advanceComp (c : Comp) (q : QPair) : QPair :=
  setTag c.tag (fun e => { e with written := some (q.sqHead, q.phase) })
    { q with cqTail := if q.cqTail + 1 < 2 ^ q.cqLog2 then q.cqTail + 1 else 0, unreleased := q.unreleased + 1,
             phase := if q.cqTail + 1 < 2 ^ q.cqLog2 then q.phase else !q.phase }

/-- ATTEMPT of a completion (R352): that of its tag, 1 where the history does not hold it. -/
def attemptOf (tag : W32) (q : QPair) : Nat := ((tagOf q tag).map (·.attempt)).getD 1

theorem attemptOf_holdComp (c : Comp) (q : QPair) : attemptOf c.tag (holdComp c q) = attemptOf c.tag q := by
  unfold attemptOf holdComp
  rw [tagOf_setTag (f := fun e => { e with state := .done, comp := some c }) fun _ => rfl, Option.map_map]
  rfl

/-! ### The operations -/

theorem updQp_own (n : Fin 64) (f : QPair → QPair) (s : State) : (updQp n f s).hif.qps[n] = f s.hif.qps[n] := upd_get ..

section
variable (n : Fin 64) (c : Comp) (s : State)

theorem writeComp_hostMem : (writeComp n c s).hostMem = Memory.writeAll s.hostMem
    ((s.hif.qps[n].cqBase.toNat / 4096) * 4096 + 32 * s.hif.qps[n].cqTail)
    (compBytes c (attemptOf c.tag s.hif.qps[n]) s.hif.qps[n].sqHead s.hif.qps[n].phase) := by
  unfold writeComp attemptOf
  dsimp only
  split <;> cases tagOf s.hif.qps[n] c.tag <;> rfl

theorem writeComp_qps : (writeComp n c s).hif.qps = upd s.hif.qps n (advanceComp c) := by
  have hentry : (writeComp n c s).hif.qps = upd s.hif.qps n fun _ => (writeComp n c s).hif.qps[n] := by
    unfold writeComp
    dsimp only
    split <;> simp [upd]
  have hown : (writeComp n c s).hif.qps[n] = advanceComp c s.hif.qps[n] := by
    unfold writeComp advanceComp
    dsimp only
    split <;> simp [ite_le_eq_ite_lt]
  rw [hentry, hown]
  rfl

theorem writeComp_vecs : (writeComp n c s).hif.vecs = if s.hif.qps[n].irqEn
    then upd s.hif.vecs (vecIndex s.hif.qps[n].vector) (fun x => { x with pending := true }) else s.hif.vecs := by
  unfold writeComp
  dsimp only
  split <;> rfl

end

section
variable {n : Fin 64} {c : Comp} {s : State}

/-- Without DMA a completion posted waits. -/
theorem postComp_of_not_dma (h : dma s = false) : postComp n c s = updQp n (fun q => queueComp c (holdComp c q)) s := by
  have h' : dma (updQp n (holdComp c) s) = false := h
  calc postComp n c s
      = if dma (updQp n (holdComp c) s) then writeComp n c (updQp n (holdComp c) s)
          else updQp n (queueComp c) (updQp n (holdComp c) s) := rfl
    _ = updQp n (queueComp c) (updQp n (holdComp c) s) := by simp [h']
    _ = updQp n (fun q => queueComp c (holdComp c q)) s := by simp [updQp, upd_upd]

/-- With DMA possible a completion posted is written. -/
theorem postComp_of_dma (h : dma s = true) : postComp n c s = writeComp n c (updQp n (holdComp c) s) := if_pos h

/-- A fetched command that finishes leaves, and its completion is posted. -/
theorem finish_of_fetched {f : Fetched} {tag : W32} (h : (s.hif.qps[n].fetched.find? fun g => g.tag == tag) = some f)
    (status detail : Nat) (result : List Byte) : finish n tag status detail result s =
      postComp n { tag := tag, status := status, detail := BitVec.ofNat 8 detail, opcode := f.opcode, result := pad 16 result }
        (updQp n (leaveFetched tag) s) := by
  unfold finish
  rw [h]
  rfl

end

/-! ### The state that a posted completion leaves -/

section
variable {n : Fin 64} {c : Comp} {tag : W32} {s : State}

theorem postComp_qps_of_not_dma (h : dma s = false) :
    (postComp n c (updQp n (leaveFetched tag) s)).hif.qps = upd s.hif.qps n fun q => queueComp c (holdComp c (leaveFetched tag q)) := by
  rw [postComp_of_not_dma (by exact h), updQp_hif_qps, updQp_hif_qps, upd_upd]

theorem postComp_qps_of_dma (h : dma s = true) :
    (postComp n c (updQp n (leaveFetched tag) s)).hif.qps = upd s.hif.qps n fun q => advanceComp c (holdComp c (leaveFetched tag q)) := by
  rw [postComp_of_dma (by exact h), writeComp_qps, updQp_hif_qps, updQp_hif_qps, upd_upd, upd_upd]

end

/-- Settles O11, apart for the two ways in which a completion is posted. -/
theorem completionIsPosted : Obligations.CompletionIsPosted := by
  intro n f status detail result s hfetched q t c
  have hpost : t = postComp n c (updQp n (leaveFetched f.tag) s) := finish_of_fetched hfetched status detail result
  have hframe : t = { s with hostMem := t.hostMem, hif := { s.hif with qps := t.hif.qps, vecs := t.hif.vecs } } := finish_frame ..
  clear_value t
  cases hdma : dma s with
  | false =>
    have hqps := postComp_qps_of_not_dma (n := n) (c := c) (tag := f.tag) hdma
    rw [← hpost] at hqps
    have hown : t.hif.qps[n] = queueComp c (holdComp c (leaveFetched f.tag q)) := by simp [hqps, q]
    have hrest : ∀ m : Fin 64, m ≠ n → t.hif.qps[m] = s.hif.qps[m] := fun m hm => by simpa [hqps] using upd_get_ne _ _ _ _ hm
    refine ⟨by rw [hown]; rfl, hframe, hrest, fun _ => ⟨?_, ?_, by rw [hown]; rfl, by rw [hown]; rfl⟩, nofun⟩
    · rw [hpost, postComp_of_not_dma (by exact hdma)]
      rfl
    · rw [hpost, postComp_of_not_dma (by exact hdma)]
      rfl
  | true =>
    have hqps := postComp_qps_of_dma (n := n) (c := c) (tag := f.tag) hdma
    rw [← hpost] at hqps
    have hown : t.hif.qps[n] = advanceComp c (holdComp c (leaveFetched f.tag q)) := by simp [hqps, q]
    have hrest : ∀ m : Fin 64, m ≠ n → t.hif.qps[m] = s.hif.qps[m] := fun m hm => by simpa [hqps] using upd_get_ne _ _ _ _ hm
    have hheld : (updQp n (holdComp c) (updQp n (leaveFetched f.tag) s)).hif.qps[n] = holdComp c (leaveFetched f.tag q) := by simp [q]
    have hmem : t.hostMem = Memory.writeAll s.hostMem ((q.cqBase.toNat / 4096) * 4096 + 32 * q.cqTail)
        (compBytes c (attemptOf f.tag q) q.sqHead q.phase) := by
      rw [hpost, postComp_of_dma (by exact hdma), writeComp_hostMem, hheld, attemptOf_holdComp]
      rfl
    have hvecs : t.hif.vecs = if q.irqEn
        then upd s.hif.vecs (vecIndex q.vector) (fun x => { x with pending := true }) else s.hif.vecs := by
      rw [hpost, postComp_of_dma (by exact hdma), writeComp_vecs, hheld]
      rfl
    refine ⟨by rw [hown]; rfl, hframe, hrest, nofun, fun _ => ⟨by rw [hown]; rfl, by rw [hown]; rfl, by rw [hown]; rfl,
      ⟨attemptOf f.tag q, hmem, fun e he => ?attempt⟩, fun hirq => ?pends, fun hirq => ?quiet⟩⟩
    case attempt => simp [attemptOf, he]
    case pends =>
      rw [if_pos hirq] at hvecs
      have hvec : t.hif.vecs[vecIndex q.vector].pending = true := by simp [hvecs]
      exact hvec
    case quiet => simpa [hirq] using hvecs

end Sys2Proof.Machine
end
section
/-!
SUPPORT and the proof of O9: what a write of QP_CFG makes of a queue pair (R345, R347).
-/
namespace Sys2Proof.Machine

/-! ### QP_CFG with ENABLE set or cleared -/

theorem qpCfg_or_enable_mod (cfg : W32) : (cfg ||| 0x10000000#32).toNat % 2 ^ 28 = cfg.toNat % 2 ^ 28 := by
  have hbit : (0x10000000#32).toNat % 2 ^ 28 = 0 := rfl
  rw [BitVec.toNat_or, Nat.or_mod_two_pow, hbit, Nat.or_zero]

theorem qpCfg_and_disable_mod (cfg : W32) : (cfg &&& 0xEFFFFFFF#32).toNat % 2 ^ 28 = cfg.toNat % 2 ^ 28 := by
  have hmask : (0xEFFFFFFF#32).toNat % 2 ^ 28 = 2 ^ 28 - 1 := rfl
  rw [BitVec.toNat_and, Nat.and_mod_two_pow, hmask, Nat.and_two_pow_sub_one_eq_mod, Nat.mod_mod]

section
variable {a b : W32} (h : a.toNat % 2 ^ 28 = b.toNat % 2 ^ 28)
include h

/-- The sizes lie below ENABLE. -/
theorem qpCfgOk_congr : qpCfgOk a = qpCfgOk b := by
  have hsq : a.toNat % 32 = b.toNat % 32 := by omega
  have hcq : a.toNat / 256 % 32 = b.toNat / 256 % 32 := by omega
  unfold qpCfgOk
  rw [hsq, hcq]

/-- The fields lie below ENABLE. -/
theorem qpCfgFields_congr (q : QPair) : qpCfgFields a q = { q with
    sqLog2 := b.toNat % 32, cqLog2 := b.toNat / 256 % 32, vector := b.extractLsb' 16 6, irqEn := b.getLsbD 24 } := by
  have hsq : a.toNat % 32 = b.toNat % 32 := by omega
  have hcq : a.toNat / 256 % 32 = b.toNat / 256 % 32 := by omega
  have hvec : BitVec.ofNat 6 (a.toNat / 2 ^ 16) = b.extractLsb' 16 6 :=
    BitVec.eq_of_toNat_eq (by simp only [BitVec.toNat_ofNat, BitVec.extractLsb'_toNat, Nat.shiftRight_eq_div_pow]; omega)
  have hirq : a.getLsbD 24 = b.getLsbD 24 := by
    simp only [BitVec.getLsbD, Nat.testBit_eq_decide_div_mod_eq]
    exact decide_eq_decide.2 (by omega)
  unfold qpCfgFields
  rw [hsq, hcq, hvec, hirq]

end

/-! ### What a write of QP_CFG does -/

section
variable {n : Fin 64} {cfg : W32} {s : State}

theorem writeQpCfg_bad (h : qpCfgOk cfg = false) : writeQpCfg n cfg s = s := by simp [writeQpCfg, h]

theorem writeQpCfg_draining (h : s.hif.qps[n].state = .draining) : writeQpCfg n cfg s = s := by
  unfold writeQpCfg
  dsimp only
  rw [h]
  exact ite_self _

theorem writeQpCfg_starts (hok : qpCfgOk cfg = true) (hdisabled : s.hif.qps[n].state = .disabled) (hen : cfg.getLsbD 28 = true) :
    writeQpCfg n cfg s = updQp n (fun q => qpStart (qpCfgFields cfg q)) s := by
  unfold writeQpCfg
  dsimp only
  rw [hdisabled]
  simp only [hok, hen, Bool.not_true, Bool.false_eq_true, if_false, if_true]

theorem writeQpCfg_stops (hok : qpCfgOk cfg = true) (hon : s.hif.qps[n].state = .running ∨ s.hif.qps[n].state = .error)
    (hen : cfg.getLsbD 28 = false) : writeQpCfg n cfg s = qpStop n s := by
  unfold writeQpCfg
  dsimp only
  rcases hon with hon | hon <;> rw [hon] <;> simp only [hok, hen, Bool.not_true, Bool.false_eq_true, if_false]

/-- With nothing fetched nothing is aborted. -/
theorem qpStop_of_nil (h : s.hif.qps[n].fetched = []) :
    qpStop n s = updQp n (fun q => { q with enable := false, state := .draining }) s := by
  unfold qpStop
  rw [h]
  rfl

/-- One uncommitted descriptor is aborted. -/
theorem qpStop_of_uncommitted {f : Fetched} (h : s.hif.qps[n].fetched = [f]) (hf : f.committed = false) :
    qpStop n s = finish n f.tag stAborted 0 [] (updQp n (fun q => { q with enable := false, state := .draining }) s) := by
  unfold qpStop
  rw [h]
  simp [hf]

theorem exec_qpDisable_stops (hs : reachable s = true) (hok : qpCfgOk cfg = true)
    (hon : s.hif.qps[n].state = .running ∨ s.hif.qps[n].state = .error) : exec (.qpDisable n cfg) s = .next (qpStop n s) := by
  rw [exec_reachable hs (o := .next (writeQpCfg n (cfg &&& 0xEFFFFFFF#32) s)) rfl,
    writeQpCfg_stops ((qpCfgOk_congr (qpCfg_and_disable_mod cfg)).trans hok) hon (by simp)]

/-- A QP_ENABLE or QP_DISABLE whose word the device ignores. -/
theorem exec_qpCfg_ignored (hs : reachable s = true)
    (h : ∀ w : W32, w.toNat % 2 ^ 28 = cfg.toNat % 2 ^ 28 → writeQpCfg n w s = s) :
    exec (.qpEnable n cfg) s = .next s ∧ exec (.qpDisable n cfg) s = .next s := by
  rw [exec_reachable hs (c := .qpEnable n cfg) (o := .next (writeQpCfg n (cfg ||| 0x10000000#32) s)) rfl,
    exec_reachable hs (c := .qpDisable n cfg) (o := .next (writeQpCfg n (cfg &&& 0xEFFFFFFF#32) s)) rfl,
    h _ (qpCfg_or_enable_mod cfg), h _ (qpCfg_and_disable_mod cfg)]
  exact ⟨rfl, rfl⟩

end

/-- A command that finishes leaves its queue pair's state and ENABLE alone. -/
theorem finish_state_enable {n : Fin 64} {f : Fetched} {s : State}
    (h : (s.hif.qps[n].fetched.find? fun g => g.tag == f.tag) = some f) (status detail : Nat) (result : List Byte) :
    (finish n f.tag status detail result s).hif.qps[n].state = s.hif.qps[n].state ∧
      (finish n f.tag status detail result s).hif.qps[n].enable = s.hif.qps[n].enable := by
  rw [finish_of_fetched h]
  cases hdma : dma s with
  | false =>
    rw [postComp_qps_of_not_dma hdma]
    simp [queueComp, holdComp, setTag, leaveFetched]
  | true =>
    rw [postComp_qps_of_dma hdma]
    simp [advanceComp, holdComp, setTag, leaveFetched]

/-- Settles O9: QP_ENABLE and QP_DISABLE are writes of one word whose fields lie below ENABLE. -/
theorem queuePairLife : Obligations.QueuePairLife := by
  refine ⟨fun n s hlive hstate hfetched hwaiting => ?drained, fun n cfg s hs => ⟨fun hdisabled hok => ?starts,
    fun hon hok hfetched => ?stops, fun hdraining => ?draining, fun hbad => ?bad⟩, fun n cfg f s hs hok hon hfetched hf => ?aborts⟩
  case drained =>
    refine (whenLive_live hlive _).trans (if_pos ?_)
    rw [hstate, hfetched, hwaiting]
    rfl
  case starts =>
    have hmod := qpCfg_or_enable_mod cfg
    have hexec : exec (.qpEnable n cfg) s = .next (updQp n (fun q => qpStart (qpCfgFields (cfg ||| 0x10000000#32) q)) s) := by
      rw [exec_reachable hs (o := .next (writeQpCfg n (cfg ||| 0x10000000#32) s)) rfl,
        writeQpCfg_starts ((qpCfgOk_congr hmod).trans hok) hdisabled (by simp)]
    simp only [qpCfgFields_congr hmod] at hexec
    refine ⟨_, hexec, ?_⟩
    simp [qpStart, updQp, upd]
  case stops => rw [exec_qpDisable_stops hs hok hon, qpStop_of_nil hfetched]
  case draining => exact exec_qpCfg_ignored hs fun _ _ => writeQpCfg_draining hdraining
  case bad => exact exec_qpCfg_ignored hs fun _ h => writeQpCfg_bad ((qpCfgOk_congr h).trans hbad)
  case aborts =>
    have hfind : ((updQp n (fun q => { q with enable := false, state := .draining }) s).hif.qps[n].fetched.find?
        fun g => g.tag == f.tag) = some f := by
      rw [updQp_own, hfetched]
      simp
    obtain ⟨hstate, henable⟩ := finish_state_enable hfind stAborted 0 []
    obtain ⟨hleft, -⟩ := completionIsPosted n f stAborted 0 [] _ hfind
    refine ⟨_, exec_qpDisable_stops hs hok (.inl hon), ?_⟩
    rw [qpStop_of_uncommitted hfetched hf]
    rw [hstate, henable, hleft, updQp_own, hfetched]
    exact ⟨rfl, rfl, by simp, rfl⟩

end Sys2Proof.Machine
end
section
/-!
The proof of O14: interrupt messages (R370).
-/
namespace Sys2Proof.Machine

/-- MIN_GAP has passed where a message sent before lies long enough back (R370). -/
theorem gapPassed_of_elapsed {s : State} {v : MsixVec}
    (h : ∀ t, v.lastSent = some t → v.minGap.toNat * 100 ≤ (s.aoCycles - t) * 40) : gapPassed s v = true := by
  unfold gapPassed
  split
  · rfl
  · next t ht => exact decide_eq_true (h t ht)

/-- Settles O14: each step is its own guard, in always-on cycles of 40 ns (log 2). -/
theorem interruptsAreSent : Obligations.InterruptsAreSent := by
  refine fun v s hlive => ⟨fun hpending henable hmask hctrl hdma hgap => ?sent, fun hheld => ?held,
    fun i st t hst hirq hfirst hpassed => ?timeout⟩
  case sent =>
    refine (whenLive_live hlive _).trans (if_pos ?_)
    rw [hpending, henable, hmask, hctrl, hdma, gapPassed_of_elapsed hgap]
    rfl
  case held =>
    refine (whenLive_live hlive _).trans (if_neg ?_)
    rcases hheld with h | h | h | h <;> rw [h] <;> simp
  case timeout =>
    refine (whenLive_live hlive _).trans ?_
    have husec : usecPassed s st = true := by simp [usecPassed, hfirst, hpassed]
    rw [hst]
    simp only [hirq, husec, Bool.and_self, if_true]

end Sys2Proof.Machine
end
section
/-!
SUPPORT and the proof of O16: a reset of the host interface (R339).
-/
namespace Sys2Proof.Machine

/-! ### Transfers abandoned (R215, R339) -/

/-- `t` is `s` with segments let go of, none taken away. -/
def OnlyReaders (s t : State) : Prop :=
  t = { s with mem := { s.mem with segs := t.mem.segs } } ∧ t.mem.segs.length = s.mem.segs.length

theorem OnlyReaders.trans {s t u : State} (h : OnlyReaders s t) (k : OnlyReaders t u) : OnlyReaders s u := by
  obtain ⟨ht, hlen⟩ := h
  obtain ⟨hu, hlen'⟩ := k
  exact ⟨by rw [hu, ht], hlen'.trans hlen⟩

theorem abandonXfer_onlyReaders (s : State) (f : Fetched) : OnlyReaders s (abandonXfer s f) := by
  unfold abandonXfer
  split
  · exact ⟨rfl, by simp⟩
  · exact ⟨rfl, rfl⟩

theorem abandonAll_onlyReaders (s : State) : OnlyReaders s (abandonAll s) :=
  forAll_keeps (OnlyReaders s) _ s
    (fun _ _ h => foldl_keeps (OnlyReaders s) abandonXfer _ _ (fun t f ht => ht.trans (abandonXfer_onlyReaders t f)) h) ⟨rfl, rfl⟩

/-! ### Access levels closed (R489) -/

/-- Raising a boot report changes event sources only. -/
theorem raiseBoot_onlySource (src : Fin 256) (sev : Nat) (data : List Byte) (s : State) : raiseBoot src sev data s =
    { s with hif := { s.hif with ev := { s.hif.ev with src := (raiseBoot src sev data s).hif.ev.src } } } := by
  unfold raiseBoot raiseWith updSource
  dsimp only
  repeat' split
  all_goals rfl

/-- `t` is `s` with access levels closed and event sources changed. -/
def OnlyLevels (s t : State) : Prop :=
  t = { s with acc := { s.acc with level := t.acc.level }, hif := { s.hif with ev := { s.hif.ev with src := t.hif.ev.src } } }

/-- One access level closes, with its boot report. -/
def closeLevel (l : Fin 2) (s : State) : State :=
  if (s.acc.level[l]).isOpen then
    raiseBoot 0xF1 sevNotice [BitVec.ofNat 8 l.val, 2, BitVec.ofNat 8 (s.acc.level[l]).fails]
      { s with acc := { s.acc with level := upd s.acc.level l fun x => { x with isOpen := false } } }
  else s

theorem closeLevels_eq (s : State) : closeLevels s = closeLevel 1 (closeLevel 0 s) := rfl

theorem closeLevel_onlyLevels (l : Fin 2) (s : State) : OnlyLevels s (closeLevel l s) := by
  unfold closeLevel OnlyLevels
  split
  · rw [raiseBoot_onlySource]
  · rfl

theorem OnlyLevels.trans {s t u : State} (h : OnlyLevels s t) (k : OnlyLevels t u) : OnlyLevels s u := by
  unfold OnlyLevels at *
  rw [k, h]

theorem OnlyLevels.hif {s t : State} (h : OnlyLevels s t) :
    t.hif = { s.hif with ev := { s.hif.ev with src := t.hif.ev.src } } := congrArg State.hif h

theorem OnlyLevels.segs {s t : State} (h : OnlyLevels s t) : t.mem.segs = s.mem.segs := by rw [h]

theorem closeLevel_closes (l : Fin 2) (s : State) : ((closeLevel l s).acc.level[l]).isOpen = false := by
  unfold closeLevel
  split
  · simp
  · next h => simpa using h

theorem closeLevel_other {l m : Fin 2} (h : m ≠ l) (s : State) : (closeLevel l s).acc.level[m] = s.acc.level[m] := by
  unfold closeLevel
  split
  · simpa using upd_get_ne _ _ _ _ h
  · rfl

/-- Every access level closes. -/
theorem closeLevels_closes (s : State) (l : Fin 2) : ((closeLevels s).acc.level[l]).isOpen = false := by
  rw [closeLevels_eq]
  match l with
  | 0 =>
    rw [closeLevel_other (by decide)]
    exact closeLevel_closes 0 s
  | 1 => exact closeLevel_closes 1 _

theorem closeLevels_onlyLevels (s : State) : OnlyLevels s (closeLevels s) := by
  rw [closeLevels_eq]
  exact (closeLevel_onlyLevels 0 s).trans (closeLevel_onlyLevels 1 _)

/-! ### The reset -/

/-- HIF_ registers, queue pairs, ring and streams as a reset of the host interface leaves them, before levels close. -/
def hifAfterReset (linkStays : Bool) (h : Hif) : Hif :=
  { Hif.reset with cmdPaused := h.cmdPaused, linkGen := h.linkGen, linkWidth := h.linkWidth, linkUp := linkStays && h.linkUp,
                   linkRecovery := linkStays && h.linkRecovery, ev := { EvRing.reset with src := h.ev.src.map keepHeld },
                   sent := h.sent }

/-- The state after a reset of the host interface whose access levels are still as they were. -/
def levelsOpen (linkStays : Bool) (s : State) : State :=
  { abandonAll s with hif := hifAfterReset linkStays (abandonAll s).hif }

theorem resetHif_eq (linkStays : Bool) (s : State) : resetHif linkStays s = closeLevels (levelsOpen linkStays s) := rfl

/-- `t` differs from `s` at most in the host interface, the access levels and the segments. -/
def OnlyInterface (s t : State) : Prop := t = { s with hif := t.hif, acc := t.acc, mem := { s.mem with segs := t.mem.segs } }

theorem OnlyInterface.trans {s t u : State} (h : OnlyInterface s t) (k : OnlyInterface t u) : OnlyInterface s u := by
  unfold OnlyInterface at *
  rw [k, h]

theorem OnlyLevels.onlyInterface {s t : State} (h : OnlyLevels s t) : OnlyInterface s t := by
  unfold OnlyLevels at h
  unfold OnlyInterface
  rw [h]

/-- Segments are let go of, none taken away. -/
theorem levelsOpen_frame (linkStays : Bool) (s : State) :
    OnlyInterface s (levelsOpen linkStays s) ∧
      (levelsOpen linkStays s).mem.segs.length = s.mem.segs.length := by
  obtain ⟨habandoned, hlength⟩ := abandonAll_onlyReaders s
  unfold levelsOpen OnlyInterface
  generalize hifAfterReset linkStays (abandonAll s).hif = h
  generalize abandonAll s = t at *
  exact ⟨by rw [habandoned], hlength⟩

/-- What a reset of the host interface leaves of the interface, and that nothing else changes but access levels and readers. -/
theorem resetHif_spec (linkStays : Bool) (s : State) :
    let t := resetHif linkStays s
    (∀ n : Fin 64, t.hif.qps[n] = QPair.reset) ∧ (∀ i : Fin 64, t.hif.streams[i] = none) ∧
      t.hif.msixEnable = false ∧ t.hif.busMaster = false ∧ t.hif.cmdEn = false ∧ t.hif.ev.enable = false ∧
      (∀ l : Fin 2, (t.acc.level[l]).isOpen = false) ∧
      t = { s with hif := t.hif, acc := t.acc, mem := { s.mem with segs := t.mem.segs } } ∧
      t.mem.segs.length = s.mem.segs.length := by
  obtain ⟨hopen, hlength⟩ := levelsOpen_frame linkStays s
  have hclosed := closeLevels_onlyLevels (levelsOpen linkStays s)
  have hlevels := closeLevels_closes (levelsOpen linkStays s)
  rw [← resetHif_eq] at hclosed hlevels
  generalize resetHif linkStays s = t at *
  dsimp only
  have hhif := hclosed.hif
  refine ⟨fun n => ?qps, fun i => ?streams, by rw [hhif]; rfl, by rw [hhif]; rfl, by rw [hhif]; rfl, by rw [hhif]; rfl, hlevels,
    hopen.trans hclosed.onlyInterface, by rw [hclosed.segs, hlength]⟩
  case qps =>
    rw [hhif]
    simp [levelsOpen, hifAfterReset, Hif.reset]
  case streams =>
    rw [hhif]
    simp [levelsOpen, hifAfterReset, Hif.reset]

/-- Settles O16: Hot Reset and FLR are one reset, `resetHif`. -/
theorem hostResetsTouchTheInterfaceOnly : Obligations.HostResetsTouchTheInterfaceOnly := by
  intro s hlive c hc
  rcases hc with rfl | ⟨rfl, hreachable⟩
  · exact ⟨_, exec_live hlive rfl, resetHif_spec false s⟩
  · exact ⟨_, exec_reachable hreachable rfl, resetHif_spec true s⟩

end Sys2Proof.Machine
end
section
/-!
SUPPORT and the proof of O12: reads of host memory that fail (R338), and accesses of another shape (R341).
-/
namespace Sys2Proof.Machine

/-! ### A queue pair in ERROR (R347, R378) -/

section
variable {n : Fin 64} {s : State}

/-- A RUNNING queue pair goes to ERROR with its cause and an event. -/
theorem qpError_of_running (h : s.hif.qps[n].state = .running) (cause : Nat) : qpError n cause s =
    raiseNow 0xD0 sevError [BitVec.ofNat 8 n.val, BitVec.ofNat 8 cause]
      (updQp n (fun q => { q with state := .error, errCause := BitVec.ofNat 8 cause }) s) := by
  unfold qpError
  rw [h]
  rfl

theorem qpError_qps (h : s.hif.qps[n].state = .running) (cause : Nat) : (qpError n cause s).hif.qps =
    upd s.hif.qps n fun q => { q with state := .error, errCause := BitVec.ofNat 8 cause } := by
  rw [qpError_of_running h, raiseNow_hif_qps, updQp_hif_qps]

end

/-! ### A read of host memory fails for good (R338) -/

/-- The read that failed is noted: HOST_MEM_ERR set, the retries of its queue pair forgotten, HIF_HOST_MEM raised. -/
def noteHostMem (n : Fin 64) (data : List Byte) (s : State) : State :=
  raiseNow 0xD1 sevError data
    { s with hif := { s.hif with hostMemErr := true, retries := s.hif.retries.filter fun r => r.1 != n.val } }

/-- What HIF_HOST_MEM reports of the command that needed the bytes. -/
def hostMemData (n : Fin 64) (f : Option Fetched) (cause : Fin 4) : List Byte :=
  [BitVec.ofNat 8 n.val, BitVec.ofNat 8 cause.val] ++ le 2 ((f.map fun f => f.opcode.toNat).getD 0)
    ++ le 4 ((f.map fun f => f.tag.toNat).getD 0)

section
variable (n : Fin 64) (data : List Byte) (s : State)

@[simp] theorem noteHostMem_qps : (noteHostMem n data s).hif.qps = s.hif.qps := raiseNow_hif_qps ..

@[simp] theorem noteHostMem_hostMemErr : (noteHostMem n data s).hif.hostMemErr = true := raiseNow_hif_hostMemErr ..

@[simp] theorem noteHostMem_hostMem : (noteHostMem n data s).hostMem = s.hostMem := raiseNow_hostMem ..

@[simp] theorem noteHostMem_dma : dma (noteHostMem n data s) = dma s := by simp [dma, noteHostMem]

end

theorem hostMemFailed_fetch (n : Fin 64) (cause : Fin 4) (s : State) :
    hostMemFailed n none cause s = qpError n 0x01 (noteHostMem n (hostMemData n none cause) s) := rfl

theorem hostMemFailed_command (n : Fin 64) (tag : W32) (cause : Fin 4) (s : State) : hostMemFailed n (some tag) cause s =
    finish n tag stHostMem 0 []
      (noteHostMem n (hostMemData n (s.hif.qps[n].fetched.find? fun f => f.tag == tag) cause) s) := rfl

theorem exec_hostMem_fails {n : Fin 64} {s : State} (hlive : live s = true) (h : retriesOf n s = 2) (tag : Option W32) (cause : Fin 4) :
    exec (.hostMem n tag cause) s = .next (hostMemFailed n tag cause s) :=
  exec_live hlive (o := .next (if retriesOf n s = 2 then hostMemFailed n tag cause s else s)) rfl |>.trans (by rw [if_pos h])

/-! ### Accesses of another shape (R341) -/

theorem exec_registerWrite_misaligned {off : Nat} {wide : Bool} (h : off % (if wide then 8 else 4) ≠ 0) {s : State}
    (hs : reachable s = true) (v : W64) :
    exec (.registerWrite off wide v) s = .next { s with hif := { s.hif with badAccess := true } } := by
  rw [exec_reachable hs (o := .next (writeReg off wide v s)) rfl, writeReg, if_pos h]

/-- Settles O12: a read fails for good after two retries (log 99), and then its queue pair goes to ERROR or its command completes. -/
theorem hostErrorsAndBadAccesses : Obligations.HostErrorsAndBadAccesses := by
  refine ⟨fun n cause s hlive => ⟨exec_live hlive rfl, fun tag hearly => ?early, fun hlast hrunning => ?fetch,
    fun f hlast hfetched hdma => ?command⟩, fun s hs => ⟨exec_reachable hs rfl, exec_reachable hs rfl,
    fun off v hoff => exec_registerWrite_misaligned hoff hs v, fun off v hoff => exec_registerWrite_misaligned hoff hs v,
    fun off hoff => ?read⟩⟩
  case early =>
    rw [exec_live hlive (o := .next (if retriesOf n s = 2 then hostMemFailed n tag cause s else s)) rfl, if_neg hearly]
  case fetch =>
    have hnoted : (noteHostMem n (hostMemData n none cause) s).hif.qps[n].state = .running := by
      rw [noteHostMem_qps]
      exact hrunning
    refine ⟨_, exec_hostMem_fails hlive hlast none cause, ?_⟩
    rw [hostMemFailed_fetch, qpError_qps hnoted, qpError_of_running hnoted]
    refine ⟨by simp, by simp, by simp, fun m hm => ?_, by simp⟩
    rw [noteHostMem_qps]
    exact upd_get_ne _ _ _ _ hm
  case command =>
    have hnoted : ((noteHostMem n (hostMemData n (s.hif.qps[n].fetched.find? fun g => g.tag == f.tag) cause) s).hif.qps[n].fetched.find?
        fun g => g.tag == f.tag) = some f := by
      rw [noteHostMem_qps]
      exact hfetched
    obtain ⟨hleft, hframe, -, hwaits, -⟩ := completionIsPosted n f stHostMem 0 [] _ hnoted
    obtain ⟨-, -, hwaiting, -⟩ := hwaits (by rw [noteHostMem_dma, hdma])
    refine ⟨_, exec_hostMem_fails hlive hlast (some f.tag) cause, ?_⟩
    rw [hostMemFailed_command, hleft, hwaiting, noteHostMem_qps]
    refine ⟨?_, rfl, rfl⟩
    rw [hframe]
    simp
  case read =>
    rw [exec_reachable hs (o := .next (readWord off s)) rfl, readWord, if_pos hoff]
    rfl

end Sys2Proof.Machine
end
section
/-!
SUPPORT and the proof of O17: reads and writes of 64-bit registers by halves (R342), and SYS_TS_NOW (R163).
-/
namespace Sys2Proof.Machine

/-! ### Halves of a 64-bit word -/

theorem truncate_eq_extractLsb' {w : Nat} (k : Nat) (x : BitVec w) : x.truncate k = x.extractLsb' 0 k :=
  BitVec.eq_of_toNat_eq (by simp [BitVec.extractLsb'_toNat])

theorem shifted_truncate_eq_extractLsb' (x : W64) : ((x >>> 32).truncate 32 : W32) = x.extractLsb' 32 32 :=
  BitVec.eq_of_toNat_eq (by simp [BitVec.extractLsb'_toNat])

theorem high_or_low (high low : W32) : (high.zeroExtend 64 <<< 32 ||| low.zeroExtend 64 : W64) = high ++ low := by
  have hshift : high.toNat <<< 32 < 2 ^ 64 := by
    rw [Nat.shiftLeft_eq]
    omega
  have hlow : low.toNat < 2 ^ 64 := by omega
  have hhigh : high.toNat < 2 ^ 64 := by omega
  apply BitVec.eq_of_toNat_eq
  rw [BitVec.toNat_or, BitVec.toNat_shiftLeft, BitVec.toNat_setWidth, BitVec.toNat_setWidth, BitVec.toNat_append,
    Nat.mod_eq_of_lt hhigh, Nat.mod_eq_of_lt hlow, Nat.mod_eq_of_lt hshift]

theorem and_lowMask (x : W64) : x &&& 0xFFFFFFFF = (x.truncate 32 : W32).zeroExtend 64 := by
  apply BitVec.eq_of_toNat_eq
  have hmask : (0xFFFFFFFF : W64).toNat = 2 ^ 32 - 1 := rfl
  rw [BitVec.toNat_and, hmask, Nat.and_two_pow_sub_one_eq_mod, BitVec.toNat_setWidth, BitVec.toNat_setWidth]
  omega

/-! ### Reads (R163, R342) -/

section
variable {off : Nat} {x : W64} {s : State}

/-- A read of a low half returns it and latches the high half. -/
theorem readWord_low (halign : off % 4 = 0) (hnow : off ≠ offNowLo) (hreg : reg64 s off = some x) :
    readWord off s = { s with hif := { s.hif with latch := .read off (x.extractLsb' 32 32) },
                              busRead := (x.extractLsb' 0 32).zeroExtend 64 } := by
  rw [readWord, if_neg (not_not_intro halign), if_neg hnow, hreg]
  dsimp only
  rw [truncate_eq_extractLsb', shifted_truncate_eq_extractLsb']
  rfl

/-- A read of a high half goes by the latch. -/
theorem readWord_high (halign : off % 8 = 0) (hreg : reg64 s off = some x) (hnone : reg64 s (off + 4) = none) :
    readWord (off + 4) s = readHigh (off + 4) x s := by
  have hnow : off + 4 ≠ offNowLo := by
    unfold offNowLo
    omega
  have hhigh : highOf s (off + 4) = some x := by simp [highOf, hreg]
  rw [readWord, if_neg (by omega), if_neg hnow, hnone, hhigh]

theorem readHigh_latched (hnow : off ≠ offNowLo) {h : W32} (hlatch : s.hif.latch = .read off h) : readHigh (off + 4) x s =
    { s with hif := { s.hif with latch := .empty }, busRead := h.zeroExtend 64 } := by
  rw [readHigh, Nat.add_sub_cancel, if_neg hnow, hlatch]
  exact if_pos rfl

theorem readHigh_torn (hnow : off ≠ offNowLo) (hlatch : ∀ h, s.hif.latch ≠ .read off h) : readHigh (off + 4) x s =
    { s with hif := { s.hif with torn := true }, busRead := (x.extractLsb' 32 32).zeroExtend 64 } := by
  rw [readHigh, Nat.add_sub_cancel, if_neg hnow, shifted_truncate_eq_extractLsb']
  dsimp only
  cases hheld : s.hif.latch with
  | read o h =>
    have ho : o ≠ off := fun ho => hlatch h (by rw [hheld, ho])
    exact if_neg ho
  | empty => rfl
  | write o low => rfl

theorem readNow_eq (wide : Bool) (s : State) : readNow wide s = { s with
    tb := { s.tb with nowHi := (tsDelivered s).extractLsb' 64 32 },
    busRead := if wide then (tsDelivered s).extractLsb' 0 64 else ((tsDelivered s).extractLsb' 0 32).zeroExtend 64 } := by
  unfold readNow
  simp only [truncate_eq_extractLsb']
  rfl

end

/-! ### Writes of HIF_EVQ_BASE by halves (R342, R367) -/

section
variable {s : State}

/-- The low half is held in the latch. -/
theorem exec_write_evqBaseLow (hs : reachable s = true) (v : W64) : exec (.registerWrite 0x0118 false v) s =
    .next { s with hif := { s.hif with latch := .write 0x0118 (v.truncate 32) } } :=
  exec_reachable hs rfl

theorem exec_write_evqBaseHigh (hs : reachable s = true) (v : W64) :
    exec (.registerWrite 0x011C false v) s = .next (writeHigh 0x0118 (v.truncate 32) s) :=
  exec_reachable hs rfl

theorem writeHigh_held (hoff : s.hif.ev.enable = false) {held : W32} (h : s.hif.latch = .write 0x0118 held) (v : W32) :
    writeHigh 0x0118 v s = { s with hif := { s.hif with latch := .empty, ev := { s.hif.ev with base := v ++ held } } } := by
  rw [writeHigh, h]
  dsimp only
  rw [if_pos rfl, high_or_low, put64_evqBase, if_neg (by simp [setLatch, hoff])]
  rfl

theorem writeHigh_alone (hoff : s.hif.ev.enable = false) (h : ∀ held, s.hif.latch ≠ .write 0x0118 held) (v : W32) :
    writeHigh 0x0118 v s =
      { s with hif := { s.hif with ev := { s.hif.ev with base := v ++ (s.hif.ev.base.truncate 32 : W32) } } } := by
  have hlive : (reg64 s 0x0118).getD 0 = s.hif.ev.base := rfl
  have hput : put64 0x0118 (v ++ (s.hif.ev.base.truncate 32 : W32)) s =
      { s with hif := { s.hif with ev := { s.hif.ev with base := v ++ (s.hif.ev.base.truncate 32 : W32) } } } := by
    rw [put64_evqBase, if_neg (by simp [hoff])]
  rw [writeHigh, hlive, and_lowMask, high_or_low]
  cases hheld : s.hif.latch with
  | write o low =>
    have ho : o ≠ 0x0118 := fun ho => h low (by rw [hheld, ho])
    dsimp only
    rw [if_neg ho, hput]
  | empty => exact hput
  | read o high => exact hput

end

/-- Settles O17: a word read or written is one branch of `readWord` or `writeWord`, and a high half goes by the latch. -/
theorem halfLatch : Obligations.HalfLatch := by
  refine ⟨fun off x s hs halign hnow hreg => ⟨?low, fun hnone => ⟨fun h hlatch => ?latched, fun hlatch => ?torn⟩⟩,
    fun low high s hs hoff => ⟨exec_write_evqBaseLow hs low, fun held hlatch => ?both, fun hlatch => ?alone⟩,
    fun wide s hs => ⟨?whole, fun _ => ?half⟩⟩
  case low => rw [exec_reachable hs (o := .next (readWord off s)) rfl, readWord_low (by omega) hnow hreg]
  case latched =>
    rw [exec_reachable hs (o := .next (readWord (off + 4) s)) rfl, readWord_high halign hreg hnone, readHigh_latched hnow hlatch]
  case torn =>
    rw [exec_reachable hs (o := .next (readWord (off + 4) s)) rfl, readWord_high halign hreg hnone, readHigh_torn hnow hlatch]
  case both => exact ⟨_, (exec_write_evqBaseHigh hs high).trans (congrArg _ (writeHigh_held hoff hlatch _)), rfl, rfl⟩
  case alone => exact ⟨_, (exec_write_evqBaseHigh hs high).trans (congrArg _ (writeHigh_alone hoff hlatch _)), rfl, rfl⟩
  case whole => rw [exec_reachable hs (o := .next (readNow wide s)) rfl, readNow_eq]
  case half =>
    rw [exec_reachable hs (c := .lowHalfRead offNowLo) (o := .next (readWord offNowLo s)) rfl,
      exec_reachable hs (c := .tsNowRead false) (o := .next (readNow false s)) rfl, readWord]
    rfl

end Sys2Proof.Machine
end
section
/-!
SUPPORT and the proof of O8: the doorbells (R346, R348, R369).
-/
namespace Sys2Proof.Machine

/-! ### Distances round a ring -/

/-- Counted from an index of a ring, the index `d` places on lies `d` places on. -/
theorem ring_distance {size a d : Nat} (hd : d < size) : ((a + d) % size + size - a % size) % size = d := by
  have hlt : a % size < size := Nat.mod_lt _ (by omega)
  rw [← Nat.mod_add_mod]
  by_cases hwrap : a % size + d < size
  · have hsum : a % size + d + size - a % size = d + size := by omega
    rw [Nat.mod_eq_of_lt hwrap, hsum, Nat.add_mod_right, Nat.mod_eq_of_lt hd]
  · have hsum : a % size + d - size + size - a % size = d := by omega
    have hrest : a % size + d - size < size := by omega
    rw [Nat.mod_eq_sub_mod (Nat.le_of_not_lt hwrap), Nat.mod_eq_of_lt hrest, hsum, Nat.mod_eq_of_lt hd]

/-! ### SQ_TAIL and CQ_HEAD (R346, R348) -/

/-- The completions that an index `d` places beyond the last one released lets go of. -/
theorem cqRelease_eq {q : QPair} {v d : Nat} (hunreleased : q.unreleased ≤ 2 ^ q.cqLog2) (hd : d < 2 ^ q.cqLog2)
    (hv : v = (q.cqTail + 2 ^ q.cqLog2 - q.unreleased + d) % 2 ^ q.cqLog2) :
    cqRelease q v = if d ≤ q.unreleased then some d else none := by
  have hlt : v < 2 ^ q.cqLog2 := hv ▸ Nat.mod_lt _ (by omega)
  have hhead : (q.cqTail + 2 ^ q.cqLog2 - q.unreleased % 2 ^ q.cqLog2) % 2 ^ q.cqLog2
      = (q.cqTail + 2 ^ q.cqLog2 - q.unreleased) % 2 ^ q.cqLog2 := by
    rcases Nat.lt_or_eq_of_le hunreleased with h | h
    · rw [Nat.mod_eq_of_lt h]
    · rw [h, Nat.mod_self, Nat.sub_zero, Nat.add_mod_right, Nat.add_sub_cancel]
  unfold cqRelease
  dsimp only
  rw [if_pos hlt, hhead, hv, ring_distance hd]

theorem cqRelease_outside {q : QPair} {v : Nat} (h : 2 ^ q.cqLog2 ≤ v) : cqRelease q v = none := if_neg (Nat.not_lt.2 h)

section
variable {n : Fin 64} {s : State} (hs : reachable s = true) (hrunning : s.hif.qps[n].state = .running) (v : W64)
include hs hrunning

theorem exec_sqTail_running : exec (.sqTail n 4 v) s =
    if v.toNat % 2 ^ 16 < 2 ^ s.hif.qps[n].sqLog2 then .next (updQp n (fun q => { q with sqTail := v.toNat % 2 ^ 16 }) s)
    else .next (qpError n 0x02 s) :=
  (whenReachable_reachable hs _).trans (if_pos ⟨rfl, hrunning⟩)

theorem exec_cqHead_releases {d : Nat} (h : cqRelease s.hif.qps[n] (v.toNat % 2 ^ 16) = some d) :
    exec (.cqHead n 4 v) s = .next (updQp n (fun q => { q with unreleased := q.unreleased - d }) s) := by
  refine ((whenReachable_reachable hs _).trans (if_pos ⟨rfl, hrunning⟩)).trans ?_
  rw [h]

theorem exec_cqHead_ignored (h : cqRelease s.hif.qps[n] (v.toNat % 2 ^ 16) = none) : exec (.cqHead n 4 v) s = .next s := by
  refine ((whenReachable_reachable hs _).trans (if_pos ⟨rfl, hrunning⟩)).trans ?_
  rw [h]

end

/-! ### EVQ_HEAD (R346, R369) -/

/-- Overflow that is not in force is not left. -/
theorem leaveOverflow_of_not_overflow {s : State} (h : s.hif.ev.overflow = false) : leaveOverflow s = s := by
  unfold leaveOverflow
  rw [h]
  rfl

/-- A loop whose every turn leaves its state as it is. -/
theorem forAll_of_fixed {n : Nat} {f : Fin n → State → State} {s : State} (h : ∀ i, f i s = s) : forAll n f s = s :=
  foldl_keeps (· = s) _ _ s (fun t i ht => by rw [ht, h]) rfl

theorem putSummary_of_none {src : Fin 256} {s : State} (h : (s.hif.ev.src[src]).pending = 0) : putSummary src s = s := if_pos h

/-- Overflow that no source's count follows ends with 512 records free. -/
theorem leaveOverflow_of_none {s : State} (hoverflow : s.hif.ev.overflow = true) (hfree : 512 ≤ evFree s.hif.ev)
    (hnone : ∀ src : Fin 256, (s.hif.ev.src[src]).pending = 0) :
    leaveOverflow s = { s with hif := { s.hif with ev := { s.hif.ev with overflow := false } } } := by
  unfold leaveOverflow
  rw [hoverflow, decide_eq_true hfree]
  exact forAll_of_fixed fun src => putSummary_of_none (hnone src)

/-- The ring with `d` more records released. -/
def releaseRing (d : Nat) (s : State) : State :=
  { s with hif := { s.hif with ev := { s.hif.ev with released := s.hif.ev.released + BitVec.ofNat 32 d } } }

section
variable {v : W64} {s : State} {d : Nat} (hs : reachable s = true) (hon : s.hif.ev.enable = true)
  (hv : v.toNat % 2 ^ 20 = (s.hif.ev.released.toNat + d) % 2 ^ s.hif.ev.log2) (hd : d < 2 ^ s.hif.ev.log2)
include hs hon hv hd

/-- EVQ_HEAD takes an index `d` places on where it is a 4-byte write and so many records have been written. -/
theorem exec_evqHead (bytes : Nat) : exec (.evqHead bytes v) s =
    if bytes = 4 ∧ d ≤ (s.hif.ev.prod - s.hif.ev.released).toNat then
      .next (if dma (releaseRing d s) then leaveOverflow (releaseRing d s) else releaseRing d s)
    else .next s := by
  have hlt : v.toNat % 2 ^ 20 < 2 ^ s.hif.ev.log2 := by
    rw [hv]
    exact Nat.mod_lt _ (by omega)
  have hdistance : (v.toNat % 2 ^ 20 + 2 ^ s.hif.ev.log2 - s.hif.ev.released.toNat % 2 ^ s.hif.ev.log2) % 2 ^ s.hif.ev.log2 = d := by
    rw [hv, ring_distance hd]
  have hexec : exec (.evqHead bytes v) s = execEvqHead bytes v s := rfl
  have hguard : (bytes = 4 ∧ s.hif.ev.enable = true ∧ v.toNat % 2 ^ 20 < 2 ^ s.hif.ev.log2 ∧
      d ≤ (s.hif.ev.prod - s.hif.ev.released).toNat)
      ↔ (bytes = 4 ∧ d ≤ (s.hif.ev.prod - s.hif.ev.released).toNat) := by simp only [hon, hlt, true_and]
  rw [hexec, execEvqHead, whenReachable_reachable hs]
  dsimp only
  rw [hdistance]
  exact if_congr hguard rfl rfl

end

/-! ### CONSUMED (R342, R346) -/

/-- A stream replaced by itself. -/
theorem setStream_self {i : Fin 64} {st : Stream} {s : State} (h : s.hif.streams[i] = some st) : setStream i (some st) s = s := by
  have hset : s.hif.streams.set i (some st) = s.hif.streams := by
    rw [← h]
    exact Vector.set_getElem_self ..
  unfold setStream
  rw [hset]

section
variable {st : Stream}

theorem setConsumed_taken {v : W64} (h : (v - st.consumed).toNat ≤ (st.tail - st.consumed).toNat) :
    setConsumed v st = { st with consumed := v } := if_pos (decide_eq_true h)

theorem setConsumed_ignored {v : W64} (h : (st.tail - st.consumed).toNat < (v - st.consumed).toNat) : setConsumed v st = st :=
  if_neg (by simpa [consumedOk] using h)

theorem writeConsumed_high {low high : W32} (hheld : st.held = some low)
    (h : ((high ++ low : W64) - st.consumed).toNat ≤ (st.tail - st.consumed).toNat) :
    writeConsumed (.high high) st = { st with consumed := high ++ low, held := none } := by
  unfold writeConsumed
  rw [hheld]
  exact congrArg (fun x : Stream => { x with held := none }) (setConsumed_taken h)

theorem exec_consumed {i : Fin 64} {s : State} (hs : reachable s = true) (hst : s.hif.streams[i] = some st) (w : ConsumedWrite) :
    exec (.consumed i w) s = .next (setStream i (some (writeConsumed w st)) s) := by
  rw [exec_reachable hs (o := .next (updStream i (writeConsumed w) s)) rfl, updStream, hst]
  rfl

end

/-- Settles O8, doorbell by doorbell. -/
theorem doorbellWrites : Obligations.DoorbellWrites := by
  refine ⟨fun n bytes v s hs => ⟨?sqTail, ?sqError, ?sqIgnored⟩, fun n v s d hs hrunning => ?cqHead,
    fun bytes v s d hs hon _ hv hd => ⟨?evReleases, ?evLeaves, ?evIgnored⟩,
    fun i st s hs hst => ⟨fun v hv => ?whole, fun v hv => ?wholeIgnored, fun low => exec_consumed hs hst (.low low),
      fun low high hheld hv => ?high, ?other⟩⟩
  case sqTail =>
    rintro rfl hrunning hv
    rw [exec_sqTail_running hs hrunning, if_pos hv]
  case sqError =>
    rintro rfl hrunning hv
    refine ⟨_, (exec_sqTail_running hs hrunning v).trans (if_neg (Nat.not_lt.2 hv)), ?_⟩
    rw [qpError_qps hrunning, qpError_of_running hrunning]
    exact ⟨by simp, by simp, raiseNow_quiet ..⟩
  case sqIgnored =>
    refine fun h => (whenReachable_reachable hs _).trans (if_neg fun ⟨hbytes, hrunning⟩ => ?_)
    exact h.elim (· hbytes) (· hrunning)
  case cqHead =>
    refine fun hunreleased _ => ⟨fun hle hlt hv => ?releases, fun hgt hlt hv => ?tooFar, fun hv => ?outside⟩
    case releases => exact exec_cqHead_releases hs hrunning v ((cqRelease_eq hunreleased hlt hv).trans (if_pos hle))
    case tooFar => exact exec_cqHead_ignored hs hrunning v ((cqRelease_eq hunreleased hlt hv).trans (if_neg (Nat.not_le.2 hgt)))
    case outside => exact exec_cqHead_ignored hs hrunning v (cqRelease_outside hv)
  case evReleases =>
    intro hbytes hle hoverflow
    have hleft : leaveOverflow (releaseRing d s) = releaseRing d s := leaveOverflow_of_not_overflow hoverflow
    rw [exec_evqHead hs hon hv hd, if_pos ⟨hbytes, hle⟩, hleft, ite_self]
    rfl
  case evLeaves =>
    intro hbytes hle hoverflow hdma hfree hnone
    have hdma' : dma (releaseRing d s) = true := hdma
    refine ⟨_, ?_, rfl, rfl⟩
    rw [exec_evqHead hs hon hv hd, if_pos ⟨hbytes, hle⟩, if_pos hdma']
    exact congrArg _ (leaveOverflow_of_none (s := releaseRing d s) hoverflow hfree hnone)
  case evIgnored =>
    intro h
    rw [exec_evqHead hs hon hv hd, if_neg]
    exact fun ⟨hbytes, hle⟩ => h.elim (· hbytes) (Nat.not_lt.2 hle)
  case whole => rw [exec_consumed hs hst, writeConsumed, setConsumed_taken hv]
  case wholeIgnored => rw [exec_consumed hs hst, writeConsumed, setConsumed_ignored hv, setStream_self hst]
  case high => rw [exec_consumed hs hst, writeConsumed_high hheld hv]
  case other => rw [exec_consumed hs hst, writeConsumed, setStream_self hst]

end Sys2Proof.Machine
end
section
/-!
SUPPORT and the proof of O13: the event ring (R367 to R369, R514).
-/
namespace Sys2Proof.Machine

/-! ### One source changed -/

section
variable (src : Fin 256) (f : EvSource → EvSource) (s : State)

theorem updSource_own : (updSource src f s).hif.ev.src[src] = f s.hif.ev.src[src] := upd_get ..

theorem updSource_other {o : Fin 256} (h : o ≠ src) : (updSource src f s).hif.ev.src[o] = s.hif.ev.src[o] := upd_get_ne _ _ _ _ h

/-- A source replaced by itself. -/
theorem updSource_self : updSource src (fun _ => s.hif.ev.src[src]) s = s := by
  unfold updSource
  rw [upd_id _ _ _ rfl]

/-- A change of a source writes what it holds after the change. -/
theorem updSource_eq_const : updSource src f s = updSource src (fun _ => (updSource src f s).hif.ev.src[src]) s := by
  rw [updSource_own]
  rfl

end

/-! ### HIF_EVQ_CFG (R367, R518) -/

section
variable {src : Fin 256} {s : State}

theorem releaseHeld_of_not_held (h : (s.hif.ev.src[src]).held = false) : releaseHeld src s = s := by
  unfold releaseHeld
  dsimp only
  rw [h, Bool.and_false, Bool.false_and]
  rfl

theorem releaseHeld_of_disabled (h : s.hif.ev.enable = false) : releaseHeld src s = s := by
  unfold releaseHeld
  dsimp only
  rw [h, Bool.false_and, Bool.false_and]
  rfl

end

/-- What a source keeps when the ring is disabled: a held boot report only (R518). -/
def keepWaiting (e : EvSource) : EvSource := if e.held then e else { e with waiting := none }

theorem dropWaiting_own (src : Fin 256) (s : State) : (dropWaiting src s).hif.ev.src[src] = keepWaiting s.hif.ev.src[src] := by
  unfold dropWaiting keepWaiting
  split
  · rfl
  · exact updSource_own ..

theorem dropWaiting_other {src o : Fin 256} (h : o ≠ src) (s : State) : (dropWaiting src s).hif.ev.src[o] = s.hif.ev.src[o] := by
  unfold dropWaiting
  split
  · rfl
  · exact updSource_other _ _ _ h

@[simp] theorem dropWaiting_enable (src : Fin 256) (s : State) : (dropWaiting src s).hif.ev.enable = s.hif.ev.enable := by
  unfold dropWaiting
  split <;> rfl

/-- Every source drops what waits, each once. -/
theorem forAll_dropWaiting (o : Fin 256) (s : State) : (forAll 256 dropWaiting s).hif.ev.src[o] = keepWaiting s.hif.ev.src[o] := by
  obtain ⟨t, -, hbefore, hturn⟩ := forAll_turn (n := o) (s := s) (f := dropWaiting) (fun s => s.hif.ev.src[o]) (fun _ => True)
    (fun _ _ hi => dropWaiting_other (Ne.symm hi) _) (fun _ _ _ => trivial) trivial
  rw [hturn, dropWaiting_own, hbefore]

section
variable {cfg : W32} {s : State}

theorem writeEvqCfg_outside (h : cfg.toNat % 32 < 10 ∨ 20 < cfg.toNat % 32) : writeEvqCfg cfg s = s := by
  have hout : within 10 (cfg.toNat % 32) 20 = false := decide_eq_false (by omega)
  unfold writeEvqCfg
  dsimp only
  rw [hout]
  rfl

/-- ENABLE written 1 while it is set. -/
theorem writeEvqCfg_again (hon : s.hif.ev.enable = true) (hcfg : cfg.getLsbD 16 = true) : writeEvqCfg cfg s = s := by
  unfold writeEvqCfg
  dsimp only
  rw [hon, hcfg]
  exact ite_self _

variable (hlow : 10 ≤ cfg.toNat % 32) (hhigh : cfg.toNat % 32 ≤ 20)
include hlow hhigh

theorem writeEvqCfg_starts (hoff : s.hif.ev.enable = false) (hcfg : cfg.getLsbD 16 = true) : writeEvqCfg cfg s =
    forAll 256 releaseHeld { s with hif := { s.hif with ev := { s.hif.ev with
      log2 := cfg.toNat % 32, enable := true, prod := 0, released := 0, overflow := false } } } := by
  have hin : within 10 (cfg.toNat % 32) 20 = true := decide_eq_true ⟨hlow, hhigh⟩
  unfold writeEvqCfg
  dsimp only
  rw [hin, hoff, hcfg]
  rfl

theorem writeEvqCfg_disables (hon : s.hif.ev.enable = true) (hcfg : cfg.getLsbD 16 = false) : writeEvqCfg cfg s =
    forAll 256 dropWaiting { s with hif := { s.hif with ev := { s.hif.ev with enable := false } } } := by
  have hin : within 10 (cfg.toNat % 32) 20 = true := decide_eq_true ⟨hlow, hhigh⟩
  unfold writeEvqCfg
  dsimp only
  rw [hin, hon, hcfg]
  rfl

end

/-! ### The event map (R514) -/

/-- A source's map byte written. -/
def setMap (src : Fin 256) (b : Byte) (s : State) : State := updSource src (fun e => { e with map := b }) s

/-- Source `k` of the four whose map bytes the word `i` of the map holds. -/
def mapSource (i : Fin 64) (k : Fin 4) : Fin 256 := ⟨4 * i.val + k.val, by omega⟩

theorem mapSource_ofNat (i : Fin 64) (k : Fin 4) : (Fin.ofNat 256 (4 * i.val + k.val)) = mapSource i k :=
  Fin.ext (Nat.mod_eq_of_lt (by omega))

theorem mapSource_ne {i : Fin 64} {k l : Fin 4} (h : k ≠ l) : mapSource i k ≠ mapSource i l := fun e =>
  h (Fin.ext (Nat.add_left_cancel (Fin.ext_iff.1 e)))

/-- While the ring is disabled, a word of the map writes four map bytes and releases nothing. -/
theorem writeEvtMap_word {s : State} (hoff : s.hif.ev.enable = false) (i : Fin 64) (b0 b1 b2 b3 : Byte) :
    writeEvtMap (4 * i.val) [b0, b1, b2, b3] s =
      setMap (mapSource i 3) b3 (setMap (mapSource i 2) b2 (setMap (mapSource i 1) b1 (setMap (mapSource i 0) b0 s))) := by
  have hturn (src : Fin 256) (b : Byte) {t : State} (ht : t.hif.ev.enable = false) :
      releaseHeld src (updSource src (fun e => { e with map := b }) t) = setMap src b t := releaseHeld_of_disabled (by exact ht)
  calc writeEvtMap (4 * i.val) [b0, b1, b2, b3] s
      = [(b0, (0 : Fin 4)), (b1, 1), (b2, 2), (b3, 3)].foldl (fun s p =>
          releaseHeld (mapSource i p.2) (updSource (mapSource i p.2) (fun e => { e with map := p.1 }) s)) s := by
        simp only [← mapSource_ofNat]
        rfl
    _ = _ := by
        simp only [List.foldl_cons, List.foldl_nil]
        rw [hturn (mapSource i 0) b0 hoff, hturn (mapSource i 1) b1 (by exact hoff), hturn (mapSource i 2) b2 (by exact hoff),
          hturn (mapSource i 3) b3 (by exact hoff)]

/-- A 4-byte write of a word of the map. -/
theorem exec_evtMapWrite {s : State} (hs : reachable s = true) (i : Fin 64) (v : W64) :
    exec (.evtMapWrite (0x0300 + 4 * i.val) false v) s =
      .next (writeEvtMap (4 * i.val) (le 4 (v.truncate 32 : W32).toNat) s) := by
  have hplace : ∀ i : Fin 64, within 0x0300 (0x0300 + 4 * i.val) 0x03FF = true ∧ writable64 (0x0300 + 4 * i.val) = false ∧
      writable64 (0x0300 + 4 * i.val - 4) = false ∧ arr 0x0200 4 64 (0x0300 + 4 * i.val) = none ∧
      arr 0x0300 4 64 (0x0300 + 4 * i.val) = some i.val := by decide
  obtain ⟨hin, hlow, hhigh, hgap, hmap⟩ := hplace i
  have haligned : (0x0300 + 4 * i.val) % 4 = 0 := by omega
  have hbelow : 0x0300 + 4 * i.val < 0x2000 := by omega
  have hmargin : 0x0300 + 4 * i.val ≠ 0x421C := by omega
  have harray : putArray (0x0300 + 4 * i.val) (v.truncate 32) s = some (writeEvtMap (4 * i.val) (le 4 (v.truncate 32 : W32).toNat) s) := by
    rw [putArray, if_pos hbelow, hgap, hmap]
    rfl
  have hword : writeWord (0x0300 + 4 * i.val) (v.truncate 32) s = writeEvtMap (4 * i.val) (le 4 (v.truncate 32 : W32).toNat) s := by
    rw [writeWord, hlow, hhigh, harray, if_neg (by simp), if_neg (by simp), if_neg hmargin]
    rfl
  rw [exec_reachable hs (o := .next (if within 0x0300 (0x0300 + 4 * i.val) 0x03FF
    then writeReg (0x0300 + 4 * i.val) false v s else s)) rfl, hin, if_pos rfl, writeReg, if_neg (by simp [haligned]), hword]
  rfl

theorem le_word (v : W64) : le 4 (v.truncate 32 : W32).toNat =
    [v.extractLsb' 0 8, v.extractLsb' 8 8, v.extractLsb' 16 8, v.extractLsb' 24 8] := by
  have hbyte (k x : Nat) (h : x % 256 = v.toNat / 2 ^ k % 256) : BitVec.ofNat 8 x = v.extractLsb' k 8 :=
    BitVec.eq_of_toNat_eq (by simpa only [BitVec.toNat_ofNat, BitVec.extractLsb'_toNat, Nat.shiftRight_eq_div_pow] using h)
  simp only [le, BitVec.toNat_setWidth]
  rw [hbyte 0 _ (by omega), hbyte 8 _ (by omega), hbyte 16 _ (by omega), hbyte 24 _ (by omega)]

/-- What four map bytes make of the sources. -/
theorem setMaps_spec (i : Fin 64) (b0 b1 b2 b3 : Byte) (s : State) :
    let t := setMap (mapSource i 3) b3 (setMap (mapSource i 2) b2 (setMap (mapSource i 1) b1 (setMap (mapSource i 0) b0 s)))
    (t.hif.ev.src[mapSource i 0]).map = b0 ∧ (t.hif.ev.src[mapSource i 1]).map = b1 ∧ (t.hif.ev.src[mapSource i 2]).map = b2 ∧
      (t.hif.ev.src[mapSource i 3]).map = b3 ∧
      ∀ src : Fin 256, src.val / 4 ≠ i.val → t.hif.ev.src[src] = s.hif.ev.src[src] := by
  have hown (src : Fin 256) (b : Byte) (s : State) : ((setMap src b s).hif.ev.src[src]).map = b := by
    rw [setMap, updSource_own]
  have hother {src o : Fin 256} (h : o ≠ src) (b : Byte) (s : State) : (setMap src b s).hif.ev.src[o] = s.hif.ev.src[o] :=
    updSource_other _ _ _ h
  have hne {k l : Fin 4} (h : k ≠ l) : mapSource i k ≠ mapSource i l := mapSource_ne h
  refine ⟨?_, ?_, ?_, hown .., fun src hsrc => ?_⟩
  · rw [hother (hne (by decide)), hother (hne (by decide)), hother (hne (by decide)), hown]
  · rw [hother (hne (by decide)), hother (hne (by decide)), hown]
  · rw [hother (hne (by decide)), hown]
  · have houtside (k : Fin 4) : src ≠ mapSource i k := by
      rintro rfl
      simp only [mapSource] at hsrc
      omega
    rw [hother (houtside 3), hother (houtside 2), hother (houtside 1), hother (houtside 0)]

/-! ### A record written (R368 to R370) -/

/-- `t` differs from `s` at most in host memory, the event ring and the vectors. -/
def OnlyRing (s t : State) : Prop :=
  t = { s with hostMem := t.hostMem, hif := { s.hif with ev := t.hif.ev, vecs := t.hif.vecs } }

theorem OnlyRing.trans {s t u : State} (h : OnlyRing s t) (k : OnlyRing t u) : OnlyRing s u := by
  unfold OnlyRing at *
  rw [k, h]

theorem hostWrite_onlyRing (addr : Nat) (bytes : List Byte) (s : State) : OnlyRing s (hostWrite addr bytes s) := rfl

section
variable (ev : Event) (s : State)

theorem putRecord_onlyRing (coalesced : Bool) : OnlyRing s (putRecord ev coalesced s) := by
  unfold putRecord
  extract_lets r phase addr bytes written advanced hif ringed
  have hwritten : OnlyRing s written := hostWrite_onlyRing ..
  clear_value written
  have hringed : OnlyRing s ringed := hwritten.trans rfl
  clear_value ringed
  split
  · exact hringed.trans rfl
  · exact hringed

theorem putRecord_ev (coalesced : Bool) : (putRecord ev coalesced s).hif.ev = { s.hif.ev with
    prod := s.hif.ev.prod + 1,
    overflow := s.hif.ev.overflow || decide (evFree { s.hif.ev with prod := s.hif.ev.prod + 1 } < 256) } := by
  unfold putRecord
  dsimp only
  split <;> rfl

theorem putRecord_vecs (coalesced : Bool) : (putRecord ev coalesced s).hif.vecs =
    if ev.irq then upd s.hif.vecs (vecIndex ev.vector) (fun x => { x with pending := true }) else s.hif.vecs := by
  unfold putRecord
  dsimp only
  split <;> rfl

/-- The bytes of a record that stands for one event: FLAGS holds the phase alone. -/
theorem putRecord_hostMem : (putRecord ev false s).hostMem = Memory.writeAll s.hostMem
    ((s.hif.ev.base.toNat / 4096) * 4096 + 32 * (s.hif.ev.prod.toNat % 2 ^ s.hif.ev.log2))
    ([ev.source, ev.severity, BitVec.ofNat 8 (flag (!bit s.hif.ev.prod.toNat s.hif.ev.log2) 0), BitVec.ofNat 8 s.hif.ev.prod.toNat]
      ++ tsBytes ev.ts ++ pad 16 ev.data) := by
  have hflags (phase : Bool) : flag phase 0 + flag false 1 = flag phase 0 := rfl
  unfold putRecord
  dsimp only
  split <;> simp only [pendVector_hostMem, hostWrite_hostMem, hflags]

end

/-- FLAGS of a record that stands for one event: the phase of the producer's round (R368). -/
theorem phaseFlags_toNat (prod log2 : Nat) :
    (BitVec.ofNat 8 (flag (!bit prod log2) 0)).toNat = if prod.testBit log2 then 0 else 1 := by
  unfold bit
  cases prod.testBit log2 <;> rfl

/-- With more than 256 records free, one more leaves the ring out of overflow. -/
theorem evFree_succ {r : EvRing} (h : (r.prod - r.released).toNat + 256 < 2 ^ r.log2) :
    ¬ evFree { r with prod := r.prod + 1 } < 256 := by
  have hnext : (r.prod + 1 - r.released).toNat ≤ (r.prod - r.released).toNat + 1 := by
    rw [add_sub_right_comm, BitVec.toNat_add]
    exact Nat.mod_le ..
  simp only [evFree]
  omega

/-- The ring writer takes a waiting event where the ring has room and no count is pending. -/
theorem writeEvent_of_waiting {src : Fin 256} {ev : Event} {s : State} (hon : s.hif.ev.enable = true) (hdma : dma s = true)
    (hoverflow : s.hif.ev.overflow = false) (hwaiting : (s.hif.ev.src[src]).waiting = some ev) (hheld : (s.hif.ev.src[src]).held = false)
    (hpending : (s.hif.ev.src[src]).pending = 0) (hfree : evFree s.hif.ev ≠ 0) :
    writeEvent src s = putRecord ev false (updSource src (fun e => { e with waiting := none }) s) := by
  have hsummary : putSummary src (putRecord ev false (updSource src (fun e => { e with waiting := none }) s)) =
      putRecord ev false (updSource src (fun e => { e with waiting := none }) s) := by
    apply putSummary_of_none
    rw [putRecord_ev]
    exact (congrArg EvSource.pending (updSource_own ..)).trans hpending
  unfold writeEvent
  dsimp only
  rw [leaveOverflow_of_not_overflow hoverflow, hon, hdma, hoverflow, hheld, hwaiting, decide_eq_false hfree]
  dsimp only
  rw [hsummary, ite_self]
  rfl

/-! ### An event raised (R367, R369, R514) -/

section
variable {src : Fin 256} {sev : Nat} {ts : TS96} {data : List Byte} {s : State} (hon : s.hif.ev.enable = true)
include hon

theorem raise_of_disabled (h : (s.hif.ev.src[src]).map.getLsbD 7 = false) : raise src sev ts data s = s := by
  unfold raise raiseWith
  dsimp only
  rw [hon, h]
  rfl

theorem raise_of_enabled (h : (s.hif.ev.src[src]).map.getLsbD 7 = true) :
    raise src sev ts data s = updSource src (acceptEvent src s.hif.ev.overflow (BitVec.ofNat 8 sev) ts data) s := by
  unfold raise raiseWith
  dsimp only
  rw [hon, h]
  rfl

end

section
variable {src : Fin 256} {sev : Byte} {ts : TS96} {data : List Byte} {e : EvSource}

/-- A source with nothing waiting keeps the event, with its map's vector and IRQ. -/
theorem acceptEvent_keeps (h : e.waiting = none) : acceptEvent src false sev ts data e = { e with
    waiting := some { source := BitVec.ofNat 8 src.val, severity := sev, ts := ts, data := pad 16 data,
                      vector := e.map.extractLsb' 0 6, irq := e.map.getLsbD 6 } } := by
  unfold acceptEvent
  rw [h, truncate_eq_extractLsb']
  rfl

theorem acceptEvent_coalesces {overflow : Bool} (h : e.waiting.isSome = true ∨ overflow = true) :
    acceptEvent src overflow sev ts data e = coalesce sev ts e := if_pos (by simpa using h)

/-- What joining an event to a source's count keeps and changes. -/
theorem coalesce_spec (h : e.pending < 2 ^ 64 - 1) : (coalesce sev ts e).pending = e.pending + 1 ∧ (coalesce sev ts e).lastTs = ts ∧
    (coalesce sev ts e).waiting = e.waiting ∧ (0 < e.pending → (coalesce sev ts e).firstTs = e.firstTs) ∧
    (e.pending = 0 → (coalesce sev ts e).firstTs = ts) := by
  have hcount : statAdd e.pending 1 = e.pending + 1 := Nat.min_eq_right (by rw [statMax]; omega)
  unfold coalesce
  split
  · next hzero => exact ⟨by rw [hzero], rfl, rfl, fun hpos => absurd hzero (Nat.ne_of_gt hpos), fun _ => rfl⟩
  · next hpos => exact ⟨hcount, rfl, rfl, fun _ => rfl, fun hzero => absurd hzero hpos⟩

end

/-- Settles O13: set-up, map, a record, and an event raised. That a ring disabled drops what waits but for held boot reports is log 26. -/
theorem eventRing : Obligations.EventRing := by
  refine ⟨fun cfg s hs => ?setUp, fun src ev s hlive hon hdma hoverflow hwaiting hheld hpending hfree => ?record,
    fun src sev ts data s hon => ?raised⟩
  case setUp =>
    have hexec : exec (.evqEnable cfg) s = .next (writeEvqCfg cfg s) := exec_reachable hs rfl
    refine ⟨fun hoff hcfg hlow hhigh hheld => ?starts, fun hon hcfg => ?again, fun hon hcfg hlow hhigh => ?disables, fun hout => ?outside,
      fun i v hoff => ?map⟩
    case starts =>
      rw [hexec, writeEvqCfg_starts hlow hhigh hoff hcfg]
      exact congrArg _ (forAll_of_fixed fun src => releaseHeld_of_not_held (hheld src))
    case again => rw [hexec, writeEvqCfg_again hon hcfg]
    case disables =>
      refine ⟨_, hexec, ?_⟩
      rw [writeEvqCfg_disables hlow hhigh hon hcfg]
      refine ⟨forAll_frame (fun s => s.hif.ev.enable) _ _ dropWaiting_enable, fun src hheld => ?_, fun src hheld => ?_⟩
      · rw [forAll_dropWaiting]
        exact congrArg EvSource.waiting (if_neg (Bool.eq_false_iff.1 hheld))
      · rw [forAll_dropWaiting]
        exact if_pos hheld
    case outside => rw [hexec, writeEvqCfg_outside hout]
    case map =>
      obtain ⟨hmap0, hmap1, hmap2, hmap3, hrest⟩ :=
        setMaps_spec i (v.extractLsb' 0 8) (v.extractLsb' 8 8) (v.extractLsb' 16 8) (v.extractLsb' 24 8) s
      refine ⟨_, (exec_evtMapWrite hs i v).trans (by rw [le_word, writeEvtMap_word hoff]), fun k => ?_, hrest⟩
      match k with
      | 0 => exact hmap0
      | 1 => exact hmap1
      | 2 => exact hmap2
      | 3 => exact hmap3
  case record =>
    have hroom : evFree s.hif.ev ≠ 0 := by
      simp only [evFree]
      omega
    have hexec : exec (.eventRecordWrite src) s = .next (writeEvent src s) := exec_live hlive rfl
    rw [writeEvent_of_waiting hon hdma hoverflow hwaiting hheld hpending hroom] at hexec
    refine ⟨_, hexec, ?_⟩
    refine ⟨?_, ?_, ?_, fun o ho => ?_, ⟨_, phaseFlags_toNat .., putRecord_hostMem ..⟩, fun hirq => ?pends, fun hirq => ?quiet,
      OnlyRing.trans (t := updSource src (fun e => { e with waiting := none }) s) rfl (putRecord_onlyRing ..)⟩
    · rw [putRecord_ev]
      rfl
    · rw [putRecord_ev]
      exact Bool.or_eq_false_iff.2 ⟨hoverflow, decide_eq_false (evFree_succ hfree)⟩
    · rw [putRecord_ev]
      exact updSource_own ..
    · rw [putRecord_ev]
      exact updSource_other _ _ _ ho
    case pends =>
      rw [putRecord_vecs, if_pos hirq]
      exact congrArg MsixVec.pending (upd_get _ (vecIndex ev.vector) _)
    case quiet =>
      rw [putRecord_vecs, hirq]
      rfl
  case raised =>
    intro e t
    have ht : t = raise src sev ts data s := rfl
    clear_value t
    cases hmap : e.map.getLsbD 7 with
    | false =>
      rw [raise_of_disabled hon hmap] at ht
      subst ht
      exact ⟨(updSource_self ..).symm, fun _ => rfl, nofun, nofun⟩
    | true =>
      rw [raise_of_enabled hon hmap] at ht
      have hown : t.hif.ev.src[src] = acceptEvent src s.hif.ev.overflow (BitVec.ofNat 8 sev) ts data e := ht ▸ updSource_own ..
      refine ⟨ht ▸ updSource_eq_const .., nofun, fun _ hnone hoverflow => ?keeps, fun _ hbusy hcount => ?coalesces⟩
      case keeps =>
        rw [hown, hoverflow, acceptEvent_keeps hnone]
        exact ⟨rfl, rfl⟩
      case coalesces =>
        rw [hown, acceptEvent_coalesces hbusy]
        exact coalesce_spec hcount

end Sys2Proof.Machine
end
section
/-!
SUPPORT and the proof of O60: the test access port (R435, R436).
-/
namespace Sys2Proof.Machine

/-! ### The instruction that acts (R436) -/

/-- Outside PERST# every instruction but IDCODE and SAMPLE acts as BYPASS, and BYPASS always does. -/
theorem actingIr_bypass {perst : Bool} {ir : Byte} (hid : ir ≠ 0x01) (hsample : ir ≠ 0x02) (h : perst = false ∨ ir = 0xFF) :
    actingIr perst ir = 0xFF := by
  rcases h with rfl | rfl
  · exact if_neg (not_or.mpr ⟨hid, hsample⟩)
  · cases perst <;> rfl

theorem captureDr_idcode (perst : Bool) (d k : Nat) : captureDr perst d 0x01 k = bitsOf 32 (idcode d).toNat := rfl

theorem captureDr_bypass {perst : Bool} {ir : Byte} (h : actingIr perst ir = 0xFF) (d k : Nat) : captureDr perst d ir k = [false] := by
  unfold captureDr
  rw [h]
  rfl

/-! ### A TCK edge (R435) -/

theorem tapWork_state (perst tdi : Bool) (k : Nat) (t : Tap) : (tapWork perst tdi k t).state = t.state := by
  unfold tapWork
  split <;> rfl

/-- Five edges with TMS high lead to the reset state from everywhere. -/
theorem tapNext_five (x : TapState) : tapNext true (tapNext true (tapNext true (tapNext true (tapNext true x)))) = .testLogicReset := by
  cases x <;> rfl

section
variable {s : State} (hon : s.pwr.railsOn = true) (m d : Bool)
include hon

theorem tckEdge_only : tckEdge m d s = { s with tap := (tckEdge m d s).tap, freeCtr := (tckEdge m d s).freeCtr } := by
  simp [tckEdge, hon, fresh]

theorem tckEdge_railsOn : (tckEdge m d s).pwr.railsOn = true := by rw [tckEdge_only hon, hon]

/-- Away from the reset state an edge does the work of the state in which it finds the controller, and moves it. -/
theorem tckEdge_tap (h : tapNext m s.tap.state ≠ .testLogicReset) :
    (tckEdge m d s).tap = { tapWork s.pwr.perst d s.freeCtr s.tap with state := tapNext m s.tap.state } := by
  simp [tckEdge, hon, fresh, tapWork_state, h]

/-- An edge into the reset state puts IDCODE into every die. -/
theorem tckEdge_reset (h : tapNext m s.tap.state = .testLogicReset) :
    (tckEdge m d s).tap.state = .testLogicReset ∧ (tckEdge m d s).tap.ir = Vector.replicate 8 0x01 := by
  simp [tckEdge, hon, fresh, tapWork_state, h, tapReset]

theorem tckEdge_state : (tckEdge m d s).tap.state = tapNext m s.tap.state := by
  by_cases h : tapNext m s.tap.state = .testLogicReset
  · rw [h, (tckEdge_reset hon m d h).1]
  · rw [tckEdge_tap hon m d h]

theorem tckEdge_five (d1 d2 d3 d4 d5 : Bool) :
    let t := tckEdge true d5 (tckEdge true d4 (tckEdge true d3 (tckEdge true d2 (tckEdge true d1 s))))
    t.tap.state = .testLogicReset ∧ t.tap.ir = Vector.replicate 8 0x01 := by
  have h1 := tckEdge_railsOn hon true d1
  have h2 := tckEdge_railsOn h1 true d2
  have h3 := tckEdge_railsOn h2 true d3
  have h4 := tckEdge_railsOn h3 true d4
  refine tckEdge_reset h4 true d5 ?_
  rw [tckEdge_state h3, tckEdge_state h2, tckEdge_state h1, tckEdge_state hon, tapNext_five]

theorem tckEdge_updateIr (h : s.tap.state = .updateIr) :
    (tckEdge m d s).tap.shift = s.tap.shift ∧ (tckEdge m d s).tap.cells = s.tap.cells ∧
      ∀ k : Fin 8, (tckEdge m d s).tap.ir[k] = BitVec.ofNat 8 (ofBits s.tap.shift[k]) := by
  have hnext : tapNext m s.tap.state ≠ .testLogicReset := by rw [h]; cases m <;> decide
  rw [tckEdge_tap hon m d hnext]
  simp [tapWork, h]

theorem tckEdge_captureDr (h : s.tap.state = .captureDr) :
    (tckEdge m d s).tap.ir = s.tap.ir ∧ (tckEdge m d s).tap.cells = s.tap.cells ∧
      ∀ k : Fin 8, (tckEdge m d s).tap.shift[k] = captureDr s.pwr.perst k.val s.tap.ir[k] s.freeCtr := by
  have hnext : tapNext m s.tap.state ≠ .testLogicReset := by rw [h]; cases m <;> decide
  rw [tckEdge_tap hon m d hnext]
  simp [tapWork, h]

theorem tckEdge_shift (h : s.tap.state = .shiftDr ∨ s.tap.state = .shiftIr) :
    (tckEdge m d s).tap.ir = s.tap.ir ∧ (tckEdge m d s).tap.cells = s.tap.cells ∧
      (tckEdge m d s).tap.tdo = (shiftChain d s.tap.shift.toList).2 := by
  have hnext : tapNext m s.tap.state ≠ .testLogicReset := by rcases h with h | h <;> rw [h] <;> cases m <;> decide
  rw [tckEdge_tap hon m d hnext]
  rcases h with h | h <;> simp [tapWork, h]

theorem tckEdge_updateDr (h : s.tap.state = .updateDr) :
    (tckEdge m d s).tap.ir = s.tap.ir ∧ (tckEdge m d s).tap.shift = s.tap.shift ∧
      ∀ k : Fin 8, (tckEdge m d s).tap.cells[k] =
        if usesCells (actingIr s.pwr.perst s.tap.ir[k]) then s.tap.shift[k] else s.tap.cells[k] := by
  have hnext : tapNext m s.tap.state ≠ .testLogicReset := by rw [h]; cases m <;> decide
  rw [tckEdge_tap hon m d hnext]
  simp [tapWork, h]

end

/-! ### The reset of the port (R436) -/

theorem perstAssert_tap (s : State) : (perstAssert s).tap = s.tap := by
  cases h : s.pwr.perst with
  | true => rw [perstAssert, if_pos h]
  | false =>
    rw [perstAssert_quiet h, heldByPerst, deviceReset_eq]
    rfl

theorem railsOff_tap {s : State} (hon : s.pwr.railsOn = true) : (railsOff s).tap = Tap.reset := by
  unfold railsOff
  rw [if_neg (by simp [hon])]
  rfl

/-- Settles O60: one lemma for each state of the controller that does work, and the resets of the port. -/
theorem testAccessPort : Obligations.TestAccessPort := by
  refine ⟨?_, fun s => ⟨⟨_, rfl, perstAssert_tap s⟩, fun hon => ⟨_, rfl, railsOff_tap hon⟩, rfl, fun hoff m d => ?_, fun hon => ?_⟩⟩
  · rintro ir (rfl | rfl | rfl | rfl | rfl) <;> exact ⟨rfl, rfl⟩
  · exact congrArg Host.Outcome.next (if_neg (by simp [hoff]))
  refine ⟨fun m d => ⟨_, rfl, tckEdge_state hon m d, tckEdge_only hon m d⟩,
    fun d1 d2 d3 d4 d5 => ⟨_, _, _, _, _, rfl, rfl, rfl, rfl, rfl, tckEdge_five hon d1 d2 d3 d4 d5⟩,
    fun h m d => ⟨_, rfl, tckEdge_updateIr hon m d h⟩, fun h m d => ?_,
    fun h m d => ⟨_, rfl, tckEdge_shift hon m d h⟩, fun h m d => ⟨_, rfl, tckEdge_updateDr hon m d h⟩⟩
  obtain ⟨hir, hcells, hshift⟩ := tckEdge_captureDr hon m d h
  refine ⟨_, rfl, hir, hcells, fun k hk => ?_, fun k hid hsample hbypass => ?_⟩
  · rw [hshift, hk, captureDr_idcode]
  · rw [hshift, captureDr_bypass (actingIr_bypass hid hsample hbypass)]

end Sys2Proof.Machine
end
section
/-!
SUPPORT and the proofs of O45, the management port (R425, R427, R428), and O47, restarts of the control complex and the PMC (R411 to R413).
-/
namespace Sys2Proof.Machine

/-! ### MAIN_INHIBIT (R428) -/

/-- The power block after the main rails have gone off: telemetry reads zero, and what the always-on domain holds stays. -/
theorem railsOff_pwr (s : State) :
    (railsOff s).pwr = if s.pwr.railsOn then { s.pwr.quiet with railsOn := false, railGroup := 0 } else s.pwr := by
  unfold railsOff
  rw [deviceReset_eq]
  cases s.pwr.railsOn <;> rfl

theorem setInhibit_mainInhibit (on : Bool) (s : State) : (setInhibit on s).pwr.mainInhibit = on := by
  cases on with
  | false => rfl
  | true =>
    rw [setInhibit, if_pos rfl, railsOff_pwr]
    split <;> rfl

theorem setInhibit_mgPointer (on : Bool) (s : State) : (setInhibit on s).pwr.mgPointer = s.pwr.mgPointer := by
  cases on with
  | false => rfl
  | true =>
    rw [setInhibit, if_pos rfl, railsOff_pwr]
    split <;> rfl

theorem setInhibit_on_lost (s : State) : RailsLost (updPwr (fun p => { p with mainInhibit := true }) s) (setInhibit true s) := railsOff_lost _

/-! ### Reads and writes (R427) -/

section
variable {s : State}

/-- An item's first byte latches the item. -/
theorem mgRead_first (hvalid : s.pwr.vstbyValid = true) (hbase : mgBase s.pwr.mgPointer.toNat = s.pwr.mgPointer.toNat) (first : Bool) :
    mgRead first s = { s with
      pwr := { s.pwr with mgPointer := s.pwr.mgPointer + 1, mgLatch := some (s.pwr.mgPointer.toNat, mgItem s s.pwr.mgPointer.toNat) },
      busRead := ((mgItem s s.pwr.mgPointer.toNat).getD 0 0).zeroExtend 64 } := by
  simp [mgRead, hvalid, hbase, updPwr]

/-- The bytes after an item's first come from the latch. -/
theorem mgRead_latched (hvalid : s.pwr.vstbyValid = true) (hbase : mgBase s.pwr.mgPointer.toNat ≠ s.pwr.mgPointer.toNat) {l : List Byte}
    (hlatch : s.pwr.mgLatch = some (mgBase s.pwr.mgPointer.toNat, l)) :
    mgRead false s = { s with
      pwr := { s.pwr with mgPointer := s.pwr.mgPointer + 1 },
      busRead := (l.getD (s.pwr.mgPointer.toNat - mgBase s.pwr.mgPointer.toNat) 0).zeroExtend 64 } := by
  simp [mgRead, hvalid, Ne.symm hbase, hlatch, updPwr]

theorem mgWrite_pointer (hvalid : s.pwr.vstbyValid = true) (a : Byte) :
    mgWrite [a] s = updPwr (fun p => { p with mgPointer := a, mgLatch := none }) s := by
  simp [mgWrite, hvalid]

/-- A write of the item 0x16 sets MAIN_INHIBIT, and the pointer moves on after it (log 117). -/
theorem mgWrite_inhibit (hvalid : s.pwr.vstbyValid = true) (b : Byte) :
    mgWrite [0x16, b] s = updPwr (fun p => { p with mgPointer := p.mgPointer + 1 })
      (setInhibit (b.getLsbD 0) (updPwr (fun p => { p with mgPointer := 0x16, mgLatch := none }) s)) := by
  simp [mgWrite, hvalid, mgPut]

theorem mgWrite_inhibit_spec (hvalid : s.pwr.vstbyValid = true) (b : Byte) :
    let t := mgWrite [0x16, b] s
    t.pwr.mainInhibit = b.getLsbD 0 ∧ t.pwr.mgPointer = 0x17 ∧ (b.getLsbD 0 = true → t.pwr.railsOn = false) ∧
      (b.getLsbD 0 = false → t.pwr.railsOn = s.pwr.railsOn) := by
  intro t
  have ht : t.pwr = _ := congrArg State.pwr (mgWrite_inhibit hvalid b)
  rw [updPwr_pwr] at ht
  rw [ht]
  refine ⟨setInhibit_mainInhibit .., ?_, fun hb => ?_, fun hb => ?_⟩
  · exact congrArg (· + 1) (setInhibit_mgPointer ..)
  · rw [hb]
    exact (setInhibit_on_lost _).off
  · rw [hb]
    rfl

/-- SYS_MG_CAUSE written: cause bits clear, and a trip whose holdoff has passed lets the rails restart. -/
theorem mgClear_eq (v : Byte) (s : State) : mgClear v s = updPwr (fun p => { p with
    mgCause := p.mgCause &&& ~~~(v.truncate 4 : BitVec 4)
    trip := p.trip.map fun h => { h with restart := h.restart || (h.elapsed && (v.truncate 4 : BitVec 4) &&& h.cause != 0) } }) s := rfl

theorem mgClear_restart {v : Byte} {h : TripHold} (htrip : s.pwr.trip = some h) (helapsed : h.elapsed = true)
    (hcause : (v.truncate 4 : BitVec 4) &&& h.cause ≠ 0) : (mgClear v s).pwr.trip = some { h with restart := true } := by
  have hbit : ((v.truncate 4 : BitVec 4) &&& h.cause != 0) = true := bne_iff_ne.mpr hcause
  simp only [mgClear_eq, updPwr_pwr, htrip, Option.map_some, helapsed, hbit, Bool.and_self, Bool.or_true]

end

/-- Settles O45: the power gate of the port, and one lemma for each access. -/
theorem managementPort : Obligations.ManagementPort := by
  refine fun s => ⟨fun hvalid => ?_, fun hoff => ?_⟩
  · refine ⟨fun first hbase => congrArg _ (mgRead_first hvalid hbase first), fun l hbase hlatch => congrArg _ (mgRead_latched hvalid hbase hlatch),
      fun a => congrArg _ (mgWrite_pointer hvalid a), fun b => ⟨_, rfl, mgWrite_inhibit_spec hvalid b⟩, ?on, ?off, fun v => ?clear⟩
    case on =>
      have hlost := setInhibit_on_lost s
      exact ⟨setInhibit true s, congrArg Host.Outcome.next (if_pos hvalid), setInhibit_mainInhibit true s, hlost.off, hlost.slots⟩
    case off => exact congrArg _ (if_pos hvalid)
    case clear => exact ⟨mgClear v s, congrArg Host.Outcome.next (if_pos hvalid), rfl, rfl, fun h htrip helapsed hcause => mgClear_restart htrip helapsed hcause⟩
  · have hgate : ∀ t : State, (if s.pwr.vstbyValid = true then t else s) = s := fun t => if_neg (by simp [hoff])
    refine ⟨fun first => ?_, fun l => ?_, fun on => congrArg _ (hgate _), fun v => congrArg _ (hgate _)⟩
    · exact congrArg Host.Outcome.next (if_pos (by simp [hoff]))
    · cases l with
      | nil => rfl
      | cons a rest => exact congrArg Host.Outcome.next (hgate _)

/-! ### A restart begins (R411, R412) -/

/-- Restarts of the control complex within 60 s, the one that begins now among them. -/
def recentRestarts (s : State) : List Nat :=
  (s.aoCycles :: s.boot.restartTimes).filter fun x => decide (s.aoCycles - x ≤ 1500000000)

/-- A restart noted: counted, and without nonces (R486). -/
def restartNoted (c : RestartCause) (s : State) : State :=
  { s with
    boot := { s.boot with
      restarting := some c, lastRestart := some c, ccRestarts := s.boot.ccRestarts + 1, restartTimes := recentRestarts s }
    acc := { s.acc with level := s.acc.level.map fun x => { x with nonce := none } } }

theorem raiseRestart_quiet (c : RestartCause) (s : State) : Safety.Quiet s (raiseRestart c s) := raiseBoot_quiet ..

theorem ccFail_quiet {s t : State} (h : Safety.Quiet s t) : Safety.Quiet (ccFail s) (ccFail t) := by
  unfold Safety.Quiet at *
  rw [h]
  rfl

section
variable {c : RestartCause} {s : State}

/-- A restart begins where the firmware runs, the complex has not failed and no restart is under way; the fifth within 60 s fails the complex. -/
theorem beginRestart_quiet (hstage : s.boot.stage = .main ∨ s.boot.stage = .rescue) (hok : s.boot.ccFailed = false)
    (hnone : s.boot.restarting = none) :
    Safety.Quiet (if 5 ≤ (recentRestarts s).length then ccFail (restartNoted c s) else restartNoted c s) (beginRestart c s) := by
  have hgate : (s.boot.stage == .starter || s.boot.stage == .loader || s.boot.ccFailed || s.boot.restarting.isSome) = false := by
    rcases hstage with h | h <;> rw [h, hok, hnone] <;> rfl
  have hraised := raiseRestart_quiet c (restartNoted c s)
  have hbegun : beginRestart c s = if 5 ≤ (recentRestarts s).length then ccFail (raiseRestart c (restartNoted c s))
      else raiseRestart c (restartNoted c s) := if_neg (by rw [hgate]; decide)
  rw [hbegun]
  split_ifs
  · exact ccFail_quiet hraised
  · exact hraised

theorem beginRestart_spec (hstage : s.boot.stage = .main ∨ s.boot.stage = .rescue) (hok : s.boot.ccFailed = false)
    (hnone : s.boot.restarting = none) :
    let t := beginRestart c s
    t.boot.restarting = some c ∧ t.boot.lastRestart = some c ∧ t.boot.ccRestarts = s.boot.ccRestarts + 1 ∧
      (∀ l : Fin 2, t.acc.level[l] = { s.acc.level[l] with nonce := none }) ∧ committing t = false ∧
      t.boot.ccFailed = decide (5 ≤ (recentRestarts s).length) ∧
      Safety.Quiet { s with boot := t.boot, acc := t.acc, pwr := { s.pwr with mgCause := t.pwr.mgCause } } t := by
  intro t
  have h : Safety.Quiet _ t := beginRestart_quiet hstage hok hnone
  clear_value t
  split_ifs at h with hfive
  · rw [h]
    refine ⟨rfl, rfl, rfl, fun l => ?_, rfl, (decide_eq_true hfive).symm, rfl⟩
    simp [ccFail, updPwr, updBoot, restartNoted]
  · rw [h]
    refine ⟨rfl, rfl, rfl, fun l => ?_, ?_, hok.trans (decide_eq_false hfive).symm, rfl⟩
    · simp [restartNoted]
    · simp [committing, restartNoted]

/-- The causes that begin a restart (R411). -/
theorem exec_restart {i : Instr} (hlive : live s = true) (hi : (i = .ccSramEcc ∧ c = .sramEcc) ∨ (i = .watchdog ∧ c = .watchdog) ∨
    (i = .lockstepError ∧ c = .lockstep ∧ s.boot.singleCore = false)) : exec i s = .next (beginRestart c s) := by
  rcases hi with ⟨rfl, rfl⟩ | ⟨rfl, rfl⟩ | ⟨rfl, rfl, hsingle⟩
  · exact whenLive_live hlive _
  · exact whenLive_live hlive _
  · exact (whenLive_live hlive _).trans (congrArg _ (if_neg (by simp [hsingle])))

/-! ### A restart completes (R411, R412) -/

theorem ccRestart_passed (h : s.boot.restarting = some c) (htwo : s.boot.singleCore = false) :
    ccRestart true true s = updBoot (fun b => { b with restarting := none, coreFails := #v[0, 0] }) s := by
  simp [ccRestart, h, htwo, updBoot, countFail]

/-- A core that fails its self-test for the second time in a row is fenced, and the complex goes on with the other. -/
theorem ccRestart_fenced (h : s.boot.restarting = some c) (htwo : s.boot.singleCore = false) (hfails : (s.boot.coreFails[(0 : Fin 2)]) = 1) :
    let t := ccRestart false true s
    t.boot.restarting = none ∧ t.boot.singleCore = true ∧ t.boot.fencedCore = false ∧ t.boot.ccFailed = s.boot.ccFailed := by
  simp at hfails
  simp [ccRestart, h, htwo, updBoot, countFail, hfails, raiseRestart]

end

/-- Settles O47. -/
theorem restarts : Obligations.Restarts := by
  intro s hlive
  refine ⟨fun i c hi hstage hok hnone => ⟨_, exec_restart hlive hi, beginRestart_spec hstage hok hnone⟩, fun hsingle => ?_,
    fun c hc htwo => ⟨_, whenLive_live hlive _, ccRestart_passed hc htwo⟩,
    fun c hc htwo hfails => ⟨_, whenLive_live hlive _, ccRestart_fenced hc htwo hfails⟩, fun hnone a b => ?_, fun cause hruns => ?_⟩
  · exact (whenLive_live hlive _).trans (congrArg _ (if_pos hsingle))
  · refine (whenLive_live hlive _).trans (congrArg _ ?_)
    unfold ccRestart
    rw [hnone]
  · exact ⟨_, (whenLive_live hlive _).trans (congrArg _ (if_pos hruns)), raiseNow_quiet ..⟩

end Sys2Proof.Machine
end
section
/-!
SUPPORT and the proof of O48: telemetry (R418), the thermal policy (R420 to R423) and the life log (R437).
-/
namespace Sys2Proof.Machine

/-! ### Telemetry (R418, R428) -/

section
variable {m : Telemetry} {s : State}

/-- What the always-on domain measures by itself (R428). -/
def alwaysOnMeasured (m : Telemetry) (s : State) : State := updPwr (fun p => { p with mgVmain := m.mgVmain, mgVstby := m.mgVstby }) s

theorem telemetryUpdate_running (hvalid : s.pwr.vstbyValid = true) (hlive : live s = true) (hruns : s.boot.pmcRunning = true) :
    telemetryUpdate m s = updPwr (pmcTelemetry m) (alwaysOnMeasured m s) := by
  have hgate : (live (alwaysOnMeasured m s) && (alwaysOnMeasured m s).boot.pmcRunning) = true := Bool.and_eq_true_iff.mpr ⟨hlive, hruns⟩
  unfold telemetryUpdate
  rw [if_pos hvalid]
  exact if_pos hgate

theorem telemetryUpdate_held (hvalid : s.pwr.vstbyValid = true) (hheld : live s = false ∨ s.boot.pmcRunning = false) :
    telemetryUpdate m s = alwaysOnMeasured m s := by
  have hgate : (live (alwaysOnMeasured m s) && (alwaysOnMeasured m s).boot.pmcRunning) = false := Bool.and_eq_false_iff.mpr hheld
  unfold telemetryUpdate
  rw [if_pos hvalid]
  exact if_neg (by rw [← alwaysOnMeasured, hgate]; decide)

theorem telemetryUpdate_spec (hvalid : s.pwr.vstbyValid = true) :
    let t := telemetryUpdate m s
    t = { s with pwr := t.pwr } ∧ t.pwr.mgVmain = m.mgVmain ∧ t.pwr.mgVstby = m.mgVstby := by
  intro t
  by_cases hgate : live s = true ∧ s.boot.pmcRunning = true
  · have ht : t = _ := telemetryUpdate_running hvalid hgate.1 hgate.2
    rw [ht]
    exact ⟨rfl, rfl, rfl⟩
  · have hheld : live s = false ∨ s.boot.pmcRunning = false := by simpa using (not_and_or.mp hgate)
    have ht : t = _ := telemetryUpdate_held hvalid hheld
    rw [ht]
    exact ⟨rfl, rfl, rfl⟩

end

/-! ### What the policy changes (R315, R423) -/

section
variable (sev cause : Nat) (end_ : Bool) (f : Health → Health) (s : State)
@[simp] theorem raiseTherm_health : (raiseTherm sev cause s).health = s.health := raiseNow_health ..
@[simp] theorem raiseTherm_eng : (raiseTherm sev cause s).eng = s.eng := raiseNow_eng ..
@[simp] theorem raiseThrottle_health : (raiseThrottle end_ s).health = s.health := raiseNow_health ..
@[simp] theorem raiseThrottle_eng : (raiseThrottle end_ s).eng = { s.eng with throttled := !end_ } := raiseNow_eng ..
@[simp] theorem thermTo_health : (thermTo f s).health = { f s.health with msSinceChange := 0 } := rfl
@[simp] theorem thermTo_eng : (thermTo f s).eng = s.eng := rfl
end

/-- `t` differs from `s` at most in what the thermal policy sets on the Tmax that `s` holds: its own state, the throttle, the instances' notes
that hops may be dropped (R315), and events. -/
structure ThermWork (s t : State) : Prop where
  only : Safety.Quiet { s with health := t.health, eng := { s.eng with throttled := t.eng.throttled }, insts := t.insts } t
  insts : ∀ i : Fin 16, t.insts[i] = { s.insts[i] with mayDrop := (t.insts[i]).mayDrop }
  tmax : t.health.tmax = s.health.tmax
  hottest : t.health.hottest = s.health.hottest

section
variable {s t u : State}

theorem ThermWork.refl (s : State) : ThermWork s s := ⟨rfl, fun _ => rfl, rfl, rfl⟩

theorem ThermWork.trans (h : ThermWork s t) (k : ThermWork t u) : ThermWork s u := by
  refine ⟨?_, fun i => ?_, k.tmax.trans h.tmax, k.hottest.trans h.hottest⟩
  · have hst := h.only
    have htu := k.only
    unfold Safety.Quiet at *
    rw [htu, hst]
  · rw [k.insts, h.insts]

theorem ThermWork.raiseTherm (h : ThermWork s t) (sev cause : Nat) : ThermWork s (raiseTherm sev cause t) :=
  h.trans (by
    have hquiet : Safety.Quiet t (Machine.raiseTherm sev cause t) := raiseNow_quiet ..
    generalize Machine.raiseTherm sev cause t = v at *
    refine ⟨?_, fun i => ?_, ?_, ?_⟩ <;> rw [hquiet]
    rfl)

theorem ThermWork.raiseThrottle (h : ThermWork s t) (end_ : Bool) : ThermWork s (raiseThrottle end_ t) :=
  h.trans (by
    have hquiet : Safety.Quiet { t with
        eng := { t.eng with throttled := !end_ }, insts := t.insts.map fun x => { x with mayDrop := x.mayDrop || !end_ } }
        (Machine.raiseThrottle end_ t) := raiseNow_quiet ..
    generalize Machine.raiseThrottle end_ t = v at *
    refine ⟨?_, fun i => ?_, ?_, ?_⟩
    · rw [hquiet]
      rfl
    · rw [hquiet]
      simp
    · rw [hquiet]
    · rw [hquiet])

theorem ThermWork.updHealth (h : ThermWork s t) {f : Health → Health} (htmax : (f t.health).tmax = t.health.tmax)
    (hhottest : (f t.health).hottest = t.health.hottest) : ThermWork s (updHealth f t) :=
  h.trans ⟨rfl, fun _ => rfl, htmax, hhottest⟩

theorem ThermWork.thermTo (h : ThermWork s t) {f : Health → Health} (htmax : (f t.health).tmax = t.health.tmax)
    (hhottest : (f t.health).hottest = t.health.hottest) : ThermWork s (thermTo f t) := h.updHealth htmax hhottest

theorem ThermWork.of_updHealth {f g : Health → Health} (h : ThermWork (Machine.updHealth f (Machine.updHealth g s)) u) :
    Safety.Quiet { s with health := u.health, eng := { s.eng with throttled := u.eng.throttled }, insts := u.insts } u ∧
      ∀ i : Fin 16, u.insts[i] = { s.insts[i] with mayDrop := (u.insts[i]).mayDrop } := by
  exact ⟨h.only, h.insts⟩

theorem thermWarn_work (s : State) : ThermWork s (thermWarn s) := by
  unfold thermWarn
  dsimp only
  split_ifs
  · exact .updHealth (.refl s) rfl rfl
  · exact .raiseTherm (.updHealth (.refl s) rfl rfl) ..
  · exact .refl s

theorem thermStep_work (s : State) : ThermWork s (thermStep s) := by
  have hto : ∀ {f : Health → Health}, (f s.health).tmax = s.health.tmax → (f s.health).hottest = s.health.hottest →
      ThermWork s (Machine.thermTo f s) := (ThermWork.refl s).thermTo
  unfold thermStep
  extract_lets h hot ten calm
  split
  case h_1 =>
    split_ifs
    · exact ((hto rfl rfl).raiseThrottle _).raiseTherm ..
    · exact .refl s
  case h_2 =>
    split_ifs
    · exact (hto rfl rfl).raiseTherm ..
    · exact (hto rfl rfl).raiseTherm ..
    · exact ((hto rfl rfl).raiseThrottle _).raiseTherm ..
    · exact (hto rfl rfl).raiseTherm ..
    · exact .refl s
  case h_3 =>
    split_ifs
    · exact hto rfl rfl
    · exact .refl s
    · exact (hto rfl rfl).raiseTherm ..
    · exact hto rfl rfl
    · exact .refl s

/-! ### The steps of the policy (R423) -/

/-- WARN leaves the policy and the throttle alone. -/
theorem thermWarn_health (s : State) : ∃ armed, (thermWarn s).health = { s.health with warnArmed := armed } := by
  unfold thermWarn
  dsimp only
  split_ifs
  · exact ⟨true, rfl⟩
  · exact ⟨false, raiseTherm_health ..⟩
  · exact ⟨s.health.warnArmed, rfl⟩

theorem thermWarn_eng (s : State) : (thermWarn s).eng = s.eng := by
  unfold thermWarn
  dsimp only
  split_ifs
  · rfl
  · exact raiseTherm_eng ..
  · rfl

section
variable (hhot : 9500 ≤ s.health.tmax.toInt)
include hhot

theorem thermStep_normal_hot (h : s.health.policy = .normal) :
    (thermStep s).health.policy = .engine ∧ (thermStep s).health.engLevel = 7 ∧ (thermStep s).eng.throttled = true := by
  simp [thermStep, h, hhot]

theorem thermStep_engine_lower (h : s.health.policy = .engine) (hten : 10 ≤ s.health.msSinceChange) (hlevel : 1 < s.health.engLevel) :
    (thermStep s).health.policy = .engine ∧ (thermStep s).health.engLevel = s.health.engLevel - 1 := by
  simp [thermStep, h, hhot, hten, hlevel]

theorem thermStep_engine_felt (h : s.health.policy = .engine) (hten : 10 ≤ s.health.msSinceChange) (hlevel : s.health.engLevel ≤ 1) :
    (thermStep s).health.policy = .felt ∧ (thermStep s).health.feltRate = 1 := by
  simp [thermStep, h, hhot, hten, Nat.not_lt.mpr hlevel]

theorem thermStep_engine_wait (h : s.health.policy = .engine) (hten : s.health.msSinceChange < 10) : thermStep s = s := by
  simp [thermStep, h, hhot, Nat.not_le.mpr hten]

theorem thermStep_felt (h : s.health.policy = .felt) (hten : 10 ≤ s.health.msSinceChange) :
    (thermStep s).health.policy = .felt ∧
      (thermStep s).health.feltRate = if s.health.feltRate < 3 then s.health.feltRate + 1 else s.health.feltRate := by
  by_cases hrate : s.health.feltRate < 3 <;> simp [thermStep, h, hhot, hten, hrate]

end

theorem thermStep_normal_cool (h : s.health.policy = .normal) (hcool : s.health.tmax.toInt < 9500) : thermStep s = s := by
  simp [thermStep, h, Int.not_le.mpr hcool]

end

/-! ### One evaluation (R420, R422) -/

/-- The state on which the policy takes a step: the sensors with their readings, the Tmax of sensor `i` taken, and the milliseconds below
92 °C counted (R421, R422). -/
def tmaxTaken (sense : Vector Sensor 64 → Vector Sensor 64) (tmax : BitVec 16) (i : Fin 64) (quiet : Nat → Nat) (s : State) : State :=
  updHealth (fun h => { h with tmax := tmax, hottest := i.val, msSinceChange := h.msSinceChange + 1, quietMs := quiet h.quietMs })
    (updHealth (fun h => { h with sensors := sense h.sensors }) s)

section
variable {temps : List (BitVec 16)} {i : Fin 64} {s : State}

theorem tmaxEvaluate_some (hruns : s.boot.pmcRunning = true)
    (hhottest : hottestOf (Vector.ofFn fun k : Fin 64 => senseOne temps k s.health.sensors[k]) = some i) :
    ∃ sense quiet, tmaxEvaluate temps s = thermStep (thermWarn (tmaxTaken sense (temps.getD i.val 0) i quiet s)) := by
  have htemp : ((Vector.ofFn fun k : Fin 64 => senseOne temps k s.health.sensors[k])[i]).temp = temps.getD i.val 0 := by
    rw [Fin.getElem_fin, Vector.getElem_ofFn]
    rfl
  unfold tmaxEvaluate
  rw [if_neg (by simp [hruns])]
  extract_lets v
  have hv : hottestOf v.health.sensors = some i := hhottest
  rw [hv]
  dsimp only
  rw [show (v.health.sensors[i]).temp = temps.getD i.val 0 from htemp]
  exact ⟨fun l => Vector.ofFn fun k : Fin 64 => senseOne temps k l[k], fun n => if (temps.getD i.val 0).toInt < 9200 then n + 1 else 0, rfl⟩

/-- What an evaluation leaves alone. -/
theorem tmaxEvaluate_work (hruns : s.boot.pmcRunning = true)
    (hhottest : hottestOf (Vector.ofFn fun k : Fin 64 => senseOne temps k s.health.sensors[k]) = some i) :
    let t := tmaxEvaluate temps s
    t.health.tmax = temps.getD i.val 0 ∧ t.health.hottest = i.val ∧
      Safety.Quiet { s with health := t.health, eng := { s.eng with throttled := t.eng.throttled }, insts := t.insts } t ∧
      ∀ i : Fin 16, t.insts[i] = { s.insts[i] with mayDrop := (t.insts[i]).mayDrop } := by
  intro t
  obtain ⟨sense, quiet, ht⟩ := tmaxEvaluate_some hruns hhottest
  have hwork : ThermWork (tmaxTaken sense (temps.getD i.val 0) i quiet s) t := by
    rw [show t = _ from ht]
    exact (thermWarn_work _).trans (thermStep_work _)
  clear_value t
  obtain ⟨honly, hinsts⟩ := hwork.of_updHealth
  exact ⟨hwork.tmax, hwork.hottest, honly, hinsts⟩

/-- The policy's part of an evaluation, on the state that WARN leaves. -/
theorem tmaxEvaluate_policy (hruns : s.boot.pmcRunning = true)
    (hhottest : hottestOf (Vector.ofFn fun k : Fin 64 => senseOne temps k s.health.sensors[k]) = some i) :
    ∃ w : State, tmaxEvaluate temps s = thermStep w ∧ w.health.policy = s.health.policy ∧ w.health.engLevel = s.health.engLevel ∧
      w.health.feltRate = s.health.feltRate ∧ w.health.msSinceChange = s.health.msSinceChange + 1 ∧
      w.health.tmax = temps.getD i.val 0 ∧ w.eng = s.eng := by
  obtain ⟨sense, quiet, ht⟩ := tmaxEvaluate_some hruns hhottest
  obtain ⟨armed, hhealth⟩ := thermWarn_health (tmaxTaken sense (temps.getD i.val 0) i quiet s)
  refine ⟨_, ht, ?_, ?_, ?_, ?_, ?_, thermWarn_eng _⟩ <;> rw [hhealth] <;> rfl

end

/-! ### Sensors and the life log (R421, R437) -/

theorem thermSensor_excludes {n : Fin 64} {reading : BitVec 16} {s : State} (hruns : s.boot.pmcRunning = true)
    (hin : (s.health.sensors[n]).excluded = false) (hbad : sensorBad n reading s = true) :
    Safety.Quiet (updHealth (fun h => { h with sensors := upd h.sensors n fun x => { x with temp := reading, excluded := true } }) s)
      (thermSensor n reading s) := by
  unfold thermSensor
  rw [if_pos (by rw [hruns, hin, hbad]; rfl)]
  exact raiseNow_quiet ..

theorem thermSensor_keeps {n : Fin 64} {reading : BitVec 16} {s : State}
    (h : (s.health.sensors[n]).excluded = true ∨ sensorBad n reading s = false) : thermSensor n reading s = s := by
  refine if_neg fun hgate => ?_
  simp only [Bool.and_eq_true, Bool.not_eq_true'] at hgate
  obtain ⟨⟨-, hin⟩, hbad⟩ := hgate
  rcases h with h | h
  · exact absurd (hin.symm.trans h) (by decide)
  · exact absurd (hbad.symm.trans h) (by decide)

/-- The life log takes what was written; its hours, hot seconds and peak never fall (log 115). -/
theorem lifeLogWrite_quiet (hours : W32) (avg peak : BitVec 16) (hot : W32) (s : State) : ∃ warned, Safety.Quiet (updHealth (fun h => { h with
      powerHours := BitVec.ofNat 32 (max h.powerHours.toNat hours.toNat), avgTj := avg, tjPeak := higher h.tjPeak peak,
      hotSeconds := BitVec.ofNat 32 (max h.hotSeconds.toNat hot.toNat), lifeWarnHours := warned }) s) (lifeLogWrite hours avg peak hot s) := by
  unfold lifeLogWrite
  extract_lets total due above t
  refine ⟨if due then total.toNat else if above then s.health.lifeWarnHours else 0, ?_⟩
  change Safety.Quiet t _
  split
  · exact raiseNow_quiet ..
  · exact quiet_refl _

/-- Settles O48. -/
theorem telemetryAndPolicy : Obligations.TelemetryAndPolicy := by
  refine ⟨fun m s hwf hvalid => ?telemetry, fun temps s hwf hlive => ⟨fun hoff => ?off, fun i hruns hhottest => ?evaluate⟩,
    fun n reading s hlive => ⟨fun hruns hin hbad => ?bad, fun h => ?good⟩, fun hours avg peak hot s hlive => ?life⟩
  case telemetry =>
    obtain ⟨honly, hmain, hstby⟩ := telemetryUpdate_spec (m := m) hvalid
    refine ⟨_, if_pos hwf, honly, hmain, hstby, fun hlive hruns => ?_, fun hheld => ?_⟩
    · rw [telemetryUpdate_running hvalid hlive hruns]
      exact ⟨rfl, rfl, rfl, rfl, rfl, fun i => by simp [pmcTelemetry, alwaysOnMeasured]⟩
    · rw [telemetryUpdate_held hvalid hheld]
      rfl
  case off =>
    refine (whenLive_live hlive _).trans ((if_pos hwf).trans (congrArg _ ?_))
    unfold tmaxEvaluate
    rw [if_pos (by simp [hoff])]
  case evaluate =>
    intro tmax
    obtain ⟨htmax, hhot, honly, hinsts⟩ := tmaxEvaluate_work hruns hhottest
    obtain ⟨w, hstep, hpolicy, hlevel, hrate, hms, htaken, heng⟩ := tmaxEvaluate_policy hruns hhottest
    refine ⟨tmaxEvaluate temps s, (whenLive_live hlive _).trans (if_pos hwf), htmax, hhot, honly, hinsts, ?_⟩
    rw [hstep, ← hpolicy, ← hlevel, ← hrate, ← heng, show tmax = w.health.tmax from htaken.symm]
    refine ⟨fun h hot => thermStep_normal_hot hot h, fun h hcool => ?_, fun h hot hten => ?_, fun h hot hten => ?_, fun h hot hten => ?_⟩
    · rw [thermStep_normal_cool h hcool]
      exact ⟨h, rfl⟩
    · exact ⟨thermStep_engine_lower hot h (by omega), thermStep_engine_felt hot h (by omega)⟩
    · rw [thermStep_engine_wait hot h (by omega)]
      exact ⟨h, rfl⟩
    · exact thermStep_felt hot h (by omega)
  case bad => exact ⟨_, whenLive_live hlive _, thermSensor_excludes hruns hin hbad⟩
  case good => exact (whenLive_live hlive _).trans (congrArg _ (thermSensor_keeps h))
  case life =>
    obtain ⟨warned, hquiet⟩ := lifeLogWrite_quiet hours avg peak hot s
    refine ⟨_, whenLive_live hlive _, ?_, ?_⟩ <;> generalize lifeLogWrite hours avg peak hot s = t at * <;> rw [hquiet] <;> rfl

end Sys2Proof.Machine
end
section
/-!
SUPPORT and the proof of O40: access levels (R485 to R489), with what a command that commits answers (R350, R353).
-/
namespace Sys2Proof.Machine

/-! ### A command that commits (R350, R353) -/

section
variable {i : Instr} {n : Fin 64} {op : Nat} {g : Fetched} {s t : State} {block result : List Byte} {deps : Call → List (Nat × Nat)}
  {f : Call → State → Reply} (hc : Safety.Commits n op g s)
  (hexec : exec i s = whenLive s (.next (runCmd (.host n) op block deps f s)))
include hc hexec

theorem exec_succeeds (h : f (Safety.callOf g block) s = .ok t result) :
    exec i s = .next (Safety.succeeds n g op block result t) := by
  rw [hexec, whenLive_live hc.runs, runCmd_ok hc deps h]

theorem exec_starts {x : Xfer} (h : f (Safety.callOf g block) s = .start t x result) :
    exec i s = .next (Safety.starts n g op block x result t) := by
  rw [hexec, whenLive_live hc.runs, runCmd_start hc deps h]

theorem exec_refuses {status detail : Nat} (h : f (Safety.callOf g block) s = refuse status detail) (hstatus : status ≠ stCapacity) :
    exec i s = .next (Safety.refuses n g status detail s) := by
  rw [hexec, whenLive_live hc.runs, runCmd_refuse hc deps h hstatus]

/-- A refusal that reports a RESULT, other than for want of a budget. -/
theorem exec_refuses_with {status detail it : Nat} (h : f (Safety.callOf g block) s = .refuse status detail result it)
    (hstatus : status ≠ stCapacity) : exec i s = .next (finish n g.tag status detail result s) := by
  rw [hexec, whenLive_live hc.runs, runCmd_commits hc, h]
  simp [noteReply, settle, admitRefusal, hstatus]

/-- A refusal that leaves a trace of its own. -/
theorem exec_refuses_in {status detail : Nat} (h : f (Safety.callOf g block) s = .refuseIn t status detail result) :
    exec i s = .next (finish n g.tag status detail result t) := by
  rw [hexec, whenLive_live hc.runs, runCmd_commits hc, h]
  rfl

end

/-- A block command whose header and fields pass. -/
theorem withBlock_ok {α : Type} {op fields : Nat} {parse : List Byte → Except Nat α} {c : Call} {x : α} (hheader : headerFault op fields c = none)
    (hparse : parse c.block = .ok x) (k : α → Reply) : withBlock op fields parse c k = k x := by
  rw [withBlock, hheader]
  dsimp only
  rw [hparse]

/-! ### One level changed -/

@[simp] theorem levelArg_val (l : Fin 2) : levelArg l.val = some l := dif_pos l.isLt

theorem updLevel_updLevel (l : Fin 2) (f g : Level → Level) (s : State) :
    updLevel l f (updLevel l g s) = updLevel l (fun x => f (g x)) s := by
  unfold updLevel
  rw [upd_upd]

theorem updLevel_level (l : Fin 2) (f : Level → Level) (s : State) : (updLevel l f s).acc.level[l] = f s.acc.level[l] := upd_get ..

section
variable {l : Fin 2} {f : Level → Level} {s t : State} (h : Safety.Quiet (updLevel l f s) t)
include h

theorem level_of_quiet : t.acc.level[l] = f s.acc.level[l] := by
  have hacc : t.acc = (updLevel l f s).acc := by rw [h]
  rw [hacc, updLevel_level]

/-- The frame in the form of a level read back. -/
theorem quiet_updLevel_const : Safety.Quiet (updLevel l (fun _ => t.acc.level[l]) s) t := by
  rw [level_of_quiet h]
  exact h

end

/-! ### Attempts (R486 to R488) -/

section
variable {l : Fin 2} {s : State}

theorem delayed_none (h : (s.acc.level[l]).delay = none) (k : Reply) : delayed l s k = k := by rw [delayed, h]

theorem delayed_some {e : Nat} (h : (s.acc.level[l]).delay = some e) (k : Reply) :
    delayed l s k = .refuse stAuthDelay 0 (le 4 (delayLeft s s.acc.level[l])) 0 := by rw [delayed, h]

/-- The end of the delay that failures start, from the eighth on (R488). -/
theorem delayEnd_eq (fails : Nat) (s : State) :
    delayEnd fails s = if 8 ≤ fails then some (s.aoCycles + 25000 * (1000 * min 65536 (2 ^ (fails - 8)))) else none := by
  unfold delayEnd failDelay
  split_ifs <;> rfl

theorem authOpens_spec (l : Fin 2) (s : State) : ∃ t, authOpens l s = .ok t [] ∧
    Safety.Quiet (updLevel l (fun x => { x with fails := 0, isOpen := true }) s) t := by
  refine ⟨_, rfl, ?_⟩
  split_ifs
  · exact quiet_refl _
  · exact raiseNow_quiet ..

theorem authFails_spec (l : Fin 2) (s : State) : ∃ t, authFails l s = .refuseIn t stAuthFailed 0 [] ∧
    Safety.Quiet (updLevel l (fun x => { x with
      fails := min 255 ((s.acc.level[l]).fails + 1), delay := delayEnd (min 255 ((s.acc.level[l]).fails + 1)) s }) s) t := by
  have hstick : ∀ k, stick 8 k = min 255 k := fun k => Nat.min_comm ..
  unfold authFails
  rw [hstick]
  exact ⟨_, rfl, raiseNow_quiet ..⟩

/-! ### The commands -/

section
variable {c : Call} (hlevel : arg1 c 0x18 = l.val)
include hlevel

theorem accChallenge_eq : accChallenge c s = delayed l s
    (.ok (updLevel l (fun x => { x with nonce := some (pad 16 (Config.freeBlob s.freeCtr)) }) { s with freeCtr := s.freeCtr + 1 })
      (pad 16 (Config.freeBlob s.freeCtr))) := by
  rw [accChallenge, hlevel, levelArg_val]
  rfl

theorem accRespond_eq (hdelay : (s.acc.level[l]).delay = none) : accRespond c s = match (s.acc.level[l]).nonce with
    | none => refuse stState 0
    | some nonce => if slice c.desc 0x20 32 = expectedResponse l nonce then authOpens l (updLevel l (fun x => { x with nonce := none }) s)
        else authFails l (updLevel l (fun x => { x with nonce := none }) s) := by
  rw [accRespond, hlevel, levelArg_val]
  exact delayed_none hdelay _

theorem accRespond_opens (hdelay : (s.acc.level[l]).delay = none) {nonce : List Byte} (hnonce : (s.acc.level[l]).nonce = some nonce)
    (hright : slice c.desc 0x20 32 = expectedResponse l nonce) : ∃ t, accRespond c s = .ok t [] ∧
      Safety.Quiet (updLevel l (fun x => { x with nonce := none, fails := 0, isOpen := true }) s) t := by
  obtain ⟨t, hreply, hquiet⟩ := authOpens_spec l (updLevel l (fun x => { x with nonce := none }) s)
  rw [updLevel_updLevel] at hquiet
  refine ⟨t, ?_, hquiet⟩
  rw [accRespond_eq hlevel hdelay, hnonce]
  exact (if_pos hright).trans hreply

/-- A wrong response uses the nonce up and counts as a failure. -/
theorem accRespond_fails (hdelay : (s.acc.level[l]).delay = none) {nonce : List Byte} (hnonce : (s.acc.level[l]).nonce = some nonce)
    (hwrong : slice c.desc 0x20 32 ≠ expectedResponse l nonce) : ∃ t, accRespond c s = .refuseIn t stAuthFailed 0 [] ∧
      Safety.Quiet (updLevel l (fun x => { x with
        nonce := none, fails := min 255 ((s.acc.level[l]).fails + 1), delay := delayEnd (min 255 ((s.acc.level[l]).fails + 1)) s }) s) t := by
  obtain ⟨t, hreply, hquiet⟩ := authFails_spec l (updLevel l (fun x => { x with nonce := none }) s)
  rw [updLevel_updLevel, updLevel_level] at hquiet
  refine ⟨t, ?_, hquiet⟩
  rw [accRespond_eq hlevel hdelay, hnonce]
  exact (if_neg hwrong).trans hreply

theorem accClose_open (hopen : (s.acc.level[l]).isOpen = true) : ∃ t, accClose c s = .ok t [] ∧
    Safety.Quiet (updLevel l (fun x => { x with isOpen := false }) s) t := by
  rw [accClose, hlevel, levelArg_val]
  exact ⟨_, if_pos hopen, raiseNow_quiet ..⟩

theorem accClose_closed (hclosed : (s.acc.level[l]).isOpen = false) : accClose c s = .ok s [] := by
  rw [accClose, hlevel, levelArg_val]
  exact if_neg (Bool.eq_false_iff.mp hclosed)

end

section
variable {c : Call} {pw : List Byte} (hparse : parsePassword c.block = .ok pw) (hitem : item c.block = 0)
include hparse hitem

theorem accPassword_eq (hheader : headerFault 0x0062 9 c = none) (hdelay : (s.acc.level[(0 : Fin 2)]).delay = none) :
    accPassword c s = match s.acc.pwHash with
      | none => refuse stState 0
      | some h => if Config.passwordHash s.acc.salt pw = h then authOpens 0 s else authFails 0 s := by
  rw [accPassword, withBlock_ok hheader hparse, if_neg (by simp [hitem])]
  exact delayed_none hdelay _

theorem accSetPassword_eq (hheader : headerFault 0x0063 9 c = none) : accSetPassword c s = if !ownerRight s.acc then refuse stDenied 0
    else .ok { s with
      freeCtr := s.freeCtr + 1
      acc := { s.acc with
        salt := pad 16 (Config.freeBlob s.freeCtr), pwHash := some (Config.passwordHash (pad 16 (Config.freeBlob s.freeCtr)) pw) } } [] := by
  rw [accSetPassword, withBlock_ok hheader hparse, if_neg (by simp [hitem])]
  rfl

end

end

/-- Settles O40, from what each command answers. -/
theorem accessLevels : Obligations.AccessLevels := by
  refine ⟨fun n g l s hlevel => ?levels, fun n g block pw s hparse hitem => ⟨?password, ?set⟩,
    fun l s hlive => ⟨whenLive_live hlive _, whenLive_live hlive _⟩⟩
  case levels =>
    intro x
    refine ⟨fun hc hdelay => ?challenge, fun hc e he => ?delayed, fun hc hdelay => ⟨fun hnone => ?noNonce, fun nonce hnonce hright => ?right,
      fun nonce hnonce hwrong => ?wrong⟩, fun hc hopen => ?close, fun hc hclosed => ?closed⟩
    case challenge =>
      exact ⟨_, pad_length .., exec_succeeds hc rfl ((accChallenge_eq hlevel).trans (delayed_none hdelay _))⟩
    case delayed => exact exec_refuses_with hc rfl ((accChallenge_eq hlevel).trans (delayed_some he _)) (by decide)
    case noNonce =>
      refine exec_refuses hc rfl ((accRespond_eq hlevel hdelay).trans ?_) (by decide)
      rw [hnone]
    case right =>
      obtain ⟨t, hreply, hquiet⟩ := accRespond_opens hlevel hdelay hnonce hright
      exact ⟨t, exec_succeeds hc rfl hreply, level_of_quiet hquiet, quiet_updLevel_const hquiet⟩
    case wrong =>
      obtain ⟨t, hreply, hquiet⟩ := accRespond_fails hlevel hdelay hnonce hwrong
      have hafter := level_of_quiet hquiet
      refine ⟨t, exec_refuses_in hc rfl hreply, ?_, ?_, quiet_updLevel_const hquiet⟩
      · rw [hafter]
      · rw [hafter, ← delayEnd_eq]
    case close =>
      obtain ⟨t, hreply, hquiet⟩ := accClose_open hlevel hopen
      exact ⟨t, exec_succeeds hc rfl hreply, hquiet⟩
    case closed => exact exec_succeeds hc rfl (accClose_closed hlevel hclosed)
  case password =>
    intro hc hheader hdelay
    have hreply := accPassword_eq (s := s) hparse hitem hheader hdelay
    refine ⟨fun hnone => ?unset, fun hright => ?right, fun h hhash hwrong => ?wrong⟩
    case unset => exact exec_refuses hc rfl (by rw [hreply, hnone]) (by decide)
    case right =>
      obtain ⟨t, hopens, hquiet⟩ := authOpens_spec 0 s
      rw [hright] at hreply
      have hafter := level_of_quiet hquiet
      refine ⟨t, exec_succeeds hc rfl (hreply.trans ((if_pos rfl).trans hopens)), ?_, ?_⟩ <;> rw [hafter]
    case wrong =>
      obtain ⟨t, hfails, hquiet⟩ := authFails_spec 0 s
      rw [hhash] at hreply
      have hafter := level_of_quiet hquiet
      refine ⟨t, exec_refuses_in hc rfl (hreply.trans ((if_neg hwrong.symm).trans hfails)), ?_, ?_⟩ <;> rw [hafter]
  case set =>
    intro hc hheader
    have hreply := accSetPassword_eq (s := s) hparse hitem hheader
    refine ⟨fun hdenied => exec_refuses hc rfl ?_ (by decide), fun hright => ⟨pad 16 (Config.freeBlob s.freeCtr), exec_succeeds hc rfl ?_⟩⟩
    · rw [hreply, hdenied]
      rfl
    · rw [hreply, hright]
      rfl

end Sys2Proof.Machine
end
section
/-!
SUPPORT and the proof of O39: the settings store (R471 to R479).
-/
namespace Sys2Proof.Machine

/-! ### One copy changed (R475) -/

section
variable (b : Bool) (f : CfgCopy → CfgCopy) (s : State)

theorem copyOf_updCopy : copyOf (updCopy b f s).cfg b = f (copyOf s.cfg b) := by
  simp [copyOf, updCopy, updCfg]

theorem copyOf_updCopy_other : copyOf (updCopy b f s).cfg (!b) = copyOf s.cfg (!b) := by
  have hne : slotIdx (!b) ≠ slotIdx b := by cases b <;> decide
  simp only [copyOf, updCopy, updCfg, Fin.getElem_fin, upd_get]
  exact upd_get_ne _ _ _ _ hne

end

/-- A command that waits completes: host memory and the host interface change (R348, R352). -/
theorem finishWait_completes (op key status detail : Nat) (result : List Byte) (s : State) :
    OnlyCompletes s (finishWait op key status detail result s) := by
  unfold finishWait
  split
  · exact finish_frame ..
  · rfl

theorem OnlyCompletes.frame {s t : State} (h : OnlyCompletes s t) : t = { s with hostMem := t.hostMem, hif := t.hif } := by
  unfold OnlyCompletes at h
  rw [h]

/-- An event changes the host interface only. -/
theorem raiseNow_onlyHif (src : Fin 256) (sev : Nat) (data : List Byte) (s : State) :
    raiseNow src sev data s = { s with hif := (raiseNow src sev data s).hif } := by
  unfold raiseNow raise raiseWith updSource
  dsimp only
  repeat' split
  all_goals rfl

/-! ### CFG_SAVE (R472) -/

section
variable {s : State}

/-- The copy that a save writes is invalid from here on, until the save commits. -/
def saveBegun (s : State) : State :=
  updCfg (fun c => { c with saving := some (settingsRecord s), saveFails := 0 })
    (updCopy (copyToWrite s.cfg) (fun x => { x with valid := false }) s)

theorem cfgSave_starts (h : s.cfg.saving = none) (c : Call) : cfgSave c s = .start (saveBegun s) (.wait 0) [] :=
  if_neg (by simp [h])

theorem cfgSave_busy {r : CfgCopy} (h : s.cfg.saving = some r) (c : Call) : cfgSave c s = refuse stBusy 0 := if_pos (by simp [h])

/-- The save has committed: the copy written is the one in use. -/
def saved (r : CfgCopy) (s : State) : State :=
  updCfg (fun c => { c with saving := none, copyB := copyToWrite s.cfg, gen := r.gen, defaulted := false })
    (updCopy (copyToWrite s.cfg) (fun _ => r) s)

section
variable {r : CfgCopy} (h : s.cfg.saving = some r)
include h

theorem cfgSaveDone_commits : OnlyCompletes (saved r s) (cfgSaveDone true s) := by
  unfold cfgSaveDone
  rw [h]
  exact finishWait_completes ..

theorem cfgSaveDone_retries (hfirst : s.cfg.saveFails = 0) : cfgSaveDone false s = updCfg (fun c => { c with saveFails := 1 }) s := by
  unfold cfgSaveDone
  rw [h]
  exact if_pos hfirst

/-- The second failed write leaves every copy as it is. -/
theorem cfgSaveDone_fails (hagain : s.cfg.saveFails ≠ 0) :
    let t := cfgSaveDone false s
    t.cfg = { s.cfg with saving := none, saveFails := 0 } ∧ t = { s with hostMem := t.hostMem, hif := t.hif, cfg := t.cfg } := by
  intro t
  have hcompletes : OnlyCompletes (raiseNow 0xF0 sevWarning (cfgStoreData 2 s.cfg.gen)
      (updCfg (fun c => { c with saving := none, saveFails := 0 }) s)) t := by
    unfold t cfgSaveDone
    rw [h]
    dsimp only
    rw [if_neg (by decide), if_neg hagain]
    exact finishWait_completes ..
  clear_value t
  rw [OnlyCompletes, raiseNow_onlyHif] at hcompletes
  rw [hcompletes]
  exact ⟨rfl, rfl⟩

end

/-! ### CFG_LOAD (R479) -/

theorem cfgLoad_busy (h : s.seqs.toList.any armed = true) (c : Call) : cfgLoad c s = refuse stBusy 0 := if_pos (by simp [h])

section
variable (hidle : s.seqs.toList.any armed = false) (hstreams : streamOpenNow s = false)
include hidle hstreams

theorem cfgLoad_eq (c : Call) : cfgLoad c s = match copyInUse s.cfg with
    | none => refuse stNotFound 0
    | some b => .ok (beginRestore (copyOf s.cfg b).items s) [] := if_neg (by rw [hidle, hstreams]; decide)

end

/-! ### A restore (R477) -/

/-- Every queue command runs an item of a restore in the item's turn (R356, R477). -/
theorem exec_restoreOp {c : Instr} {op : Nat} (hop : Safety.queueOp c = some (.restore, op)) (hwf : WellFormed.instr c = true) (s : State) :
    ∃ block deps f, exec c s = whenLive s (.next (runCmd .restore op block deps f s)) := by
  unfold Safety.queueOp at hop
  split at hop
  case h_7 =>
    cases hop
    exact ⟨_, _, _, exec_setDdc_wellFormed hwf s⟩
  all_goals cases hop <;> exact ⟨_, _, _, rfl⟩

/-- A command item runs only in its turn. -/
theorem runCmd_restore_stays {op : Nat} (h : restoreItem op s = none) (block : List Byte) (deps : Call → List (Nat × Nat))
    (f : Call → State → Reply) : runCmd .restore op block deps f s = s := by
  unfold runCmd runItem
  dsimp only
  rw [h]

end

/-- Settles O39. -/
theorem settingsStore : Obligations.SettingsStore := by
  refine ⟨fun n g s hc => ⟨fun hnone => ?starts, fun r hr => ?busy⟩, fun r s hlive hr => ⟨?commits, fun hfirst => ?retries, fun hagain => ?fails⟩,
    fun n g s hc => ⟨fun harmed => ?armed, fun hidle hstreams => ⟨fun hnone => ?notFound, fun b hb => ?loads⟩⟩,
    fun c op s hlive => ⟨fun hdone => ?done, fun hitems => ?waits, fun hop hwf hturn => ?turn⟩⟩
  case starts =>
    exact ⟨saveBegun s, exec_starts hc rfl (cfgSave_starts hnone _), rfl, rfl, congrArg CfgCopy.valid (copyOf_updCopy ..), copyOf_updCopy_other ..⟩
  case busy => exact exec_refuses hc rfl (cfgSave_busy hr _) (by decide)
  case commits =>
    have hcompletes := cfgSaveDone_commits hr
    have hcfg : (cfgSaveDone true s).cfg = (saved r s).cfg := by rw [hcompletes]
    refine ⟨_, whenLive_live hlive _, ?_⟩
    rw [hcfg]
    exact ⟨rfl, rfl, rfl, rfl, copyOf_updCopy .., hcompletes.frame⟩
  case retries => exact (whenLive_live hlive _).trans (congrArg _ (cfgSaveDone_retries hr hfirst))
  case fails => exact ⟨_, whenLive_live hlive _, cfgSaveDone_fails hr hagain⟩
  case armed => exact exec_refuses hc rfl (cfgLoad_busy harmed _) (by decide)
  case notFound => exact exec_refuses hc rfl ((cfgLoad_eq hidle hstreams _).trans (by rw [hnone])) (by decide)
  case loads =>
    have hcfg : (beginRestore (copyOf s.cfg b).items s).cfg = _ := congrArg Control.cfg (beginRestore_control s _)
    refine ⟨_, exec_succeeds hc rfl ((cfgLoad_eq hidle hstreams _).trans (by rw [hb])), ?_⟩
    rw [hcfg]
    rfl
  case done => exact (whenLive_live hlive _).trans (congrArg _ (if_pos (by simp [hdone])))
  case waits => exact (whenLive_live hlive _).trans (congrArg _ (if_neg (by simp [hitems])))
  case turn =>
    obtain ⟨block, deps, f, hexec⟩ := exec_restoreOp hop hwf s
    rw [hexec, whenLive_live hlive, runCmd_restore_stays hturn]

end Sys2Proof.Machine
end
section
/-!
SUPPORT and the proof of O41: the update block (R448 to R470), its record and staging, and the update commands.
-/
namespace Sys2Proof.Machine

/-! ### The update block (R448, R466, R467) -/

/-- `t` is `s` with the update block at `u`, and at most events. -/
def UpdIs (s : State) (u : Upd) (t : State) : Prop := Safety.Quiet { s with upd := u } t

section
variable {s t v : State} {u : Upd}

theorem UpdIs.refl (s : State) : UpdIs s s.upd s := rfl

theorem UpdIs.upd_eq (h : UpdIs s u t) : t.upd = u := by rw [h]

theorem UpdIs.quiet (h : UpdIs s u t) (k : Safety.Quiet t v) : UpdIs s u v := quiet_trans h k

theorem UpdIs.updUpd (h : UpdIs s u t) (f : Upd → Upd) : UpdIs s (f u) (updUpd f t) := by
  have hu := h.upd_eq
  unfold UpdIs Safety.Quiet Machine.updUpd at *
  rw [hu]
  generalize t.freeCtr = k at *
  rw [h]

theorem UpdIs.toState (h : UpdIs s u t) (x : UpdState) : UpdIs s { u with state := x } (toState x t) := by
  unfold Machine.toState
  split
  · next hsame =>
    have hu := h.upd_eq
    have hx : u.state = x := by rw [← hu]; exact beq_iff_eq.mp hsame
    subst hx
    exact h
  · exact (h.updUpd _).quiet (raiseNow_quiet ..)

theorem UpdIs.checkFails (h : UpdIs s u t) (x : UpdState) (cause part : Nat) :
    UpdIs s { u with state := x, lastCause := BitVec.ofNat 8 cause } (checkFails x cause part t) := (h.updUpd _).quiet (raiseNow_quiet ..)

theorem UpdIs.setFwd (h : UpdIs s u t) (west : Bool) (x : Option (Nat × Nat)) :
    UpdIs s (if west then { u with fwdWest := x } else { u with fwdEast := x }) (setFwd west x t) := h.updUpd _

theorem UpdIs.raiseChain (h : UpdIs s u t) (west : Bool) (cause : Nat) : UpdIs s u (raiseChain west cause t) := h.quiet (raiseNow_quiet ..)

theorem UpdIs.endFwd (h : UpdIs s u t) : UpdIs s { u with fwdEast := none, fwdWest := none } (endFwd t) := by
  have hend : ∀ {u : Upd} {t : State} (west : Bool), UpdIs s u t →
      UpdIs s u (if fwdOn t.upd west then Machine.raiseChain west 1 t else t) := fun west h => by
    split
    · exact h.raiseChain ..
    · exact h
  exact (hend true ((hend false h).setFwd false none)).setFwd true none

/-- The banks that an earlier verification wrote may become invalid; nothing counts as written or passed any more (R466). -/
theorem UpdIs.dropWritten (h : UpdIs s u t) : ∃ banks, UpdIs s { u with banks := banks, writtenBanks := 0, passed := 0 } (dropWritten t) := by
  have hbanks : ∃ banks, UpdIs s { u with banks := banks } (forAll 6 (fun p s =>
      if s.upd.writtenBanks.getLsbD p.val then updBank p (!s.upd.act.banks.getLsbD p.val) (fun b => { b with valid := false }) s
      else s) t) := by
    refine forAll_keeps (fun t => ∃ banks, UpdIs s { u with banks := banks } t) _ t (fun p v hv => ?_) ⟨u.banks, h⟩
    obtain ⟨banks, hv⟩ := hv
    split
    · exact ⟨_, hv.updUpd _⟩
    · exact ⟨banks, hv⟩
  obtain ⟨banks, hbanks⟩ := hbanks
  exact ⟨banks, hbanks.updUpd fun u => { u with writtenBanks := 0, passed := 0 }⟩

/-- What NEW makes of the block (R448, R466). -/
theorem UpdIs.startNew (h : UpdIs s u t) : ∃ banks, UpdIs s { noStaging u with
    state := .downloading, fwdEast := none, fwdWest := none, banks := banks, writtenBanks := 0, passed := 0 } (startNew t) := by
  obtain ⟨banks, hdropped⟩ := (h.endFwd.updUpd noStaging).dropWritten
  exact ⟨banks, hdropped.toState _⟩

theorem UpdIs.writeRecord (h : UpdIs s u t) (f : Activation → Activation) :
    UpdIs s { u with act := { f u.act with gen := u.act.gen + 1 } } (writeRecord f t) := h.updUpd _

end

/-! ### Staging (R448 to R450) -/

section
variable {s : State}

theorem chunkFwd_none (heast : s.upd.fwdEast = none) (hwest : s.upd.fwdWest = none) : chunkFwd false false s = s := by
  simp [chunkFwd, fwdOf, heast, hwest]

/-- Bytes at the end of staging that do not complete the package. -/
def appended (bytes : List Byte) (s : State) : State :=
  updUpd (fun u => { u with staging := u.staging ++ bytes, progress := lastRecorded (u.staging.length + bytes.length) }) s

theorem stageBytes_appends {m : Nat} {bytes : List Byte} (hstate : s.upd.state = .downloading) (hmanifest : s.upd.manifestOk = true)
    (hlen : s.upd.pkgLen = some m) (hroom : s.upd.staging.length + bytes.length < m) :
    stageBytes s.upd.staging.length bytes s = (appended bytes s, true) := by
  have happend : appendBytes s.upd.staging.length bytes s = appended bytes s := by
    have htake : List.take m (s.upd.staging ++ bytes) = s.upd.staging ++ bytes := List.take_of_length_le (by rw [List.length_append]; omega)
    simp [appendBytes, appended, updUpd, hlen, htake]
  have hhead : checkHead (appended bytes s) = (appended bytes s, true) := by
    unfold checkHead
    exact if_pos (by rw [show (appended bytes s).upd.manifestOk = true from hmanifest]; rfl)
  have hwhole : checkWhole (appended bytes s) = appended bytes s := by
    refine if_neg ?_
    have hshort : m ≠ s.upd.staging.length + bytes.length := by omega
    simp [appended, hlen, hshort]
  rw [stageBytes, if_pos (by rw [hstate]; rfl), happend, hhead]
  exact congrArg (·, true) hwhole

end

/-! ### UPD_DOWNLOAD and UPD_VERIFY (R450, R453) -/

section
variable {s : State} {c : Call} {source : List Byte}

theorem updDownload_new (hflags : arg1 c 0x20 = 1) (hallowed : newAllowed s.upd = true) (hoff : argN c 0x18 8 = 0)
    (hlen : paramLen c.desc ≤ 16 * mebi) : ∃ t banks, updDownload source c s = .start t (.stage 0 (pad (paramLen c.desc) source)) [] ∧
      UpdIs s { noStaging s.upd with
        state := .downloading, fwdEast := none, fwdWest := none, banks := banks, writtenBanks := 0, passed := 0, chain := none, hostNew := true } t := by
  obtain ⟨banks, hnew⟩ := (UpdIs.refl s).startNew
  have ht := hnew.updUpd fun u => { u with chain := none, hostNew := true }
  refine ⟨_, banks, ?_, ht⟩
  have hfwd := chunkFwd_none (s := updUpd (fun u => { u with chain := none, hostNew := true }) (startNew s)) (by rw [ht.upd_eq]) (by rw [ht.upd_eq])
  have hbits : bit 1 0 = true ∧ bit 1 1 = false ∧ bit 1 2 = false := by decide
  simp [updDownload, hflags, hallowed, hoff, Nat.not_lt.mpr hlen, hbits, hfwd]

theorem updDownload_new_refused (hflags : arg1 c 0x20 = 1) (hallowed : newAllowed s.upd = false) (hlen : paramLen c.desc ≤ 16 * mebi) :
    updDownload source c s = refuse stState 0 := by
  have hbits : bit 1 0 = true := by decide
  simp [updDownload, hflags, hallowed, Nat.not_lt.mpr hlen, hbits]

theorem updDownload_continues (hflags : arg1 c 0x20 = 0) (hstate : s.upd.state = .downloading)
    (hoff : argN c 0x18 8 ≤ s.upd.staging.length) (heast : s.upd.fwdEast = none) (hwest : s.upd.fwdWest = none)
    (hlen : paramLen c.desc ≤ 16 * mebi) :
    updDownload source c s = .start s (.stage (argN c 0x18 8) (pad (paramLen c.desc) source)) [] := by
  have hbits : bit 0 0 = false ∧ bit 0 1 = false ∧ bit 0 2 = false := by decide
  simp [updDownload, hflags, hstate, Nat.not_lt.mpr hlen, Nat.not_lt.mpr hoff, hbits, chunkFwd_none heast hwest]

theorem updVerify_starts (hstate : s.upd.state = .staged) : updVerify c s = .start (toState .verifying s) (.wait 0) [] :=
  if_pos (by rw [hstate]; rfl)

theorem updVerify_refused (hstate : s.upd.state ≠ .staged) : updVerify c s = refuse stState 0 := if_neg (by simpa using hstate)

/-- A chunk's transfer ends (R450): RESULT is the number of bytes staged in all. -/
theorem transferComplete_stages {n : Fin 64} {f : Fetched} {ecc : ScrubResult} {bytes : List Byte} {m : Nat} (hdma : dma s = true)
    (hfind : (s.hif.qps[n].fetched.find? fun g => g.tag == f.tag) = some f) (hxfer : f.xfer = some (.stage s.upd.staging.length bytes))
    (hstate : s.upd.state = .downloading) (hmanifest : s.upd.manifestOk = true) (hlen : s.upd.pkgLen = some m)
    (hroom : s.upd.staging.length + bytes.length < m) : transferComplete n f.tag ecc s =
      finish n f.tag stSuccess 0 (le 8 (s.upd.staging.length + bytes.length)) (appended bytes s) := by
  unfold transferComplete
  rw [hfind]
  dsimp only
  rw [hxfer]
  dsimp only
  rw [if_pos hdma, stageDone, stageBytes_appends hstate hmanifest hlen hroom]
  simp [appended]

end

/-! ### UPD_ACTIVATE (R454 to R456, R459) -/

theorem OnlyBrim.upd {s t : State} (h : OnlyBrim s t) : t.upd = s.upd := by rw [h]

theorem OnlyBrim.cmdPaused {s t : State} (h : OnlyBrim s t) : t.hif.cmdPaused = s.hif.cmdPaused := by rw [h]

section
variable (levels : Nat) (at_ : TS96) (s : State)

theorem startUpper_upd (back : Bool) : (startUpper back s).upd = { s.upd with upperSwitching := true } := raiseNow_upd ..

theorem startUpper_cmdPaused (back : Bool) : (startUpper back s).hif.cmdPaused = true := raiseNow_hif_cmdPaused ..

/-- In `t` an activation of `s` has begun: its record is a trial of the banks verified, and the levels named switch. -/
structure Activated (levels : Nat) (s t : State) : Prop where
  state : t.upd.act.state = .trial
  boots : t.upd.act.trialBoots = 1
  gen : t.upd.act.gen = s.upd.act.gen + 1
  banks : t.upd.act.banks = s.upd.act.banks ^^^ s.upd.writtenBanks
  prevBanks : t.upd.act.prevBanks = s.upd.act.banks
  update : t.upd.state = if bit levels 0 then .activating else .trial
  upper : bit levels 1 = true → t.hif.cmdPaused = true ∧ t.upd.upperSwitching = true

/-- The record of an activation (R455, R467). -/
def trialRecord (u : Upd) (a : Activation) : Activation :=
  { a with
    state := .trial, trialBoots := 1, banks := a.banks ^^^ u.writtenBanks, prevBanks := a.banks,
    manifestSlot := !a.manifestSlot, prevManifestSlot := a.manifestSlot,
    settingsSlot := if u.writtenBanks.getLsbD 0 then !a.settingsSlot else a.settingsSlot, prevSettingsSlot := a.settingsSlot,
    levels := BitVec.ofNat 2 levels, atTick := at_ }

theorem activate_activated : Activated levels s (activate levels at_ s) := by
  obtain ⟨u, hact, hu⟩ : ∃ u : Upd, u.act = { trialRecord levels at_ s.upd s.upd.act with gen := s.upd.act.gen + 1 } ∧
      activate levels at_ s = (if bit levels 1 then startUpper false (toState (if bit levels 0 then .activating else .trial) (updUpd (fun _ => u) s))
        else toState (if bit levels 0 then .activating else .trial) (updUpd (fun _ => u) s)) := ⟨_, rfl, rfl⟩
  have hstate := (UpdIs.refl s).updUpd (fun _ => u) |>.toState (if bit levels 0 then .activating else .trial)
  generalize toState (if bit levels 0 then .activating else .trial) (updUpd (fun _ => u) s) = v at *
  have hv : v.upd = _ := hstate.upd_eq
  rw [hu]
  split
  · constructor <;> simp [startUpper_upd, startUpper_cmdPaused, hv, hact, trialRecord]
  · next hupper => constructor <;> simp [hv, hact, trialRecord, hupper]

end

/-- The activation of the host's command, told to the array with SCOPE 1 (R459). -/
def hostActivation (c : Call) (s : State) : State :=
  let t := activate (arg1 c 0x18) (argTs c 0x20) s
  if arg1 c 0x19 = 1 then
    flood 0x10 0 0 0 (mgmtBody 1 (arg1 c 0x18) 0 (packageVersion (verifiedPkg s)) (argTs c 0x20) 0 (packageDigest (verifiedPkg s)))
      (updUpd (fun u => { u with accepted := 0, refused := 0 }) t)
  else t

section
variable {s : State} {c : Call}

theorem hostActivation_activated : Activated (arg1 c 0x18) s (hostActivation c s) := by
  have hbase := activate_activated (arg1 c 0x18) (argTs c 0x20) s
  unfold hostActivation
  extract_lets t
  split
  · have hflood := flood_onlyBrim (updUpd (fun u => { u with accepted := 0, refused := 0 }) t) 0x10 0 0 0
      (mgmtBody 1 (arg1 c 0x18) 0 (packageVersion (verifiedPkg s)) (argTs c 0x20) 0 (packageDigest (verifiedPkg s)))
    obtain ⟨hstate, hboots, hgen, hbanks, hprev, hupdate, hupper⟩ := hbase
    constructor <;> simp only [hflood.upd, hflood.cmdPaused] <;> assumption
  · exact hbase

theorem updActivate_eq (h : activateFault (arg1 c 0x18) (arg1 c 0x19) (argTs c 0x20) s = none) : updActivate c s =
    if bit (arg1 c 0x18) 1 then .start (hostActivation c s) (.wait 0) [] else .ok (hostActivation c s) [] := by
  unfold updActivate
  dsimp only
  rw [h]
  rfl

theorem updActivate_refused (h : s.upd.state ≠ .verified) : updActivate c s = refuse stState 0 := by
  have hfault : ∀ levels scope at_, activateFault levels scope at_ s = some (refuse stState 0) := fun _ _ _ => if_pos (by simpa using h)
  unfold updActivate
  dsimp only
  rw [hfault]

/-! ### UPD_CONFIRM and UPD_ABORT (R462, R463) -/

theorem updConfirm_confirms (hstate : s.upd.state = .trial) : ∃ t, updConfirm c s = .ok t [] ∧ UpdIs s { noStaging s.upd with
    act := { s.upd.act with state := .confirmed, trialBoots := 0, gen := s.upd.act.gen + 1 }, fwdEast := none, fwdWest := none, chain := none,
    settingsDefaulted := false, deadlineTick := none, deadlineTimer := false, writtenBanks := 0, passed := 0, state := .idle } t :=
  ⟨_, if_pos (by rw [hstate]; rfl), (((UpdIs.refl s).writeRecord _).endFwd.updUpd _).toState _⟩

theorem updConfirm_refused (hstate : s.upd.state ≠ .trial) : updConfirm c s = refuse stState 0 := if_neg (by simpa using hstate)

/-- In `t` the record of `s` has gone back to the previous selection, with a cause. -/
structure Reverts (cause : Byte) (s t : State) : Prop where
  act : t.upd.act.state = .reverted
  banks : t.upd.act.banks = s.upd.act.prevBanks
  gen : t.upd.act.gen = s.upd.act.gen + 1
  reverted : t.upd.reverted = true
  lastCause : t.upd.lastCause = cause
  state : t.upd.state = .staged

theorem revertInPlace_reverts (cause : Nat) (lowerAt : Option Nat) (s : State) :
    Reverts (BitVec.ofNat 8 cause) s (revertInPlace cause lowerAt s) := by
  have hrecord : UpdIs s (revertRecord cause s).upd (revertRecord cause s) := rfl
  have hstate := ((hrecord.quiet (raiseNow_quiet 0xEB sevWarning (trialData (if cause = 7 then 1 else 2) (revertRecord cause s).upd) _)).updUpd
    fun u => { u with revertAt := if s.upd.act.levels.getLsbD 0 then lowerAt else none }).toState .staged
  have hu := hstate.upd_eq
  unfold revertInPlace
  dsimp only
  split
  · constructor <;> rw [startUpper_upd, hu] <;> rfl
  · constructor <;> rw [hu] <;> rfl

theorem updAbort_reverts (hstate : s.upd.state = .trial ∨ s.upd.state = .activating) : ∃ t, updAbort c s = .ok t [] ∧ Reverts 9 s t := by
  unfold updAbort
  rcases hstate with h | h <;> rw [h]
  · exact ⟨_, rfl, revertInPlace_reverts ..⟩
  · exact ⟨_, rfl, revertInPlace_reverts ..⟩

theorem updAbort_drops (hstate : s.upd.state = .downloading ∨ s.upd.state = .staged ∨ s.upd.state = .verified) :
    ∃ t banks, updAbort c s = .ok t [] ∧ UpdIs s { noStaging s.upd with
      fwdEast := none, fwdWest := none, chain := none, banks := banks, writtenBanks := 0, passed := 0, state := .idle } t := by
  obtain ⟨banks, hdropped⟩ := ((UpdIs.refl s).endFwd.updUpd fun u => { noStaging u with chain := none }).dropWritten
  have hidle := hdropped.toState .idle
  unfold updAbort
  rcases hstate with h | h | h <;> rw [h] <;> exact ⟨_, banks, rfl, hidle⟩

theorem updAbort_refused (hstate : s.upd.state = .idle ∨ s.upd.state = .verifying) : updAbort c s = refuse stState 0 := by
  unfold updAbort
  rcases hstate with h | h <;> rw [h]

end

/-- Settles O41. -/
theorem updateCommands : Obligations.UpdateCommands := by
  refine ⟨fun n g source s hc => ?download, fun n f ecc bytes m s hlive hdma hfind hxfer hstate hmanifest hlen hroom => ?stages,
    fun n g s hc => ⟨fun hstaged => ?verify, fun hstate => ?noVerify⟩, fun n g s hc => ?activate,
    fun n g s hc => ⟨fun htrial => ?confirm, fun hstate => ?noConfirm⟩,
    fun n g s hc => ⟨fun hstate => ?reverts, fun hstate => ?drops, fun hstate => ?noAbort⟩⟩
  case download =>
    intro c hlen
    refine ⟨fun hflags hallowed hoff => ?new, fun hflags hallowed => ?refused, fun hflags hstate hoff heast hwest => ?continues⟩
    case new =>
      obtain ⟨t, banks, hreply, ht⟩ := updDownload_new (source := source) hflags hallowed hoff hlen
      refine ⟨t, exec_starts hc rfl hreply, ?_⟩
      rw [ht.upd_eq]
      exact ⟨rfl, rfl, rfl, rfl, rfl, rfl⟩
    case refused => exact exec_refuses hc rfl (updDownload_new_refused hflags hallowed hlen) (by decide)
    case continues => exact exec_starts hc rfl (updDownload_continues hflags hstate hoff heast hwest hlen)
  case stages =>
    refine ⟨appended bytes s, (whenLive_live hlive _).trans (congrArg _ ?_), rfl, hstate, rfl⟩
    exact transferComplete_stages hdma hfind hxfer hstate hmanifest hlen hroom
  case verify => exact ⟨_, exec_starts hc rfl (updVerify_starts hstaged), (UpdIs.refl s).toState .verifying⟩
  case noVerify => exact exec_refuses hc rfl (updVerify_refused hstate) (by decide)
  case activate =>
    intro c
    refine ⟨fun hstate => exec_refuses hc rfl (updActivate_refused hstate) (by decide), fun hfault => ⟨hostActivation c s, ?_, ?_⟩⟩
    · have hreply := updActivate_eq hfault
      split at hreply
      · next hupper =>
        rw [if_pos hupper]
        exact exec_starts hc rfl hreply
      · next hupper =>
        rw [if_neg hupper]
        exact exec_succeeds hc rfl hreply
    · obtain ⟨hact, hboots, hgen, hbanks, hprev, hupdate, hupper⟩ := hostActivation_activated (s := s) (c := c)
      exact ⟨hact, hboots, hgen, hbanks, hprev, hupdate, hupper⟩
  case confirm =>
    obtain ⟨t, hreply, ht⟩ := updConfirm_confirms (c := Safety.callOf g []) htrial
    refine ⟨t, exec_succeeds hc rfl hreply, ?_⟩
    rw [ht.upd_eq]
    exact ⟨rfl, rfl, rfl, rfl, rfl, rfl⟩
  case noConfirm => exact exec_refuses hc rfl (updConfirm_refused hstate) (by decide)
  case reverts =>
    obtain ⟨t, hreply, hact, hbanks, -, hreverted, hcause, hstaged⟩ := updAbort_reverts (c := Safety.callOf g []) hstate
    exact ⟨t, exec_succeeds hc rfl hreply, hact, hbanks, hreverted, hcause, hstaged⟩
  case drops =>
    obtain ⟨t, banks, hreply, ht⟩ := updAbort_drops (c := Safety.callOf g []) hstate
    refine ⟨t, exec_succeeds hc rfl hreply, ?_⟩
    rw [ht.upd_eq]
    exact ⟨rfl, rfl, rfl⟩
  case noAbort => exact exec_refuses hc rfl (updAbort_refused hstate) (by decide)

end Sys2Proof.Machine
end
section
/-!
SUPPORT and the proof of O42: how an update goes on (R453, R456, R457, R461, R463).
-/
namespace Sys2Proof.Machine

section
variable {s t : State} (h : OnlyCompletes s t)
include h

theorem OnlyCompletes.upd : t.upd = s.upd := by rw [h]

theorem OnlyCompletes.cfg : t.cfg = s.cfg := by rw [h]

theorem OnlyCompletes.cmdPaused : t.hif.cmdPaused = s.hif.cmdPaused := by rw [h]

end

/-! ### The parts verified (R453) -/

/-- A part of the staged package passes its checks. -/
def PartPasses (s : State) (p : Fin 6) : Prop := ∃ x, partImage s.upd.staging p.val (bankOf s s.upd.act.banks p) = .ok x

/-- The parts `ps` of the package staged in `s` have passed: the banks in use are as before, and only what a verification writes differs. -/
structure Passed (s : State) (ps : List (Fin 6)) (r : State × Option (Nat × Nat)) : Prop where
  going : r.2 = none
  staging : r.1.upd.staging = s.upd.staging
  act : r.1.upd.act = s.upd.act
  banks : ∀ p, bankOf r.1 s.upd.act.banks p = bankOf s s.upd.act.banks p
  passed : r.1.upd.passed = ps.foldl (fun m p => m ||| BitVec.ofNat 6 (2 ^ p.val)) 0

/-- Before the first part. -/
def verifyBegun (s : State) : State := updUpd (fun u => { u with passed := 0, writtenBanks := 0 }) s

theorem passed_nil (s : State) : Passed s [] (verifyBegun s, none) := ⟨rfl, rfl, rfl, fun _ => rfl, rfl⟩

/-- A write into the bank that is not in use leaves the banks in use. -/
theorem bankOf_updBank (p q : Fin 6) (f : Bank → Bank) (banks : BitVec 6) (s : State) :
    bankOf (updBank p (!banks.getLsbD p.val) f s) banks q = bankOf s banks q := by
  unfold bankOf
  by_cases hqp : q = p
  · subst hqp
    have hne : slotIdx (banks.getLsbD q.val) ≠ slotIdx (!banks.getLsbD q.val) := by cases banks.getLsbD q.val <;> decide
    simp only [updBank, updUpd, Fin.getElem_fin, upd_get]
    exact upd_get_ne _ _ _ _ hne
  · exact congrArg (fun v : Vector Bank 2 => v[slotIdx (banks.getLsbD q.val)]) (upd_get_ne _ _ _ _ hqp)

section
variable {s : State} {ps : List (Fin 6)} {r : State × Option (Nat × Nat)} {p : Fin 6}

theorem verifyPart_failed (h : r.2 ≠ none) : verifyPart p r = r := by
  unfold verifyPart
  split
  · rfl
  · next hnone => exact absurd hnone h

theorem Passed.verifyPart_error {cause : Nat} (h : Passed s ps r)
    (hfails : partImage s.upd.staging p.val (bankOf s s.upd.act.banks p) = .error cause) : verifyPart p r = (r.1, some (cause, p.val + 1)) := by
  unfold verifyPart
  rw [h.going]
  dsimp only
  rw [h.staging, h.act, h.banks, hfails]

/-- A write into the bank of `p` that is not in use keeps what the parts before it have reached. -/
theorem Passed.written (h : Passed s ps r) (f : Bank → Bank) (parts : BitVec 6) :
    Passed s ps (updUpd (fun u => { u with writtenBanks := u.writtenBanks ||| parts }) (updBank p (!r.1.upd.act.banks.getLsbD p.val) f r.1), none) := by
  refine ⟨rfl, h.staging, h.act, fun q => ?_, h.passed⟩
  rw [h.act]
  exact (bankOf_updBank p q f s.upd.act.banks r.1).trans (h.banks q)

theorem Passed.verifyPart (h : Passed s ps r) (hpasses : PartPasses s p) : Passed s (ps ++ [p]) (verifyPart p r) := by
  obtain ⟨x, hx⟩ := hpasses
  have hnoted : Passed s (ps ++ [p]) (updUpd (fun u => { u with passed := u.passed ||| BitVec.ofNat 6 (2 ^ p.val) }) r.1, none) := by
    refine ⟨rfl, h.staging, h.act, h.banks, ?_⟩
    rw [List.foldl_append, ← h.passed]
    rfl
  unfold Machine.verifyPart
  rw [h.going]
  dsimp only
  rw [h.staging, h.act, h.banks, hx]
  cases x with
  | none => exact hnoted
  | some image => exact hnoted.written _ _

theorem Passed.foldl {l : List (Fin 6)} (hpass : ∀ p ∈ l, PartPasses s p) (h : Passed s ps r) :
    Passed s (ps ++ l) (l.foldl (fun r p => Machine.verifyPart p r) r) := by
  induction l generalizing ps r with
  | nil => simpa using h
  | cons p l ih =>
    have hstep := ih (fun q hq => hpass q (List.mem_cons_of_mem _ hq)) (h.verifyPart (hpass p (List.mem_cons_self ..)))
    rwa [List.append_assoc] at hstep

theorem foldl_verifyPart_failed (h : r.2 ≠ none) (l : List (Fin 6)) : l.foldl (fun r p => verifyPart p r) r = r := by
  induction l with
  | nil => rfl
  | cons p l ih => rw [List.foldl_cons, verifyPart_failed h, ih]

end

/-- The parts of a package, one after another. -/
def verifyParts (s : State) : State × Option (Nat × Nat) := (List.finRange 6).foldl (fun r p => verifyPart p r) (verifyBegun s, none)

section
variable {s : State}

theorem verifyParts_pass (hpass : ∀ p, PartPasses s p) : Passed s (List.finRange 6) (verifyParts s) :=
  (passed_nil s).foldl fun p _ => hpass p

/-- The first part that fails ends the verification. -/
theorem verifyParts_fail {p : Fin 6} {cause : Nat} (hpass : ∀ q : Fin 6, q < p → PartPasses s q)
    (hfails : partImage s.upd.staging p.val (bankOf s s.upd.act.banks p) = .error cause) :
    (verifyParts s).2 = some (cause, p.val + 1) := by
  obtain ⟨before, after, hsplit⟩ := List.append_of_mem (List.mem_finRange p)
  have hbefore : ∀ q ∈ before, q < p := by
    have hsorted := List.pairwise_lt_finRange 6
    rw [hsplit, List.pairwise_append] at hsorted
    exact fun q hq => hsorted.2.2 q hq p (List.mem_cons_self ..)
  have hpassed := (passed_nil s).foldl fun q hq => hpass q (hbefore q hq)
  unfold verifyParts
  rw [hsplit, List.foldl_append, List.foldl_cons, hpassed.verifyPart_error hfails, foldl_verifyPart_failed (Option.some_ne_none _)]

/-- The manifest slot that is not in use takes the header and manifest staged (R453). -/
def keepManifest (u : Upd) : Upd := { u with manifests := u.manifests.set (slotIdx (!u.act.manifestSlot)) (u.staging.take headBytes) }

theorem updVerifyDone_completes (hstate : s.upd.state = .verifying) (hpassed : (verifyParts s).2 = none) :
    OnlyCompletes (toState .verified (updUpd keepManifest (verifyParts s).1)) (updVerifyDone s) := by
  unfold updVerifyDone
  rw [if_neg (by rw [hstate]; decide)]
  dsimp only
  rw [← verifyBegun, ← verifyParts, hpassed]
  exact finishWait_completes ..

theorem updVerifyDone_completes_failed {cause part : Nat} (hstate : s.upd.state = .verifying) (hfailed : (verifyParts s).2 = some (cause, part)) :
    OnlyCompletes (checkFails .staged cause part (dropWritten (verifyParts s).1)) (updVerifyDone s) := by
  unfold updVerifyDone
  rw [if_neg (by rw [hstate]; decide)]
  dsimp only
  rw [← verifyBegun, ← verifyParts, hfailed]
  exact finishWait_completes ..

theorem updVerifyDone_passes (hstate : s.upd.state = .verifying) (hpass : ∀ p, PartPasses s p) :
    let t := updVerifyDone s
    t.upd.state = .verified ∧ t.upd.passed = 0x3F ∧ t.upd.act = s.upd.act ∧ slotOf t (!s.upd.act.manifestSlot) = s.upd.staging.take 1344 := by
  have hparts := verifyParts_pass hpass
  have hupd := (updVerifyDone_completes hstate hparts.going).upd.trans (((UpdIs.refl _).updUpd keepManifest).toState .verified).upd_eq
  dsimp only [slotOf]
  rw [hupd]
  refine ⟨rfl, hparts.passed.trans (by decide), hparts.act, ?_⟩
  simp only [keepManifest, hparts.act, hparts.staging, Fin.getElem_fin, Vector.getElem_set_self]
  rfl

theorem updVerifyDone_fails {p : Fin 6} {cause : Nat} (hstate : s.upd.state = .verifying) (hpass : ∀ q : Fin 6, q < p → PartPasses s q)
    (hfails : partImage s.upd.staging p.val (bankOf s s.upd.act.banks p) = .error cause) :
    let t := updVerifyDone s
    t.upd.state = .staged ∧ t.upd.lastCause = BitVec.ofNat 8 cause ∧ t.upd.writtenBanks = 0 := by
  obtain ⟨banks, hdropped⟩ := (UpdIs.refl (verifyParts s).1).dropWritten
  have hupd := (updVerifyDone_completes_failed hstate (verifyParts_fail hpass hfails)).upd.trans
    (hdropped.checkFails .staged cause (p.val + 1)).upd_eq
  dsimp only
  rw [hupd]
  exact ⟨rfl, rfl, rfl⟩

/-! ### Switches (R456, R457, R463) -/

theorem ctrlStart_upd (s : State) : (ctrlStart s).upd.act = s.upd.act ∧ (ctrlStart s).upd.upperSwitching = s.upd.upperSwitching := by
  unfold ctrlStart
  dsimp only
  split_ifs
  · exact ⟨rfl, rfl⟩
  · exact ⟨rfl, rfl⟩
  · rw [raiseBoot_upd]
    exact ⟨rfl, rfl⟩

theorem followSlot_upd (s : State) : (followSlot s).upd = s.upd := by
  unfold followSlot
  dsimp only
  split <;> rfl

theorem followSlot_slot (s : State) : (followSlot s).cfg.slot = s.upd.act.settingsSlot := by
  unfold followSlot
  dsimp only
  split <;> rfl

theorem upperSwitchDone_resumes (hswitch : s.upd.upperSwitching = true) :
    let t := upperSwitchDone s
    t.upd.upperSwitching = false ∧ t.hif.cmdPaused = false ∧ t.cfg.slot = s.upd.act.settingsSlot := by
  intro t
  let v := updUpd (fun u => { u with upperSwitching := false }) s
  obtain ⟨hact, hupper⟩ := ctrlStart_upd v
  have ht : OnlyCompletes { followSlot (ctrlStart v) with hif := { (followSlot (ctrlStart v)).hif with cmdPaused := false } } t := by
    unfold t upperSwitchDone
    rw [if_neg (by simp [hswitch])]
    exact finishWait_completes ..
  refine ⟨?_, ht.cmdPaused, ?_⟩
  · rw [ht.upd]
    exact (congrArg Upd.upperSwitching (followSlot_upd _)).trans hupper
  · rw [ht.cfg]
    exact (followSlot_slot _).trans (congrArg Activation.settingsSlot hact)

theorem updateSample_switches {u : Nat} (hat : s.upd.updateAt = some u) (hstate : s.upd.state = .activating) (hdue : u < commitSample s + 40) :
    let t := updateSample s
    t.upd.state = .trial ∧ t.upd.updateAt = none ∧ t.upd.act = s.upd.act := by
  intro t
  have ht : t = raiseLower false u (toState .trial (takeSvc (updUpd (fun x => { x with updateAt := none }) s))) := by
    unfold t updateSample
    rw [hat]
    exact if_pos (by rw [hstate]; simpa using hdue)
  have hupd := (congrArg State.upd ht).trans ((raise_upd ..).trans ((UpdIs.refl _).toState .trial).upd_eq)
  rw [hupd]
  exact ⟨rfl, rfl, rfl⟩

theorem revertSample_switches {u : Nat} (hat : s.upd.revertAt = some u) (hdue : u < commitSample s + 40) :
    let t := revertSample s
    t.upd.revertAt = none ∧ t.upd.act = s.upd.act := by
  intro t
  have ht : t = raiseLower true u (takeSvc (updUpd (fun x => { x with revertAt := none }) s)) := by
    unfold t revertSample
    rw [hat]
    exact if_pos hdue
  have hupd := (congrArg State.upd ht).trans (raise_upd ..)
  rw [hupd]
  exact ⟨rfl, rfl⟩

/-! ### The trial deadline (R461) -/

theorem trialDeadline_timer (hstate : s.upd.state = .trial) (htick : s.upd.deadlineTick = none) (htimer : s.upd.deadlineTimer = true) :
    Reverts 7 s (trialDeadline s) := by
  unfold trialDeadline
  rw [if_neg (by rw [hstate]; decide), htick]
  dsimp only
  rw [if_pos htimer]
  exact revertInPlace_reverts ..

theorem trialDeadline_tick {d : TS96} (hstate : s.upd.state = .trial) (htick : s.upd.deadlineTick = some d)
    (hdue : lcAt s d < commitSample s + 40) : Reverts 7 s (trialDeadline s) := by
  unfold trialDeadline
  rw [if_neg (by rw [hstate]; decide), htick]
  dsimp only
  rw [if_pos hdue]
  exact revertInPlace_reverts ..

end

/-- Settles O42. -/
theorem updateSteps : Obligations.UpdateSteps := by
  intro s hlive
  have hexec : ∀ {t : State}, t = s → (Host.Outcome.next t : Host.Outcome State Fault Refusal) = .next s := fun h => congrArg _ h
  refine ⟨fun hstate hpass => ⟨_, whenLive_live hlive _, updVerifyDone_passes hstate hpass⟩,
    fun p cause hstate hpass hfails => ⟨_, whenLive_live hlive _, updVerifyDone_fails hstate hpass hfails⟩,
    fun hstate => (whenLive_live hlive _).trans (hexec (if_pos (by simpa using hstate))),
    fun hswitch => ⟨_, whenLive_live hlive _, upperSwitchDone_resumes hswitch⟩,
    fun hidle => (whenLive_live hlive _).trans (hexec (if_pos (by simp [hidle]))),
    fun u hat hstate hdue => ⟨_, whenLive_live hlive _, updateSample_switches hat hstate hdue⟩,
    fun hnone => (whenLive_live hlive _).trans (hexec ?_), fun hstate htick htimer => ?_, fun d hstate htick hdue => ?_,
    fun hstate => (whenLive_live hlive _).trans (hexec (if_pos (by simpa using hstate))),
    fun u hat hdue => ⟨_, whenLive_live hlive _, revertSample_switches hat hdue⟩,
    fun hnone => (whenLive_live hlive _).trans (hexec ?_)⟩
  · unfold updateSample
    rw [hnone]
  · obtain ⟨hact, hbanks, hgen, -, hcause, hstaged⟩ := trialDeadline_timer hstate htick htimer
    exact ⟨_, whenLive_live hlive _, hstaged, hact, hbanks, hcause, hgen⟩
  · obtain ⟨hact, -, -, -, hcause, hstaged⟩ := trialDeadline_tick hstate htick hdue
    exact ⟨_, whenLive_live hlive _, hstaged, hact, hcause⟩
  · unfold revertSample
    rw [hnone]

end Sys2Proof.Machine
end
section
/-!
SUPPORT: what the sending of flits changes (R383, R386 to R388).
-/
namespace Sys2Proof.Machine

/-- `t` differs from `s` at most in the Brim links and the free counter, as flits go out. -/
def OnlySends (s t : State) : Prop := t = { s with brim := { s.brim with links := t.brim.links }, freeCtr := t.freeCtr }

section
variable {s t u : State}

theorem OnlySends.refl (s : State) : OnlySends s s := rfl

theorem OnlySends.trans (h : OnlySends s t) (k : OnlySends t u) : OnlySends s u := by
  unfold OnlySends at *
  rw [k, h]

theorem OnlySends.brim (h : OnlySends s t) : t.brim = { s.brim with links := t.brim.links } := by
  unfold OnlySends at h
  rw [h]

theorem OnlySends.onlyBrim (h : OnlySends s t) : OnlyBrim s t := by
  unfold OnlySends OnlyBrim Safety.Quiet at *
  rw [h]

theorem fresh_onlySends (s : State) : OnlySends s (fresh s).2 := rfl

theorem egressStamp_onlySends (s : State) : OnlySends s (egressStamp s).2 := rfl

theorem updLink_onlySends (p : Fin 4) (f : BrimLink → BrimLink) (s : State) : OnlySends s (updLink p f s) := rfl

theorem sendOn_onlySends (p : Fin 4) (f : List Byte) (s : State) : OnlySends s (sendOn p f s) := by
  unfold sendOn
  split
  · exact updLink_onlySends ..
  · exact .refl s

theorem linkMessage_onlySends (p : Fin 4) (kind : Nat) (x : TS96) (body : List Byte) (s : State) : OnlySends s (linkMessage p kind x body s) :=
  .trans (fresh_onlySends s) (sendOn_onlySends ..)

theorem forward_onlySends (rx : Rx) (s : State) : OnlySends s (forward rx s) := by
  refine forAll_keeps (OnlySends s) _ s (fun p t h => ?_) (.refl s)
  split
  · exact h.trans (.trans (egressStamp_onlySends t) (sendOn_onlySends ..))
  · exact h

theorem sendUpdate_onlySends (west : Bool) (op reach off : Nat) (payload : List Byte) (s : State) :
    OnlySends s (sendUpdate west op reach off payload s) := by
  unfold sendUpdate
  dsimp only
  split
  · exact .refl s
  · exact .trans (fresh_onlySends s) (sendOn_onlySends ..)

/-- A flit goes out on an UP link. -/
theorem sendOn_sent {p : Fin 4} (f : List Byte) (h : linkUp s p = true) :
    ((sendOn p f s).brim.links[p]).sent = f :: (s.brim.links[p]).sent := by
  rw [sendOn, if_pos h]
  exact congrArg BrimLink.sent (upd_get ..)

theorem linkUp_of_links (h : t.brim.links = s.brim.links) (p : Fin 4) : linkUp t p = linkUp s p := by
  unfold linkUp
  rw [h]

/-! ### Flooded flits (R386, R387) -/

/-- A flooded flit forwarded, with its key recorded. -/
def passedOn (rx : Rx) (table : DupTable) (s : State) : State := forward rx (recordKey (flitOrigin rx.flit) table s)

theorem passedOn_links {rx : Rx} {table : DupTable} (s : State) : ∃ links ctr, passedOn rx table s =
    { s with brim := { s.brim with links := links, dup := s.brim.dup.set (flitOrigin rx.flit).val (some table) }, freeCtr := ctr } :=
  ⟨_, _, forward_onlySends ..⟩

theorem flooded_takes {rx : Rx} {table : DupTable} (take : State → State) (hlink : linkUp s rx.link = true) (hcrc : crcOk rx.flit = true)
    (hnew : dupCheck s.brim.dup[flitOrigin rx.flit] (flitSeq rx.flit) = some table) : flooded rx take s = take (passedOn rx table s) := by
  unfold flooded
  rw [if_pos (by rw [hlink, hcrc]; rfl), hnew]
  rfl

theorem flooded_duplicate {rx : Rx} (take : State → State) (h : dupCheck s.brim.dup[flitOrigin rx.flit] (flitSeq rx.flit) = none) :
    flooded rx take s = s := by
  unfold flooded
  split
  · rw [h]
  · rfl

theorem not_received {rx : Rx} (h : linkUp s rx.link = false ∨ crcOk rx.flit = false) : ¬ (linkUp s rx.link && crcOk rx.flit) = true := by
  rcases h with h | h <;> simp [h]

theorem flooded_not_received {rx : Rx} (take : State → State) (h : linkUp s rx.link = false ∨ crcOk rx.flit = false) :
    flooded rx take s = s := if_neg (not_received h)

end

end Sys2Proof.Machine
end
section
/-!
SUPPORT and the proof of O43: update along the ring (R384, R451, R452, R459).
-/
namespace Sys2Proof.Machine

section
variable {s t : State}

theorem OnlySends.upd (h : OnlySends s t) : t.upd = s.upd := h.onlyBrim.upd

@[simp] theorem sendUpdate_upd (west : Bool) (op reach off : Nat) (payload : List Byte) (s : State) :
    (sendUpdate west op reach off payload s).upd = s.upd := (sendUpdate_onlySends ..).upd

@[simp] theorem raiseChain_upd (west : Bool) (cause : Nat) (s : State) : (raiseChain west cause s).upd = s.upd := raiseNow_upd ..

@[simp] theorem fwdOf_setFwd (west : Bool) (x : Option (Nat × Nat)) (s : State) : fwdOf (setFwd west x s).upd west = x := by
  cases west <;> rfl

@[simp] theorem fwdOf_setFwd_other (west : Bool) (x : Option (Nat × Nat)) (s : State) :
    fwdOf (setFwd west x s).upd (!west) = fwdOf s.upd (!west) := by
  cases west <;> rfl

/-- `v` differs from `u` at most in the forwarding of the package. -/
def OnlyFwd (u v : Upd) : Prop := v = { u with fwdEast := v.fwdEast, fwdWest := v.fwdWest }

theorem setFwd_onlyFwd (west : Bool) (x : Option (Nat × Nat)) (s : State) : OnlyFwd s.upd (setFwd west x s).upd := by
  cases west <;> rfl

section
variable {u v : Upd} (h : OnlyFwd u v)
include h

theorem OnlyFwd.staging : v.staging = u.staging := by rw [h]

theorem OnlyFwd.state : v.state = u.state := by rw [h]

theorem OnlyFwd.manifestOk : v.manifestOk = u.manifestOk := by rw [h]

theorem OnlyFwd.pkgLen : v.pkgLen = u.pkgLen := by rw [h]

end

theorem startFwd_onlyFwd (west : Bool) (reach : Nat) (s : State) : OnlyFwd s.upd (startFwd west reach s).upd := by
  unfold startFwd
  split
  · rfl
  · simpa using setFwd_onlyFwd ..

theorem slice_length (l : List Byte) (off n : Nat) : (slice l off n).length = n := by
  simp only [slice, List.length_append, List.length_take, List.length_drop, List.length_replicate]
  omega

/-! ### Messages received (R452) -/

/-- A NEW along the chain ends what the host's own NEW left. -/
def forgetHost (s : State) : State := updUpd (fun u => { u with hostNew := false }) s

theorem newAllowed_forgetHost (s : State) : newAllowed (forgetHost s).upd = newAllowed s.upd := rfl

theorem chainNew_of_allowed (west : Bool) (span : Nat) (hhost : s.upd.hostNew = false) (hallowed : newAllowed s.upd = true) :
    chainNew west span s = startFwd west (span - 1) (updUpd (fun u => { u with chain := some west }) (startNew (forgetHost s))) := by
  refine if_neg ?_
  rw [← forgetHost, newAllowed_forgetHost, hhost, hallowed]
  decide

theorem chainNew_starts (west : Bool) (span : Nat) (hhost : s.upd.hostNew = false) (hallowed : newAllowed s.upd = true) :
    let t := chainNew west span s
    t.upd.state = .downloading ∧ t.upd.staging = [] ∧ t.upd.chain = some west ∧ t.upd.act = s.upd.act := by
  obtain ⟨banks, hstart⟩ := (UpdIs.refl (forgetHost s)).startNew
  have hfwd := startFwd_onlyFwd west (span - 1) (updUpd (fun u => { u with chain := some west }) (startNew (forgetHost s)))
  rw [(hstart.updUpd _).upd_eq] at hfwd
  dsimp only
  rw [chainNew_of_allowed _ _ hhost hallowed, hfwd]
  exact ⟨rfl, rfl, rfl, rfl⟩

theorem chainNew_refused (west : Bool) (span : Nat) (hallowed : newAllowed s.upd = false) :
    Safety.Quiet { s with upd := { s.upd with hostNew := false } } (chainNew west span s) := by
  have hrefuses : chainNew west span s = raiseChain west 2 (forgetHost s) := by
    refine if_pos ?_
    rw [← forgetHost, newAllowed_forgetHost, hallowed]
    exact Bool.or_true _
  rw [hrefuses]
  exact raiseNow_quiet ..

theorem chainData_appends {w : Bool} {m : Nat} (west : Bool) (span : Nat) {payload : List Byte} (hchain : s.upd.chain = some w)
    (hstate : s.upd.state = .downloading) (hmanifest : s.upd.manifestOk = true) (hlen : s.upd.pkgLen = some m)
    (hroom : s.upd.staging.length + payload.length < m) :
    let t := chainData west span s.upd.staging.length payload s
    t.upd.staging = s.upd.staging ++ payload ∧ t.upd.state = .downloading := by
  have hstaged : ∀ v : State, OnlyFwd s.upd v.upd →
      (stageBytes s.upd.staging.length payload v).1.upd.staging = s.upd.staging ++ payload ∧
      (stageBytes s.upd.staging.length payload v).1.upd.state = .downloading := fun v h => by
    have hstate' := h.state.trans hstate
    rw [← h.staging, stageBytes_appends hstate' (h.manifestOk.trans hmanifest) (h.pkgLen.trans hlen) (by rwa [h.staging])]
    exact ⟨rfl, hstate'⟩
  unfold chainData
  dsimp only
  rw [if_neg (by simp [hchain]), if_neg (Nat.lt_irrefl _), if_neg (c := (s.upd.state == .idle) = true) (by rw [hstate]; decide)]
  refine hstaged _ ?_
  split
  · rw [raiseChain_upd]
    exact setFwd_onlyFwd ..
  · rfl

section
variable {rx : Rx}

theorem updateMessage_not_received (h : linkUp s rx.link = false ∨ crcOk rx.flit = false) : updateMessage rx s = s := if_neg (not_received h)

theorem updateMessage_new (hlink : linkUp s rx.link = true) (hcrc : crcOk rx.flit = true) (hop : flitBody rx.flit 0x20 1 = 3) :
    updateMessage rx s = chainNew (flitWest rx.flit) (flitBody rx.flit 0x22 1) s := by
  unfold updateMessage
  rw [if_pos (by rw [hlink, hcrc]; rfl), hop]
  rfl

theorem updateMessage_data (hlink : linkUp s rx.link = true) (hcrc : crcOk rx.flit = true) (hop : flitBody rx.flit 0x20 1 = 1) :
    updateMessage rx s = chainData (flitWest rx.flit) (flitBody rx.flit 0x22 1) (flitBody rx.flit 0x24 8)
      (slice rx.flit 0x2C (flitBody rx.flit 0x21 1)) s := by
  unfold updateMessage
  rw [if_pos (by rw [hlink, hcrc]; rfl), hop]
  rfl

end

/-! ### Forwarding and RESUME (R451, R452) -/

theorem updateForward_sends {west : Bool} {sent reach : Nat} (hfwd : fwdOf s.upd west = some (sent, reach)) (hmore : sent < fwdLimit s.upd) :
    (updateForward west s).upd = (setFwd west (some (sent + min 16 (fwdLimit s.upd - sent), reach)) s).upd := by
  unfold updateForward
  rw [hfwd]
  dsimp only
  rw [if_neg (by omega)]
  split <;> simp

theorem sendResume_sends {west : Bool} (hlink : linkUp s (chainLink (!west) s).1 = true) :
    ∃ f, ((sendResume west s).brim.links[(chainLink (!west) s).1]).sent = f :: (s.brim.links[(chainLink (!west) s).1]).sent := by
  unfold sendResume sendUpdate
  dsimp only
  rw [if_neg (Nat.lt_irrefl _)]
  exact ⟨_, sendOn_sent _ hlink⟩

/-! ### Results (R459) -/

theorem mgmtMessage_result {rx : Rx} {table : DupTable} (hlink : linkUp s rx.link = true) (hcrc : crcOk rx.flit = true)
    (hnew : dupCheck s.brim.dup[flitOrigin rx.flit] (flitSeq rx.flit) = some table) (hop : flitBody rx.flit 0x20 1 = 2) :
    mgmtMessage rx s = mgmtResult rx.flit (passedOn rx table s) := by
  rw [mgmtMessage, flooded_takes _ hlink hcrc hnew, hop]
  rfl

theorem arrayCount_eq (x : Nat) : arrayCount x = min 127 (x + 1) := Nat.min_comm ..

section
variable {f : List Byte} (hhere : flitBody f 0x34 1 = s.brim.position)
include hhere

theorem mgmtResult_accepted (hstatus : flitBody f 0x22 2 = 0) :
    (mgmtResult f s).upd = { s.upd with accepted := min 127 (s.upd.accepted + 1) } := by
  unfold mgmtResult
  dsimp only
  rw [if_neg (by simpa using hhere), if_pos (c := flitBody f 0x22 2 = stSuccess) hstatus, ← arrayCount_eq]
  rfl

theorem mgmtResult_refused (hstatus : flitBody f 0x22 2 ≠ 0) :
    (mgmtResult f s).upd = { s.upd with refused := min 127 (s.upd.refused + 1) } := by
  unfold mgmtResult
  dsimp only
  rw [if_neg (by simpa using hhere), if_neg (c := flitBody f 0x22 2 = stSuccess) hstatus, raiseNow_upd, ← arrayCount_eq]
  rfl

end

end

/-- Settles O43. -/
theorem updateChain : Obligations.UpdateChain := by
  refine ⟨fun rx s hlive hwf => ?_, fun west s hlive => ?_, fun rx s hlive hwf => ?_⟩
  · have hexec : exec (.updateMessage rx) s = .next (updateMessage rx s) := (whenLive_live hlive _).trans (if_pos hwf)
    refine ⟨fun hout => hexec.trans (congrArg _ (updateMessage_not_received hout)), fun hlink hcrc hop => ?_,
      fun w m hlink hcrc hop hchain hstate hmanifest hlen hoff hroom => ?_⟩
    · rw [hexec, updateMessage_new hlink hcrc hop]
      exact ⟨fun hhost hallowed => ⟨_, rfl, chainNew_starts _ _ hhost hallowed⟩, fun hrefused => ⟨_, rfl, chainNew_refused _ _ hrefused⟩⟩
    · rw [hexec, updateMessage_data hlink hcrc hop, hoff]
      exact ⟨_, rfl, chainData_appends _ _ hchain hstate hmanifest hlen (by rwa [slice_length])⟩
  · refine ⟨fun sent reach hfwd hmore => ⟨_, whenLive_live hlive _, ?_⟩, fun hnone => (whenLive_live hlive _).trans ?_,
      fun hchain hstate hlink => ?_, fun hnone => (whenLive_live hlive _).trans ?_⟩
    · rw [updateForward_sends hfwd hmore]
      exact ⟨fwdOf_setFwd .., fwdOf_setFwd_other .., (setFwd_onlyFwd ..).staging⟩
    · unfold updateForward
      rw [hnone]
    · obtain ⟨f, hf⟩ := sendResume_sends hlink
      refine ⟨sendResume west s, f, (whenLive_live hlive _).trans ?_, sendUpdate_upd .., hf⟩
      rw [hchain]
      dsimp only
      rw [if_pos (by rw [hstate]; rfl)]
    · rw [hnone]
  · have hexec : exec (.mgmtMessage rx) s = .next (mgmtMessage rx s) := (whenLive_live hlive _).trans (if_pos hwf)
    refine ⟨fun table hlink hcrc hnew hop hhere => ?_, fun hdup => hexec.trans (congrArg _ (flooded_duplicate _ hdup))⟩
    have hon : (passedOn rx table s).upd = s.upd ∧ (passedOn rx table s).brim.position = s.brim.position := by
      obtain ⟨links, ctr, h⟩ := passedOn_links (rx := rx) (table := table) s
      rw [h]
      exact ⟨rfl, rfl⟩
    rw [hexec, mgmtMessage_result hlink hcrc hnew hop, ← hon.1]
    exact ⟨fun hstatus => ⟨_, rfl, mgmtResult_accepted (hhere.trans hon.2.symm) hstatus⟩,
      fun hstatus => ⟨_, rfl, mgmtResult_refused (hhere.trans hon.2.symm) hstatus⟩⟩

end Sys2Proof.Machine
end
section
/-!
SUPPORT: fields of a flit as it leaves this member (R384).
-/
namespace Sys2Proof.Machine

theorem unle_le (n v : Nat) : unle (le n v) = v % 256 ^ n := by
  induction n generalizing v with
  | zero => simp [le, unle, Nat.mod_one]
  | succ n ih => rw [le, unle, ih, Nat.pow_succ', Nat.mod_mul, BitVec.toNat_ofNat]

theorem slice_of_le {l : List Byte} {off n : Nat} (h : off + n ≤ l.length) : slice l off n = (l.drop off).take n := by
  rw [slice, Nat.sub_eq_zero_of_le (by omega), List.replicate_zero, List.append_nil]

/-- A field that ends a record's known part. -/
theorem fieldAt_mid {a b : List Byte} (c : List Byte) {off n : Nat} (ha : a.length = off) (hb : b.length = n) : fieldAt (a ++ b ++ c) off n = unle b := by
  subst ha hb
  rw [fieldAt, slice_of_le (by simp), List.append_assoc, List.drop_left, List.take_left]

theorem fieldAt_withCrc {l : List Byte} {off n : Nat} (hlen : 60 ≤ l.length) (h : off + n ≤ 60) : fieldAt (withCrc l) off n = fieldAt l off n := by
  have hpad : pad 60 l = l.take 60 := by simp [pad, hlen]
  have hbound : off + n ≤ (l.take 60).length := by
    rw [List.length_take]
    omega
  rw [withCrc, hpad, Tests.fieldAt_left _ _ _ _ hbound, ← Tests.fieldAt_left _ (l.drop 60) _ _ hbound, List.take_append_drop]

/-- The direction put into a flit leaves every field but ORIGIN. -/
theorem fieldAt_patch_origin {l : List Byte} (b : Byte) {off n : Nat} (hlen : 2 ≤ l.length) (h : 2 ≤ off ∨ off = 0 ∧ n = 1) :
    fieldAt (patch l 1 [b]) off n = fieldAt l off n := by
  match l, hlen with
  | x :: y :: l, _ =>
    have hpatch : patch (x :: y :: l) 1 [b] = x :: b :: l := by simp [patch]
    rw [hpatch]
    rcases h with h | ⟨rfl, rfl⟩
    · obtain ⟨k, rfl⟩ := Nat.exists_eq_add_of_le' h
      rfl
    · rfl

/-- The 60 bytes of a message before its CRC (R384). -/
def messageBytes (s : State) (kind cls : Nat) (seq : W32) (x : TS96) (flags : Nat) (body : List Byte) : List Byte :=
  [BitVec.ofNat 8 kind, BitVec.ofNat 8 s.brim.position, 0, BitVec.ofNat 8 cls] ++ le 4 seq.toNat ++ tsBytes x
    ++ le 8 0 ++ [BitVec.ofNat 8 (tbByte s (tbSample s kind x)), BitVec.ofNat 8 flags, 0, 0] ++ pad 28 body

section
variable (s : State) (kind cls : Nat) (seq : W32) (x : TS96) (flags : Nat) (body : List Byte) (p : Fin 4)

theorem tsBytes_length : (tsBytes x).length = 12 := le_length ..

theorem messageBytes_length : (messageBytes s kind cls seq x flags body).length = 60 := by simp [messageBytes, tsBytes_length]

/-- A flit that leaves on a port carries its message's fields. -/
theorem fieldAt_sent {off n : Nat} (hoff : 2 ≤ off ∨ off = 0 ∧ n = 1) (hend : off + n ≤ 60) :
    fieldAt (withDir p (message s kind cls seq x flags body)) off n = fieldAt (messageBytes s kind cls seq x flags body) off n := by
  have hmessage : (message s kind cls seq x flags body).length = 64 := by simp [message, withCrc]
  rw [withDir, fieldAt_withCrc (by simp [patch, hmessage]) hend, fieldAt_patch_origin _ (by omega) hoff]
  exact fieldAt_withCrc (messageBytes_length ..).ge hend

theorem flitKind_sent (hkind : kind < 256) : flitKind (withDir p (message s kind cls seq x flags body)) = kind := by
  have hfield : fieldAt (messageBytes s kind cls seq x flags body) 0 1 = unle [BitVec.ofNat 8 kind] := by
    simp only [messageBytes, List.append_assoc, List.cons_append]
    exact fieldAt_mid (a := []) (b := [BitVec.ofNat 8 kind]) _ rfl rfl
  rw [flitKind, fieldAt_sent (off := 0) (n := 1) (hoff := .inr ⟨rfl, rfl⟩) (hend := by decide), hfield]
  simpa [unle] using hkind

theorem flitSeq_sent : flitSeq (withDir p (message s kind cls seq x flags body)) = seq := by
  have hfield : fieldAt (messageBytes s kind cls seq x flags body) 4 4 = unle (le 4 seq.toNat) := by
    have hsplit : messageBytes s kind cls seq x flags body =
        [BitVec.ofNat 8 kind, BitVec.ofNat 8 s.brim.position, 0, BitVec.ofNat 8 cls] ++ le 4 seq.toNat ++ (tsBytes x ++ le 8 0
          ++ [BitVec.ofNat 8 (tbByte s (tbSample s kind x)), BitVec.ofNat 8 flags, 0, 0] ++ pad 28 body) := by
      simp only [messageBytes, List.append_assoc]
    rw [hsplit]
    exact fieldAt_mid _ rfl (le_length ..)
  rw [flitSeq, fieldAt_sent (hoff := .inl (by decide)) (hend := by decide), hfield, unle_le]
  exact BitVec.eq_of_toNat_eq (by rw [BitVec.toNat_ofNat]; omega)

theorem flitT_sent : flitT (withDir p (message s kind cls seq x flags body)) = x := by
  have hfield : fieldAt (messageBytes s kind cls seq x flags body) 8 12 = unle (tsBytes x) := by
    have hsplit : messageBytes s kind cls seq x flags body =
        ([BitVec.ofNat 8 kind, BitVec.ofNat 8 s.brim.position, 0, BitVec.ofNat 8 cls] ++ le 4 seq.toNat) ++ tsBytes x ++ (le 8 0
          ++ [BitVec.ofNat 8 (tbByte s (tbSample s kind x)), BitVec.ofNat 8 flags, 0, 0] ++ pad 28 body) := by
      simp only [messageBytes, List.append_assoc]
    rw [hsplit]
    exact fieldAt_mid _ (by rw [List.length_append, le_length]; rfl) (tsBytes_length x)
  rw [flitT, fieldAt_sent (hoff := .inl (by decide)) (hend := by decide), hfield, tsBytes, unle_le]
  exact BitVec.eq_of_toNat_eq (by rw [BitVec.toNat_ofNat]; omega)

/-- A TS96 that begins the BODY. -/
theorem flitBody_sent_ts (y : TS96) : flitBody (withDir p (message s kind cls seq x flags (tsBytes y))) 0x20 12 = y.toNat := by
  have hpad : pad 28 (tsBytes y) = tsBytes y ++ List.replicate 16 0 := by simp [pad, tsBytes_length]
  have hfield : fieldAt (messageBytes s kind cls seq x flags (tsBytes y)) 0x20 12 = unle (tsBytes y) := by
    rw [messageBytes, hpad, ← List.append_assoc]
    exact fieldAt_mid _ (by simp [tsBytes_length]) (tsBytes_length y)
  rw [flitBody, fieldAt_sent (hoff := .inl (by decide)) (hend := by decide), hfield, tsBytes, unle_le]
  exact Nat.mod_eq_of_lt y.isLt

end

end Sys2Proof.Machine
end
section
/-!
SUPPORT: states of the Brim links and of the ring (R382, R402), and the counters of R406.
-/
namespace Sys2Proof.Machine

/-- What holds of every entry of a vector. -/
theorem all_toList_iff {α : Type} {n : Nat} (v : Vector α n) (f : α → Bool) : v.toList.all f = true ↔ ∀ i : Fin n, f v[i] = true := by
  rw [List.all_eq_true]
  refine ⟨fun h i => h _ (Vector.mem_toList_iff.mpr (Vector.getElem_mem _)), fun h x hx => ?_⟩
  obtain ⟨i, hi, rfl⟩ := Vector.getElem_of_mem (Vector.mem_toList_iff.mp hx)
  exact h ⟨i, hi⟩

/-- `t` differs from `s` in that the Brim block is `b`, and in events. -/
def BrimIs (s : State) (b : Brim) (t : State) : Prop := Safety.Quiet { s with brim := b } t

section
variable {s t u : State} {b : Brim}

theorem BrimIs.refl (s : State) : BrimIs s s.brim s := rfl

theorem BrimIs.brim_eq (h : BrimIs s b t) : t.brim = b := by rw [h]

theorem BrimIs.quiet (h : BrimIs s b t) (k : Safety.Quiet t u) : BrimIs s b u := quiet_trans h k

theorem BrimIs.onlyBrim (h : BrimIs s b t) : OnlyBrim s t := by
  have hb := h.brim_eq
  subst hb
  exact h

theorem BrimIs.trans {c : Brim} (h : BrimIs s b t) (k : BrimIs t c u) : BrimIs s c u := by
  unfold BrimIs Safety.Quiet at *
  rw [k, h]

theorem BrimIs.updBrim (h : BrimIs s b t) (f : Brim → Brim) : BrimIs s (f b) (updBrim f t) := by
  have hb := h.brim_eq
  subst hb
  exact h.trans rfl

theorem BrimIs.raiseNow (h : BrimIs s b t) (src : Fin 256) (sev : Nat) (data : List Byte) : BrimIs s b (raiseNow src sev data t) :=
  h.quiet (raiseNow_quiet ..)

/-! ### The ring (R402) -/

theorem toRing_is (r : RingState) (cause : Nat) (s : State) : BrimIs s { s.brim with ring := r } (toRing r cause s) := by
  unfold toRing
  split
  · next h =>
    have hr : s.brim.ring = r := beq_iff_eq.mp (Bool.and_eq_true_iff.mp h).1
    rw [← hr]
    exact .refl s
  · exact ((BrimIs.refl s).updBrim _).raiseNow ..

/-- What the ring's state becomes as links and dark sites change. -/
def settled (b : Brim) : RingState :=
  if b.ring = .formed ∨ b.ring = .degraded then (if ringWhole b then .formed else .degraded) else b.ring

theorem settleRing_is (s : State) : BrimIs s { s.brim with ring := settled s.brim } (settleRing s) := by
  unfold settleRing
  split
  · next h =>
    rw [settled, if_pos (.inl h)]
    split
    · rw [← h]
      exact .refl s
    · exact toRing_is ..
  · next h =>
    rw [settled, if_pos (.inr h)]
    split
    · exact toRing_is ..
    · rw [← h]
      exact .refl s
  · next hformed hdegraded =>
    rw [settled, if_neg (not_or.mpr ⟨hformed, hdegraded⟩)]
    exact .refl s

theorem markDark_is (s : State) : ∃ sites, BrimIs s { s.brim with sites := sites } (markDark s) := by
  unfold markDark
  extract_lets n down
  split
  · exact ⟨_, .refl s⟩
  · exact ⟨_, (BrimIs.refl s).updBrim _⟩

/-- The ring settles after a change of a link. -/
theorem settleRing_markDark_is (s : State) : ∃ sites, BrimIs s { s.brim with sites := sites, ring := settled { s.brim with sites := sites } }
    (settleRing (markDark s)) := by
  obtain ⟨sites, hdark⟩ := markDark_is s
  have hsettled := settleRing_is (markDark s)
  rw [hdark.brim_eq] at hsettled
  exact ⟨sites, hdark.trans hsettled⟩

theorem raiseLink_quiet (p : Fin 4) (sev state cause : Nat) (s : State) : Safety.Quiet s (raiseLink p sev state cause s) := raiseNow_quiet ..

/-! ### Counters (R237, R406) -/

theorem brimCount_is (i : Fin 6) (k : Nat) (s : State) :
    ∃ ovf, BrimIs s { s.brim with counters := upd s.brim.counters i fun c => statAdd c k, ovf := ovf } (brimCount i k s) := by
  unfold brimCount
  dsimp only
  split
  · exact ⟨_, ((BrimIs.refl s).updBrim _).raiseNow ..⟩
  · exact ⟨_, (BrimIs.refl s).updBrim _⟩

theorem statAdd_one (c : Nat) : statAdd c 1 = min (2 ^ 64 - 1) (c + 1) := rfl

end

end Sys2Proof.Machine
end
section
/-!
SUPPORT and the proof of O57: Brim links, retransmission and delay exchanges (R74, R382, R383, R385, R386, R388, R402).
-/
namespace Sys2Proof.Machine

section
variable {p : Fin 4} {s : State}

/-! ### Links up and down (R382) -/

theorem linkUp_iff : linkUp s p = true ↔ (s.brim.links[p]).state = .up := beq_iff_eq

theorem linkUp_eq_false_iff : linkUp s p = false ↔ (s.brim.links[p]).state ≠ .up := beq_eq_false_iff_ne

theorem brimLinkUp_rises (hdown : linkUp s p = false) :
    let t := brimLinkUp p s
    t.brim.links = upd s.brim.links p (fun x => { x with state := .up }) ∧
      (s.brim.ring = .alone ∨ s.brim.ring = .forming → t.brim.ring = .forming) ∧ OnlyBrim s t := by
  let risen := raiseLink p sevNotice 2 0 (updLink p (fun l => { l with state := .up }) s)
  have hrisen : BrimIs s { s.brim with links := upd s.brim.links p fun x => { x with state := .up } } risen := raiseLink_quiet ..
  obtain ⟨r, hr, hforming⟩ : ∃ r, BrimIs s { s.brim with links := upd s.brim.links p fun x => { x with state := .up }, ring := r }
      (if risen.brim.ring == .alone then toRing .forming 0 risen else risen) ∧
      (s.brim.ring = .alone ∨ s.brim.ring = .forming → r = .forming) := by
    have hring := toRing_is .forming 0 risen
    rw [hrisen.brim_eq] at hring
    rw [hrisen.brim_eq]
    split
    · exact ⟨.forming, hrisen.trans hring, fun _ => rfl⟩
    · next h => exact ⟨s.brim.ring, hrisen, fun h' => h'.resolve_left (fun h'' => h (beq_iff_eq.mpr h''))⟩
  obtain ⟨sites, hsettled⟩ := settleRing_markDark_is (if risen.brim.ring == .alone then toRing .forming 0 risen else risen)
  rw [hr.brim_eq] at hsettled
  have ht := hr.trans hsettled
  intro t
  have htdef : t = settleRing (markDark (if risen.brim.ring == .alone then toRing .forming 0 risen else risen)) :=
    if_neg (Bool.eq_false_iff.mp hdown)
  rw [htdef]
  refine ⟨congrArg Brim.links ht.brim_eq, fun h => ?_, ht.onlyBrim⟩
  rw [ht.brim_eq, hforming h]
  rfl

/-- A link as it goes DOWN. -/
def lost (l : BrimLink) : BrimLink := { l with state := .down, kept := [], abandoned := [], sentT1 := none, samples := [] }

theorem lost_state (l : Vector BrimLink 4) : ((upd l p lost)[p]).state = .down := congrArg BrimLink.state (upd_get ..)

theorem lost_other (l : Vector BrimLink 4) {q : Fin 4} (h : q ≠ p) : (upd l p lost)[q] = l[q] := upd_get_ne _ _ _ _ h

/-- After the loss of a link the others decide whether the member is alone. -/
theorem all_down_iff (l : Vector BrimLink 4) :
    ((upd l p lost).toList.all fun x => x.state == .down) = true ↔ ∀ q : Fin 4, q ≠ p → (l[q]).state = .down := by
  rw [all_toList_iff]
  refine ⟨fun h q hq => ?_, fun h q => ?_⟩
  · rw [← lost_other l hq]
    exact beq_iff_eq.mp (h q)
  · rw [beq_iff_eq]
    by_cases hq : q = p
    · rw [hq]
      exact lost_state l
    · rw [lost_other l hq]
      exact h q hq

theorem settled_lost {b : Brim} (h : (b.links[p]).state = .down) (hformed : b.ring = .formed) : settled b = .degraded := by
  have hnot : ringWhole b = false := by
    rw [Bool.eq_false_iff]
    intro hwhole
    have hup := (all_toList_iff b.links _).mp (Bool.and_eq_true_iff.mp hwhole).1 p
    rw [beq_iff_eq, h] at hup
    exact absurd hup (by decide)
  rw [settled, if_pos (.inl hformed), hnot]
  rfl

theorem brimLinkDown_falls {gaveUp : Bool} (hstate : (s.brim.links[p]).state ≠ .down) (h64 : gaveUp = true → gaveUp64 p s = true) :
    let t := brimLinkDown p gaveUp s
    t.brim.links = upd s.brim.links p lost ∧
      ((∀ q : Fin 4, q ≠ p → (s.brim.links[q]).state = .down) → t.brim.ring = .alone) ∧
      ((∃ q : Fin 4, q ≠ p ∧ (s.brim.links[q]).state ≠ .down) → s.brim.ring = .formed → t.brim.ring = .degraded) ∧ OnlyBrim s t := by
  let fallen := if linkUp s p then raiseLink p sevWarning 0 (if gaveUp then 1 else 0) (updLink p lost s) else updLink p lost s
  have hfallen : BrimIs s { s.brim with links := upd s.brim.links p lost } fallen := by
    unfold fallen
    split
    · exact raiseLink_quiet ..
    · rfl
  have hcond : ¬ ((s.brim.links[p]).state == .down || (gaveUp && !gaveUp64 p s)) = true := by
    rw [beq_false_of_ne hstate, Bool.false_or, Bool.and_eq_true_iff]
    rintro ⟨hgave, hnot⟩
    rw [h64 hgave] at hnot
    exact absurd hnot (by decide)
  intro t
  have ht : t = if fallen.brim.links.toList.all fun l => l.state == .down then toRing .alone 0 fallen else settleRing (markDark fallen) :=
    if_neg hcond
  rw [ht, hfallen.brim_eq]
  dsimp only
  split
  · next hall =>
    have halone := toRing_is .alone 0 fallen
    rw [hfallen.brim_eq] at halone
    have hring := hfallen.trans halone
    refine ⟨congrArg Brim.links hring.brim_eq, fun _ => congrArg Brim.ring hring.brim_eq, ?_, hring.onlyBrim⟩
    rintro ⟨q, hq, hup⟩
    exact absurd ((all_down_iff _).mp hall q hq) hup
  · next hall =>
    obtain ⟨sites, hsettled⟩ := settleRing_markDark_is fallen
    rw [hfallen.brim_eq] at hsettled
    have hring := hfallen.trans hsettled
    refine ⟨congrArg Brim.links hring.brim_eq, fun h => absurd ((all_down_iff _).mpr h) hall, fun _ hformed => ?_, hring.onlyBrim⟩
    rw [hring.brim_eq]
    exact settled_lost (p := p) (lost_state _) hformed

theorem brimLinkDown_stays {gaveUp : Bool} (h : (s.brim.links[p]).state = .down ∨ (gaveUp = true ∧ gaveUp64 p s = false)) :
    brimLinkDown p gaveUp s = s := by
  refine if_pos ?_
  rcases h with h | ⟨hgave, hnot⟩
  · rw [beq_iff_eq.mpr h]
    rfl
  · rw [hgave, hnot]
    exact Bool.or_true _

/-! ### Retransmission (R383) -/

theorem retransmit_all (i : Nat) (h : ∀ k ∈ (s.brim.links[p]).kept, k.2.2 < 3 ∧ lcNow s ≤ k.2.1 + keepLc s) :
    retransmit p i s = updLink p (fun x => { x with
      sent := (((s.brim.links[p]).kept.reverse.drop i).map (·.1)).reverse ++ x.sent
      kept := ((s.brim.links[p]).kept.reverse.take i ++ ((s.brim.links[p]).kept.reverse.drop i).map
        fun (k : List Byte × Nat × Nat) => (k.1, k.2.1, k.2.2 + 1)).reverse }) s := by
  have hagain : ∀ k ∈ (s.brim.links[p]).kept.reverse.drop i, (decide (k.2.2 < 3) && decide (lcNow s ≤ k.2.1 + keepLc s)) = true := fun k hk => by
    simpa using h k (List.mem_reverse.mp (List.mem_of_mem_drop hk))
  unfold retransmit
  dsimp only
  rw [List.filter_eq_self.mpr hagain, List.map_congr_left fun k hk => if_pos (hagain k hk)]

theorem retransmit_none (i : Nat) (h : ∀ k ∈ (s.brim.links[p]).kept, 3 ≤ k.2.2 ∨ k.2.1 + keepLc s < lcNow s) : retransmit p i s = s := by
  have hagain : ∀ k ∈ (s.brim.links[p]).kept.reverse.drop i, ¬ (decide (k.2.2 < 3) && decide (lcNow s ≤ k.2.1 + keepLc s)) = true :=
    fun k hk => by
      have := h k (List.mem_reverse.mp (List.mem_of_mem_drop hk))
      simp only [Bool.and_eq_true, decide_eq_true_eq]
      omega
  unfold retransmit
  dsimp only
  rw [List.filter_eq_nil_iff.mpr hagain, List.map_congr_left fun k hk => if_neg (hagain k hk), List.map_id', List.take_append_drop,
    List.reverse_reverse]
  refine congrArg (fun l => { s with brim := { s.brim with links := l } }) (upd_id _ _ _ ?_)
  rfl

theorem flitAbandon_counts (p : Fin 4) (s : State) :
    let t := brimCount 5 1 (updLink p (fun l => { l with kept := l.kept.dropLast, abandoned := (lcNow s :: l.abandoned).take 64 }) s)
    t.brim.counters[(5 : Fin 6)] = min (2 ^ 64 - 1) (s.brim.counters[(5 : Fin 6)] + 1) ∧
      t.brim.links = upd s.brim.links p (fun x => { x with kept := x.kept.dropLast, abandoned := (lcNow s :: x.abandoned).take 64 }) ∧
      Safety.Quiet { s with brim := { s.brim with links := t.brim.links, counters := t.brim.counters, ovf := t.brim.ovf } } t := by
  intro t
  obtain ⟨ovf, ht⟩ := brimCount_is 5 1 (updLink p (fun l => { l with kept := l.kept.dropLast, abandoned := (lcNow s :: l.abandoned).take 64 }) s)
  have hb : t.brim = _ := ht.brim_eq
  rw [hb]
  exact ⟨(upd_get ..).trans (statAdd_one _), rfl, ht⟩

/-! ### Delay exchanges (R388) -/

theorem sendOn_other {q : Fin 4} (f : List Byte) (hq : q ≠ p) : (sendOn p f s).brim.links[q] = s.brim.links[q] := by
  unfold sendOn
  split
  · exact upd_get_ne _ _ _ _ hq
  · rfl

theorem sendOn_sentT1 (f : List Byte) : ((sendOn p f s).brim.links[p]).sentT1 = (s.brim.links[p]).sentT1 := by
  unfold sendOn
  split
  · exact (congrArg BrimLink.sentT1 (upd_get ..)).trans rfl
  · rfl

/-- DELAY_REQ as it leaves (R388). -/
def delayRequest (p : Fin 4) (s : State) : State :=
  linkMessage p 0x05 (egressStamp s).1 [] (updLink p (fun l => { l with sentT1 := some (egressStamp s).1 }) (egressStamp s).2)

theorem delayRequest_sent (hup : linkUp s p = true) : ∃ f, ((delayRequest p s).brim.links[p]).sent = f :: (s.brim.links[p]).sent ∧
    flitKind f = 0x05 ∧ ((delayRequest p s).brim.links[p]).sentT1 = some (flitT f) := by
  let v := updLink p (fun l => { l with sentT1 := some (egressStamp s).1 }) (egressStamp s).2
  have hv : v.brim.links[p] = { s.brim.links[p] with sentT1 := some (egressStamp s).1 } := upd_get ..
  have hupv : linkUp (fresh v).2 p = true := linkUp_iff.mpr ((congrArg BrimLink.state hv).trans (linkUp_iff.mp hup))
  have hsentv : ((fresh v).2.brim.links[p]).sent = (s.brim.links[p]).sent := (congrArg BrimLink.sent hv : _)
  refine ⟨_, (sendOn_sent _ hupv).trans (congrArg (_ :: ·) hsentv), flitKind_sent _ _ _ _ _ _ _ _ (by decide), ?_⟩
  rw [flitT_sent]
  exact (sendOn_sentT1 _).trans (congrArg BrimLink.sentT1 hv)

theorem delayRequest_other {q : Fin 4} (hq : q ≠ p) : (delayRequest p s).brim.links[q] = s.brim.links[q] :=
  (sendOn_other _ hq).trans (upd_get_ne _ _ _ _ hq)

theorem delayRequest_onlySends : OnlySends s (delayRequest p s) :=
  .trans (egressStamp_onlySends s) (.trans (updLink_onlySends ..) (linkMessage_onlySends ..))

/-- DELAY_RESP as it leaves (R388). -/
def delayAnswer (rx : Rx) (s : State) : State := linkMessage rx.link 0x06 (egressStamp s).1 (tsBytes rx.arrival) (egressStamp s).2

theorem delayAnswer_sent {rx : Rx} (hup : linkUp s rx.link = true) :
    ∃ f, ((delayAnswer rx s).brim.links[rx.link]).sent = f :: (s.brim.links[rx.link]).sent ∧ flitKind f = 0x06 ∧
      flitBody f 0x20 12 = rx.arrival.toNat :=
  ⟨_, sendOn_sent (s := (fresh (egressStamp s).2).2) _ hup, flitKind_sent _ _ _ _ _ _ _ _ (by decide), flitBody_sent_ts ..⟩

theorem delayAnswer_onlySends (rx : Rx) : OnlySends s (delayAnswer rx s) := .trans (egressStamp_onlySends s) (linkMessage_onlySends ..)

end

/-- Settles O57. -/
theorem brimLinks : Obligations.BrimLinks := by
  intro p s hlive
  have hexec : ∀ {c : Instr} {t u : State}, exec c s = whenLive s (.next t) → t = u → exec c s = .next u :=
    fun h htu => h.trans ((whenLive_live hlive _).trans (congrArg _ htu))
  refine ⟨fun hstate hband => ?_, fun h => ?_, fun gaveUp => ⟨fun hstate h64 => ?_, fun h => hexec rfl (brimLinkDown_stays h)⟩,
    fun hband => ?_, fun hdown hband => ?_, fun hdown => ?_, fun i => ⟨fun hdown => ?_, fun hup hall => ?_, fun hup hnone => ?_⟩,
    ⟨_, whenLive_live hlive _, flitAbandon_counts p s⟩, fun hup => ?_, fun hdown => ?_, fun rx hrx hlen => ?_⟩
  · exact ⟨_, hexec rfl (if_neg (Bool.eq_false_iff.mp hband)), brimLinkUp_rises (linkUp_eq_false_iff.mpr hstate)⟩
  · refine hexec rfl ?_
    split
    · rfl
    · next hband => exact if_pos (linkUp_iff.mpr (h.resolve_right hband))
  · exact ⟨_, hexec rfl rfl, brimLinkDown_falls hstate h64⟩
  · exact hexec rfl (if_neg (Bool.eq_false_iff.mp ((congrArg (_ && !·) hband).trans (Bool.and_false _))))
  · exact hexec rfl (if_pos (Bool.and_eq_true_iff.mpr ⟨beq_iff_eq.mpr hdown, congrArg (!·) hband⟩))
  · exact hexec rfl (if_neg (Bool.eq_false_iff.mp (congrArg (· && _) (beq_false_of_ne hdown))))
  · exact hexec rfl (if_neg (Bool.eq_false_iff.mp hdown))
  · exact hexec rfl ((if_pos hup).trans (retransmit_all i hall))
  · exact hexec rfl ((if_pos hup).trans (retransmit_none i hnone))
  · obtain ⟨f, hsent, hkind, ht1⟩ := delayRequest_sent hup
    exact ⟨delayRequest p s, f, (whenLive_live hlive _).trans (if_pos hup), hsent, hkind, ht1, fun q hq => delayRequest_other hq,
      delayRequest_onlySends⟩
  · exact (whenLive_live hlive _).trans (if_neg (Bool.eq_false_iff.mp hdown))
  · subst hrx
    have hwf : WellFormed.instr (.delayReq rx) = true := beq_iff_eq.mpr hlen
    have hreq : exec (.delayReq rx) s = if linkUp s rx.link && crcOk rx.flit then .next (delayAnswer rx s) else .next s :=
      (whenLive_live hlive _).trans (if_pos hwf)
    have hresp : exec (.delayResp rx) s = .next (delayResp rx s) := (whenLive_live hlive _).trans (if_pos hwf)
    refine ⟨fun h => ⟨hreq.trans (if_neg (not_received h)), hresp.trans (congrArg _ (if_neg (not_received h)))⟩, fun hup hcrc => ?_⟩
    have hgot : (linkUp s rx.link && crcOk rx.flit) = true := by rw [hup, hcrc]; rfl
    refine ⟨?_, fun hnone => hresp.trans (congrArg _ ?_), fun t1 ht1 => hresp.trans (congrArg _ ?_)⟩
    · obtain ⟨f, hsent, hkind, hbody⟩ := delayAnswer_sent hup
      exact ⟨delayAnswer rx s, f, hreq.trans (if_pos hgot), hsent, hkind, hbody, delayAnswer_onlySends rx⟩
    · unfold delayResp
      rw [if_pos hgot, hnone]
    · unfold delayResp
      rw [if_pos hgot, ht1]

end Sys2Proof.Machine
end
section
/-!
SUPPORT and the proof of O58: flooded messages (R383, R387, R391, R395 to R397, R400).
-/
namespace Sys2Proof.Machine

/-! ### EPOCH and STOP (R391, R400) -/

section
variable {rx : Rx} {table : DupTable} {s : State}

/-- The table of a flit's origin with its key recorded. -/
def recorded (rx : Rx) (table : DupTable) (s : State) : Vector (Option DupTable) 64 :=
  s.brim.dup.set (flitOrigin rx.flit).val (some table)

theorem passedOn_is (rx : Rx) (table : DupTable) (s : State) :
    ∃ links, BrimIs s { s.brim with links := links, dup := recorded rx table s } (passedOn rx table s) := by
  obtain ⟨links, ctr, h⟩ := passedOn_links (rx := rx) (table := table) s
  rw [h]
  exact ⟨links, rfl⟩

theorem checkAligned_is (s : State) : BrimIs s { s.brim with aligned := isAligned s } (checkAligned s) := checkAligned_quiet s

theorem epochMessage_records (hlink : linkUp s rx.link = true) (hcrc : crcOk rx.flit = true)
    (hnew : dupCheck s.brim.dup[flitOrigin rx.flit] (flitSeq rx.flit) = some table) :
    let t := epochMessage rx s
    t.brim.dup = recorded rx table s ∧
      t.brim.peers = upd s.brim.peers (flitOrigin rx.flit) (fun x => { x with epoch := flitTb rx.flit % 4 }) ∧ OnlyBrim s t := by
  obtain ⟨links, hon⟩ := passedOn_is rx table s
  have haligned := checkAligned_is (updPeer (flitOrigin rx.flit) (fun p => { p with epoch := flitTb rx.flit % 4 }) (passedOn rx table s))
  have ht := (hon.updBrim fun b => { b with peers := upd b.peers (flitOrigin rx.flit) fun p => { p with epoch := flitTb rx.flit % 4 } }).trans haligned
  intro t
  have htake : t = checkAligned (updPeer (flitOrigin rx.flit) (fun p => { p with epoch := flitTb rx.flit % 4 }) (passedOn rx table s)) :=
    flooded_takes _ hlink hcrc hnew
  rw [htake]
  refine ⟨?_, ?_, ht.onlyBrim⟩
  all_goals rw [ht.brim_eq, updPeer, hon.brim_eq]

/-- The sequencers of the mask as a STOP flit stops them (R400). -/
def stopByFlit (rx : Rx) (s : State) : State :=
  raiseStop true (flitOrigin rx.flit).val (bit (flitFlags rx.flit) 0) (flitT rx.flit) (stopEach 5 false (maskAs s.brim.stopMask.toNat) s)

theorem Stops.brim {t : State} (h : Stops s t) : t.brim = s.brim := by rw [h.only]

theorem stopByFlit_dup (rx : Rx) (s : State) : (stopByFlit rx s).brim.dup = s.brim.dup := by
  have hquiet : Safety.Quiet (stopEach 5 false (maskAs s.brim.stopMask.toNat) s) (stopByFlit rx s) := raiseStop_quiet ..
  rw [hquiet]
  exact congrArg Brim.dup (stopEach_stops ..).brim

theorem stopByFlit_seq (rx : Rx) (s : State) (a : Fin 4) :
    (stopByFlit rx s).seqs[a] = (stopEach 5 false (maskAs s.brim.stopMask.toNat) s).seqs[a] := seq_of_quiet (raiseStop_quiet ..) a

theorem stopByFlit_stopped {a : Fin 4} (ha : a ∈ maskAs s.brim.stopMask.toNat) (harmed : armed s.seqs[a] = true) :
    let q := (stopByFlit rx s).seqs[a]
    q.state = .idle ∧ q.stopAt = some (commitSample s) ∧ q.openSeg = none := by
  have hstopped := stopEach_stopped (cause := 5) (after := false) (maskAs_nodup _) ha harmed rfl
  dsimp only
  rw [stopByFlit_seq]
  exact ⟨hstopped.state, hstopped.stopAt, hstopped.openSeg⟩

theorem stopByFlit_stays {a : Fin 4} (h : a ∉ maskAs s.brim.stopMask.toNat ∨ armed s.seqs[a] = false) :
    let t := stopByFlit rx s
    t.seqs[a] = { s.seqs[a] with stopEvent := (t.seqs[a]).stopEvent } := by
  dsimp only
  rw [stopByFlit_seq]
  rcases h with hout | hidle
  · rw [stopEach_other 5 false hout]
  · exact (stopEach_not_armed (maskAs_nodup _) hidle).1

end

/-! ### The import of a trigger (R395 to R397) -/

theorem reportImport_is (s : State) : ∃ reported at_, BrimIs s { s.brim with reported := reported, importAt := at_ } (reportImport s) := by
  unfold reportImport
  extract_lets due now
  split
  · exact ⟨_, _, ((BrimIs.refl s).updBrim _).raiseNow ..⟩
  · exact ⟨_, _, .refl s⟩

theorem importCount_is (i : Fin 6) (k : Nat) (s : State) : ∃ ovf reported at_, BrimIs s { s.brim with
    counters := upd s.brim.counters i fun c => statAdd c k, ovf := ovf, reported := reported, importAt := at_ } (importCount i k s) := by
  obtain ⟨ovf, hcount⟩ := brimCount_is i k s
  obtain ⟨reported, at_, hreport⟩ := reportImport_is (brimCount i k s)
  rw [hcount.brim_eq] at hreport
  exact ⟨ovf, reported, at_, hcount.trans hreport⟩

theorem sourceEvent_only (src : Nat) (x : TS96) (place : PlaceFlags) (remote : Bool) (due : Nat) (s : State) :
    sourceEvent src x place remote due s = { s with tus := (sourceEvent src x place remote due s).tus } := by
  refine forAll_keeps (fun t => t = { s with tus := t.tus }) _ s (fun u t h => ?_) rfl
  split
  · split
    · unfold found updTu
      rw [h]
    · exact h
  · exact h

theorem presentTrigger_only (cls : Nat) (x : TS96) (s : State) :
    presentTrigger cls x s = { s with tus := (presentTrigger cls x s).tus } := by
  unfold presentTrigger
  exact sourceEvent_only ..

section
variable {s : State} {cls : Nat} {x arrival : TS96} {tbSet sameFs : Bool}

/-- A trigger from a peer that agrees is judged by its margin, the least of which is kept (R395). -/
def marginNoted (x arrival : TS96) (s : State) : State :=
  let ns := marginNs s (tsDiff x arrival + lsysUnits s)
  updBrim (fun b => { b with marginMin := if ns.toInt < b.marginMin.toInt then ns else b.marginMin }) s

/-- The import counter `i` has counted one more trigger in `t`; the queue, the tables of R387 and the trigger units are as in `s`. -/
structure Counted (i : Fin 6) (s t : State) : Prop where
  queue : t.brim.queue = s.brim.queue
  dup : t.brim.dup = s.brim.dup
  counter : t.brim.counters[i] = min (2 ^ 64 - 1) (s.brim.counters[i] + 1)
  tus : t.tus = s.tus

theorem importCount_counted (i : Fin 6) (s : State) : Counted i s (importCount i 1 s) := by
  obtain ⟨ovf, reported, at_, h⟩ := importCount_is i 1 s
  refine ⟨(congrArg Brim.queue h.brim_eq : _), (congrArg Brim.dup h.brim_eq : _), ?_, by rw [h]⟩
  rw [h.brim_eq]
  exact (upd_get ..).trans (statAdd_one _)

theorem Counted.of_noted {i : Fin 6} {t : State} (h : Counted i (marginNoted x arrival s) t) : Counted i s t := ⟨h.queue, h.dup, h.counter, h.tus⟩

section
variable (hfew : s.brim.tooMany = false)
include hfew

theorem importTrigger_rejects (hnot : ¬ (tbSet && s.tb.state == .set && sameFs) = true) :
    Counted 2 s (importTrigger cls x arrival tbSet sameFs s) := by
  unfold importTrigger
  rw [if_neg (Bool.eq_false_iff.mp hfew), if_pos (by rwa [Bool.not_eq_true', ← Bool.not_eq_true])]
  exact importCount_counted ..

section
variable (hagrees : (tbSet && s.tb.state == .set && sameFs) = true)
include hagrees

theorem importTrigger_agrees : importTrigger cls x arrival tbSet sameFs s =
    if 0 ≤ tsDiff x arrival + lsysUnits s then
      if 32768 ≤ s.brim.queue.length then importCount 4 1 (marginNoted x arrival s)
      else updBrim (fun b => { b with queue := b.queue ++ [{ cls := cls, t := x, late := false }] }) (marginNoted x arrival s)
    else if tooOld (marginNoted x arrival s) x then importCount 1 1 (marginNoted x arrival s)
    else presentTrigger cls x (importCount 0 1 (marginNoted x arrival s)) := by
  unfold importTrigger
  rw [if_neg (Bool.eq_false_iff.mp hfew), if_neg (by rw [hagrees]; decide)]
  rfl

theorem importTrigger_queues (hmargin : 0 ≤ tsDiff x arrival + lsysUnits s) (hroom : s.brim.queue.length < 32768) :
    importTrigger cls x arrival tbSet sameFs s =
      updBrim (fun b => { b with queue := b.queue ++ [{ cls := cls, t := x, late := false }] }) (marginNoted x arrival s) := by
  rw [importTrigger_agrees hfew hagrees, if_pos hmargin, if_neg (by omega)]

theorem importTrigger_full (hmargin : 0 ≤ tsDiff x arrival + lsysUnits s) (hfull : 32768 ≤ s.brim.queue.length) :
    Counted 4 s (importTrigger cls x arrival tbSet sameFs s) := by
  rw [importTrigger_agrees hfew hagrees, if_pos hmargin, if_pos hfull]
  exact (importCount_counted ..).of_noted

theorem importTrigger_drops (hmargin : tsDiff x arrival + lsysUnits s < 0) (hold : tooOld s x = true) :
    Counted 1 s (importTrigger cls x arrival tbSet sameFs s) := by
  rw [importTrigger_agrees hfew hagrees, if_neg (by omega), if_pos (c := tooOld (marginNoted x arrival s) x = true) hold]
  exact (importCount_counted ..).of_noted

theorem importTrigger_late (hmargin : tsDiff x arrival + lsysUnits s < 0) (hheld : tooOld s x = false) :
    let t := importTrigger cls x arrival tbSet sameFs s
    t.brim.queue = s.brim.queue ∧ t.brim.dup = s.brim.dup ∧ t.brim.counters[(0 : Fin 6)] = min (2 ^ 64 - 1) (s.brim.counters[(0 : Fin 6)] + 1) := by
  have hcounted := (importCount_counted 0 (marginNoted x arrival s)).of_noted
  dsimp only
  rw [importTrigger_agrees hfew hagrees, if_neg (by omega), if_neg (c := tooOld (marginNoted x arrival s) x = true) (Bool.eq_false_iff.mp hheld),
    presentTrigger_only]
  exact ⟨hcounted.queue, hcounted.dup, hcounted.counter⟩

end

theorem importTrigger_dup : (importTrigger cls x arrival tbSet sameFs s).brim.dup = s.brim.dup := by
  by_cases hagrees : (tbSet && s.tb.state == .set && sameFs) = true
  · by_cases hmargin : 0 ≤ tsDiff x arrival + lsysUnits s
    · by_cases hfull : 32768 ≤ s.brim.queue.length
      · exact (importTrigger_full hfew hagrees hmargin hfull).dup
      · rw [importTrigger_queues hfew hagrees hmargin (by omega)]
        rfl
    · cases hold : tooOld s x with
      | true => exact (importTrigger_drops hfew hagrees (by omega) hold).dup
      | false => exact (importTrigger_late hfew hagrees (by omega) hold).2.1
  · exact (importTrigger_rejects hfew hagrees).dup

end

end

/-! ### Queued triggers presented (R395) -/

/-- The earlier of two queued triggers, the first at a tie. -/
def earlier (best : Option Import) (m : Import) : Option Import :=
  match best with
  | none => some m
  | some b => if tsDiff m.t b.t < 0 then some m else best

theorem earlier_eq (best : Option Import) (m : Import) : earlier best m = some m ∨ earlier best m = best ∧ best ≠ none := by
  cases best with
  | none => exact .inl rfl
  | some b =>
    by_cases h : tsDiff m.t b.t < 0
    · exact .inl (if_pos h)
    · exact .inr ⟨if_neg h, Option.some_ne_none b⟩

theorem foldl_earlier_some (l : List Import) (b : Import) : ∃ w, l.foldl earlier (some b) = some w ∧ (w = b ∨ w ∈ l) := by
  induction l generalizing b with
  | nil => exact ⟨b, rfl, .inl rfl⟩
  | cons m l ih =>
    rcases earlier_eq (some b) m with h | ⟨h, -⟩
    · obtain ⟨w, hw, hmem⟩ := ih m
      exact ⟨w, (congrArg (l.foldl earlier) h).trans hw, .inr (hmem.elim (fun e => e ▸ List.mem_cons_self ..) (List.mem_cons_of_mem _))⟩
    · obtain ⟨w, hw, hmem⟩ := ih b
      exact ⟨w, (congrArg (l.foldl earlier) h).trans hw, hmem.imp_right (List.mem_cons_of_mem _)⟩

theorem foldl_earlier_mem {l : List Import} {m : Import} (hm : m ∈ l) : ∃ w ∈ l, l.foldl earlier none = some w := by
  match l, hm with
  | b :: l, _ =>
    obtain ⟨w, hw, hmem⟩ := foldl_earlier_some l b
    exact ⟨w, List.mem_cons.mpr hmem, hw⟩

/-- The instant at which a queued trigger is presented is being taken (R395). -/
def importDue (s : State) (m : Import) : Bool := decide (tsDiff m.t (tsOf s (takenSample s + 39)) + lsysUnits s ≤ 0)

/-- A queued trigger leaves the queue as it is presented. -/
def presentQueued (s : State) (m : Import) : State := presentTrigger m.cls m.t (updBrim (fun b => { b with queue := b.queue.erase m }) s)

theorem exec_triggerPresent {s : State} (hlive : live s = true) : exec .triggerPresent s =
    match (s.brim.queue.filter (importDue s)).foldl earlier none with
    | some m => .next (presentQueued s m)
    | none => .next s := whenLive_live hlive _

theorem brim_of_only_tus {s t : State} {b : Brim} (h : t = { ({ s with brim := b } : State) with tus := t.tus }) :
    t.brim = b ∧ t = { s with brim := t.brim, tus := t.tus } := by
  have hb : t.brim = b := by rw [h]
  subst hb
  exact ⟨rfl, h⟩

theorem presentQueued_only (s : State) (w : Import) : let t := presentQueued s w
    t.brim = { s.brim with queue := s.brim.queue.erase w } ∧ t = { s with brim := t.brim, tus := t.tus } :=
  brim_of_only_tus (presentTrigger_only w.cls w.t (updBrim (fun b => { b with queue := b.queue.erase w }) s))

/-- A peer's trigger is taken where its TB shows SET, as this member's does, and its FS_KHZ agrees (R396). -/
theorem agrees_iff {tb : Nat} {e : EpochState} {valid : Bool} {fs own : W32} :
    (tb % 4 == 2 && e == .set && (valid && fs == own)) = true ↔ tb % 4 = 2 ∧ e = .set ∧ valid = true ∧ fs = own := by
  simp only [Bool.and_eq_true, beq_iff_eq, and_assoc]

/-- Settles O58. -/
theorem floodedMessages : Obligations.FloodedMessages := by
  intro rx s hlive hlen
  have hwf : ∀ {c : Instr} {t : State}, exec c s = (whenLive s <| if WellFormed.flit rx then .next t else .fault .illFormed) → exec c s = .next t :=
    fun h => h.trans ((whenLive_live hlive _).trans (if_pos (beq_iff_eq.mpr hlen)))
  extract_lets f o x agrees margin
  refine ⟨fun hout => ?_, fun table hlink hcrc hnew => ⟨?_, ?_, fun hmany => ?_, fun hfew => ?_⟩, fun hlater => ?_, fun m hm hdue => ?_⟩
  · have hno : ∀ take, flooded rx take s = s := fun take => by
      rcases hout with hlink | hcrc | hdup
      · exact flooded_not_received take (.inl hlink)
      · exact flooded_not_received take (.inr hcrc)
      · exact flooded_duplicate take hdup
    refine ⟨(hwf rfl).trans (congrArg _ ?_), (hwf rfl).trans (congrArg _ (hno _)), (hwf rfl).trans (congrArg _ (hno _)),
      (hwf rfl).trans (congrArg _ (hno _))⟩
    split
    · rfl
    · exact hno _
  · exact ⟨_, hwf rfl, epochMessage_records hlink hcrc hnew⟩
  · obtain ⟨links, ctr, hon⟩ := passedOn_links (rx := rx) (table := table) s
    refine ⟨stopByFlit rx (passedOn rx table s), (hwf rfl).trans (congrArg _ (flooded_takes _ hlink hcrc hnew)), ?_, ?_, ?_⟩
    · rw [stopByFlit_dup, hon]
    · rw [hon]
      exact fun a ha harmed => stopByFlit_stopped ha harmed
    · rw [hon]
      exact fun a h => stopByFlit_stays h
  · exact (hwf rfl).trans (congrArg _ (if_pos hmany))
  · obtain ⟨links, ctr, hon⟩ := passedOn_links (rx := rx) (table := table) s
    let u : State := { s with brim := { s.brim with links := links, dup := recorded rx table s }, freeCtr := ctr }
    have hfewu : u.brim.tooMany = false := hfew
    refine ⟨importTrigger (flitClass f % 16) (flitT f) rx.arrival (flitTb f % 4 == 2) (x.valid && x.fsKhz == BitVec.ofNat 32 s.clk.fsKhzNow) u,
      (hwf rfl).trans (congrArg _ ?_), importTrigger_dup hfewu, fun hnot => ?_, fun hagrees hmargin hroom => ?_, fun hagrees hmargin hfull => ?_,
      fun hagrees hmargin => ?_⟩
    · rw [if_neg (Bool.eq_false_iff.mp hfew), flooded_takes _ hlink hcrc hnew, hon]
      rfl
    · have h := importTrigger_rejects (cls := flitClass f % 16) (x := flitT f) (arrival := rx.arrival) hfewu (mt agrees_iff.mp hnot)
      exact ⟨h.queue, h.tus, h.counter⟩
    · rw [importTrigger_queues hfewu (agrees_iff.mpr hagrees) hmargin hroom]
      exact ⟨rfl, rfl⟩
    · have h := importTrigger_full (cls := flitClass f % 16) hfewu (agrees_iff.mpr hagrees) hmargin hfull
      exact ⟨h.queue, h.counter⟩
    · cases hold : tooOld s (flitT f) with
      | true =>
        have h := importTrigger_drops (cls := flitClass f % 16) hfewu (agrees_iff.mpr hagrees) hmargin hold
        exact ⟨h.queue, fun _ => ⟨h.tus, h.counter⟩, nofun⟩
      | false =>
        obtain ⟨hqueue, -, hcounter⟩ := importTrigger_late (cls := flitClass f % 16) hfewu (agrees_iff.mpr hagrees) hmargin hold
        exact ⟨hqueue, nofun, fun _ => hcounter⟩
  · have hnone : s.brim.queue.filter (importDue s) = [] := List.filter_eq_nil_iff.mpr fun m hm h => by
      have hbefore := of_decide_eq_true h
      have hafter := hlater m hm
      omega
    rw [exec_triggerPresent hlive, hnone]
    rfl
  · obtain ⟨w, hw, hfirst⟩ := foldl_earlier_mem (List.mem_filter.mpr ⟨hm, decide_eq_true hdue⟩ : m ∈ s.brim.queue.filter (importDue s))
    obtain ⟨hmem, hwdue⟩ := List.mem_filter.mp hw
    refine ⟨presentQueued s w, w, ?_, hmem, of_decide_eq_true hwdue, presentQueued_only s w⟩
    rw [exec_triggerPresent hlive, hfirst]

end Sys2Proof.Machine
end
section
/-!
SUPPORT: what a flooded message of this member leaves on its links (R386, R387).
-/
namespace Sys2Proof.Machine

section
variable {s : State} {p : Fin 4}

/-- Every UP link carries its own copy. -/
theorem foldl_sendOn_sent (g : Fin 4 → List Byte) {l : List (Fin 4)} (hnodup : l.Nodup) (hp : p ∈ l) (hup : linkUp s p = true) :
    ((l.foldl (fun s q => sendOn q (g q) s) s).brim.links[p]).sent = g p :: (s.brim.links[p]).sent := by
  have hother : ∀ (t : State) (q : Fin 4), q ≠ p → (sendOn q (g q) t).brim.links[p] = t.brim.links[p] := fun t q hq =>
    sendOn_other (g q) (Ne.symm hq)
  obtain ⟨t, -, hbefore, hturn, -⟩ := foldl_turn (p := (·.brim.links[p])) (r := fun _ _ => True) (fun _ => trivial) (fun _ _ => trivial)
    hnodup hp hother (fun _ _ => trivial) s
  have hupt : linkUp t p = true := linkUp_iff.mpr ((congrArg BrimLink.state hbefore).trans (linkUp_iff.mp hup))
  rw [hturn, sendOn_sent _ hupt, hbefore]

theorem forAll_sendOn_sent (g : Fin 4 → List Byte) (hup : linkUp s p = true) :
    ((forAll 4 (fun q s => sendOn q (g q) s) s).brim.links[p]).sent = g p :: (s.brim.links[p]).sent := by
  unfold forAll
  beta_reduce
  exact foldl_sendOn_sent (s := s) g (List.nodup_finRange 4) (List.mem_finRange p) hup

/-- The links and the tables of R387 are all that differs. -/
def OnlyFloods (s t : State) : Prop := t = { s with brim := { s.brim with links := t.brim.links, dup := t.brim.dup } }

theorem sendOn_onlyFloods (p : Fin 4) (f : List Byte) (s : State) : OnlyFloods s (sendOn p f s) := by
  unfold sendOn
  split <;> rfl

theorem OnlyFloods.trans {t u : State} (h : OnlyFloods s t) (k : OnlyFloods t u) : OnlyFloods s u := by
  unfold OnlyFloods at *
  rw [k, h]

variable (seq : W32) (kind cls : Nat) (x : TS96) (flags : Nat) (body : List Byte) (s)

/-- The key of a message of this member is recorded (R387). -/
def ownKey (seq : W32) (s : State) : State :=
  match dupCheck s.brim.dup[Fin.ofNat 64 s.brim.position] seq with
  | some d => recordKey (Fin.ofNat 64 s.brim.position) d s
  | none => s

theorem ownKey_onlyFloods : OnlyFloods s (ownKey seq s) := by
  unfold ownKey
  split <;> rfl

theorem ownKey_links : (ownKey seq s).brim.links = s.brim.links := by
  unfold ownKey
  split <;> rfl

theorem floodSeq_eq : floodSeq seq kind cls x flags body s =
    forAll 4 (fun q t => sendOn q (withDir q (message s kind cls seq x flags body)) t) (ownKey seq s) := rfl

theorem floodSeq_onlyFloods : OnlyFloods s (floodSeq seq kind cls x flags body s) :=
  forAll_keeps (OnlyFloods s) _ _ (fun _ _ h => h.trans (sendOn_onlyFloods ..)) (ownKey_onlyFloods s seq)

variable {s}

theorem floodSeq_sent (hkind : kind < 256) (hup : linkUp s p = true) : ∃ f,
    ((floodSeq seq kind cls x flags body s).brim.links[p]).sent = f :: (s.brim.links[p]).sent ∧ flitKind f = kind ∧ flitSeq f = seq := by
  have hlinks := ownKey_links s seq
  refine ⟨withDir p (message s kind cls seq x flags body), ?_, flitKind_sent (hkind := hkind) .., flitSeq_sent ..⟩
  rw [floodSeq_eq, forAll_sendOn_sent _ ((linkUp_of_links hlinks p).trans hup), hlinks]

/-- A message under the next number: the number moves on, and every UP link carries the flit. -/
theorem flood_sends (hkind : kind < 256) : let t := flood kind cls x flags body s
    t.brim.seq = nextSeq s.brim.seq ∧
      (∀ p : Fin 4, linkUp s p = true → ∃ f, (t.brim.links[p]).sent = f :: (s.brim.links[p]).sent ∧ flitKind f = kind ∧ flitSeq f = s.brim.seq) ∧
      t = { s with brim := t.brim } := by
  have honly := floodSeq_onlyFloods (updBrim (fun b => { b with seq := nextSeq b.seq }) s) s.brim.seq kind cls x flags body
  have hsent := fun p : Fin 4 => floodSeq_sent (s := updBrim (fun b => { b with seq := nextSeq b.seq }) s) (p := p) s.brim.seq kind cls x flags body hkind
  dsimp only
  rw [flood]
  generalize floodSeq s.brim.seq kind cls x flags body (updBrim (fun b => { b with seq := nextSeq b.seq }) s) = t at *
  refine ⟨?_, hsent, ?_⟩
  · rw [honly]
    rfl
  · rw [honly]
    rfl

end

end Sys2Proof.Machine
end
section
/-!
SUPPORT and the proof of O59: membership of the ring (R380, R385, R388, R389, R392, R402, R405).
-/
namespace Sys2Proof.Machine

section
variable {s : State}

/-! ### STATUS and DISCOVER sent (R385) -/

theorem onlyBrim_of_eq {t : State} (h : t = { s with brim := t.brim }) : OnlyBrim s t := by
  unfold OnlyBrim Safety.Quiet
  rw [h]

theorem egressStamp_quiet (s : State) : Safety.Quiet s (egressStamp s).2 := fresh_quiet s

theorem flood_sends_after {v : State} {aligned : Bool} (h : BrimIs s { s.brim with aligned := aligned } v) (kind cls : Nat) (x : TS96)
    (flags : Nat) (body : List Byte) (hkind : kind < 256) : let t := flood kind cls x flags body v
    t.brim.seq = nextSeq s.brim.seq ∧
      (∀ p : Fin 4, linkUp s p = true → ∃ f, (t.brim.links[p]).sent = f :: (s.brim.links[p]).sent ∧ flitKind f = kind ∧ flitSeq f = s.brim.seq) ∧
      OnlyBrim s t := by
  obtain ⟨hseq, hsent, honly⟩ := flood_sends (s := v) kind cls x flags body hkind
  have hlinks : v.brim.links = s.brim.links := by rw [h.brim_eq]
  rw [h.brim_eq] at hseq hsent
  exact ⟨hseq, fun p hup => hsent p ((linkUp_of_links hlinks p).trans hup), h.onlyBrim.trans (onlyBrim_of_eq honly)⟩

/-- STATUS as it leaves. -/
def sendStatus (s : State) : State :=
  flood 0x04 0 (egressStamp (checkAligned s)).1 0 (statusBody (egressStamp (checkAligned s)).2) (egressStamp (checkAligned s)).2

theorem sendStatus_sends (s : State) : let t := sendStatus s
    t.brim.seq = nextSeq s.brim.seq ∧
      (∀ p : Fin 4, linkUp s p = true → ∃ f, (t.brim.links[p]).sent = f :: (s.brim.links[p]).sent ∧ flitKind f = 0x04 ∧ flitSeq f = s.brim.seq) ∧
      OnlyBrim s t := by
  unfold sendStatus
  exact flood_sends_after ((checkAligned_is s).quiet (egressStamp_quiet _)) 0x04 0 (egressStamp (checkAligned s)).1 0
    (statusBody (egressStamp (checkAligned s)).2) (by decide)

/-- What a DISCOVER of this member carries (R384). -/
def discoverBody (s : State) : List Byte := ownSerial ++ [BitVec.ofNat 8 s.brim.sites.length, BitVec.ofNat 8 (linkStates s.brim)]

/-! ### STATUS received (R388, R389, R402, R405) -/

theorem settleSplit_is (s : State) : ∃ ring, BrimIs s { s.brim with ring := ring } (settleSplit s) := by
  unfold settleSplit
  split
  · have hsettled := settleRing_is (toRing .degraded 0 s)
    rw [(toRing_is ..).brim_eq] at hsettled
    exact ⟨_, (toRing_is ..).trans hsettled⟩
  · exact ⟨_, .refl s⟩

/-- The peer entry that a STATUS leaves (R405). -/
def statusPeer (rx : Rx) (s : State) (p : Peer) : Peer :=
  { p with
    offset := BitVec.ofInt 48 (unitsToFs s (tsDiff (flitT rx.flit) rx.arrival + flitCorr rx.flit + (s.brim.links[rx.link]).delay))
    hops := (flitHops rx.flit + 1) % 64, epoch := flitTb rx.flit % 4
    coasting := bit (flitTb rx.flit) 2, stale := false, valid := true, fsKhz := BitVec.ofNat 32 (flitBody rx.flit 0x20 4)
    agrees := (statusDiffers rx.flit s).isNone }

theorem takeStatus_is (rx : Rx) (s : State) : ∃ ring aligned, BrimIs s { s.brim with
    peers := upd s.brim.peers (flitOrigin rx.flit) (statusPeer rx s)
    cfgMismatch := s.brim.cfgMismatch || (statusDiffers rx.flit s).isSome, ring := ring, aligned := aligned } (takeStatus rx s) := by
  let noted := updPeer (flitOrigin rx.flit) (statusPeer rx s) s
  obtain ⟨u, hu, ht⟩ : ∃ u, BrimIs s { s.brim with
      peers := upd s.brim.peers (flitOrigin rx.flit) (statusPeer rx s)
      cfgMismatch := s.brim.cfgMismatch || (statusDiffers rx.flit s).isSome } u ∧ takeStatus rx s = checkAligned (settleSplit u) := by
    unfold takeStatus
    dsimp only
    cases hdiffers : statusDiffers rx.flit s with
    | none =>
      refine ⟨noted, ?_, ?_⟩
      · rw [Option.isSome_none, Bool.or_false]
        rfl
      · unfold noted statusPeer
        rw [hdiffers]
    | some k =>
      rw [Option.isSome_some, Bool.or_true]
      by_cases hmismatch : noted.brim.cfgMismatch = true
      · refine ⟨noted, ?_, ?_⟩
        · rw [← hmismatch]
          rfl
        · unfold noted statusPeer at *
          rw [hdiffers] at hmismatch ⊢
          dsimp only
          rw [if_pos hmismatch]
      · refine ⟨raiseConfig (flitOrigin rx.flit).val k (updBrim (fun b => { b with cfgMismatch := true }) noted), raiseNow_quiet .., ?_⟩
        unfold noted statusPeer at *
        rw [hdiffers] at hmismatch ⊢
        dsimp only
        rw [if_neg hmismatch]
  obtain ⟨ring, hring⟩ := settleSplit_is u
  have haligned := checkAligned_is (settleSplit u)
  rw [hring.brim_eq, hu.brim_eq] at haligned
  rw [hu.brim_eq] at hring
  exact ⟨ring, _, ht ▸ (hu.trans hring).trans haligned⟩

theorem statusMessage_takes {rx : Rx} {table : DupTable} (hlink : linkUp s rx.link = true) (hcrc : crcOk rx.flit = true)
    (hnew : dupCheck s.brim.dup[flitOrigin rx.flit] (flitSeq rx.flit) = some table) :
    let t := flooded rx (takeStatus rx) s
    let o := flitOrigin rx.flit
    (t.brim.peers[o]).valid = true ∧ (t.brim.peers[o]).stale = false ∧
        (t.brim.peers[o]).fsKhz = BitVec.ofNat 32 (flitBody rx.flit 0x20 4) ∧ (t.brim.peers[o]).epoch = flitTb rx.flit % 4 ∧
        (t.brim.peers[o]).agrees = (statusDiffers rx.flit s).isNone ∧
        t.brim.cfgMismatch = (s.brim.cfgMismatch || (statusDiffers rx.flit s).isSome) ∧
        (∀ k : Fin 64, k ≠ o → t.brim.peers[k] = s.brim.peers[k]) ∧ OnlyBrim s t := by
  intro t o
  obtain ⟨links, ctr, hon⟩ := passedOn_links (rx := rx) (table := table) s
  have hdiffers : statusDiffers rx.flit (passedOn rx table s) = statusDiffers rx.flit s := by
    rw [hon]
    rfl
  obtain ⟨ring, aligned, htaken⟩ := takeStatus_is rx (passedOn rx table s)
  rw [hdiffers] at htaken
  obtain ⟨links, honBrim⟩ := passedOn_is rx table s
  have ht := htaken
  rw [honBrim.brim_eq] at ht
  have htake : t = takeStatus rx (passedOn rx table s) := flooded_takes _ hlink hcrc hnew
  have hpeers : t.brim.peers = upd s.brim.peers o (statusPeer rx (passedOn rx table s)) := by
    rw [htake, ht.brim_eq]
  have hpeer : t.brim.peers[o] = statusPeer rx (passedOn rx table s) s.brim.peers[o] := by
    rw [hpeers]
    exact upd_get ..
  rw [hpeer]
  refine ⟨rfl, rfl, rfl, rfl, congrArg Option.isNone hdiffers, ?_, fun k hk => ?_, htake ▸ (honBrim.trans ht).onlyBrim⟩
  · rw [htake, ht.brim_eq]
  · rw [hpeers]
    exact upd_get_ne _ _ _ _ hk

/-! ### Stale peers (R389, R402) -/

theorem splitRing_is (b : Bool) (s : State) : ∃ ring, BrimIs s { s.brim with ring := ring } (if b then toRing .split 0 s else s) := by
  split
  · exact ⟨_, toRing_is ..⟩
  · exact ⟨_, .refl s⟩

theorem peerStale_marks {n : Fin 64} (hother : n.val ≠ s.brim.position) (hfresh : (s.brim.peers[n]).stale = false)
    (hvalid : (s.brim.peers[n]).valid = true) :
    let t := peerStale n s
    t.brim.peers = upd s.brim.peers n (fun x => { x with stale := true }) ∧ OnlyBrim s t := by
  intro t
  let marked := updPeer n (fun p => { p with stale := true }) s
  have hmark : BrimIs s marked.brim marked := rfl
  have hcond : ∀ l : Bool, ¬ (decide (n.val = s.brim.position) || (s.brim.peers[n]).stale || !((s.brim.peers[n]).valid || l)) = true := fun l => by
    rw [decide_eq_false hother, hfresh, hvalid, Bool.true_or]
    decide
  obtain ⟨b, ht⟩ : ∃ b : Bool, t = checkAligned (if b then toRing .split 0 marked else marked) := ⟨_, if_neg (hcond _)⟩
  obtain ⟨ring, hring⟩ := splitRing_is b marked
  have haligned := checkAligned_is (if b then toRing .split 0 marked else marked)
  rw [hring.brim_eq] at haligned
  have hmarked : BrimIs s _ t := ht ▸ (hmark.trans hring).trans haligned
  exact ⟨congrArg Brim.peers hmarked.brim_eq, hmarked.onlyBrim⟩

theorem peerStale_stays {n : Fin 64} (h : n.val = s.brim.position ∨ (s.brim.peers[n]).stale = true) : peerStale n s = s := by
  refine if_pos ?_
  rcases h with h | h
  · rw [decide_eq_true h]
    rfl
  · rw [h, Bool.or_true]
    rfl

/-! ### DISCOVER received (R402) -/

theorem takeDiscover_is (rx : Rx) (s : State) : ∃ links tooMany ring,
    BrimIs s { s.brim with links := links, tooMany := tooMany, ring := ring } (takeDiscover rx s) := by
  let far := if flitHops rx.flit = 0 then updLink rx.link (fun l => { l with farPos := (flitOrigin rx.flit).val }) s else s
  obtain ⟨links, hfar⟩ : ∃ links, BrimIs s { s.brim with links := links } far := by
    unfold far
    split
    · exact ⟨_, (BrimIs.refl s).updBrim fun b => { b with links := upd b.links rx.link fun l => { l with farPos := (flitOrigin rx.flit).val } }⟩
    · exact ⟨_, .refl s⟩
  have hforming : ∀ {u : State} {b : Brim}, BrimIs s b u → ∀ cause, BrimIs s { b with ring := .forming } (toRing .forming cause u) := fun {u b} h cause => by
    have hring := toRing_is .forming cause u
    rw [h.brim_eq] at hring
    exact h.trans hring
  unfold takeDiscover
  extract_lets _ f o u same
  have hu : BrimIs s { s.brim with links := links } u := hfar
  split
  · split
    · exact ⟨links, _, _, hu⟩
    · exact ⟨links, true, .forming, hforming (hu.updBrim fun b => { b with tooMany := true }) 1⟩
  · have hdiffers : ∃ links tooMany ring, BrimIs s { s.brim with links := links, tooMany := tooMany, ring := ring }
        (if same then u else toRing .forming 0 u) := by
      split
      · exact ⟨links, _, _, hu⟩
      · exact ⟨links, _, .forming, hforming hu 0⟩
    split
    · exact hdiffers
    · exact hdiffers
    · exact hdiffers
    · exact ⟨links, _, _, hu⟩

theorem floodedDiscover_is (rx : Rx) (s : State) : ∃ links tooMany ring dup,
    BrimIs s { s.brim with links := links, tooMany := tooMany, ring := ring, dup := dup } (flooded rx (takeDiscover rx) s) := by
  unfold flooded
  split
  · split
    · next table _ =>
      obtain ⟨links, hon⟩ := passedOn_is rx table s
      obtain ⟨links, tooMany, ring, htaken⟩ := takeDiscover_is rx (passedOn rx table s)
      rw [hon.brim_eq] at htaken
      exact ⟨links, tooMany, ring, _, hon.trans htaken⟩
    · exact ⟨_, _, _, _, .refl s⟩
  · exact ⟨_, _, _, _, .refl s⟩

/-- The serial of a DISCOVER's origin is taken, and its table begins anew where it was another one's (R387). -/
def noteSerial (rx : Rx) (s : State) : State :=
  if knownSerial s (flitOrigin rx.flit) == discoverSerial rx.flit then s
  else updPeer (flitOrigin rx.flit) (fun p => { p with serial := discoverSerial rx.flit })
    (if knownSerial s (flitOrigin rx.flit) == [] then s else updBrim (fun b => { b with dup := b.dup.set (flitOrigin rx.flit) none }) s)

theorem noteSerial_is (rx : Rx) (s : State) : ∃ dup, BrimIs s { s.brim with
    peers := upd s.brim.peers (flitOrigin rx.flit) fun x => { x with serial := discoverSerial rx.flit }, dup := dup } (noteSerial rx s) := by
  unfold noteSerial
  split
  · next hsame =>
    have hserial : (s.brim.peers[flitOrigin rx.flit]).serial = discoverSerial rx.flit := beq_iff_eq.mp hsame
    rw [upd_id _ _ _ (by rw [← hserial])]
    exact ⟨_, .refl s⟩
  · split
    · exact ⟨_, rfl⟩
    · exact ⟨_, rfl⟩

theorem discover_notes {rx : Rx} (hlink : linkUp s rx.link = true) (hcrc : crcOk rx.flit = true) :
    let t := discover rx s
    t.brim.peers = upd s.brim.peers (flitOrigin rx.flit) (fun x => { x with serial := discoverSerial rx.flit }) ∧ OnlyBrim s t := by
  intro t
  have ht : t = flooded rx (takeDiscover rx) (noteSerial rx s) := if_pos (by rw [hlink, hcrc]; rfl)
  obtain ⟨dup, hnoted⟩ := noteSerial_is rx s
  obtain ⟨links, tooMany, ring, dup, htaken⟩ := floodedDiscover_is rx (noteSerial rx s)
  rw [hnoted.brim_eq] at htaken
  have hall := hnoted.trans htaken
  rw [ht]
  exact ⟨congrArg Brim.peers hall.brim_eq, hall.onlyBrim⟩

/-! ### The ring forms (R380, R392, R402) -/

section
variable (list : List (List Byte × Bool))

theorem rotateSites_length : (rotateSites list).length = list.length := by
  rw [rotateSites, List.length_map, List.length_append, List.length_drop, List.length_take]
  omega

theorem rotateSites_all (f : Bool → Bool) : ((rotateSites list).all fun x => f x.dark) = list.all fun x => f x.2 := by
  have hsplit : list.all (fun x => f x.2) = (list.take (anchorIndex list) ++ list.drop (anchorIndex list)).all fun x => f x.2 := by
    rw [List.take_append_drop]
  rw [hsplit, rotateSites, List.all_map, List.all_append, List.all_append, Bool.and_comm]
  rfl

theorem checkLsys_is (s : State) : BrimIs s { s.brim with lsysShort := lsysTooShort s.brim s.brim.lsysNs } (checkLsys s) := by
  unfold checkLsys
  dsimp only
  split
  · exact ((BrimIs.refl s).updBrim _).raiseNow ..
  · exact (BrimIs.refl s).updBrim _

/-- Serial of a position in a site list, none of a dark site (R387). -/
def siteSerial (sites : List Site) (i : Nat) : List Byte :=
  match sites[i]? with
  | some x => if x.dark then [] else x.serial
  | none => []

/-- The Brim block as positions are assigned (R380, R387, R402). -/
def positioned (sites : List Site) (pos : Nat) (b : Brim) : Brim :=
  { b with
    sites := sites, position := pos, tooMany := false
    peers := Vector.ofFn fun i : Fin 64 => { Peer.reset with serial := siteSerial sites i.val }
    dup := Vector.ofFn fun i : Fin 64 => if (b.peers[i]).serial == siteSerial sites i.val then b.dup[i] else none
    links := Vector.ofFn fun p : Fin 4 => { b.links[p] with farPos := neighbour sites.length pos p } }

/-- FORMED where the ring is whole, else DEGRADED. -/
def formedRing (b : Brim) : RingState := if ringWhole b then .formed else .degraded

theorem ringFormed_is {pos : Nat} (hforming : s.brim.ring = .forming) (hmin : 2 ≤ list.length) (hmax : list.length ≤ 64)
    (hpos : ownPosition (rotateSites list) = some pos) : ∃ short aligned,
    short = decide (s.brim.lsysNs ≤ 400 * hDeg list.length) ∧
    BrimIs s { positioned (rotateSites list) pos s.brim with
      ring := formedRing (positioned (rotateSites list) pos s.brim), lsysShort := short, aligned := aligned } (ringFormed list s) := by
  let v := updBrim (positioned (rotateSites list) pos) s
  have ht : ringFormed list s = checkAligned (checkLsys (toRing (formedRing v.brim) 0 v)) := by
    unfold ringFormed
    rw [if_neg (not_or.mpr ⟨not_not.mpr hforming, by omega⟩), if_neg (by omega)]
    dsimp only
    rw [hpos]
    rfl
  have hv : BrimIs s v.brim v := rfl
  have hring := toRing_is (formedRing v.brim) 0 v
  have hlsys := checkLsys_is (toRing (formedRing v.brim) 0 v)
  have haligned := checkAligned_is (checkLsys (toRing (formedRing v.brim) 0 v))
  rw [hlsys.brim_eq, hring.brim_eq] at haligned
  rw [hring.brim_eq] at hlsys
  refine ⟨_, _, ?_, ht ▸ (hv.trans hring).trans (hlsys.trans haligned)⟩
  have hup : ringUp { v.brim with ring := formedRing v.brim } = true := by
    unfold ringUp formedRing
    dsimp only
    split <;> rfl
  rw [lsysTooShort, hup, Bool.true_and, ← rotateSites_length list]
  rfl

theorem positioned_link (sites : List Site) (pos : Nat) (b : Brim) (p : Fin 4) :
    (positioned sites pos b).links[p] = { b.links[p] with farPos := neighbour sites.length pos p } := Vector.getElem_ofFn ..

theorem positioned_peer (sites : List Site) (pos : Nat) (b : Brim) (n : Fin 64) :
    (positioned sites pos b).peers[n] = { Peer.reset with serial := siteSerial sites n.val } := Vector.getElem_ofFn ..

theorem ringWhole_positioned_iff (pos : Nat) : ringWhole (positioned (rotateSites list) pos s.brim) = true ↔
    (∀ p : Fin 4, linkUp s p = true) ∧ ∀ x ∈ list, x.2 = false := by
  rw [ringWhole, Bool.and_eq_true_iff, all_toList_iff]
  refine and_congr (forall_congr' fun p => ?_) ?_
  · rw [positioned_link]
    rfl
  · rw [show (positioned (rotateSites list) pos s.brim).sites = rotateSites list from rfl, rotateSites_all list (!·), List.all_eq_true]
    exact forall₂_congr fun x _ => Iff.of_eq (Bool.not_eq_true' _)

theorem ringFormed_tooMany (hforming : s.brim.ring = .forming) (hmany : 64 < list.length) :
    BrimIs s { s.brim with tooMany := true } (ringFormed list s) := by
  unfold ringFormed
  rw [if_neg (not_or.mpr ⟨not_not.mpr hforming, by omega⟩), if_pos hmany]
  split
  · next h =>
    rw [← h]
    exact .refl s
  · have hb : ({ s.brim with tooMany := true } : Brim) = { s.brim with tooMany := true, ring := .forming } := by rw [← hforming]
    rw [hb]
    exact ((BrimIs.refl s).updBrim fun b => { b with tooMany := true }).trans (toRing_is ..)

end

end

/-- Settles O59. -/
theorem ringMembership : Obligations.RingMembership := by
  intro s hlive
  have hexec : ∀ {c : Instr} {t u : State}, exec c s = whenLive s (.next t) → t = u → exec c s = .next u :=
    fun h htu => h.trans ((whenLive_live hlive _).trans (congrArg _ htu))
  refine ⟨fun hup => ⟨?_, fun hfirst => ?_, fun hlater => ?_⟩, fun hdown => ⟨?_, ?_⟩, fun rx table hlen hlink hcrc hnew => ?_,
    fun n hother hfresh hvalid => ⟨_, hexec rfl rfl, peerStale_marks hother hfresh hvalid⟩, fun n h => hexec rfl (peerStale_stays h),
    hexec rfl rfl, fun rx hlen => ?_, fun list hsites => ?_⟩
  · exact ⟨sendStatus s, (whenLive_live hlive _).trans (if_pos hup), sendStatus_sends s⟩
  · let v := updBrim (fun b => { b with discovered := true }) (egressStamp s).2
    have honly := floodSeq_onlyFloods v 0 0x07 0 (egressStamp s).1 0 (discoverBody s)
    have hsent := fun p : Fin 4 => floodSeq_sent (s := v) (p := p) 0 0x07 0 (egressStamp s).1 0 (discoverBody s) (by decide)
    have hexec' : exec .discoverSend s = .next (floodSeq 0 0x07 0 (egressStamp s).1 0 (discoverBody s) v) :=
      (whenLive_live hlive _).trans ((if_pos hup).trans (if_neg (Bool.eq_false_iff.mp hfirst)))
    generalize floodSeq 0 0x07 0 (egressStamp s).1 0 (discoverBody s) v = t at *
    refine ⟨t, hexec', ?_, ?_, hsent, ?_⟩
    all_goals
      rw [honly]
      rfl
  · obtain ⟨hseq, hsent, honly⟩ := flood_sends (s := (egressStamp s).2) 0x07 0 (egressStamp s).1 0 (discoverBody s) (by decide)
    refine ⟨flood 0x07 0 (egressStamp s).1 0 (discoverBody s) (egressStamp s).2,
      (whenLive_live hlive _).trans ((if_pos hup).trans (if_pos hlater)), hseq, hsent, ?_⟩
    generalize flood 0x07 0 (egressStamp s).1 0 (discoverBody s) (egressStamp s).2 = t at *
    rw [honly]
    rfl
  · exact (whenLive_live hlive _).trans (if_neg (Bool.eq_false_iff.mp hdown))
  · exact (whenLive_live hlive _).trans (if_neg (Bool.eq_false_iff.mp hdown))
  · exact ⟨_, (whenLive_live hlive _).trans (if_pos (beq_iff_eq.mpr hlen)), statusMessage_takes hlink hcrc hnew⟩
  · have hdiscover : exec (.discover rx) s = .next (discover rx s) := (whenLive_live hlive _).trans (if_pos (beq_iff_eq.mpr hlen))
    exact ⟨fun hout => hdiscover.trans (congrArg _ (if_neg (not_received hout))), fun hlink hcrc => ⟨_, hdiscover, discover_notes hlink hcrc⟩⟩
  · have hformed : exec (.ringFormed list) s = .next (ringFormed list s) := (whenLive_live hlive _).trans (if_pos hsites)
    refine ⟨fun h => hformed.trans (congrArg _ (if_pos h)), fun hforming hmany => ?_, fun pos hforming hmin hmax hpos => ?_⟩
    · have hmarked := ringFormed_tooMany list hforming hmany
      exact ⟨_, hformed, hmarked.brim_eq, hmarked.onlyBrim⟩
    · obtain ⟨short, aligned, hshort, ht⟩ := ringFormed_is list hforming hmin hmax hpos
      have hwhole := ringWhole_positioned_iff (s := s) list pos
      refine ⟨_, hformed, ?_⟩
      rw [ht.brim_eq]
      refine ⟨rfl, rfl, rfl, fun n => ?_, fun hup hlit => if_pos (hwhole.mpr ⟨hup, hlit⟩), fun h => if_neg fun hall => ?_, fun p => ?_, hshort, ?_⟩
      · dsimp only
        rw [positioned_peer]
        exact ⟨rfl, rfl⟩
      · obtain ⟨hup, hlit⟩ := hwhole.mp hall
        rcases h with ⟨p, hp⟩ | ⟨x, hx, hdark⟩
        · exact absurd (hup p) (Bool.eq_false_iff.mp hp)
        · exact absurd hdark (Bool.eq_false_iff.mp (hlit x hx))
      · dsimp only
        rw [positioned_link, rotateSites_length]
        exact ⟨rfl, rfl⟩
      · exact ht

end Sys2Proof.Machine
end
